-- ==== Sys2Proof/Word.lean ====
section
/-!
DEFINITION. The word and line types of the CA4800 (00_scope.md R8, R19; 01_architecture.md R50) and the table type that
every large store of the model uses.
-/
namespace Sys2Proof

/-- One byte. -/
abbrev Byte := BitVec 8
/-- A 16-bit word. -/
abbrev W16 := BitVec 16
/-- A 32-bit word. -/
abbrev W32 := BitVec 32
/-- A 64-bit word. -/
abbrev W64 := BitVec 64
/-- A host line, 64 B, byte 0 in the low bits (R8, R19). -/
abbrev HostLine := BitVec 512
/-- A front line, 256 B (R8). -/
abbrev FrontLine := BitVec 2048
/-- One bit per byte of a front line (R146). -/
abbrev ByteMask := BitVec 256
/-- A frame, 4 KiB (R8). -/
abbrev FrameData := BitVec 32768

/-- The ciphertext of a frame's eight data segments as its 16 codewords of 256 B, in order (R136, R216). -/
abbrev Cipher := List FrontLine
/-- A codeword without its LDPC parity: 256 B of ciphertext, then the 8 B metadata share (R223). -/
abbrev Codeword := BitVec 2112

/-- A sparse table: key and value pairs, keys strictly rising. -/
abbrev Tbl (α : Type) := List (Nat × α)

end Sys2Proof
end

