-- ==== Sys2Proof/Syntax.lean ====
section
/-!
DEFINITION. The commands of the CA4800: one constructor per row of the opcode table, with its operands. A mailbox or MCTP
command has its interface `cci` (2h and 2h + 1 the primary and secondary mailbox of head h, 8 SMBus, 9 I3C; R522) and, for a
vendor command, its payload bytes `inp` (R530); an event row has what the outside world decides.
-/
namespace Sys2Proof

/-- What a DRAM channel captures at a freeze besides cause, channel and time (Table 11-9). -/
structure FrostIn where
  subch : Nat
  rank : Nat
  bank : Nat
  row : Nat
  column : Nat
  syndrome : Nat
  temp : Nat
  /-- F_HISTORY and F_QUEUES -/
  tail : List Byte
deriving DecidableEq, Repr

/-- A media or back-cache read of one codeword: of the fill of a front line number, or an internal read by its number (R221). -/
inductive ReadId where
  | fill (line : Nat)
  | internal (n : Nat)
deriving DecidableEq, Repr

/-- What a start finds unreadable on the medium (R205, R253 to R255): checkpoint map frames, journal frames that decode in neither copy,
records that are not committed by REC_SEQ, image frames as DRAIN_SEQ × 2^32 + FRAME_NO, and checkpoint slots whose header does not
decode. -/
structure MediumFaults where
  maps : List Nat
  journal : List Nat
  torn : List Nat
  image : List Nat
  slots : List Nat
deriving DecidableEq, Repr

/-- What a DRAM read met (R241, R373, R32): nothing, a failing CHECK, a corrected error, an uncorrectable one, or an internal
parity error on the way from the channel controller. -/
inductive DramErr where
  | none
  | check
  | corrected (rank row column : Nat)
  | uncorrectable (f : FrostIn)
  | parity (f : FrostIn)
deriving DecidableEq, Repr

/-- Flit mode of a link (R60). -/
inductive FlitMode where
  | lo256 | std256 | flit68
deriving DecidableEq, Repr

/-- The address of an M2S request: a host physical address for the head's decoders (R74), or the DPA they give. -/
inductive HAddr where
  | hpa (a : Nat)
  | dpa (a : Nat)
deriving DecidableEq, Repr

/-- An internal parity error met by an M2S request (R32, Table 2-4): in data bytes, with the bytes of write data that are bad;
on the head's own path outside the data bytes; in the tag table or classifier state; in the key store; in the extent or tenant
table. -/
inductive MemErr where
  | none
  | data (bytes : W64)
  | path
  | tag
  | key
  | ext
deriving DecidableEq, Repr

/-- The part of a 64-bit BAR2 register that an access covers: 8 bytes, or the low or high 4 bytes (R106). -/
inductive RegPart where
  | whole | low | high
deriving DecidableEq, Repr

/-- A register write of a host that has no behaviour of its own (R24): a DVSEC dword (Table 2-7), an HDM decoder (R74) with
its commit bit, or a BAR2 register of the read-only windows (Table 2-8), or CV_SEED of a
check-value unit (Table 19-7). -/
inductive RegWrite where
  | dvsec (off : Fin 64) (value : W32)
  | decoder (n : Fin 8) (base size ways gran pos skip : Nat) (commit : Bool)
  | bar2 (off : Nat) (value : W64)
  | cvSeed (unit : Fin 8) (part : RegPart) (value : W64)
deriving DecidableEq, Repr

/-- What a hub request asks of its receiver (R36, R37). -/
inductive HubItem where
  /-- thermal level for pause insertion and dispatch (R502, R503), from the platform supervisor -/
  | thermalPause (level : Nat)
  /-- power request to the host supervisor: a head's link enters L1, or L1.2 (Table 1-4 row 1, R467) -/
  | power (head : Nat) (l12 : Bool)
  /-- a setting that a command of this opcode can change, with that command's payload (Tables 17-5 to 17-8) -/
  | setting (op : Nat) (payload : List (BitVec 8))
  /-- an item of Table 1-4, by row number, whose registers the manual does not describe, with its new value -/
  | item (row : Nat) (value : Nat)
deriving DecidableEq, Repr

/-- A request in the mailbox hub (R36). Nodes: 0 management, 1 host, 2 media, 3 fabric, 4 platform. -/
structure HubReq where
  sender : Nat
  receiver : Nat
  /-- R37: marked thermal or power -/
  marked : Bool
  item : HubItem
deriving DecidableEq, Repr

/-- What Set Alert Configuration does with a threshold (4202h). -/
inductive AlertSet where
  | keep
  | disable
  | enable (v : Int)
deriving DecidableEq, Repr

/-- What a training sweep of one package finds: for each byte lane and for the command lane, the settings that read back right,
the write lanes at the best VREF_DQ (R352). -/
structure TrainSweep where
  rd0 : BitVec 128
  rd1 : BitVec 128
  wr0 : BitVec 128
  wr1 : BitVec 128
  mca : BitVec 128
  vref : Fin 61
deriving DecidableEq, Repr

/-- A DIMM as its SPD describes it (R358, R359). -/
structure Dimm where
  /-- rated MT/s -/
  rate : Nat
  ranks : Nat
  gib : Nat
  /-- R358: a registered DIMM of x4 devices with ECC -/
  supported : Bool
deriving DecidableEq, Repr

/-- What a DRAM training finds for a byte lane: the read delays, write delays and read Vref steps that pass (R368). -/
structure DramLane where
  rd : BitVec 128
  wr : BitVec 128
  vref : BitVec 256
deriving DecidableEq, Repr

/-- What a lookup or the scrubber meets in the front cache SRAM (R147 to R149), at directory index 16 × set + way: nothing that
is not corrected, or a double-bit error in line data or in a field of the directory entry. -/
inductive FrontErr where
  | none
  | data (idx : Nat)
  | age (idx : Nat)
  | validOrDirty (idx : Nat)
  /-- field: 0 TAG, 1 TENANT, 2 LSTATE -/
  | tag (idx : Nat) (field : Fin 3)
deriving DecidableEq, Repr

/-- MSG_TYPE of a routed message (Table 12-4). -/
inductive MsgKind where
  | rd | specRd | wr | wrPtl | data | cmp
deriving DecidableEq, Repr

/-- A routed message (Tables 12-3 and 12-4). -/
structure FabMsg where
  kind : MsgKind
  /-- Table 12-3 VC -/
  vc : Nat
  dst : Nat
  src : Nat
  tag : Nat
  gen : Nat
  /-- Table 12-5 -/
  status : Nat
  poison : Bool
  devload : Nat
  eng : Bool
  resend : Bool
  pri : Bool
  /-- EPOCH_TAG -/
  epoch : Nat
  addr : Nat
  be : W64
  data : HostLine
deriving DecidableEq, Repr

/-- HELLO with its SRC_DEV (Table 12-6). -/
structure HelloMsg where
  src : Nat
  serial : Nat
  epoch : Nat
  digest : Nat
  port : Nat
  relayOk : Bool
  long : Bool
  narrow : Bool
  degraded : Bool
  seen : Nat
  lsaSeq : Nat
  helloMs : Nat
deriving DecidableEq, Repr

/-- A link of an LSA (Table 12-7). -/
structure FabLink where
  nbr : Nat
  nbrPort : Nat
  localPort : Nat
  long : Bool
  degraded : Bool
  narrow : Bool
deriving DecidableEq, Repr

/-- LSA (Table 12-7). -/
structure Lsa where
  origin : Nat
  age : Nat
  seq : Nat
  serial : Nat
  relayOk : Bool
  withdrawn : Bool
  links : List FabLink
deriving DecidableEq, Repr

/-- A message on a fabric link (Table 12-4). -/
inductive WireMsg where
  | routed (m : FabMsg)
  | hello (h : HelloMsg)
  | lsa (l : Lsa)
  | ack (origin seq serial : Nat)
deriving DecidableEq, Repr

/-- A flit (Table 12-2): `crcOk` false stands for a failed FLIT_CRC, a reserved FLIT_TYPE or a reserved MSG_TYPE (R393,
R402). -/
structure Flit where
  crcOk : Bool
  payload : Bool
  seq : Nat
  ackSeq : Nat
  nak : Bool
  /-- credit reports: class and cumulative slots -/
  credits : List (Nat × Nat)
  msgs : List WireMsg
deriving DecidableEq, Repr

/-- A frame on the service ring (Tables 13-2 and 13-3); `crcOk` false stands for a failed CRC. -/
structure RingFrame where
  typ : Nat
  ttl : Nat
  src : Nat
  dst : Nat
  rseq : Nat
  payload : List Byte
  crcOk : Bool
deriving DecidableEq, Repr

/-- The commands, one per row of the opcode table. -/
inductive Instr where
  /-- R68. A head receives an M2S MemRd, assigns a tag, classifies it and queues it for a read of one host line. -/
  | memRd (head : Fin 4) (addr : HAddr) (tag : Fin 65536) (err : MemErr)
  /-- R68. A head receives an M2S MemRdData, handled as a read of one host line. -/
  | memRdData (head : Fin 4) (addr : HAddr) (tag : Fin 65536) (err : MemErr)
  /-- R68. A head receives MemSpecRd, which starts a BULK fetch of the host line and produces no response. -/
  | memSpecRd (head : Fin 4) (addr : HAddr) (err : MemErr)
  /-- R71. A head receives a full host-line write, classifies it and returns Cmp on entry to the persistence domain or
    on discard. -/
  | memWr (head : Fin 4) (addr : HAddr) (tag : Fin 65536) (data : HostLine) (poison : Bool) (err : MemErr)
  /-- R70. A head receives a partial write that stores only the enabled bytes and sets their valid bits. -/
  | memWrPtl (head : Fin 4) (addr : HAddr) (tag : Fin 65536) (data : HostLine) (be : W64) (poison : Bool) (err : MemErr)
  /-- R69. A head receives any other M2S opcode, completes it with poison or discards it, and logs an event. -/
  | unsupportedM2sOpcode (head : Fin 4) (opcode : Fin 256) (tag : Fin 65536) (expectsData : Bool)
  /-- R126. At each dispatch slot the arbiter credits buckets and dispatches one head request at level 1 or level 2.
    -/
  | arbiterDispatchSlot (err : FrontErr)
  /-- R163. A write that waited for a victim or for budget is stored and acknowledged once cleaning frees room. -/
  | writeStallRelease
  /-- R85. A host signals viral on the link and only that head enters viral. -/
  | hostViralSignal (head : Fin 4)
  /-- R99. PERST_N asserts on a head and resets its link and non-RWS registers, keeping received writes. -/
  | perstNAssert (head : Fin 4)
  /-- R100. PERST_N is released on a head, starting its link and the Memory_Active timer. -/
  | perstNRelease (head : Fin 4)
  /-- R99. A hot reset of a head resets it as for PERST_N. -/
  | hotReset (head : Fin 4)
  /-- R99. A head's link goes down and the head resets as for PERST_N. -/
  | linkDown (head : Fin 4)
  /-- R62. A head's link trains and logs 9001h when it is not at 64 GT/s x16. -/
  | linkUp (head : Fin 4) (rate : Fin 65) (width : Fin 17) (flit : FlitMode)
  /-- R99. A CXL Reset clears the head's CXL.mem state and Memory_Active, keeping added extents. -/
  | cxlReset (head : Fin 4)
  /-- R99. A function-level reset resets only the head's CXL.io state. -/
  | functionLevelReset (head : Fin 4)
  /-- R86. A GPF Phase 1 request is answered within 1 us with no action. -/
  | gpfPhase1 (head : Fin 4)
  /-- R87. A GPF Phase 2 request starts the device drain and withholds credits on every head. -/
  | gpfPhase2 (head : Fin 4)
  /-- R93. A head detects an IDE MAC failure, discards the epoch's requests and enters the insecure state. -/
  | ideIntegrityFailure (head : Fin 4)
  /-- R92. An IDE.Start makes a refreshed key take effect without a pause in traffic. -/
  | ideStart (head : Fin 4)
  /-- R92. An IDE key-management message over the SPDM session programs IDE keys. -/
  | cxlIdeKm (head : Fin 4) (io : Bool) (key : Nat)
  /-- R106. A BAR2 access of an unsupported size or alignment completes with zeros or is ignored and logs an event. -/
  | bar2BadAccess (head : Fin 4) (off : Fin 536870912)
  /-- R24. A write to a register that has no behaviour of its own sets it according to its access code. -/
  | registerWrite (head : Fin 4) (reg : RegWrite)
  /-- R100. A head sets Memory_Active once the map is loaded, the front cache is enabled and its link is up. -/
  | memoryActiveSet (head : Fin 4)
  /-- R528. Identify returns the head's identity. -/
  | identify (cci : Fin 10)
  /-- R527. Returns the CCI's background operation opcode, progress and result. -/
  | backgroundOperationStatus (cci : Fin 10)
  /-- R528. Returns the MCTP response message limit. -/
  | getResponseMessageLimit (cci : Fin 10)
  /-- R528. Sets the MCTP response message limit between 256 B and 4,096 B. -/
  | setResponseMessageLimit (cci : Fin 10) (exponent : Nat)
  /-- R527. Aborts the CCI's abortable background operation, or completes with Busy when it is not abortable. -/
  | requestAbortBackgroundOperation (cci : Fin 10)
  /-- R94. Returns records from one of the head's event logs. -/
  | getEventRecords (cci : Fin 10) (log : Fin 5)
  /-- R94. Clears records from one of the head's event logs. -/
  | clearEventRecords (cci : Fin 10) (log : Fin 5) (all : Bool) (handles : List Nat)
  /-- R98. Returns the event interrupt policy of the head's logs. -/
  | getEventInterruptPolicy (cci : Fin 10)
  /-- R98. Sets the MSI-X interrupt policy of the head's event logs. -/
  | setEventInterruptPolicy (cci : Fin 10) (settings : List Nat)
  /-- R519. Reports the two slots, the active and staged slots and their revisions. -/
  | getFwInfo (cci : Fin 10)
  /-- R518. Writes a whole image into the target slot and verifies it. -/
  | transferFwFull (cci : Fin 10) (slot : Nat) (data : List (BitVec 8))
  /-- R518. Starts a multi-part transfer into a slot that is not active. -/
  | transferFwInitiate (cci : Fin 10) (slot : Nat) (data : List (BitVec 8))
  /-- R518. Writes the next in-order part of a transfer. -/
  | transferFwContinue (cci : Fin 10) (off : Nat) (data : List (BitVec 8))
  /-- R518. Writes the last part and verifies the image within 300 ms. -/
  | transferFwEnd (cci : Fin 10) (off : Nat) (data : List (BitVec 8))
  /-- R518. Abandons the transfer in progress and leaves the slot empty. -/
  | transferFwAbort (cci : Fin 10)
  /-- R518. A transfer with no part for 60 s is abandoned and its slot emptied. -/
  | fwTransferIdleTimeout
  /-- R519. Sets NEXT to the slot with TRIES 0 for the next cold reset. -/
  | activateFwCold (cci : Fin 10) (slot : Nat)
  /-- R519. Restarts the supervisors and cores on the new image one at a time in the background. -/
  | activateFwOnline (cci : Fin 10) (slot : Nat)
  /-- R519. A restarted supervisor misses its watchdog within 1 s and every restarted supervisor rolls back. -/
  | onlineActivationWatchdogFail
  /-- R457. Returns TB_NOW. -/
  | getTimestamp (cci : Fin 10)
  /-- R457. Sets, slews or steps the time base, sets TIME_SET and writes a TIME record. -/
  | setTimestamp (cci : Fin 10) (time : Nat)
  /-- R528. Returns the supported logs, the Command Effects Log only. -/
  | getSupportedLogs (cci : Fin 10)
  /-- R528. Returns the Command Effects Log. -/
  | getLog (cci : Fin 10) (log : Nat) (first count : Nat)
  /-- R528. Returns capacity E x 1 GiB and the grade. -/
  | identifyMemoryDevice (cci : Fin 10)
  /-- R293. Returns health status, media status, life used, error counts and the Dirty Shutdown Count. -/
  | getHealthInfo (cci : Fin 10)
  /-- R293. Returns the alert thresholds. -/
  | getAlertConfiguration (cci : Fin 10)
  /-- R293. Sets the life-used and device temperature warning thresholds. -/
  | setAlertConfiguration (cci : Fin 10) (life high low : AlertSet)
  /-- R206. Returns the host's stored shutdown state. -/
  | getShutdownState (cci : Fin 10)
  /-- R206. Stores the host's shutdown state in the cellar book. -/
  | setShutdownState (cci : Fin 10) (dirty : Bool)
  /-- R82. Reports poisoned front lines in a range of the head's added extents. -/
  | getPoisonList (cci : Fin 10) (dpa len : Nat)
  /-- R83. Marks the front line of a DPA poisoned with source Injected. -/
  | injectPoison (cci : Fin 10) (dpas : List Nat)
  /-- R83. Writes 64 B to a host line and zeros to the rest of the front line, clearing its poison. -/
  | clearPoison (cci : Fin 10) (dpa : Nat) (data : HostLine)
  /-- R529. Unassigns extents, zeroises keys, discards images and formats the medium. -/
  | sanitize (cci : Fin 10)
  /-- R528. Returns the head's dynamic capacity configuration. -/
  | getDynamicCapacityConfiguration (cci : Fin 10)
  /-- R80. Returns the head's added extents with a generation number. -/
  | getDynamicCapacityExtentList (cci : Fin 10) (start count : Nat)
  /-- R76. The host accepts or rejects a pending add, making the extent Added or Assigned. -/
  | addDynamicCapacityResponse (cci : Fin 10) (extent : Nat) (accept : Bool)
  /-- R78. The host releases an extent, which becomes Releasing and is trimmed. -/
  | releaseDynamicCapacity (cci : Fin 10) (extent : Nat)
  /-- R528. FM API command returning the multi-headed information. -/
  | getMultiHeadedInfo (cci : Fin 10)
  /-- R528. FM API command returning the dynamic capacity device information. -/
  | getDcdInfo (cci : Fin 10)
  /-- R528. FM API command returning a head's region configuration. -/
  | getHostDcRegionConfiguration (cci : Fin 10) (head : Nat)
  /-- R75. FM API command that changes region bases and lengths of regions holding no added extent. -/
  | setDcRegionConfiguration (cci : Fin 10) (head region base len : Nat)
  /-- R528. FM API command returning region extent lists. -/
  | getDcRegionExtentLists (cci : Fin 10) (head start count : Nat)
  /-- R114. FM API command that initiates an add of an Assigned extent and posts the Add Capacity record. -/
  | initiateDynamicCapacityAdd (cci : Fin 10) (head extent : Nat)
  /-- R528. FM API command that asks a host to release, or withdraws a pending add. -/
  | initiateDynamicCapacityRelease (cci : Fin 10) (head extent : Nat)
  /-- R26. A command with a reserved or unlisted opcode completes with Unsupported and has no effect. -/
  | unsupportedCommand (cci : Fin 10) (op : Nat)
  /-- R143. Returns extent entries of both banks and the derived state. -/
  | getExtentEntry (cci : Fin 10) (inp : List Byte)
  /-- R114. Records tenant, owner, accessor and profile, and with a head given initiates the add. -/
  | assignExtent (cci : Fin 10) (inp : List Byte)
  /-- R143. Returns an Assigned extent to Unassigned. -/
  | unassignExtent (cci : Fin 10) (inp : List Byte)
  /-- R111. Makes a Free tenant Active, binds the lowest free key slot and writes reset QoS into both banks. -/
  | createTenant (cci : Fin 10) (inp : List Byte)
  /-- R111. Zeroises and unbinds the slot, increments KEY_GEN and frees a tenant with no extents. -/
  | deleteTenant (cci : Fin 10) (inp : List Byte)
  /-- R129. Writes QoS words to the staged bank within the reservation limits. -/
  | setTenantProfile (cci : Fin 10) (inp : List Byte)
  /-- R143. Returns both banks of a tenant entry and the slot state. -/
  | getTenant (cci : Fin 10) (inp : List Byte)
  /-- R521. Returns the P-384 key-wrapping public key signed with the alias key. -/
  | getKeyWrappingPublicKey (cci : Fin 10) (inp : List Byte)
  /-- R134. Checks and unwraps a key blob, loads the slot and restores pending image entries. -/
  | loadTenantKey (cci : Fin 10) (inp : List Byte)
  /-- R179. Cleans and invalidates the tenant's lines, then zeroises the slot so its extents become Locked. -/
  | unloadTenantKey (cci : Fin 10) (inp : List Byte)
  /-- R139. Destroys the tenant's key at once and starts the background sweep and trim. -/
  | cryptoEraseTenant (cci : Fin 10) (inp : List Byte)
  /-- R139. The last extent of an erasing tenant is trimmed, the slot is freed and the tenant becomes Free. -/
  | cryptoEraseSweepDone (tenant : Fin 65536)
  /-- R113. A Releasing or Erasing extent finishes its trim and becomes Assigned or Unassigned. -/
  | releaseTrimDone (extent : Fin 241664)
  /-- R524. Sets a head's access level. -/
  | setHeadAccess (cci : Fin 10) (inp : List Byte)
  /-- R524. Returns the access level of every head. -/
  | getHeadAccess (cci : Fin 10) (inp : List Byte)
  /-- R116. Writes one class profile to the staged bank. -/
  | setClassProfile (cci : Fin 10) (inp : List Byte)
  /-- R116. Returns one class profile from both banks. -/
  | getClassProfile (cci : Fin 10) (inp : List Byte)
  /-- R143. Returns a flow queue's length, bucket levels, deficit and dispatch counts. -/
  | getFlowQueueState (cci : Fin 10) (inp : List Byte)
  /-- R143. Returns the reservation sums and limits for both banks. -/
  | getAdmissionTotals (cci : Fin 10) (inp : List Byte)
  /-- R122. After a swap, the copy of the active bank into the staged bank completes. -/
  | bankCopyDone
  /-- R182. Returns mode, budget, occupancy, counters, registers and directory entries. -/
  | getFrontCacheState (cci : Fin 10) (inp : List Byte)
  /-- R158. Sets one partition's way mask when it keeps at least 2 ways and full coverage. -/
  | setFrontCachePartition (cci : Fin 10) (inp : List Byte)
  /-- R165. Sets L2_DIRTY_LIMIT, MAX_DIRTY_AGE and COALESCE. -/
  | setDrainPolicy (cci : Fin 10) (inp : List Byte)
  /-- R176. Starts a walk that commits every dirty line in a local-address range. -/
  | cleanRange (cci : Fin 10) (inp : List Byte)
  /-- R176. Starts a walk that invalidates clean lines in a range and skips dirty ones. -/
  | invalidateRange (cci : Fin 10) (inp : List Byte)
  /-- R176. Starts a walk that cleans and then invalidates a range. -/
  | cleanAndInvalidateRange (cci : Fin 10) (inp : List Byte)
  /-- R173. Starts a walk that invalidates every clean line of the cache. -/
  | invalidateAll (cci : Fin 10) (inp : List Byte)
  /-- R177. A maintenance walk ends, records its counts and may set INV_ALL_DONE. -/
  | maintenanceWalkDone (n : Fin 8)
  /-- R174. Puts the front cache into Draining and completes when it reaches Off. -/
  | disableFrontCache (cci : Fin 10) (inp : List Byte)
  /-- R172. From Off with INV_ALL_DONE set, enters write-back or write-through by the budget. -/
  | enableFrontCache (cci : Fin 10) (inp : List Byte)
  /-- R530. Returns the last 8 maintenance operations and their results. -/
  | getMaintenanceResults (cci : Fin 10) (inp : List Byte)
  /-- R169. Draining finds no dirty line, invalidates every line and enters Off. -/
  | drainingComplete
  /-- R149. The scrubber reads data and directory in a FRONT lull and corrects single-bit errors. -/
  | frontScrubPass (err : FrontErr)
  /-- R164. The drain engine picks the next frame to clean by urgent, reserved and spare order. -/
  | drainEngineSelect (parity again : BitVec 16)
  /-- R166. The merge reads of a frame complete, and the frame is encrypted, parity-built and programmed. -/
  | mergeReadDone (asm : Nat) (parity again : BitVec 16)
  /-- R166. All nine segment programs of a frame succeed and its map update is journaled and committed. -/
  | frameProgramDone (asm : Nat)
  /-- R168. A segment program fails and the frame is reassembled to a new PFA. -/
  | frameProgramFail (asm : Nat)
  /-- R488. PWR_FAIL_N asserts, latching the power-fail condition and starting a drain. -/
  | pwrFailNAssert
  /-- R185. Two consecutive supply samples below SUPPLY_TRIP trip the monitor and start a drain. -/
  | supplyMonitorTrip (sample : Nat)
  /-- R187. The drain writes DRAIN_DONE and hands over to power-down or resumes admission. -/
  | drainComplete (vEnd : Nat)
  /-- R193. The bank reaches V_CUTOFF during a drain, no further frame is issued and DRAIN_ABORTED is written. -/
  | bankAtVCutoff
  /-- R184. The staging area is programmed to the journal at 32 frames or when its oldest record is 1 ms old. -/
  | stagingProgram
  /-- R198. The MEASURE_PERIOD timer starts a hold-up measurement by lowering the budget to the test budget. -/
  | holdupMeasureSchedule
  /-- R198. After LULL_WAIT the lowered budget forces cleaning for the measurement. -/
  | holdupLullWaitExpiry
  /-- R198. Occupancy is within the test budget, v0 is taken and HOLD_TEST is asserted. -/
  | holdTestAssert (v0 : Nat)
  /-- R198. After 50 ms HOLD_TEST falls and C and ESR are fitted and checked. -/
  | holdTestEnd (samples : List Nat)
  /-- R198. The bank is back within 1% of v0 or 10 s pass, and the budget is restored. -/
  | holdupRecoveryDone
  /-- R199. 60 s after a failed or abandoned measurement, the measurement repeats. -/
  | holdupRetry
  /-- R200. Every 1 ms usable energy is recomputed from the bank voltage. -/
  | energyRecompute (v : Nat)
  /-- R204. Returns the hold-up status of Table 5-7. -/
  | getHoldUpStatus (cci : Fin 10) (inp : List Byte)
  /-- R197. Sets the hold-up parameters of Table 5-5. -/
  | setHoldUpParameters (cci : Fin 10) (inp : List Byte)
  /-- R198. Starts a hold-up measurement in the background. -/
  | measureHoldUp (cci : Fin 10) (inp : List Byte)
  /-- R194. Returns the RUN and DRAIN_LAST records. -/
  | getDrainRecord (cci : Fin 10) (inp : List Byte)
  /-- R214. The map entry read from DRAM arrives and the fill proceeds by the map state. -/
  | mapEntryReadDone (line : Nat) (err : DramErr)
  /-- R218. A back-cache codeword arrives from DRAM, is decrypted and merged. -/
  | backCacheReadDone (rd : ReadId) (err : DramErr)
  /-- R222. A codeword read out is hard-decoded, and the fill completes or goes to reconstruction or the slow path. -/
  | codewordDecodeDone (rd : ReadId) (pos : Nat) (good : Bool) (up : List Nat) (dn : List Nat)
  /-- R225. A soft read completes and is soft-decoded, retried at the next offset, or the line is poisoned. -/
  | slowPathSoftReadDone (rd : ReadId) (pos : Nat) (good : Bool)
  /-- R152. A fill writes the invalid bytes, sets VALID and answers every waiting read. -/
  | fillComplete (line : Nat) (parity : Bool)
  /-- R217. A promotion read completes and the frame is installed in the back cache if its entry still matches. -/
  | promotionReadDone (lfa : Nat)
  /-- R219. The clock sweep evicts a slot, writing MEDIA to both map copies and quarantining it. -/
  | backCacheEvict
  /-- R219. A quarantined slot becomes Free after 10 us. -/
  | quarantineExpiry (slot : Nat)
  /-- R234. Returns read path counts, die depths and back-cache figures. -/
  | getReadPathState (cci : Fin 10) (inp : List Byte)
  /-- R234. Writes the back-cache policy register. -/
  | setBackCachePolicy (cci : Fin 10) (inp : List Byte)
  /-- R252. A checkpoint pass starts at 40% of the journal area or 3,600 s and commits CKPT_BEGIN. -/
  | checkpointPassStart
  /-- R251. The pass writes its header frame and commits CKPT_END. -/
  | checkpointPassEnd
  /-- R254. At start the map is loaded from the checkpoint and journal, tail frames and spill are replayed. -/
  | mapRecovery (f : MediumFaults)
  /-- R263. Once a copy region is thawed and refilled, affected entries are locked and rebuilt. -/
  | mapRebuildStart
  /-- R264. Rebuilt entries are written and the extents stop being affected. -/
  | mapRebuildDone (badMap : List Nat) (bad : List Nat)
  /-- R265. Segment 0 of every host-data frame is read to find the newest frame for each marked LFA. -/
  | frameMetadataScan (bad : List Nat)
  /-- R267. Returns an LFA's entry in each copy and optionally its frame metadata. -/
  | getMapEntry (cci : Fin 10) (inp : List Byte)
  /-- R267. Returns journal and checkpoint progress. -/
  | getJournalState (cci : Fin 10) (inp : List Byte)
  /-- R252. Starts a checkpoint pass in the background. -/
  | startCheckpoint (cci : Fin 10) (inp : List Byte)
  /-- R239. Selects map mirroring for the next start when DRAM allows. -/
  | setMapMirroring (cci : Fin 10) (inp : List Byte)
  /-- R267. Returns the rebuild state. -/
  | getRebuildState (cci : Fin 10) (inp : List Byte)
  /-- R271. The media supervisor refills a die set's share of the ready queue from its free pool. -/
  | readyQueueRefill (ds : Fin 512)
  /-- R275. A die set's busy slot frees and the scheduler starts the first waiting work by priority. -/
  | busySlotFree (ds : Fin 512)
  /-- R355. The controller reads STATUS of a programming or resetting die until ARRAY_BUSY clears. -/
  | programStatusPoll (die : Nat) (valid : Bool) (blank : Bool)
  /-- R355. A program or reset busy beyond its limit is a program failure or a die failure. -/
  | programOverrun (die : Nat)
  /-- R277. A die set below its start threshold selects a victim group and starts copying. -/
  | rackingStart (ds : Fin 512)
  /-- R258. A racking or topping copy's program succeeds. -/
  | rackingCopyDone (asm : Nat)
  /-- R227. Once no fill holds a PFA of the group, the scheduler starts a tile reset. -/
  | tileResetStart (g : Nat)
  /-- R258. The nine tile resets complete and the group is freed, substituted or retired. -/
  | tileResetDone (ds : Fin 512)
  /-- R279. A cycle spread above WEAR_SPREAD racks the least-worn Closed group. -/
  | wearLevelRacking
  /-- R280. A recovery read of an uncorrectable frame reads every codeword and moves the frame. -/
  | recoveryRead (lfa : Nat)
  /-- R289. On Critical entry and every 60 s, extents are withheld and release requests posted. -/
  | criticalWithhold
  /-- R290. With no group to open and a write waiting 50 us, the device enters Write-Locked. -/
  | writeLockedEntry
  /-- R292. Every 60 s and at drains the lifetime counts are written to spread counters. -/
  | healthCounterUpdate
  /-- R292. Returns Table 8-8. -/
  | getMediaHealth (cci : Fin 10) (inp : List Byte)
  /-- R296. Returns group table entries and the die set's thresholds. -/
  | getGroupInfo (cci : Fin 10) (inp : List Byte)
  /-- R286. Sets E for the next Format Media within its limits. -/
  | setOverProvisioning (cci : Fin 10) (inp : List Byte)
  /-- R287. Unmaps every entry, re-divides the metadata reserve and resets groups. -/
  | formatMedia (cci : Fin 10) (inp : List Byte)
  /-- R276. Sets the racking thresholds and weights. -/
  | setRelocationPolicy (cci : Fin 10) (inp : List Byte)
  /-- R296. Racks one Closed group at priority 5. -/
  | rackGroup (cci : Fin 10) (inp : List Byte)
  /-- R301. Each second every live group's weathering grows by its die set's acceleration factor. -/
  | weatheringTick
  /-- R302. Every 60 s and before low-power entry a DRIFT_CLOCK record is written. -/
  | driftClockWrite
  /-- R299. Each second a channel sequencer reads every package sensor with TEMP READ. -/
  | packageTempRead (ch : Fin 36) (temps : List (Option Int))
  /-- R309. At the end of a group's decode window each TRIM moves by the UP and DN counts. -/
  | trimWindowEnd (g : Nat)
  /-- R312. READ_COUNT crossing a multiple of 2^18 commits GROUP_READS. -/
  | groupReadsRecord
  /-- R313. Groups are evaluated for Due and Overdue topping. -/
  | toppingEvaluate
  /-- R315. The topping scheduler starts racking the lowest-margin due group into role-2 groups. -/
  | toppingStart
  /-- R316. A due drain-set image is copied to the other set and IMAGE_RELOCATED commits. -/
  | imageRelocate
  /-- R322. Returns per die set temperature, AF, residual and topping state. -/
  | getDriftState (cci : Fin 10) (inp : List Byte)
  /-- R318. Sets the drift policy register. -/
  | setDriftPolicy (cci : Fin 10) (inp : List Byte)
  /-- R322. Returns one die's drift table in use and its source. -/
  | getDriftTable (cci : Fin 10) (inp : List Byte)
  /-- R332. A die accepts a READ SEG sense form and senses the segment into an engine. -/
  | readSegSense (die : Nat) (eng : Bool) (tile : Nat) (seg : Nat) (o0 : Int) (o1 : Int) (o2 : Int)
  /-- R333. A die drives LEN x 8 B from an engine register and frees it when FREE is set. -/
  | readSegOutput (die : Nat) (eng : Bool) (free : Bool) (start : Nat) (len : Nat)
  /-- R332. A die senses a segment with soft bits into an engine. -/
  | readSoft (die : Nat) (eng : Bool) (tile : Nat) (seg : Nat) (o0 : Int) (o1 : Int) (o2 : Int)
  /-- R336. A die accepts a program setup and empties its program buffer. -/
  | progSegSetup (die : Nat) (tile : Nat) (seg : Nat)
  /-- R336. A die takes program data into its buffer. -/
  | progSegData (die : Nat) (start : Nat) (len : Nat) (data : List Byte)
  /-- R336. A die starts a program of a fully written buffer and sets ARRAY_BUSY. -/
  | progSegConfirm (die : Nat)
  /-- R337. A die starts resetting a tile to level 0. -/
  | resetTile (die : Nat) (tile : Nat)
  /-- R334. Every present die of a package reports its engine readiness on its MDQ bit. -/
  | statusPoll (ch : Fin 36) (pkg : Fin 8)
  /-- R339. A die returns its status word and clears the reported check flags. -/
  | statusDie (die : Nat)
  /-- R332. A die loads a parameter page copy into register 0. -/
  | readParamPage (die : Nat) (copy : Bool)
  /-- R340. A die sets a feature value. -/
  | setFeature (die : Nat) (feature : Nat) (value : Nat)
  /-- R340. A die returns a feature value. -/
  | getFeature (die : Nat) (feature : Nat)
  /-- R343. A die suspends its program or tile reset. -/
  | suspend (die : Nat)
  /-- R343. A die resumes a suspended operation. -/
  | resume (die : Nat)
  /-- R347. Die 0 returns the latest temperature conversion. -/
  | tempRead (ch : Fin 36) (pkg : Fin 8)
  /-- R348. Die 0 calibrates every die's drivers against the package ZQ resistor. -/
  | calibrate (ch : Fin 36) (pkg : Fin 8)
  /-- R330. A command that fails its CRC or framing, or has a reserved code, is ignored and sets CMD_CHECK. -/
  | cmdCheckFail (ch : Fin 36) (pkg : Fin 8) (cmd : List Byte)
  /-- R332. A sensing engine enters Lead t_LEAD before its result and pulls MRDY_N low. -/
  | senseLead (die : Nat) (eng : Bool)
  /-- R332. A sense result moves into an empty register and a held sense form starts. -/
  | senseResultReady (die : Nat) (eng : Bool)
  /-- R336. A die's program ends, clearing ARRAY_BUSY and setting PROG_FAIL if verification failed. -/
  | dieProgramEnd (die : Nat) (good : Bool)
  /-- R337. A die's tile reset ends, setting RESET_FAIL if it did not verify. -/
  | dieTileResetEnd (die : Nat) (good : Bool)
  /-- R349. MRESET_N low makes every die abandon operations and reset its state. -/
  | mresetNAssert (ch : Fin 36)
  /-- R349. MRESET_N rises and the dies become ready within t_INIT. -/
  | mresetNRise (ch : Fin 36)
  /-- R335. MRDY_N falls and the controller polls every package with reads outstanding. -/
  | mrdyNFall (ch : Fin 36)
  /-- R335. While MRDY_N stays low the controller polls again when its result is over 8 ns old. -/
  | mrdyNRepoll (ch : Fin 36)
  /-- R351. A channel finds its population, loads parameter pages, calibrates and raises MCK. -/
  | channelBringUp (ch : Fin 36) (found : List (List (List Byte × List Byte)))
  /-- R352. A channel runs full training and enters service, or fails after a repeat. -/
  | mediaFullTraining (ch : Fin 36) (first : List TrainSweep) (second : List TrainSweep)
  /-- R353. A channel retrains in a lull after temperature change, invalid statuses or CMD_CHECK bursts. -/
  | mediaRetrain (ch : Fin 36) (sweep : List TrainSweep)
  /-- R356. A package group loses PG in service and its channels stop issuing commands. -/
  | packageGroupPgLost (chans : List (Fin 36))
  /-- R356. 100 ms after PG loss the group's rails are re-enabled once and the channels retrain. -/
  | packageGroupReenable (chans : List (Fin 36)) (good : Bool)
  /-- R357. Returns a channel's state, population and training results. -/
  | getMediaChannelState (cci : Fin 10) (inp : List Byte)
  /-- R357. Runs a full training of one channel. -/
  | retrainMediaChannel (cci : Fin 10) (inp : List Byte)
  /-- R357. Returns both parameter page copies of a die and their validity. -/
  | getDieParameterPage (cci : Fin 10) (inp : List Byte)
  /-- R368. A DRAM channel reads SPD and runs full training at a start or thaw. -/
  | dramTraining (ch : Fin 8) (dimms : List Dimm) (first : List DramLane) (second : List DramLane) (temp : Int)
  /-- R367. The initial zero fill of every channel completes. -/
  | dramFillDone
  /-- R373. A write CRC alert resends the write, and the third freezes the channel. -/
  | writeCrcAlert (ch : Fin 8) (resend : Bool) (frost : FrostIn)
  /-- R373. An RCD command/address parity alert freezes the channel. -/
  | caParityAlert (ch : Fin 8) (frost : FrostIn)
  /-- R374. The scrubber reads a burst in a lull and reports lap time. -/
  | dramScrub (ch : Fin 8) (err : DramErr)
  /-- R372. A queued neighbour refresh is issued at the bank's lull or within 2 us. -/
  | neighbourRefresh (ch : Fin 8)
  /-- R370. A bank is refreshed when no priority-1 read is queued for it. -/
  | sameBankRefresh (ch : Fin 8) (bank : Fin 4)
  /-- R370. Every 16 ms the devices' refresh-rate mode register is polled. -/
  | refreshRatePoll (ch : Fin 8) (rate : Nat)
  /-- R369. Every 100 ms DIMM sensors are read, and a 10 C move starts a background retrain. -/
  | dimmTempPoll (ch : Fin 8) (temps : List (Option Int))
  /-- R378. FROST_HOLD passes and an automatic thaw starts if allowed. -/
  | frostHoldExpiry (ch : Fin 8)
  /-- R378. The directory sub-array is read and salvageable pinned slots are released. -/
  | thawSalvageDone (ch : Fin 8) (bad : List Nat)
  /-- R378. The thawing channel is refilled with zeros and resync begins. -/
  | thawRefillDone (ch : Fin 8)
  /-- R378. The map share is resynced and the channel enters In service. -/
  | thawResyncDone (ch : Fin 8)
  /-- R376. A thaw due with automatic thaws spent and none commanded within 24 h makes the channel Failed. -/
  | frozenFailTimeout (ch : Fin 8)
  /-- R380. Pinned slots are resolved from the checkpoint and journal and evicted. -/
  | pinnedSlotResolve (slot : Nat)
  /-- R382. A channel drains, precharges, enters self-refresh and stops its PLL. -/
  | selfRefreshEntry (ch : Fin 8)
  /-- R382. A channel restarts its PLL and exits self-refresh. -/
  | selfRefreshExit (ch : Fin 8) (temp : Int) (first : List DramLane) (second : List DramLane)
  /-- R385. Returns a DRAM channel's state and training results. -/
  | getDramState (cci : Fin 10) (inp : List Byte)
  /-- R366. Sets the DRAM policy register. -/
  | setDramPolicy (cci : Fin 10) (inp : List Byte)
  /-- R385. Returns a channel's frost record. -/
  | getFrostRecord (cci : Fin 10) (inp : List Byte)
  /-- R378. Starts a thaw of a frozen channel. -/
  | thawDramChannel (cci : Fin 10) (inp : List Byte)
  /-- R391. A fabric port completes training and propagation measurement and enters Linked. -/
  | fabricPmdTrainingDone (port : Fin 8) (width : Fin 5) (prop : Nat)
  /-- R391. A port loses lock, enters Retraining and its routes move to alternates. -/
  | fabricLossOfLock (port : Fin 8)
  /-- R391. No lock within 100 ms of Retraining moves the port to Training. -/
  | fabricRetrainTimeout (port : Fin 8)
  /-- R391. 60 s after a retraining-caused disable the port returns to Training. -/
  | fabricDisabledExpiry (port : Fin 8)
  /-- R395. A flit arrives and is checked, sequenced, acknowledged and its messages taken. -/
  | flitReceive (port : Fin 8) (flit : Flit) (symbols : Nat) (uncorrectable : Nat)
  /-- R395. An unacknowledged flit 2 us old causes a replay. -/
  | replayTimer (port : Fin 8)
  /-- R395. No replay 1 us after a NAK causes the NAK to be sent again. -/
  | nakRepeatTimer (port : Fin 8)
  /-- R408. Each HELLO_MS a Linked or Up port sends a HELLO. -/
  | helloSend (port : Fin 8)
  /-- R409. A received HELLO may make the link two-way and Up and updates epoch gossip. -/
  | hello (port : Fin 8)
  /-- R391. No Hello for DEAD_MULT x HELLO_MS moves the port to Retraining. -/
  | helloDeadInterval (port : Fin 8)
  /-- R411. A received LSA is stored and flooded, acknowledged, or answered with the stored copy. -/
  | lsa (port : Fin 8)
  /-- R411. An LSA acknowledgement stops the resending of that LSA on the port. -/
  | lsaAck (port : Fin 8)
  /-- R411. An unacknowledged LSA is sent again every 100 ms. -/
  | lsaResend (port : Fin 8)
  /-- R412. Each second stored LSAs age and those at 1,800 are removed. -/
  | lsaAgeTick
  /-- R410. The device originates a new LSA on a link change or every 600 s. -/
  | lsaOriginate
  /-- R413. 5 ms after the last database change routes are recomputed into the standby table. -/
  | routeRecompute
  /-- R413. The route table halves swap in one CORE cycle when the computation completes. -/
  | routeTableSwap
  /-- R406. With AUTO_ID set and the database stable for 2 s, the device assigns itself an ID. -/
  | autoIdAssign
  /-- R417. A message for another device passes to an egress port on the next VC. -/
  | messageRelay (port : Fin 8)
  /-- R418. A fabric MEM_RD for this device takes a tag and is classified with its source device. `bad`: its read data shows a
    parity error on the way to the port (R32). -/
  | memRdMessage (port : Fin 8) (bad : Bool)
  /-- R402. A fabric MEM_SPEC_RD is queued in BULK at the owner with no response. -/
  | memSpecRdMessage (port : Fin 8)
  /-- R418. A fabric MEM_WR is classified at the owner and answered with CMP. `bad`: bytes whose parity is wrong on the way to the
    SRAM (R31). -/
  | memWrMessage (port : Fin 8) (bad : W64)
  /-- R402. A fabric partial write is classified at the owner and answered with CMP. `bad` as for MEM_WR. -/
  | memWrPtlMessage (port : Fin 8) (bad : W64)
  /-- R403. A DATA response is matched to its tag and completes the host read by its STATUS. -/
  | dataMessage (port : Fin 8)
  /-- R403. A CMP response is matched to its tag and completes the host write. -/
  | cmpMessage (port : Fin 8)
  /-- R422. First expiry resends the request with RESEND set. -/
  | fabTimeoutFirst
  /-- R422. Second expiry completes a read with poison or a write with Cmp and viral. -/
  | fabTimeoutSecond
  /-- R426. Returns fabric ID, policy and per-port state. -/
  | getFabricState (cci : Fin 10) (inp : List Byte)
  /-- R405. Sets or unassigns the fabric device ID and writes FABRIC_ID. -/
  | setFabricDeviceId (cci : Fin 10) (inp : List Byte)
  /-- R424. Sets the fabric policy register. -/
  | setFabricPolicy (cci : Fin 10) (inp : List Byte)
  /-- R426. Returns route entries and the last swap time. -/
  | getRouteTable (cci : Fin 10) (inp : List Byte)
  /-- R426. Returns stored LSAs. -/
  | getLinkStateDatabase (cci : Fin 10) (inp : List Byte)
  /-- R426. Returns per-port and device fabric counters. -/
  | getFabricPortCounters (cci : Fin 10) (inp : List Byte)
  /-- R426. Puts one port in Retraining. -/
  | retrainFabricPort (cci : Fin 10) (inp : List Byte)
  /-- R428. The ring port becomes ring-ready, opens its bypass switch and starts election. -/
  | ringReady
  /-- R428. A ring-ready condition fails and the bypass switch closes within 1 us. -/
  | ringConditionFail
  /-- R430. Receiver lock lost for 10 ms makes the ring port Broken. -/
  | ringLockLost
  /-- R430. Lock regained for 1 ms returns a Broken port to Electing. -/
  | ringLockRegained
  /-- R431. A CLAIM frame is forwarded, dropped, or makes this position head. -/
  | claim (frame : RingFrame)
  /-- R431. A ROLL frame assigns this position or bypasses it beyond 64. -/
  | roll (frame : RingFrame)
  /-- R431. The ROLL returns to the head, which records the member count and starts beacons. -/
  | rollReturned (frame : RingFrame)
  /-- R431. The head sends a beacon every 10 ms. -/
  | beaconSend
  /-- R431. No beacon for 30 ms makes a position re-enter Electing. -/
  | beaconTimeout
  /-- R433. A Formed position forwards a frame it did not originate with TTL reduced. -/
  | ringFrameForward (frame : RingFrame)
  /-- R432. Every 1 s the device sends ANNOUNCE. -/
  | announceSend
  /-- R434. A received ANNOUNCE updates the member table and may signal an ID conflict. -/
  | announce (frame : RingFrame)
  /-- R432. EPOCH_STATUS is sent every 1 s and within 1 ms of any change. -/
  | epochStatusSend
  /-- R445. A received EPOCH_STATUS hears a peer and may change the epoch state. -/
  | epochStatus (frame : RingFrame)
  /-- R442. A received ARM is checked and arms the device when it passes. -/
  | arm (frame : RingFrame)
  /-- R442. A received DISARM cancels a matching armed epoch before T. -/
  | disarm (frame : RingFrame)
  /-- R435. ARM and DISARM frames repeat 10 ms apart and STORM frames 100 us apart. -/
  | ringFrameRepeat
  /-- R437. A received STORM braces the device for STORM_HOLD seconds. -/
  | storm (frame : RingFrame)
  /-- R437. STORM_HOLD passes and bracing ends. -/
  | braceExpiry
  /-- R46. A WAKE frame addressed to this position wakes it from Standby. -/
  | wake (frame : RingFrame)
  /-- R443. At the tick beginning second T the banks swap and BANK_SWAP commits. -/
  | epochActivate
  /-- R446. A Lagging device adopts the peer's epoch at the next second boundary. -/
  | epochAdopt
  /-- R447. A tenant flagged by a tag mismatch clears after MISMATCH_HOLD with no mismatch. -/
  | mismatchHoldExpiry
  /-- R451. Returns epoch, arm and state information. -/
  | getEpochState (cci : Fin 10) (inp : List Byte)
  /-- R440. Loads a manifest piece into the free EPOCH slot. -/
  | stageManifest (cci : Fin 10) (inp : List Byte)
  /-- R439. Returns the staged and active slice digests and differing tenants. -/
  | getSliceDigest (cci : Fin 10) (inp : List Byte)
  /-- R441. Arms an epoch for second T and optionally spreads ARM on the ring. -/
  | armEpoch (cci : Fin 10) (inp : List Byte)
  /-- R442. Cancels an armed epoch before T. -/
  | disarmEpoch (cci : Fin 10) (inp : List Byte)
  /-- R451. Returns the service ring port state and ANNOUNCE table. -/
  | getRingState (cci : Fin 10) (inp : List Byte)
  /-- R449. Sets the ring and epoch policy register. -/
  | setRingAndEpochPolicy (cci : Fin 10) (inp : List Byte)
  /-- R451. Sends WAKE to a ring position. -/
  | sendRingWake (cci : Fin 10) (inp : List Byte)
  /-- R460. A filtered PPS edge is captured and accepted, used for acquisition or counted out-of-window. -/
  | ppsEdge (rising : Bool) (stable : Nat)
  /-- R455. A Locked window closes with no edge and gives the tick, counting missing edges. -/
  | ppsWindowClose
  /-- R455. A second tick marks a time-base second by counting or slewing. -/
  | secondTick
  /-- R563. The snapshot copy ends and TB_MINUTE, SNAP_BUF and SNAP_SEQ change together. -/
  | snapshotCopyDone
  /-- R462. A half-rate run ends when the time base is aligned. -/
  | halfRateEnd
  /-- R469. TB_NOW reaches the alarm, which fires once, waking or posting an event. -/
  | timeAlarmFire
  /-- R466. A reference clock is lost and its consumers react by Table 14-3. -/
  | refclkLoss (input : Fin 6)
  /-- R466. SYSCLK good for 100 ms returns the PLLs to it. -/
  | sysclkReturn
  /-- R464. Every 10 ms the always-on oscillator is compensated from diode 22. -/
  | oscCompensation (temp : Int)
  /-- R464. Every hour the learned rate table is written to the cellar book. -/
  | oscTableWrite
  /-- R471. Returns PPS, holdover, clock and domain state. -/
  | getTimeBaseState (cci : Fin 10) (inp : List Byte)
  /-- R459. Sets the time base policy register. -/
  | setTimeBasePolicy (cci : Fin 10) (inp : List Byte)
  /-- R469. Sets or disables the time-base alarm. -/
  | setTimeAlarm (cci : Fin 10) (inp : List Byte)
  /-- R474. The always-on domain leaves reset, samples straps, starts the time base and loads the sequencer program.
    -/
  | alwaysOnResetRelease (hbif0 : Bool) (hbif1 : Bool) (sbaddr : Fin 16) (strapTest : Bool)
  /-- R481. ENABLE drives a rail's enable high and waits for good unless NOWAIT. -/
  | seqEnable
  /-- R481. DISABLE drives a rail's enable low and waits for it to fall unless NOWAIT. -/
  | seqDisable
  /-- R481. WAIT starts a wait of DURATION. -/
  | seqWait
  /-- R481. A WAIT's duration passes and the program continues. -/
  | seqWaitExpiry
  /-- R481. CHECK sets FLAG from a rail condition. -/
  | seqCheck
  /-- R481. JUMP continues at TARGET. -/
  | seqJump
  /-- R481. JUMPIF continues at TARGET when FLAG equals SENSE. -/
  | seqJumpif
  /-- R481. SETOUT drives a role-11 output to a level. -/
  | seqSetout
  /-- R481. END ends the sequence, with a non-zero result a fault. -/
  | seqEnd
  /-- R481. A reserved opcode executed is a SEQ_INVALID fault. -/
  | seqInvalid
  /-- R482. A sequence exceeding 4,096 steps is a fault. -/
  | seqRunaway
  /-- R483. In dependency mode a rail is enabled UP_DELAY after all its predecessors are good. -/
  | dependencyEnable (rail : Fin 64)
  /-- R483. In power-down a rail is disabled DOWN_DELAY after its dependants are off. -/
  | dependencyDisable (rail : Fin 64)
  /-- R482. An enable held back by the order guard proceeds once its minimum gap has passed. -/
  | orderGuardRelease (rail : Fin 64)
  /-- R477. A PG edge is counted for chatter and a fall after good is a fault. -/
  | railPgEdge (rail : Fin 64) (high : Bool)
  /-- R477. PG held high for T_SETTLE makes the rail good. -/
  | railSettleExpiry (rail : Fin 64)
  /-- R481. A rail not good within its timeout is a RAIL_TIMEOUT fault. -/
  | railTimeout (rail : Fin 64)
  /-- R478. A rail sample beyond a fault or warning level for enough samples raises a fault or warning. -/
  | railAdcSample (codes : List (Fin 32 × Fin 4096))
  /-- R485. After RETRY_DELAY power-up is repeated up to RETRIES times. -/
  | safeOffRetry
  /-- R488. After the 50 ms fabric hold the device rails go down. -/
  | fabricHoldExpiry
  /-- R488. PWR_FAIL_N high and the supply above trip for 100 ms clear the latch. -/
  | powerFailClear
  /-- R489. VAUX_IO below 1.71 V stops new cellar writes and writes at most one record. -/
  | vauxLowDetect
  /-- R490. VAUX_IO or VDD_AON is removed and the device is Off. -/
  | supplyRemoved (vaux : Bool) (aon : Bool)
  /-- R490. IDLE_DELAY with no request moves the device to Idle. -/
  | idleEntry
  /-- R490. A request in Idle returns the device to Active within 60 ns. -/
  | idleExit
  /-- R491. With AUTO_DORMANT, DORMANT_DELAY of idle heads enters Dormant. -/
  | dormantAutoEntry
  /-- R491. A wake or request reverses the Dormant steps and resumes admission. -/
  | dormantExit
  /-- R46. A wake source in Standby starts the power-up sequence. -/
  | wakeEvent (source : Fin 5)
  /-- R495. Returns the power state and its last transition. -/
  | getPowerState (cci : Fin 10) (inp : List Byte)
  /-- R491. Returns the device to Active. -/
  | setPowerStateActive (cci : Fin 10) (inp : List Byte)
  /-- R491. Enters Dormant. -/
  | setPowerStateDormant (cci : Fin 10) (inp : List Byte)
  /-- R492. Enters Standby with power-down of the device rails. -/
  | setPowerStateStandby (cci : Fin 10) (inp : List Byte)
  /-- R493. Sets the power policy register. -/
  | setPowerPolicy (cci : Fin 10) (inp : List Byte)
  /-- R495. Returns the stored or running sequencer blob. -/
  | getSequencerProgram (cci : Fin 10) (inp : List Byte)
  /-- R487. Checks and stores a sequencer blob for the next power-up. -/
  | setSequencerProgram (cci : Fin 10) (inp : List Byte)
  /-- R495. Returns per-rail status and ADC readings. -/
  | getRailStatus (cci : Fin 10) (inp : List Byte)
  /-- R495. Clears latched rail faults and the retry count. -/
  | clearRailFaults (cci : Fin 10) (inp : List Byte)
  /-- R500. A die diode sample is compared with the zone thresholds. -/
  | diodeSample (diode : Fin 24) (reading : Option Int)
  /-- R497. A board NTC sample is compared with the zone thresholds. -/
  | ntcSample (ntc : Fin 8) (mv : Nat)
  /-- R498. 60 s of good samples end a sensor's broken status. -/
  | sensorRecovered (sensor : Fin 336)
  /-- R500. 10 s below threshold minus HYST lowers a zone by one level. -/
  | zoneFallHoldExpiry (zone : Fin 4)
  /-- R502. A Warm or Hot program pause ends and the die set may start its next program. -/
  | programPauseEnd (ds : Fin 512)
  /-- R505. A diode comparator trips, asserting THERMTRIP_N and starting safe-off. -/
  | thermtrip (diode : Fin 24)
  /-- R506. After 60 s of restart conditions power-up starts or a held wake proceeds. -/
  | thermalRestart
  /-- R508. Every 60 s and at drains the temperature history counters are written. -/
  | tempHistoryUpdate
  /-- R511. Returns thermal levels and sensor readings. -/
  | getThermalState (cci : Fin 10) (inp : List Byte)
  /-- R507. Sets the thermal policy register. -/
  | setThermalPolicy (cci : Fin 10) (inp : List Byte)
  /-- R508. Returns the temperature history. -/
  | getTemperatureHistory (cci : Fin 10) (inp : List Byte)
  /-- R512. Core 0 selects and verifies a slot, loads partitions and starts the supervisors. -/
  | bootRom
  /-- R515. 60 s without watchdog expiry updates FW_SLOT, the rollback counter and revocation fuses. -/
  | bootGood
  /-- R40. A supervisor watchdog expires and the supervisor is reloaded and restarted, or halted on the third. -/
  | supervisorWatchdogExpiry (sup : Fin 4)
  /-- R40. A restarted supervisor resumes its duties. -/
  | supervisorRestartDone (sup : Fin 4)
  /-- R43. The management watchdog expires and the management cores restart. -/
  | mgmtWatchdogExpiry
  /-- R36. The mailbox hub delivers a request to its owning node, which applies it and completes. -/
  | hubRequestDeliver (post : List HubReq)
  /-- R34. A write from a non-owner node is blocked and logged. -/
  | ownershipViolation (node : Fin 61) (row : Fin 21)
  /-- R520. SPDM GET_VERSION is answered. -/
  | spdmGetVersion (ep : Fin 6)
  /-- R520. SPDM GET_CAPABILITIES is answered. -/
  | spdmGetCapabilities (ep : Fin 6)
  /-- R520. SPDM NEGOTIATE_ALGORITHMS is answered. -/
  | spdmNegotiateAlgorithms (ep : Fin 6) (offered : Bool)
  /-- R520. SPDM GET_DIGESTS returns certificate chain digests. -/
  | spdmGetDigests (ep : Fin 6)
  /-- R520. SPDM GET_CERTIFICATE returns the slot 0 chain. -/
  | spdmGetCertificate (ep : Fin 6) (slot : Nat)
  /-- R520. SPDM CHALLENGE is signed with the alias key. -/
  | spdmChallenge (ep : Fin 6) (slot nonce : Nat)
  /-- R520. SPDM GET_MEASUREMENTS returns measurements 1 to 11. -/
  | spdmGetMeasurements (ep : Fin 6) (index nonce : Nat)
  /-- R520. SPDM KEY_EXCHANGE starts a secure session. -/
  | spdmKeyExchange (ep : Fin 6) (slot pub : Nat)
  /-- R520. SPDM FINISH completes session establishment. -/
  | spdmFinish (ep : Fin 6) (session : Nat) (good : Bool)
  /-- R520. SPDM END_SESSION ends a session. -/
  | spdmEndSession (ep : Fin 6) (session : Nat)
  /-- R520. SPDM KEY_UPDATE updates session keys. -/
  | spdmKeyUpdate (ep : Fin 6) (session : Nat)
  /-- R520. SPDM HEARTBEAT keeps a session alive. -/
  | spdmHeartbeat (ep : Fin 6) (session : Nat)
  /-- R530. Takes a media channel out of service or returns it. -/
  | setChannelService (cci : Fin 10) (inp : List Byte)
  /-- R343. Sends a raw media command to an out-of-service channel. -/
  | issueMediaCommand (cci : Fin 10) (inp : List Byte)
  /-- R530. Returns each supervisor's state and counts. -/
  | getSupervisorState (cci : Fin 10) (inp : List Byte)
  /-- R530. Restarts a supervisor as under R40 without counting it. -/
  | restartSupervisor (cci : Fin 10) (inp : List Byte)
  /-- R530. Enables or disables debug access over MCTP. -/
  | setDebugAccess (cci : Fin 10) (inp : List Byte)
  /-- R530. Returns serial, grade, revocations and debug lock. -/
  | getDeviceIdentity (cci : Fin 10) (inp : List Byte)
  /-- R530. Returns cellar book regions and password state. -/
  | getCellarBookInfo (cci : Fin 10) (inp : List Byte)
  /-- R535. Reads a current record after the read password check. -/
  | readCellarRecord (cci : Fin 10) (inp : List Byte)
  /-- R538. Writes a USER record after the write password check. -/
  | writeCellarRecord (cci : Fin 10) (inp : List Byte)
  /-- R539. A record's COMMIT word is written and dependent commands may complete. -/
  | cellarWriteComplete
  /-- R542. Changes a region's read or write password. -/
  | setRegionPasswords (cci : Fin 10) (inp : List Byte)
  /-- R543. Every 10 s the refusal remainder is written to LOCKOUT. -/
  | lockoutPersist
  /-- R544. Returns a spread counter's value and generation. -/
  | getSpreadCounter (cci : Fin 10) (inp : List Byte)
  /-- R547. A posted event becomes a new record or a repeat in the SRAM ring. -/
  | eventPost (src : Nat)
  /-- R549. Repeats of a Critical record are copied to the EVENTS ring at most every 60 s. -/
  | criticalRepeatCopy (seq : Nat)
  /-- R550. Every 60 s and at drains EVENT_MARK records the sequence. -/
  | eventMarkWrite
  /-- R39. When a unit's buffer space returns an overflow record with the lost count is posted. -/
  | eventOverflowRecord (src : Nat)
  /-- R551. Returns records from the SRAM or cellar event ring with head sequences. -/
  | getEventRecordsVendor (cci : Fin 10) (inp : List Byte)
  /-- R530. Returns event recorder heads and counts. -/
  | getEventRecorderState (cci : Fin 10) (inp : List Byte)
  /-- R552. Posts an event of any code with source 000h. -/
  | postTestEvent (cci : Fin 10) (inp : List Byte)
  /-- R530. Returns a counter set's descriptors. -/
  | getCounterConfiguration (cci : Fin 10) (inp : List Byte)
  /-- R555. Writes a counter descriptor, zeroing the count. -/
  | setCounterConfiguration (cci : Fin 10) (inp : List Byte)
  /-- R558. Returns a set's counts and overflow bits. -/
  | readCounters (cci : Fin 10) (inp : List Byte)
  /-- R564. Sets METER_EN and the counter groups mapped into a tenant's page. -/
  | setTenantMetering (cci : Fin 10) (inp : List Byte)
  /-- R562. Returns a tenant's metering page. -/
  | getTenantMeter (cci : Fin 10) (inp : List Byte)
  /-- R559. Returns and releases a counter's held sample. -/
  | getCounterSample (cci : Fin 10) (inp : List Byte)
  /-- R559. The first matching completion after an overflow is captured as the sample. -/
  | sampleCapture
  /-- R557. At a window's end a window-mode count takes that window's total. -/
  | counterWindowEnd (set : Fin 5) (counter : Fin 64)
  /-- R558. A host write presets a head counter's count. -/
  | headCountWrite (head : Fin 4) (counter : Fin 64) (part : RegPart) (value : W64)
  /-- R558. A write of 1 clears head counter overflow bits. -/
  | counterOverflowClear (head : Fin 4) (mask : W64)
  /-- R561. Every millisecond each tenant's front-cache occupancy is accumulated. -/
  | meterOccupancyTick
  /-- R567. A write to CV_CONFIG sets the algorithm and restarts the unit. -/
  | cvConfigWrite (head : Fin 4) (unit : Fin 8) (value : W32)
  /-- R567. Any write to CV_RESTART restarts the unit. -/
  | cvRestartWrite (head : Fin 4) (unit : Fin 8)
  /-- R568. A 1, 2 or 4 B feed is buffered and processed into the check value. -/
  | cvFeedWrite (head : Fin 4) (unit : Fin 8) (off : Fin 4) (bytes : List Byte)
  /-- R568. A read of CV_RESULT or CV_COUNT is answered once earlier feeds are processed. -/
  | cvResultRead (head : Fin 4) (unit : Fin 8) (count : Bool)
  /-- R565. Assigns a check-value unit to a head and restarts it. -/
  | assignCheckValueUnit (cci : Fin 10) (inp : List Byte)
  /-- R530. Returns the state of the 16 bulk engines. -/
  | getEngineState (cci : Fin 10) (inp : List Byte)
  /-- R569. Creates a ring bound to a head and an Active tenant. -/
  | createDescriptorRing (cci : Fin 10) (inp : List Byte)
  /-- R530. Deletes a ring with no running descriptor. -/
  | deleteDescriptorRing (cci : Fin 10) (inp : List Byte)
  /-- R530. Returns a descriptor ring's head, tail and status. -/
  | getRingStateDescriptor (cci : Fin 10) (inp : List Byte)
  /-- R569. Sets RING_BASE of a Stopped ring. -/
  | ringBaseWrite (head : Fin 4) (ring : Fin 4096) (part : RegPart) (value : W64)
  /-- R569. Writing RING_TAIL rings the doorbell for new descriptors. -/
  | ringTailDoorbell (head : Fin 4) (ring : Fin 4096) (value : W64)
  /-- R569. START runs a Stopped ring or halts it with NOT_OWNED. -/
  | ringStart (head : Fin 4) (ring : Fin 4096)
  /-- R569. STOP stops the ring after the descriptor in progress. -/
  | ringStop (head : Fin 4) (ring : Fin 4096)
  /-- R569. RESUME runs a Halted ring from RING_HEAD. -/
  | ringResume (head : Fin 4) (ring : Fin 4096)
  /-- R570. A free engine takes the next Running ring and reads its descriptor. -/
  | engineTakeDescriptor (engine : Fin 16)
  /-- R571. A COPY descriptor copies SRC to DST in steps. -/
  | descCopy (engine : Fin 16)
  /-- R570. A FILL descriptor writes PATTERN to DST. -/
  | descFill (engine : Fin 16)
  /-- R570. A COMPARE descriptor compares SRC with DST. -/
  | descCompare (engine : Fin 16)
  /-- R575. A CHECKSUM descriptor feeds SRC to a held check-value unit. -/
  | descChecksum (engine : Fin 16)
  /-- R573. A MIGRATE descriptor sends SRC lines as MEM_WR to DEST_DEV. -/
  | descMigrate (engine : Fin 16)
  /-- R570. A descriptor with a reserved OP or broken alignment ends with BAD_DESC and halts the ring. -/
  | descInvalid (engine : Fin 16)
  /-- R570. An engine step completes, and after the last the descriptor is written back and RING_HEAD advances. -/
  | engineStepDone (engine : Fin 16)
  /-- R580. In phase 6 the newest run record decides the shutdown class and counts an unsafe shutdown. -/
  | shutdownClassDecide
  /-- R581. HOLD_SENSE stable for 1 s starts the first hold-up measurement. -/
  | holdupBankCharged
  /-- R581. 10 s after phase 12 without a measurement the front cache is enabled with budget 0. -/
  | frontEnableTimeout
  /-- R175. Phase 14 issues Invalidate All and Enable Front Cache and writes RUN_OPEN. -/
  | startFrontEnable
  /-- R64. A head's link enters ASPM L1 or its substates, gating the head's clock domain and, in L1.2, stopping its
    PLL. -/
  | aspmL1Entry (head : Fin 4) (l12 : Bool)
  /-- R467. A head's link leaves L1 or L1.2, restarting the head's clock domain and waking the device from Dormant. -/
  | aspmL1Exit (head : Fin 4)
  /-- R481. A rail being disabled has not fallen within its DISABLE timeout or DOWN_TIMEOUT, so DOWN_TIMEOUT is logged
    and power-down continues. -/
  | downTimeout (rail : Fin 64)
  /-- R43. The boot ROM finishes reloading the management cores after a management watchdog expiry, and the
    interrupted foreground command completes with Internal Error. -/
  | mgmtRestartDone
  /-- R48. A PLL completes lock, its domain gets its first usable clock edge, and the oldest start request waiting in
    the lock queue begins locking. -/
  | pllLockDone (dom : Nat)
  /-- R369. A background DRAM retrain finishes re-centring after its lull time, recording the training temperature or
    logging a DRAM event for a run shorter than 16 steps. -/
  | dramRetrainDone (ch : Fin 8) (lanes : List DramLane)
  /-- R584. TRST_N asserts and resets the JTAG TAP state only. -/
  | trstNAssert
deriving DecidableEq, Repr

end Sys2Proof
end

