-- ==== Sys2Proof/Decode.lean ====
section
/-!
DEFINITION. Commands by the bits of the opcode table. Every row of the table has an empty list of bit fields: the commands are
events, register accesses and mailbox commands, and none is spelled by a word.
-/
namespace Sys2Proof

/-- The command that a word of the table's bits spells: none, since no row gives bits. -/
def decodeTableWord (_nbits _w : Nat) : Option Instr := none

end Sys2Proof
end

