-- ==== Sys2Proof/Config.lean ====
section
/-!
DEFINITION. What an implementation fixes and the manual does not: values the manual leaves open, as constants without a
body. Nothing in Lean can evaluate them, so whatever is proved holds for every value.
-/
namespace Sys2Proof
namespace Config

/-- A free value of width `w`; the number says which drawing it is (`State.free` counts them). Log entry 1. -/
opaque freeBits (w n : Nat) : BitVec w

/-- A free natural number, for an unstated count or time. Log entry 1. -/
opaque freeNat (n : Nat) : Nat

/-- A cipher over 256 bytes: the identity, or a function with an inverse. -/
inductive LinePerm where
  | id
  | of (enc dec : FrontLine → FrontLine) (inv : ∀ x, dec (enc x) = x)
deriving Inhabited

/-- The encrypting direction of a cipher. -/
def LinePerm.enc : LinePerm → FrontLine → FrontLine
  | .id, x => x
  | .of f _ _, x => f x

/-- The decrypting direction of a cipher. -/
def LinePerm.dec : LinePerm → FrontLine → FrontLine
  | .id, x => x
  | .of _ g _, x => g x

/-- Decryption undoes encryption. -/
theorem LinePerm.dec_enc (p : LinePerm) (x : FrontLine) : p.dec (p.enc x) = x := by
  cases p with
  | id => rfl
  | of f g h => exact h x

/-- XTS-AES-256 over 256 bytes of a data unit (IEEE Std 1619, R136): under a key pair, the unit's tweak, and the number of the first
of the 16 blocks. Nothing is known of it but that decryption undoes encryption. Log entry 3. -/
opaque xts (key tweak block : Nat) : LinePerm

/-- The 32 bytes of LDPC parity of a codeword's 264 bytes (R52); the manual does not give the code. Log entry 3. -/
opaque ldpc (cw : Codeword) : BitVec 256

/-- SHA-256, truncated or not, over a list of numbers (an outside standard; R439, R542). Log entry 3. -/
opaque sha256 (xs : List Nat) : Nat

/-- SHA-384 over a list of numbers (an outside standard; R513, R521). Log entry 3. -/
opaque sha384 (xs : List Nat) : Nat

/-- Whether a signature is good under a public key for a digest (ECDSA P-384, an outside standard; R513). Log entry 3. -/
opaque verify (pub : List Nat) (digest : Nat) (sig : List Nat) : Bool

/-- The four Kunor key hashes fused at manufacture (R513). Log entry 3. -/
opaque kunorKeyHash (k : Nat) : Nat

/-- A signature by a key of the device over a digest (ECDSA P-384; R520, R521). Log entry 3. -/
opaque sign (key digest : Nat) : Nat

/-- The P-384 key-wrapping public key, x then y, fixed at manufacture (R133). Log entry 3. -/
opaque wrapPubKey : List (BitVec 8)

/-- ECDH over P-384 of the device's key-wrapping private key and a public key, x then y: the x-coordinate of the shared secret, none
for a point that is not on the curve (R133). Log entry 3. -/
opaque ecdhX (x y : Nat) : Option Nat

/-- HKDF-SHA-384 (RFC 5869) of input key material, salt and info, of a length in bytes, as a little-endian number (R133). Log
entry 3. -/
opaque hkdfSha384 (ikm : Nat) (salt info : List Nat) (len : Nat) : Nat

/-- AES-GCM-256 decryption under a key, of a nonce, additional authenticated data, ciphertext and tag, as a little-endian number;
none when the tag fails (R133). Log entry 3. -/
opaque gcmOpen (key : Nat) (nonce aad ct tag : List (BitVec 8)) : Option Nat

/-- SHA-384 of the boot ROM (R520 measurement 1). Log entry 3. -/
opaque romHash : Nat

/-- The Kunor root certificate (R520). Log entry 3. -/
opaque rootCert : Nat

/-- The device identity certificate of a serial number (R520). Log entry 3. -/
opaque deviceCert (serial : Nat) : Nat

/-- The alias certificate derived from the device identity secret and measurement 2 (R520). Log entry 3. -/
opaque aliasCert (m2 : Nat) : Nat

/-- The second-order rate loop (R462): new rate correction in ppb from the old one and the phase error in ns; the manual
gives its time constant and not its coefficients. Log entry 4. -/
opaque loopRate (rate err : Int) : Int

/-- The internal delay of PPS_IN in ns, calibrated at manufacture (R459): the manual gives no value. Log entry 4. -/
opaque ppsInputDelay (serial : Nat) : Int

/-- The temperature in 1/16 °C of a board NTC of a B value at a pin voltage in mV (R497): 100 µA through a thermistor of 10 kΩ at
25 °C; the manual gives no rounding. Log entry 4. -/
opaque ntcTemp (beta mv : Nat) : Int

/-- The oscillator compensation table fused at manufacture (R464): ppb at a temperature in 1/16 °C. Log entry 4. -/
opaque oscFuse (temp : Int) : Int

/-- Content of a segment of a tile that an abandoned or failed reset left undefined (R325, R337). Log entry 1. -/
opaque freeSeg (draw tile seg : Nat) : BitVec 4736

/-- Slots of a node's inbound hub queue beyond the first (R36 gives no count). Log entry 188. -/
opaque hubSlots (node : Nat) : Nat

/-- Table frames of a checkpoint (Table 7-7 TABLE_FRAMES): the manual gives their content and not their layout. Log entry 212. -/
opaque tableFrames : Nat

/-- NEXT_CAP of the Kunor DVSEC (Table 2-7): an offset that depends on the layout. Log entry 178. -/
opaque nextCap : BitVec 12

/-- R592: whether the device drives a head's WAKE_N low; the manual gives no condition. Log entry 221. -/
opaque wakeDriven (head : Nat) : Bool

end Config

end Sys2Proof
end

