-- ==== Sys2Proof/Machine/State.lean ====
section
/-!
DEFINITION. The state of the CA4800: every register, buffer, table, counter, mode and pin the spec gives it, as plain data,
with the reasons a command can stop and the state right after reset.
-/
namespace Sys2Proof.Machine


/-! ### Cellar book and event recorder (18_cellar_book_and_event_recorder.md) -/

/-- An event as a unit reports it, before the recorder numbers it (R38, R546). -/
structure Ev where
  src : Nat
  code : Nat
  p0 : Nat
  p1 : Nat
  p2 : Nat
  /-- severity of an unlisted code, as Post Test Event gives it (R552) -/
  sev : Nat
  /-- R95: the extent it concerns, where its parameters do not show it -/
  ext : Option Nat := none
deriving DecidableEq, Repr

/-- An event record of Table 18-8; VALID is computed from the other bytes. -/
structure EvRec where
  src : Nat
  sev : Nat
  code : Nat
  p0 : Nat
  p1 : Nat
  p2 : Nat
  time : Nat
  seq : Nat
  rep : Nat
  /-- R95: the extent it concerns, where its parameters do not show it; not part of the 32 bytes -/
  ext : Option Nat := none
deriving DecidableEq, Repr

/-- A unit's buffer of unreported events (R39). -/
structure UnitBuf where
  /-- R39: at most 16 unreported events, oldest first -/
  evs : List Ev
  /-- R39: events counted and not buffered -/
  lost : Nat
  /-- R39: buffered events that are older than the first lost one -/
  before : Nat
deriving DecidableEq, Repr

/-- The event recorder front end and its rings. -/
structure RecorderSt where
  /-- R39: the unit buffers by source identifier -/
  units : Tbl UnitBuf
  /-- R548: input buffer, at most 256 posts, while the sequence counter has not resumed -/
  input : List Ev
  /-- R550: next SEQUENCE, 32 bits -/
  nextSeq : Nat
  /-- R550: the sequence counter has resumed since the always-on domain left reset -/
  seqReady : Bool
  /-- R549: the SRAM ring has power -/
  ringOn : Bool
  /-- R549: SRAM ring by slot, 65,536 slots -/
  ring : Tbl EvRec
  /-- R547: slot of the newest record of the SRAM ring -/
  newest : Option Nat
  /-- R549: records held while the SRAM ring is unpowered, at most 64 -/
  held : List EvRec
  /-- R549: EVENTS ring of the cellar book by slot, 4,096 slots -/
  events : Tbl EvRec
  /-- R549: time of the last copy of repeats of a Critical record, by EVENTS slot -/
  copyTime : Tbl Nat
  /-- C901h: records written -/
  written : Nat
  /-- C901h: repeats folded -/
  folded : Nat
  /-- C901h: overflow records -/
  overflows : Nat
deriving DecidableEq, Repr

/-- One record of a record log (R536, Table 18-4); LENGTH is the length of the data, and the check words are computed. -/
structure CRec where
  key : Nat
  seq : Nat
  data : List Byte
deriving DecidableEq, Repr

/-- A record log written as a ring (R538): the records from the tail to the write pointer, oldest first. -/
structure RecLog where
  /-- R535: pages of the region's log -/
  pages : Nat
  /-- R538: page at the tail -/
  tail : Nat
  /-- R536: SEQ of the next record -/
  seq : Nat
  recs : List CRec
  /-- R536: page at which a torn record starts, until a record is written there -/
  torn : Option Nat := none
deriving DecidableEq, Repr

/-- A write the controller has not finished (R534, R539). -/
structure CWrite where
  /-- R534: class 1 to 5 -/
  cls : Nat
  region : Nat
  key : Nat
  data : List Byte
  /-- R539: the command interface whose command waits for the COMMIT word -/
  cci : Option Nat
deriving DecidableEq, Repr

/-- A spread counter page (R544): two base slots of value and generation, and 44 cells of generation byte and increment. -/
structure Spread where
  base0 : Option (Nat × Nat)
  base1 : Option (Nat × Nat)
  cells : List (Nat × Nat)
deriving DecidableEq, Repr

/-- Password state of one region (R542, R543). -/
structure RegionLock where
  /-- R542: verifier of the read password -/
  readVer : Option Nat
  /-- R542: verifier of the write password -/
  writeVer : Option Nat
  /-- R543: consecutive failures -/
  fails : Nat
  /-- R543: device time at which the refusal ends -/
  refusal : Nat
deriving DecidableEq, Repr

/-- The cellar book: 16,384 pages of MRAM (R532), region by region. -/
structure CellarSt where
  /-- R535: the index has been built since the always-on domain left reset (R537) -/
  indexed : Bool
  /-- R535: record log of region 2 (768 pages) -/
  system : RecLog
  /-- R535: record log of region 6 (29 pages) -/
  epoch : RecLog
  /-- R535: record log of region 7 (640 pages) -/
  user : RecLog
  /-- R534: pending write runs, in the order requested -/
  writes : List CWrite
  /-- R544: spread counters 0 to 255 -/
  spread : Tbl Spread
  /-- R542, R543: regions 2, 6 and 7 -/
  locks : Tbl RegionLock
deriving DecidableEq, Repr

/-! ### Host ports (02_host_ports.md) -/

/-- The five event logs of a head (R94). -/
inductive LogId where
  | info | warning | failure | fatal | dynCap
deriving DecidableEq, Repr

/-- CXL record type of a host log entry (Table 2-5). -/
inductive CxlRec where
  | generalMedia | dram | memoryModule | dynamicCapacity | vendor
deriving DecidableEq, Repr

/-- One entry of a head's event log. -/
structure LogEnt where
  kind : CxlRec
  /-- the recorder record, or for dynamic capacity the action: 0 add, 1 release request, 2 forced release, 5 released by the host -/
  ev : EvRec
  handle : Nat
  /-- R97: UUID of a Kunor vendor record; none for CXL's own records, whose UUIDs are CXL's -/
  uuid : Option Nat
  /-- R97: vendor-specific data of a Kunor vendor record; empty for CXL's own records -/
  data : List Byte
deriving DecidableEq, Repr

/-- One event log (R94). -/
structure EvLog where
  ents : List LogEnt
  overflow : Nat
  nextHandle : Nat
deriving DecidableEq, Repr

/-- The five logs of a head, or of the MCTP device set (R94, R528). -/
structure LogSet where
  info : EvLog
  warning : EvLog
  failure : EvLog
  fatal : EvLog
  dynCap : EvLog
deriving DecidableEq, Repr

/-- An HDM decoder (R74, Table 2-2). -/
structure Decoder where
  committed : Bool
  base : Nat
  size : Nat
  ways : Nat
  gran : Nat
  pos : Nat
  skip : Nat
deriving DecidableEq, Repr

/-- Link IDE of a head (R92, R93). -/
structure IdeSt where
  on : Bool
  insecure : Bool
  /-- key in use -/
  cur : Option Nat
  /-- key programmed and not yet started -/
  pend : Option Nat
deriving DecidableEq, Repr

/-- MetaField of a response (R69): the device sends no other value. -/
inductive MetaField where
  | noOp
deriving DecidableEq, Repr

/-- A response on a head's S2M channel (R68). -/
structure S2M where
  rtag : Nat
  /-- MemData; otherwise Cmp -/
  isData : Bool
  data : HostLine
  poison : Bool
  devload : Nat
  /-- R69 -/
  metaField : MetaField := .noOp
deriving DecidableEq, Repr

/-- One head. -/
structure HeadSt where
  /-- R58: the head is present under the strap -/
  present : Bool
  /-- R99: PERST_N is asserted -/
  perst : Bool
  /-- R62: the link is up -/
  linkUp : Bool
  /-- R60: rate in GT/s -/
  rate : Nat
  /-- R62: width in lanes -/
  width : Nat
  /-- R60 -/
  flit : FlitMode
  /-- R64: the link is in ASPM L1 -/
  l1 : Bool
  /-- R100 -/
  memActive : Bool
  /-- Table 2-7 MA_TIME in ms -/
  maTime : Nat
  /-- R100: reference point of the Memory_Active timer -/
  maRef : Nat
  /-- R84 -/
  viral : Bool
  /-- Table 2-7 VIRAL_INTERNAL -/
  viralInternal : Bool
  /-- R92, R93 -/
  ide : IdeSt
  /-- R92: PCIe link IDE key of CXL.io -/
  ideIo : Option Nat
  /-- R93: AER uncorrectable internal error -/
  aer : Bool
  /-- R29, R87: CXL.mem request credits are withheld -/
  withheld : Bool
  /-- R87: a GPF Phase 2 response is owed -/
  gpfWait : Bool
  /-- R86, R87, R90: GPF responses sent, oldest first, by phase -/
  gpfSent : List Nat
  /-- R100: the head was reset while the data path ran, so that its next link-up is the reference point -/
  resetRun : Bool
  /-- R74: 8 decoders -/
  decoders : List Decoder
  /-- R75: base and length of 8 regions, in GiB -/
  regions : List (Nat × Nat)
  /-- R80: generation number of the extent list -/
  extGen : Nat
  /-- R94 -/
  logs : LogSet
  /-- R98: interrupt setting per log -/
  intPolicy : List Nat
  /-- R98: MSI-X requests raised, oldest first: log number, or 5 background completion -/
  msix : List Nat
  /-- Table 2-7 VENDOR_EVT_EN -/
  vendorEvtEn : Bool
  /-- Table 2-7 DEVLOAD_EN -/
  devloadEn : Bool
  /-- R68: S2M responses sent, oldest first -/
  s2m : List S2M
deriving DecidableEq, Repr

/-- Where a request came from: a head, the fabric, or a bulk engine. -/
inductive Src where
  | head (h : Nat)
  | fabric (dev : Nat)
  | engine (e : Nat)
deriving DecidableEq, Repr

/-- Kinds of request (R68). -/
inductive ReqOp where
  | rd | rdData | specRd | wr | wrPtl
deriving DecidableEq, Repr

/-! ### Management complex (17_management_and_mailbox.md, 01_architecture.md) -/

/-- Return codes of Table 17-3. -/
inductive Rc where
  | success | bgStarted | invalidInput | unsupported | internalError | busy | mediaDisabled | invalidPayloadLength
  | fwInProgress | fwOutOfOrder | fwVerificationFailed | invalidSlot | activationRolledBack | activationColdRequired
  | invalidPhysicalAddress | incorrectPassphrase | unsupportedMailbox | aborted | invalidState
deriving DecidableEq, Repr

/-- What a command returns: the byte payload of R530, or the fields of a standard command whose layout is CXL's. -/
inductive CmdOut where
  | none
  | bytes (b : List Byte)
  | nums (n : List Nat)
  | ents (l : List LogEnt) (more : Bool)
deriving DecidableEq, Repr

/-- A background operation of a command interface (R527); `rc` is none while it runs. -/
structure Bg where
  op : Nat
  pct : Nat
  rc : Option Rc
deriving DecidableEq, Repr

/-- A command interface (R522, R523). -/
structure CciSt where
  /-- R523: opcode of the last command -/
  lastOp : Nat
  /-- R525: its return code -/
  rc : Rc
  /-- R526: its output -/
  out : CmdOut
  /-- R539: a command that waits for a COMMIT word, with the output it will return -/
  wait : Option (Nat × CmdOut)
  /-- R527 -/
  bg : Option Bg
  /-- R528: response message limit, 256 to 4,096 B -/
  limit : Nat
deriving DecidableEq, Repr

/-- A firmware transfer in progress (R518). -/
structure FwTransfer where
  cci : Nat
  slot : Nat
  /-- R518: the bytes that have arrived, in order -/
  data : List Byte
  lastTime : Nat
deriving DecidableEq, Repr

/-- An online activation in progress (R519): supervisors still to restart, in the order platform, fabric, host, media, then
the cores. -/
structure FwActivation where
  cci : Nat
  slot : Nat
  todo : List Nat
  prev : List Nat
deriving DecidableEq, Repr

/-- State of a supervisor (R40 to R42). -/
inductive SupMode where
  | off | running | restarting | halted
deriving DecidableEq, Repr

/-- A supervisor. -/
structure SupSt where
  mode : SupMode
  /-- R42: times of watchdog expiries in the last 600 s -/
  expiries : List Nat
  /-- CF02h: restarts since start -/
  restarts : Nat
  /-- CF02h: slot of its partition -/
  slot : Nat
  /-- CF02h: partition version -/
  version : Nat
deriving DecidableEq, Repr

/-- An SPDM session (R520). -/
structure SpdmSession where
  id : Nat
  established : Bool
  keyGen : Nat
  heartbeat : Nat
deriving DecidableEq, Repr

/-- The SPDM responder of one endpoint (R520): DOE of head 0 to 3, MCTP SMBus 4, MCTP I3C 5. -/
structure SpdmSt where
  versionDone : Bool
  capsDone : Bool
  algsDone : Bool
  sessions : List SpdmSession
  nextId : Nat
  /-- the last response: message code and fields -/
  resp : List Nat
deriving DecidableEq, Repr

/-- The management complex. -/
structure MgmtSt where
  /-- R512: MGMT has power and clock and core 0 runs the boot ROM or firmware -/
  running : Bool
  /-- R43: the management cores restart -/
  restarting : Bool
  /-- R516 -/
  recovery : Bool
  /-- R515: contents of slots A and B -/
  slotA : Option (List Byte)
  slotB : Option (List Byte)
  /-- R515 FW_SLOT: ACTIVE, 0 A or 1 B -/
  active : Nat
  /-- R515 FW_SLOT: NEXT -/
  nextSlot : Option Nat
  /-- R515 FW_SLOT: TRIES, 0 to 3 -/
  tries : Nat
  /-- R515: slot the device runs -/
  runSlot : Option Nat
  /-- R515: since when no watchdog has expired -/
  goodSince : Option Nat
  transfer : Option FwTransfer
  activation : Option FwActivation
  /-- R513, R514: revoked keys, one bit each -/
  revoked : BitVec 4
  /-- R520: debug lock fuse -/
  debugLock : Bool
  /-- Table 1-4, CF04h: debug access -/
  debugAccess : Bool
  /-- R7: grade fuse, true is FX -/
  gradeFX : Bool
  /-- R530 CF05h: serial number -/
  serial : Nat
  /-- CF05h: boot ROM version -/
  romVersion : Nat
  /-- R524: access level of each head -/
  access : List Nat
  /-- R522: the ten command interfaces -/
  ccis : Tbl CciSt
  /-- R528: the device log set that MCTP reads -/
  devLogs : LogSet
  /-- R98, R528: interrupt settings that MCTP gave the device log set -/
  devPolicy : List Nat
  host : SupSt
  media : SupSt
  fabric : SupSt
  platform : SupSt
  /-- R36: requests in the hub, oldest first -/
  hub : List HubReq
  /-- R36: requests delivered to a node's inbound queue and not yet completed, oldest first -/
  inbound : Tbl (List HubReq)
  /-- R36: completions returned: sender, receiver, and whether the request was applied -/
  hubDone : List (Nat × Nat × Bool)
  /-- R33: the microcode each unit sequencer runs, by node: 5 to 40 media channels, 41 to 48 DRAM channels, 49 to 56 fabric
  ports, 57 to 60 host heads; the PARTS hash of the image it came from -/
  ucode : Tbl Nat
  /-- R34, Table 1-4: value that a hub request last gave an item whose registers the manual does not describe, by its row from 0 -/
  items : Tbl Nat
  spdm : Tbl SpdmSt
  /-- R529: the interface that runs Sanitize -/
  sanitize : Option Nat
  /-- R206, 4204h: host's shutdown state, 1 dirty -/
  shutdownState : Nat
  /-- R293, R509, 4202h: warning thresholds: life used, device temperature high and low; none while disabled -/
  alerts : List (Option Int)
deriving DecidableEq, Repr

/-! ### Time base and clocks (14_time_base_and_clocks.md) -/

/-- PPS_STATE (Table 14-2). -/
inductive PpsState where
  | absent | locked | holdover | noisy
deriving DecidableEq, Repr

/-- State of a clock domain (R467, C600h). -/
inductive DomState where
  | running | gated | stopped | unpowered
deriving DecidableEq, Repr

/-- The time base policy register (Table 14-1). -/
structure TimePolicy where
  ppsEn : Bool
  ppsEdge : Bool
  /-- half-width in µs, 1 to 100,000 -/
  ppsWindow : Nat
  /-- signed ns -/
  ppsDelay : Int
  /-- 10 ns units, 1 to 255 -/
  ppsFilter : Nat
deriving DecidableEq, Repr

/-- The time base, its qualifier and the clock domains. -/
structure TimeSt where
  /-- ns elapsed on the device since the always-on domain left reset (R455: time elapsed); the model's own clock -/
  mono : Nat
  /-- the part of a ns already counted, in units of a billionth of a ns (R462 rates are in ppb) -/
  frac : Nat
  /-- Table 2-9 TB_NOW, 64 bits -/
  tbNow : Nat
  /-- Table 2-9 TB_LAST_PPS -/
  tbLastPps : Nat
  /-- Table 2-9 HOLDOVER_SECONDS, 16 bits saturating -/
  holdover : Nat
  /-- Table 2-9 PPS_STATE -/
  pps : PpsState
  /-- Table 2-9 TIME_SET -/
  timeSet : Bool
  /-- Table 2-9 TB_RUNNING -/
  tbRunning : Bool
  /-- Table 2-9 TB_MINUTE -/
  tbMinute : Nat
  /-- Table 2-9 SNAP_SEQ, 31 bits -/
  snapSeq : Nat
  /-- Table 2-9 SNAP_BUF -/
  snapBuf : Bool
  /-- R563: boundary of the snapshot copy in progress -/
  snapCopy : Option Nat
  /-- R455: second of the last tick or step -/
  secMark : Nat
  /-- R455: ticks since the always-on domain left reset -/
  ticks : Nat
  /-- R463: capture times of the acquisition edges, on the oscillator, newest first -/
  acq : List Nat
  /-- R460: device time of the last accepted edge -/
  lastAccept : Option Nat
  /-- R455: an edge was accepted since the last tick -/
  edgeSinceTick : Bool
  /-- Table 14-2: consecutive ticks without an accepted edge -/
  missing : Nat
  /-- Table 14-2: out-of-window edges since the last tick -/
  outWin : Nat
  /-- C600h: out-of-window edges since start -/
  outWinTotal : Nat
  /-- Table 14-2: consecutive clean seconds -/
  clean : Nat
  /-- R461: B in ns -/
  bound : Nat
  /-- R462: last phase error in ns -/
  phaseErr : Int
  /-- R462: rate correction in ppb -/
  rate : Int
  /-- R462: correction still to slew, in billionths of a ns -/
  slewRem : Int
  /-- R462: lead still to remove at half rate, in billionths of a ns -/
  halfRem : Nat
  /-- R462: a half-rate run is on -/
  halfRun : Bool
  /-- C600h: steps since start -/
  steps : Nat
  /-- C600h: half-rate runs since start -/
  halfRuns : Nat
  /-- R464: learned rate in ppb and second of its update, bins 0 to 82 from -40 °C -/
  bins : Tbl (Int × Nat)
  /-- R464: temperature of the always-on diode in 1/16 °C -/
  oscTemp : Int
  /-- R464: compensation in force, ppb -/
  oscComp : Int
  /-- R469: time-base alarm, 0 disabled -/
  alarm : Nat
  /-- R466: HREFCLK0A to HREFCLK1B good -/
  hrefGood : List Bool
  /-- R466 -/
  frefGood : Bool
  /-- R466 -/
  sysGood : Bool
  /-- R466: the SYSCLK PLLs run on the always-on oscillator -/
  sysFallback : Bool
  /-- R467: domains 1 to 40 -/
  domains : Tbl DomState
  /-- R48: domains whose PLL is locking, at most four -/
  locking : List Nat
  /-- R48: domains that wait to lock, in order -/
  lockQueue : List Nat
  /-- R468: stop requests held while a drain runs -/
  heldStops : List Nat
  /-- Table 14-1 -/
  policy : TimePolicy
deriving DecidableEq, Repr

/-! ### Start-up (20_startup_reset_and_errors.md) -/

/-- Progress of a start (R577 to R582). -/
structure StartSt where
  /-- R577: this start is warm -/
  warm : Bool
  /-- R578: phases of Table 20-1 that have completed since the start began -/
  phases : List Nat
  /-- R582: the start is held -/
  held : Bool
  /-- R12, R17, R101: Media Status of the CXL memory device status register reads Error -/
  mediaError : Bool
  /-- R100: end of the power-up sequence, device time -/
  upEnd : Nat
  /-- R581: end of phase 12, device time -/
  phase12 : Option Nat
  /-- R584: state of the JTAG TAP controller, 0 reset -/
  tap : Nat
  /-- R59, R474: strap pins as sampled: HBIF0, HBIF1 -/
  hbif0 : Bool
  hbif1 : Bool
  /-- R522: SBADDR straps as sampled -/
  sbaddr : Nat
  /-- R599: STRAP_TEST as sampled -/
  strapTest : Bool
deriving DecidableEq, Repr

/-! ### Media channels and dies (10_media_channel.md) -/

/-- State of a sense engine (Table 10-6). -/
inductive EngState where
  | idle | sensing | lead | held
deriving DecidableEq, Repr

/-- A sense form (R332): READ SEG, READ SOFT or READ PARAM PAGE. -/
inductive SenseForm where
  | seg (tile seg : Nat) (o0 o1 o2 : Int)
  | soft (tile seg : Nat) (o0 o1 o2 : Int)
  | page (copy : Nat)
deriving DecidableEq, Repr

/-- A sense engine with its data register (R323, R332). -/
structure SenseEng where
  st : EngState
  /-- the form being sensed -/
  form : Option SenseForm
  /-- R332: a form held in Lead -/
  next : Option SenseForm
  /-- R332: the register is Full -/
  full : Bool
  /-- R333: valid length of the register in 8 B units -/
  valid : Nat
  /-- R332: 1,184 B -/
  data : BitVec 9472
  /-- Table 10-8 BLANK -/
  blank : Bool
  /-- R333: an output form accepted in Lead waits for the result: START, LEN, FREE -/
  outDue : List (Nat × Nat × Bool)
deriving DecidableEq, Repr

/-- Array operation of a die (R336, R337). -/
inductive ArrayOp where
  | prog (tile seg : Nat)
  | reset (tile : Nat)
deriving DecidableEq, Repr

/-- An ONB512 die. -/
structure DieSt where
  /-- R351: the die answers -/
  present : Bool
  /-- R344: parameter page copies, 512 B each -/
  page0 : List Byte
  page1 : List Byte
  /-- R323: program buffer, 592 B -/
  buf : BitVec 4736
  /-- R336: which buffer bytes were written since the setup -/
  bufSet : BitVec 592
  /-- R336: segment named by a setup with no confirm since -/
  setup : Option (Nat × Nat)
  e0 : SenseEng
  e1 : SenseEng
  /-- Table 10-8 ARRAY_BUSY with what runs -/
  array : Option ArrayOp
  /-- Table 10-8 -/
  suspended : Bool
  progFail : Bool
  resetFail : Bool
  cmdReject : Bool
  cmdCheck : Bool
  /-- Table 10-8 HOT: die temperature above TEMP_HOT -/
  hot : Bool
  /-- Table 10-9 features 00h to 03h, package-wide, held by die 0 -/
  odtWr : Nat
  odtPark : Nat
  drive : Nat
  vrefDq : Nat
  /-- Table 10-9 features 04h and 05h -/
  softBand : Nat
  trainMode : Nat
  /-- R347: latest temperature conversion in 1/16 °C, and whether one completed since reset -/
  temp : Int
  tempDone : Bool
  /-- R348: end of a calibration of the package, held by die 0 -/
  calEnd : Nat
  /-- R323 to R325: programmed segments by tile × 131,072 + segment; an unlisted one is blank -/
  segs : Tbl (BitVec 4736)
  /-- R325, R337: tiles whose content is undefined, with the drawing that names it -/
  undefTiles : Tbl Nat
deriving DecidableEq, Repr

/-- State of a media channel (C350h); `down` before bring-up. -/
inductive ChanMode where
  | down | inService | training | failed | outOfService
deriving DecidableEq, Repr

/-- Training results of a package (R352). -/
structure PkgTrain where
  rd0 : Nat
  rd1 : Nat
  wr0 : Nat
  wr1 : Nat
  vref : Nat
  run : Nat
  /-- R353: temperature when last trained, 1/16 °C -/
  temp : Int
deriving DecidableEq, Repr

/-- A transfer on a channel's bus (R354). -/
inductive BusForm where
  /-- STATUS poll of a package -/
  | poll (pkg : Nat)
  /-- output of LEN units of 8 B from START -/
  | output (die start len : Nat)
  /-- a sense form -/
  | sense (die : Nat)
  /-- program data of LEN units of 8 B from START -/
  | data (die start len : Nat)
  /-- STATUS of a busy die -/
  | status (die : Nat)
deriving DecidableEq, Repr

/-- A transfer with the read that it serves (R354). -/
structure BusXfer where
  form : BusForm
  /-- of a LAT or WR queue's read -/
  urgent : Bool
  rd : Option ReadId
  /-- R355: sent again after a command check failure -/
  again : Bool
deriving DecidableEq, Repr

/-- A media channel. -/
structure ChanSt where
  mode : ChanMode
  /-- R490: Dormant has taken the channel out of service -/
  dorm : Bool
  /-- R326: MRESET_N is low -/
  mreset : Bool
  /-- R342: MCK in MHz, 0 when stopped -/
  mck : Nat
  /-- R351: bring-up has found the population -/
  probed : Bool
  /-- R351: dies found in each package -/
  found : List Nat
  /-- C350h counts -/
  trainings : Nat
  retrains : Nat
  checks : Nat
  rejects : Nat
  /-- R352: MCA delay -/
  mca : Nat
  pkgs : Tbl PkgTrain
  /-- R334: newest poll of each package: beat 0, beat 1 -/
  polls : Tbl (Nat × Nat)
  /-- R355: consecutive invalid statuses by die index 16 × package + die -/
  invalid : Tbl Nat
  /-- R355: dies whose invalid statuses have led to a retrain, with no valid status since -/
  retrained : List Nat
  /-- R353: times of CMD_CHECK in the last second -/
  checkTimes : List Nat
  /-- R353: a retrain is wanted -/
  wantRetrain : Bool
  /-- C351h: interface whose Retrain Media Channel runs -/
  trainCci : Option Nat
  /-- R356: PG of the package group was lost at this device time -/
  pgLost : Option Nat
  /-- R356: the one re-enable has been used -/
  reenabled : Bool
  /-- R307, R269: last READ SEG or READ SOFT that the media scheduler sent: die, tile, segment, three offsets -/
  lastRead : Option (Nat × Nat × Nat × Int × Int × Int)
  /-- bytes the dies drove for the last command -/
  resp : List Byte
  /-- R354: transfers that wait for the bus, oldest first, and the one that has it -/
  bus : List BusXfer
  onBus : Option BusXfer
deriving DecidableEq, Repr

/-- The media channels and their dies. -/
structure MediaSt where
  /-- dies by (channel × 8 + package) × 16 + die -/
  dies : Tbl DieSt
  chans : Tbl ChanSt
  /-- Table 2-7 CHANNELS, PACKAGES and DIES: the conforming population -/
  popCh : Nat
  popPk : Nat
  popDies : Nat
deriving DecidableEq, Repr

/-! ### Tenants, extents, flow queues (03_tenants_and_flow_queues.md) -/

/-- T_STATE (Table 3-1). -/
inductive TState where
  | free | active | erasing
deriving DecidableEq, Repr

/-- State of a key slot (R132); a loaded slot holds the 64 B key pair. -/
inductive SlotState where
  | empty
  | loaded (key : Nat)
  /-- R134, R209: a load has been accepted and its image entries are being restored; the slot serves no extent yet -/
  | loading (key : Nat)
  | erased
deriving DecidableEq, Repr

/-- The QoS profile of a tenant: words 08h, 10h, 18h, 20h and 28h (Table 3-1). -/
structure Qos where
  w08 : W64
  w10 : W64
  w18 : W64
  w20 : W64
  w28 : W64
deriving DecidableEq, Repr

/-- A tenant entry (Table 3-1); EXTENT_COUNT is computed. -/
structure TenantSt where
  /-- Table 3-1 T_STATE -/
  st : TState
  /-- Table 3-1 KEY_SLOT, while bound -/
  slot : Option Nat
  /-- Table 3-1 KEY_GEN -/
  keyGen : Nat
  /-- Table 3-1 METER_EN -/
  meterEn : Bool
  /-- Table 3-1 EPOCH_MISMATCH -/
  mismatch : Bool
  /-- R110: QoS profile of the active bank -/
  qosA : Qos
  /-- R110: QoS profile of the staged bank -/
  qosS : Qos
  /-- Table 3-1 KEY_CHECK -/
  keyCheck : Nat
  /-- R135: consecutive failed loads -/
  fails : Nat
  /-- R135: end of the refusal -/
  refusal : Nat
  /-- R164: level of the drain bucket, in 1/1,000 B -/
  drainLevel : Int
  /-- R164: time of its last credit -/
  drainAt : Nat
deriving DecidableEq, Repr

/-- E_STATE (Table 3-3); Locked is derived. -/
inductive EState where
  | unassigned | assigned | pending | added | releasing | erasing
deriving DecidableEq, Repr

/-- An extent entry of one bank (Table 3-2). -/
structure ExtentEnt where
  /-- Table 3-2 E_STATE -/
  st : EState
  /-- Table 3-2 HEAD -/
  head : Nat
  /-- Table 3-2 ACCESS_DEVICE -/
  accessDev : Nat
  /-- Table 3-2 OWNER_DEVICE -/
  ownerDev : Nat
  /-- Table 3-2 OWNER_EXTENT -/
  ownerExtent : Nat
  /-- Table 3-2 TENANT -/
  tenant : Nat
  /-- Table 3-2 KEY_SLOT -/
  keySlot : Nat
  /-- Table 3-2 CLASS_PROFILE -/
  prof : Nat
deriving DecidableEq, Repr

/-- A token bucket (R124): operations in 1/16,000, bytes in 1/1,000; the credit of one ns is then a whole number. -/
structure Bucket where
  ops : Int
  bytes : Int
deriving DecidableEq, Repr

/-- A flow queue (R123, R124). -/
structure FlowQ where
  /-- R123: tags of its requests, first in first out -/
  reqs : List Nat
  /-- R124: conformance bucket -/
  conf : Bucket
  /-- R124: service bucket -/
  serv : Bucket
  /-- R124: ceiling bucket -/
  ceil : Bucket
  /-- R126: time of the last credit -/
  at_ : Nat
  /-- R126: deficit in B -/
  deficit : Nat
  /-- C110h: dispatches at level 1 -/
  lvl1 : Nat
  /-- C110h: dispatches at level 2 -/
  lvl2 : Nat
deriving DecidableEq, Repr

/-- Where an accepted request stands. -/
inductive ReqAt where
  /-- in its flow queue -/
  | queue
  /-- sent to a remote owner (R419) -/
  | remote (dev : Nat)
  /-- joined to a miss-table entry (R151) -/
  | fill
  /-- a write waiting in the front cache (R163) -/
  | stall
  /-- a write whose Cmp follows its frame's commit (Table 4-7) -/
  | commit
  /-- refused by the classifier, or discarded by a head in viral (R84, R119) -/
  | denied
deriving DecidableEq, Repr

/-- A request that holds a tag (R66). -/
structure Req where
  src : Src
  op : ReqOp
  /-- R50: local address, of the host line -/
  addr : Nat
  /-- the tag of the host, fabric message or engine step, returned in the response -/
  rtag : Nat
  data : HostLine
  be : W64
  poison : Bool
  /-- R32: bytes of the write data were bad and are not stored -/
  badData : Bool
  tenant : Nat
  /-- R117: class, 0 LAT, 1 BULK, 2 WR, 3 ENG -/
  cls : Nat
  /-- R125 -/
  within : Bool
  /-- R156 -/
  stream : Bool
  /-- R126: level it was dispatched at, 0 before -/
  level : Nat
  /-- R127: DevLoad judged at dispatch -/
  devload : Nat
  loc : ReqAt
  /-- device time of arrival -/
  at_ : Nat
  /-- R117: front-cache partition of its class profile -/
  part : Nat
  /-- R124: the bytes it costs: 64, or those of an engine's descriptor step -/
  cost : Nat := 64
  /-- R99: the head has been reset since; the response is discarded -/
  quiet : Bool
  /-- Table 19-3 OUTCOME so far -/
  outcome : Nat
deriving DecidableEq, Repr

/-- A tracker of the sequential detector (R156). -/
structure SeqTrack where
  src : Src
  tenant : Nat
  line : Nat
  count : Nat
deriving DecidableEq, Repr

/-- A Crypto-Erase in progress (R139). -/
structure EraseJob where
  tenant : Nat
  cci : Nat
deriving DecidableEq, Repr

/-- Tenants, extents, class profiles, key slots, flow queues and the tag table. -/
structure TenancySt where
  /-- R109: tenant table -/
  tenants : Tbl TenantSt
  /-- R132: key slots; an unlisted one is Empty -/
  slots : Tbl SlotState
  /-- R112, R121: extent entries, active bank -/
  extA : Tbl ExtentEnt
  /-- R112, R121: extent entries, staged bank -/
  extS : Tbl ExtentEnt
  /-- R116, R121: class profiles, active bank -/
  profA : Tbl Nat
  /-- R116, R121: class profiles, staged bank -/
  profS : Tbl Nat
  /-- Table 2-7 EPOCH: epoch number of the active bank -/
  epochA : Nat
  /-- R439: digest of the active bank -/
  digestA : Nat
  /-- R443: epoch number of the staged bank -/
  epochS : Nat
  /-- R122: the copy of the active bank into the staged bank runs -/
  bankCopy : Bool
  /-- R289: withheld extents -/
  withheld : List Nat
  /-- R289: extents with an outstanding release request -/
  releaseAsked : List Nat
  /-- R78: released extents whose 4803h command still waits, with the interface -/
  releaseWait : List (Nat × Nat)
  /-- R262: affected extents -/
  affected : List Nat
  /-- R123: flow queues by number 4 × t + c -/
  queues : Tbl FlowQ
  /-- R66: requests by tag -/
  reqs : Tbl Req
  /-- R126: round-robin position of each class -/
  rr : List Nat
  /-- R126: queue that the deficit round-robin visits next -/
  drr : Nat
  /-- R156: trackers, most recently matched first, at most 256 -/
  trackers : List SeqTrack
  /-- R139: erasures in progress, at most 16 -/
  erasing : List EraseJob
  /-- R209: tenants whose Load Tenant Key restores pending image entries, with the interface -/
  loads : List (Nat × Nat)
  /-- R130: CAUSE_OVERCOMMIT (Table 2-7) -/
  overcommit : Bool
deriving DecidableEq, Repr

/-! ### Front cache (04_front_cache.md) -/

/-- LSTATE (Table 4-3). -/
inductive LState where
  | invalid | fillPending | clean | dirty | cleaning | cleaningRewritten
deriving DecidableEq, Repr

/-- Source of a line's poison (R81 to R83). -/
inductive PoisonSrc where
  | internal | external | injected
deriving DecidableEq, Repr

/-- A front line with its directory entry (Table 4-2). -/
structure Line where
  /-- Table 4-2 TAG -/
  tag : Nat
  /-- Table 4-2 TENANT -/
  tenant : Nat
  /-- Table 4-2 LSTATE -/
  st : LState
  /-- Table 4-2 AGE -/
  age : Nat
  /-- Table 4-2 POISON -/
  poison : Bool
  /-- Table 4-2 DIRTY_HL -/
  dirtyHl : BitVec 4
  /-- Table 4-2 VALID -/
  valid : ByteMask
  /-- Table 4-1: 256 B of data -/
  data : FrontLine
  /-- R149: the way is excluded from victim searches -/
  excluded : Bool
  /-- R157: partition that allocated the line -/
  part : Nat
deriving DecidableEq, Repr

/-- Stage of a fetch of one front line's codeword. -/
inductive FillStage where
  /-- held behind a maintenance walk (R177) -/
  | held
  /-- map entry being read (R213) -/
  | mapRead
  /-- waits on a LOCKED entry or an affected extent (Table 6-5, R262) -/
  | blocked
  /-- codeword read from a back-cache slot (R218) -/
  | back (slot pfa : Nat)
  /-- direct read of quad position q (R222); positions are 0 to 7 data segments, 8 parity -/
  | direct (pfa q : Nat)
  /-- reads around the missing position q: those still awaited (R222) -/
  | around (pfa q : Nat) (waiting : List Nat) (decodeFail : Bool)
  /-- slow path (R225): positions whose decode failed with their soft reads so far, positions waited for, and positions
  that stay missing; a recovery read has no position of its own, q = 9 (R280) -/
  | slow (pfa q : Nat) (soft : List (Nat × Nat)) (waiting lost : List Nat)
  /-- the data is at hand -/
  | ready
deriving DecidableEq, Repr

/-- A fetch of one front line's codeword, for a fill or for an internal read (R218, R221 to R225). -/
structure Fetch where
  stage : FillStage
  /-- fetched data, decrypted, and poison, once at hand -/
  data : FrontLine
  poison : Bool
  /-- R217, R221: the request is of a LAT or WR queue -/
  latency : Bool
  /-- Table 19-3 OUTCOME of the fill so far: 1 back cache, 2 direct, 3 around, 4 reconstruction, 5 slow path, 7 zero fill -/
  outcome : Nat
deriving DecidableEq, Repr

/-- A miss-table entry (R151 to R153), one per front line number. -/
structure Miss extends Fetch where
  /-- R151: directory index 16 × set + way of the line, if the fetch fills one -/
  idx : Option Nat
  /-- R153: tags of waiting reads, in arrival order -/
  waiters : List Nat
  /-- R213: the copy the entry is read from, B if true -/
  copyB : Bool
  /-- R241: the other copy has failed already -/
  second : Bool
  /-- R160: AGE given at the fill -/
  age : Nat
  tenant : Nat
  /-- R72: what a commit of the frame has given the front line since its entry was read, with its poison -/
  newer : Option (FrontLine × Bool)
deriving DecidableEq, Repr

/-- What an internal read serves (R221). -/
inductive ReadUse where
  /-- the missing bytes of a frame in assembly (R166) -/
  | merge (asm : Nat)
  /-- a racking or topping copy (R258) -/
  | copy (asm : Nat)
  /-- promotion of a frame (R217) -/
  | promote (lfa : Nat)
  /-- a recovery read (R280) -/
  | recovery (lfa : Nat)
deriving DecidableEq, Repr

/-- An internal read of one codeword (R221). -/
structure IRead extends Fetch where
  use_ : ReadUse
  /-- front line number of the codeword -/
  line : Nat
deriving DecidableEq, Repr

/-- A read at a die, in a sense engine or waiting (R221). -/
structure DieRead where
  rd : ReadId
  /-- stripe position it reads, and of which frame -/
  pos : Nat
  pfa : Nat
  /-- a LAT or WR queue's read, which starts before others -/
  latency : Bool
  /-- R311: shift of a soft read, 0 for a hard one -/
  shift : Int
  /-- in a sense engine -/
  started : Bool
  /-- R354: the channel controller has asked for its output -/
  asked : Bool
deriving DecidableEq, Repr

/-- A frame in assembly: host clean, merged write, racking or topping copy (R166, R258). -/
inductive AsmKind where
  /-- cleaning of front lines -/
  | clean
  /-- a write merged by the frame engine (Table 4-7), with its tag; none for a restored entry or Clear Poison -/
  | merge (tag : Option Nat)
  /-- racking or topping copy of a PFA: FM_ORIGIN 1 or 2 -/
  | copy (oldPfa origin : Nat)
deriving DecidableEq, Repr

/-- A frame being assembled and programmed. -/
structure Asm where
  kind : AsmKind
  lfa : Nat
  tenant : Nat
  /-- Table 7-3 FM_KEY_GEN at assembly -/
  keyGen : Nat
  /-- Table 3-8: the pipeline's key copy -/
  key : Nat
  /-- gathered bytes, byte valid bits by byte of the frame -/
  image : FrameData
  have_ : BitVec 4096
  /-- a copy moves this ciphertext (R137) -/
  cipher : Option Cipher
  /-- directory indices of the gathered lines -/
  lines : List Nat
  /-- R167: front lines to set and to clear in LINE_POISON at the commit -/
  poisonSet : BitVec 16
  poisonClr : BitVec 16
  /-- R166: bytes of the frame are still missing -/
  merging : Bool
  /-- R166, R258: the internal reads of the frame have been issued -/
  begun : Bool
  /-- R243 -/
  wseq : Nat
  /-- PFA it is placed at -/
  pfa : Option Nat
  /-- R275: priority of Table 8-3 -/
  prio : Nat
  /-- R164: bytes to debit from the tenant's drain bucket -/
  debit : Nat
  /-- Table 4-7: tags acknowledged at the commit -/
  acks : List Nat
  /-- R208: image entries (DRAIN_SEQ, FRAME_NO, entry) resolved by the commit -/
  resolves : List (Nat × Nat × Nat)
  /-- R83, R315: interfaces whose command completes at the commit -/
  ccis : List (Nat × Nat)
  /-- R164: gathered by reserved or spare drain -/
  limited : Bool
  /-- programming has begun -/
  programming : Bool
deriving DecidableEq, Repr

/-- FRONT_MODE (Table 4-7). -/
inductive FrontMode where
  | writeBack | writeThrough | draining | off
deriving DecidableEq, Repr

/-- A maintenance operation (R176). -/
structure Maint where
  op : Nat
  cci : Option Nat
  start : Nat
  len : Nat
  /-- 0 running, 1 done, 2 aborted (C209h) -/
  status : Nat
  invalidated : Nat
  skipped : Nat
  firstSkip : Nat
  /-- time base at completion -/
  doneAt : Nat
  /-- R177: the walk has ended; cleans may still be awaited -/
  walked : Bool
  /-- R177: fills pending at acceptance, which complete before the operation acts on their lines -/
  fills : List Nat
  /-- R177: front lines present at acceptance and not allocated anew since -/
  lines : List Nat
  /-- Table 4-8: front lines found Fill-Pending, which are invalidated after their fill -/
  late : List Nat
  /-- Table 4-8: LFAs whose cleaning the operation awaits -/
  awaits : List Nat
  /-- R173: accepted in Off -/
  inOff : Bool
deriving DecidableEq, Repr

/-- The front cache. -/
structure FrontSt where
  /-- R169: FRONT_MODE -/
  mode : FrontMode
  /-- R173: INV_ALL_DONE -/
  invAllDone : Bool
  /-- R144: lines by 16 × set + way; an unlisted one is Invalid -/
  lines : Tbl Line
  /-- R151: miss table by front line number -/
  miss : Tbl Miss
  /-- R157: way masks of the eight partitions -/
  masks : List W16
  /-- Table 4-5 L2_DIRTY_LIMIT -/
  l2Limit : Nat
  /-- Table 4-5 MAX_DIRTY_AGE, 10 ms units -/
  maxDirtyAge : Nat
  /-- Table 4-5 COALESCE, µs -/
  coalesce : Nat
  /-- R201: DIRTY_BUDGET in MiB -/
  budget : Nat
  /-- C200h: SET_STALLS -/
  setStalls : Nat
  /-- R164: time each frame first became dirty, by LFA, in 64 µs -/
  dirtyAt : Tbl Nat
  /-- R159, R164: frames nominated for urgent cleaning -/
  urgent : List Nat
  /-- R164: deficits of spare drain by tenant -/
  spareDef : Tbl Nat
  /-- R164: tenant that spare drain visits next -/
  spareRr : Nat
  /-- R221: internal reads, by number -/
  ireads : Tbl IRead
  nextRead : Nat
  /-- R221: reads at each die, in order of arrival -/
  dieReads : Tbl (List DieRead)
  /-- R166: frames in assembly, by number -/
  asms : Tbl Asm
  nextAsm : Nat
  /-- R176: maintenance operations, newest first -/
  maint : List Maint
  /-- R174: interfaces whose Disable awaits Off -/
  disableCci : List Nat
  /-- R208, R209: image entries stored in a line of a frame in write-through, resolved by that frame's commit: LFA, DRAIN_SEQ, FRAME_NO,
  entry -/
  stored : List (Nat × Nat × Nat × Nat)
  /-- R159, R163: requests that wait in the front cache, in order, with the time each began to wait -/
  stalls : List (Nat × Nat)
  /-- R179: tenants whose Unload awaits cleaning, with the interface -/
  unloads : List (Nat × Nat)
  /-- R81 to R83: source recorded of poisoned front lines, by front line number; an unlisted one is Internal -/
  poisonSrcs : Tbl PoisonSrc
  /-- R234: counts of Table 6-11: direct, around busy, around cap, reconstructions, slow path, uncorrectable, held -/
  readCounts : List Nat
deriving DecidableEq, Repr

/-! ### Map entries and journal records (07_translation_map_and_journal.md) -/

/-- STATE of a map entry (Table 7-1). -/
inductive MState where
  | unmapped | media | back | trimmed | locked
deriving DecidableEq, Repr

/-- A map entry (Table 7-1); CHECK is computed. -/
structure MapEnt where
  /-- Table 7-1 STATE -/
  st : MState
  /-- Table 7-1 LINE_POISON -/
  poison : BitVec 16
  /-- Table 7-1 LOC -/
  loc : Nat
deriving DecidableEq, Repr

/-- One DRAM copy of the map: listed entries, and extents whose unlisted entries read TRIMMED; every other unlisted entry
reads UNMAPPED. -/
structure MapCopy where
  ents : Tbl MapEnt
  trimmed : List Nat
  /-- R263: extents whose every entry reads LOCKED -/
  locked : List Nat
  /-- R241: LFAs whose entry fails its CHECK in this copy -/
  bad : List Nat
deriving DecidableEq, Repr

/-- Journal records (Tables 7-6, 8-10, 9-4). -/
inductive JRec where
  | mapSet (lfa : Nat) (ent : MapEnt) (wseq tenant : Nat)
  | mapMove (lfa oldPfa newPfa wseq origin : Nat)
  | mapTrim (first count tenant : Nat)
  | mapPoison (lfa : Nat) (mask : BitVec 16)
  | groupOpen (g role vintage : Nat)
  | groupClose (g frames : Nat)
  | groupPendingReset (g : Nat)
  | groupFree (g : Nat)
  | groupWear (g cycles : Nat)
  | tileFailed (g quad cause : Nat)
  | tileSubstitute (g quad sub : Nat)
  | groupRetired (g cause : Nat)
  | dieSetDegraded (ds quad : Nat)
  | extentWithhold (e : Nat) (withheld : Bool)
  | groupWeather (xs : List (Nat × Nat))
  | groupReads (xs : List (Nat × Nat))
  | groupTrim (g : Nat) (t0 t1 t2 : Int)
  | imageRelocated (seq set startW rounds : Nat)
  | tenantWord (t off : Nat) (act stg : Bool) (value : Nat)
  | extentEntry (e : Nat) (act stg : Bool) (ent : ExtentEnt)
  | classProfile (p : Nat) (act stg : Bool) (value : Nat)
  | bankSwap (epoch digest : Nat)
  | imageResolved (seq frame mask : Nat)
  | imageRetired (seq : Nat)
  | ckptBegin (slot seq : Nat)
  | ckptEnd (slot seq : Nat)
  /-- a record of a reserved type (R247) -/
  | other (code : Nat)
deriving DecidableEq, Repr

/-- A committed record (Table 7-5). -/
structure JEnt where
  /-- Table 7-5 REC_SEQ -/
  seq : Nat
  /-- Table 7-5 REC_FLAGS bit 0 -/
  spilled : Bool
  /-- R184: device time of its commit -/
  at_ : Nat
  body : JRec
deriving DecidableEq, Repr

/-! ### Persistence and hold-up (05_persistence_and_holdup.md) -/

/-- A run record (Table 5-4). -/
structure RunRec where
  kind : Nat
  triggers : Nat
  set : Nat
  seq : Nat
  startW : Nat
  rounds : Nat
  tail : Nat
  dump : Nat
  time : Nat
  vStart : Nat
  vEnd : Nat
deriving DecidableEq, Repr

/-- An entry of a dump frame (Table 5-3) with its slot: the line's ciphertext (R192). -/
structure DumpEnt where
  lfa : Nat
  line : Nat
  tenant : Nat
  valid : ByteMask
  poison : Bool
  dirtyHl : BitVec 4
  data : FrontLine
deriving DecidableEq, Repr

/-- What an image frame holds: a journal frame's records, or dump entries (R187, R191). -/
inductive ImgBody where
  | tail (recs : List JEnt)
  | dump (ents : List DumpEnt)
deriving DecidableEq, Repr

/-- A frame of a drain image (R190, R191). -/
structure ImgFrame where
  /-- Table 5-2 DRAIN_SEQ -/
  seq : Nat
  /-- Table 5-2 FRAME_NO -/
  no : Nat
  /-- Table 7-3 FM_WSEQ -/
  wseq : Nat
  body : ImgBody
deriving DecidableEq, Repr

/-- Hold-up parameters (Table 5-5). -/
structure HoldPolicy where
  holdPower : Nat
  vCutoff : Nat
  iTest : Nat
  senseRatio : Nat
  supplyChannel : Nat
  supplyTrip : Nat
  measurePeriod : Nat
  lullWait : Nat
deriving DecidableEq, Repr

/-- Phase of a hold-up measurement (R198). -/
inductive HoldPhase where
  | idle | lowering | forced | test | recovering | retry
deriving DecidableEq, Repr

/-- A drain in progress (R187). -/
structure DrainRun where
  /-- Table 5-4 TRIGGERS -/
  triggers : Nat
  set : Nat
  seq : Nat
  startW : Nat
  /-- R187: device time of the trigger -/
  at_ : Nat
  vStart : Nat
  /-- R87: heads that are owed a Phase 2 response -/
  heads : List Nat
  /-- R189, R190: die sets that take part, ascending -/
  parts : List Nat
  /-- R187: the image's frames, once the frames in program have ended -/
  frames : Option (List ImgFrame)
  /-- R190: FRAME_NOs that each die set still has to program, in order -/
  left : Tbl (List Nat)
  /-- R190: rounds that each die set has started -/
  rounds : Tbl Nat
  /-- R193: tail and dump frames whose program has completed -/
  tails : Nat
  dumps : Nat
  /-- R295: group and quad of the program failures of the drain -/
  faults : List (Nat × Nat)
deriving DecidableEq, Repr

/-- Hold-up bank, drains and images. -/
structure PersistSt where
  /-- R187 -/
  drain : Option DrainRun
  /-- C723h, R194: RUN -/
  run : Option RunRec
  /-- R194: DRAIN_LAST -/
  drainLast : Option RunRec
  /-- R190: W of drain sets 0 and 1 -/
  w0 : Nat
  w1 : Nat
  /-- R186: the set armed for the next drain -/
  armed : Nat
  /-- R186: next drain sequence number -/
  nextDrain : Nat
  /-- R194: IMAGE_LIST -/
  imageList : List RunRec
  /-- R190, R191: image frames on the medium, by PFA -/
  image : Tbl ImgFrame
  /-- R190: drain sets whose reset is in progress -/
  setReset : List Nat
  /-- R316: device time at which a relocation without room was logged -/
  relocAt : Option Nat
  /-- R207: image index: entries not resolved, by (DRAIN_SEQ × 2^32 + FRAME_NO) × 16 + entry -/
  index : Tbl DumpEnt
  /-- R295: DRAIN_FAULTS: group and quad of program failures of a drain -/
  faults : List (Nat × Nat)
  /-- R488: the power-fail condition is latched -/
  pwrFail : Bool
  /-- PWR_FAIL_N is low -/
  pwrFailPin : Bool
  /-- R185: consecutive samples below SUPPLY_TRIP -/
  lowSamples : Nat
  /-- Table 5-5 -/
  policy : HoldPolicy
  /-- R198: phase of the measurement -/
  phase : HoldPhase
  /-- R198: when the phase began -/
  phaseAt : Nat
  /-- Table 5-7 HOLD_STATE but for Testing and Low: 0 Unmeasured, 1 Good, 3 Failed -/
  holdState : Nat
  /-- R198: HOLD_TEST pin -/
  holdTest : Bool
  /-- R200: bank voltage averaged over 1 ms, in 10 mV -/
  vNow : Nat
  /-- Table 5-7 V0 -/
  v0 : Nat
  /-- Table 5-7 ESR, 0.1 mΩ -/
  esr : Nat
  /-- Table 5-7 C_UF -/
  cUf : Nat
  /-- R200: E_u in µJ -/
  energy : Nat
  /-- Table 5-7 LAST_MEASURE -/
  lastMeasure : Nat
  /-- R199: the last good C and ESR are held -/
  measured : Bool
  /-- R198: the lowered budget of a measurement, in MiB -/
  testCap : Option Nat
  /-- R437: the lowered budget of bracing, in MiB -/
  braceCap : Option Nat
  /-- R198: v0 of the measurement under way, µV -/
  v0New : Nat
  /-- R199: when a failed or abandoned measurement repeats -/
  retryAt : Option Nat
  /-- R203 -/
  spill : Bool
  /-- R198: the interface whose Measure Hold-Up runs -/
  measureCci : Option Nat
  /-- R205, R580: the unsafe shutdown of this start has been counted -/
  counted : Bool
deriving DecidableEq, Repr

/-! ### Back cache (06_read_path_and_latency_bounds.md) -/

/-- D_STATE (Table 6-6). -/
inductive DState where
  | free | filling | valid | quarantined
deriving DecidableEq, Repr

/-- A back-cache slot with its directory entry (Table 6-6). -/
structure Slot where
  lfa : Nat
  pfa : Nat
  tenant : Nat
  /-- D_QUARANTINE: time base bits [41:10] -/
  quarantine : Nat
  ref : Bool
  st : DState
  /-- R216: ciphertext of the frame -/
  data : Cipher
  /-- Table 11-8: the directory entry is on a frozen channel -/
  pinned : Bool
  /-- Table 11-8: the slot's release is deferred -/
  deferred : Bool
deriving DecidableEq, Repr

/-- An entry of the promotion filter (R217). -/
structure Promo where
  lfa : Nat
  count : Nat
  start : Nat
  last : Nat
deriving DecidableEq, Repr

/-- The back cache. -/
structure BackSt where
  /-- R215: slots by number; an unlisted one is Free -/
  slots : Tbl Slot
  /-- R219: position of the clock sweep -/
  hand : Nat
  /-- R217: an install was skipped, so the sweep evicts the next slot it selects -/
  wanted : Bool
  /-- R217: promotion filter -/
  filter : List Promo
  /-- R217: promotions in progress: LFA and the slot taken -/
  promoting : List (Nat × Nat)
  /-- Table 6-7 PROMOTE_WINDOW, 10 ms units -/
  window : Nat
  /-- Table 6-7 PROMOTE_FILLS -/
  fills : Nat
  /-- Table 6-7 PROMOTE_BULK -/
  bulk : Bool
  /-- Table 6-7 INSTALL_ON_COMMIT -/
  onCommit : Bool
  /-- Table 6-7 INSTALL_ON_PROMOTE -/
  onPromote : Bool
  /-- C330h -/
  hits : Nat
  installs : Nat
  evictions : Nat
deriving DecidableEq, Repr

/-! ### Map, journal and checkpoint (07_translation_map_and_journal.md) -/

/-- A journal frame on the medium (R249); PAD records are not listed. -/
structure JFrame where
  /-- FRAME_HEADER: REC_SEQ of slot 1 -/
  first : Nat
  ents : List JEnt
  /-- FRAME_HEADER: newest complete checkpoint when it was programmed -/
  ckpt : Nat
deriving DecidableEq, Repr

/-- FM_KIND of a frame of host data, with its metadata shares (Table 7-3). -/
structure MFrame where
  lfa : Nat
  wseq : Nat
  tenant : Nat
  keyGen : Nat
  poison : BitVec 16
  origin : Nat
  source : Nat
  data : Cipher
deriving DecidableEq, Repr

/-- Table 8-1. -/
inductive GState where
  | free | open_ | closed | pendingReset | resetting | resetSuspect | retired | metadata | spare
deriving DecidableEq, Repr

/-- A group table entry (Table 8-2). -/
structure Group where
  /-- Table 8-2 G_STATE -/
  st : GState
  /-- Table 8-2 G_ROLE -/
  role : Nat
  /-- Table 8-2 FAILED -/
  failed : BitVec 9
  /-- Table 8-2 VALID_FRAMES -/
  valid : Nat
  /-- Table 8-2 CYCLES -/
  cycles : Nat
  /-- Table 8-2 SUB, by quad -/
  sub : List Nat
  /-- Table 8-2 VINTAGE -/
  vintage : Nat
  /-- R301: WEATHERING with 16 fractional bits -/
  weather : Nat
  /-- Table 8-2 READ_COUNT -/
  reads : Nat
  /-- Table 8-2 TRIM -/
  trim0 : Int
  trim1 : Int
  trim2 : Int
  /-- R309: trim saturated -/
  trimSat : Bool
  /-- Table 8-2 WRITE_PTR -/
  wptr : Nat
  /-- R278: device time it closed -/
  closedAt : Nat
deriving DecidableEq, Repr

/-- A checkpoint slot on the medium (R251, R253): header and tables. -/
structure Ckpt where
  /-- Table 7-7 CKPT_SEQ -/
  seq : Nat
  /-- Table 7-7 START_REC_SEQ -/
  startRec : Nat
  /-- Table 7-7 JOURNAL_START -/
  journalStart : Nat
  /-- Table 7-7 WSEQ_HIGH -/
  wseqHigh : Nat
  /-- Table 7-7 POPULATION -/
  popCh : Nat
  popPk : Nat
  popDies : Nat
  /-- Table 7-7 HV_EXTENTS -/
  extents : Nat
  tenants : Tbl TenantSt
  extA : Tbl ExtentEnt
  extS : Tbl ExtentEnt
  profA : Tbl Nat
  profS : Tbl Nat
  groups : Tbl Group
  degraded : List (Nat × Nat)
  withheld : List Nat
  index : Tbl DumpEnt
  map : MapCopy
deriving DecidableEq, Repr

/-- A checkpoint pass in progress (R251): `ck` grows by the map frames copied. -/
structure PassSt where
  slot : Nat
  ck : Ckpt
  /-- Table 7-3 FM_WSEQ of the frame in program -/
  wseq : Nat
deriving DecidableEq, Repr

/-- A journal frame that is being programmed at its two positions (R184, R249). -/
structure JFlight where
  frame : JFrame
  /-- Table 7-3 FM_WSEQ -/
  wseq : Nat
  doneA : Bool
  doneB : Bool
deriving DecidableEq, Repr

/-- MAP_ROOT (R244): population and the tile groups of each area of Table 7-4. -/
structure MapRoot where
  popCh : Nat
  popPk : Nat
  popDies : Nat
  drain0 : List Nat
  drain1 : List Nat
  ck0 : List Nat
  ck1 : List Nat
  ja : List Nat
  jb : List Nat
deriving DecidableEq, Repr

/-- Map, journal and checkpoint. -/
structure MapSt where
  /-- R244: MAP_ROOT -/
  root : Option MapRoot
  /-- R284: host-visible extent count E -/
  extents : Nat
  /-- R286: E set for the next Format Media, 0 none -/
  pendingE : Nat
  /-- R285: H_fmt -/
  hFmt : Nat
  /-- R239: DRAM map copies by LFA; an unlisted entry is UNMAPPED -/
  copyA : MapCopy
  copyB : MapCopy
  /-- R239: mirroring in force -/
  mirror : Bool
  /-- R239: mirroring for the next start -/
  mirrorNext : Bool
  /-- R100, R254: the map is loaded -/
  loaded : Bool
  /-- Table 11-8: LFAs whose entry has no good copy, apart from frozen channels -/
  lost : List Nat
  /-- R246: next REC_SEQ -/
  nextRec : Nat
  /-- R184: staging area, oldest first -/
  staging : List JEnt
  /-- R184, R250: records that wait for the staging area -/
  waiting : List JRec
  /-- R184: journal frames whose programs are not both done, by frame number; the staging area holds their records -/
  flight : Tbl JFlight
  /-- R254: records below this REC_SEQ were replayed from tail frames and the spill region -/
  replayed : Nat
  /-- R249: journal frames on the medium by frame number -/
  jframes : Tbl JFrame
  /-- R249: next journal frame number -/
  nextFrame : Nat
  /-- R203: journal spill region of the cellar book -/
  spill : List JEnt
  /-- R243: next FM_WSEQ -/
  nextWseq : Nat
  /-- R251: checkpoint slots on the medium -/
  ck0 : Option Ckpt
  ck1 : Option Ckpt
  /-- R251: CKPT_SEQ of the newest complete pass -/
  ckptSeq : Nat
  /-- R251: pass in progress -/
  pass : Option PassSt
  /-- R252: interface whose Start Checkpoint runs -/
  passCci : Option Nat
  /-- R263, Table 7-9: a pass was abandoned and starts again -/
  passDue : Bool
  /-- R252: end of the previous pass -/
  passEnd : Nat
  /-- R251: frames of the pass programmed, the table frames first and the header last -/
  passDone : Nat
  /-- C341h -/
  gaps : Nat
  scans : Nat
  /-- R254: LFAs marked for scan -/
  marked : List Nat
  /-- R255: every LFA is marked -/
  markAll : Bool
  /-- R263: extents being rebuilt, and when the rebuild started -/
  rebuild : List Nat
  rebuildAt : Nat
  /-- C344h -/
  rebuilt : Nat
  rebuildPoisoned : Nat
  /-- R265: frames of host data on the medium by PFA -/
  frames : Tbl MFrame
deriving DecidableEq, Repr

/-! ### Placement, wear and health (08_placement_wear_and_health.md) -/

/-- Work for a die set's busy slot (Table 8-3). -/
inductive WorkKind where
  /-- program of an assembled frame -/
  | frame (asm : Nat)
  /-- the nine tile resets of a group, with the blank check of R256 for a Reset-Suspect one -/
  | reset (g : Nat) (check : Bool)
  /-- reset and blank check of the next spare of a quad's die, for a group (R281) -/
  | spare (g quad : Nat) (check : Bool)
  /-- program of a journal frame at its position in ring A or B (R249) -/
  | journal (n : Nat) (ringB : Bool)
  /-- program of a frame of the checkpoint pass (R251) -/
  | ckpt (m : Nat)
  /-- program of a frame of the drain image (R190) -/
  | image (n : Nat)
deriving DecidableEq, Repr

/-- Work in a busy slot's list. -/
structure Work where
  prio : Nat
  kind : WorkKind
deriving DecidableEq, Repr

/-- The busy slot of a die set (R220, R275). -/
structure BusySt where
  waiting : List Work
  cur : Option Work
  /-- R274: start of the work in progress -/
  since : Nat
  /-- R355: start of the present quad's operation -/
  opAt : Nat
  /-- R220: quads done; the die of the next quad is the busy one, once its operation runs -/
  quad : Nat
  /-- R220: the operation of the present quad has been sent to its die -/
  run : Bool
  /-- R280: a segment program or tile reset of the work has failed, and on which quads -/
  failed : List Nat
  /-- R280: the reset of the present quad is being repeated -/
  retry : Bool
  /-- R502: end of the pause in progress -/
  pause : Option Nat
  /-- R275: deficits of spare drain, racking and topping -/
  defs : List Nat
deriving DecidableEq, Repr

/-- Racking or topping of a group (R258). -/
structure Rack where
  group : Nat
  /-- FM_ORIGIN of the copies: 1 racking, 2 topping -/
  origin : Nat
  prio : Nat
  /-- Rack Group: the interface -/
  cci : Option Nat
  /-- wear-level racking (R279) -/
  wear : Bool
  /-- evacuation of a Degraded die set (R283) -/
  evac : Bool
  /-- R258: step 1 to 5, 0 while queued; 2 marks a job that an abort stops (R527) -/
  step : Nat
  /-- LFAs still to copy -/
  todo : List Nat
deriving DecidableEq, Repr

/-- Capacity-pressure state (Table 8-7). -/
inductive CapState where
  | normal | ration | critical | writeLocked
deriving DecidableEq, Repr

/-- Placement, wear and health. -/
structure PlaceSt where
  /-- R268: group table; an unlisted group is Free, or Spare at tile 1,004 and above -/
  groups : Tbl Group
  /-- R283: Degraded die sets with the quad of the failed die -/
  degraded : List (Nat × Nat)
  /-- R281: spare tiles used: (die set × 9 + quad) to the number used -/
  sparesUsed : Tbl Nat
  /-- R271: ready queue: each die set's share -/
  ready : Tbl (List Nat)
  /-- R272: Open group of role 1 by die set -/
  open1 : Tbl Nat
  /-- R272: Open group of role 2 by die set -/
  open2 : Tbl Nat
  /-- R274: round-robin position -/
  rr : Nat
  /-- R220 -/
  busy : Tbl BusySt
  /-- R258: racking and topping in progress -/
  racks : List Rack
  /-- R280: frames reported uncorrectable, awaiting a recovery read: LFA, PFA -/
  reported : List (Nat × Nat)
  /-- R287: Format Media runs for this interface -/
  format : Option Nat
  /-- R288 -/
  cap : CapState
  /-- R289: time of the last withholding, 0 when one is due -/
  withholdAt : Nat
  /-- Table 8-4 -/
  rackStart : Nat
  rackUrgent : Nat
  wDrain : Nat
  wRack : Nat
  wTop : Nat
  wearSpread : Nat
  /-- R277: die sets whose racking runs until they pass the start threshold by 2 -/
  racking : List Nat
  /-- Table 8-8 WA_X100: samples of the two counts below with their times, newest first, of the last hour -/
  waSamples : List (Nat × Nat × Nat)
  /-- Table 8-8 WA_X100: frames programmed, and host frames cleaned -/
  progFrames : Nat
  hostFrames : Nat
  /-- Table 8-8: counts since the last write to the spread counters (R292): CW_CORRECTED, RECONSTRUCTED, SLOW_RECOVERED,
  UNCORRECTABLE, PROGRAM_FAILS, RESET_FAILS -/
  counts : List Nat
deriving DecidableEq, Repr

/-! ### Drift (09_drift_vintage_and_topping.md) -/

/-- Topping state (Table 9-2). -/
inductive TopState where
  | none | due | overdue | inProgress
deriving DecidableEq, Repr

/-- Trim window of a group (R309, R310). -/
structure TrimWin where
  group : Nat
  decodes : Nat
  up : List Nat
  dn : List Nat
deriving DecidableEq, Repr

/-- A drift table in use (Table 9-1, R308). -/
structure DriftTable where
  ea : Nat
  retention : Nat
  /-- 24 entries of OFS_0, OFS_1, OFS_2, MARGIN -/
  ents : List (Int × Int × Int × Nat)
  /-- 0 copy 0, 1 copy 1, 2 default -/
  source : Nat
deriving DecidableEq, Repr

/-- Drift model. -/
structure DriftSt where
  /-- R306: drift tables in use by die -/
  tables : Tbl DriftTable
  /-- R299: latest reading by 8 × channel + package, 1/16 °C, with its time -/
  temps : Tbl (Int × Nat)
  /-- R302: weathering since the last sweep, 16 fractional bits, by die set -/
  residual : Tbl Nat
  /-- R310: windows, least recently read first, at most 16,384 -/
  windows : List TrimWin
  /-- R312: groups whose READ_COUNT has crossed a multiple of 2^18 since its record -/
  readDue : List Nat
  /-- R314: topping states -/
  top : Tbl TopState
  /-- C310h: times of topping programs in the last hour -/
  topTimes : List Nat
  /-- R302: DRIFT_CLOCK: second, VDD_AON present since the previous record, residuals -/
  clock : Option (Nat × Bool × Tbl Nat)
  /-- R302: VDD_AON has been present since the newest record -/
  aonKept : Bool
  /-- R304: last unpowered interval in s, and whether it is provisional -/
  interval : Nat
  provisional : Bool
  /-- R304: device time base second at the end of recovery -/
  recoveredAt : Nat
  /-- R304: second of the newest DRIFT_CLOCK record before the start -/
  lostSec : Nat
  /-- R304: device time of the first Memory_Active of this start -/
  activeAt : Option Nat
  /-- R303: every die set is to be swept after Memory_Active -/
  sweepDue : Bool
  /-- Table 9-3 -/
  topAge : Nat
  topReads : Nat
  topMargin : Nat
  topUrgent : Nat
  unpoweredTemp : Nat
  offAssume : Nat
  trimWindow : Nat
deriving DecidableEq, Repr

/-! ### DRAM (11_dram_subsystem.md) -/

/-- Table 11-7. -/
inductive DramMode where
  | training | filling | inService | selfRefresh | frozen | thawing | failed
deriving DecidableEq, Repr

/-- Frost record (Table 11-9). -/
structure Frost where
  cause : Nat
  subch : Nat
  rank : Nat
  bank : Nat
  row : Nat
  column : Nat
  syndrome : Nat
  time : Nat
  temp : Nat
  /-- F_HISTORY and F_QUEUES, 12,288 B -/
  tail : List Byte
deriving DecidableEq, Repr

/-- Trained results of a byte lane (R368). -/
structure LaneTrain where
  rd : Nat
  wr : Nat
  vref : Nat
  run : Nat
deriving DecidableEq, Repr

/-- A DRAM channel. -/
structure DramCh where
  mode : DramMode
  /-- R360: the SPD of every DIMM has been read -/
  spd : Bool
  dimms : List Dimm
  /-- R368: failed attempts of the training under way -/
  trainFails : Nat
  /-- R376: the training under way belongs to a thaw -/
  thaw : Bool
  /-- R378: step of the thaw: 1 training, 2 salvage, 3 refill, 4 resync -/
  step : Nat
  /-- R378: interface whose Thaw runs -/
  cci : Option Nat
  lanes : List LaneTrain
  /-- R369: temperature of the last training, 1/16 °C -/
  trainTemp : Int
  /-- R369: a background retrain runs -/
  retrain : Bool
  /-- R369: latest DIMM temperatures, 1/16 °C -/
  temps : List Int
  /-- R370: refresh rate the devices request -/
  refRate : Nat
  /-- R370: banks refreshed, the bank of the latest refresh and its end -/
  refreshed : Nat
  refBank : Nat
  refEnd : Nat
  /-- R372: neighbour refreshes that wait: rank, bank group and bank, row -/
  nbrQueue : List (Nat × Nat × Nat)
  /-- R372: neighbour refreshes issued -/
  nbrIssued : Nat
  /-- R373: consecutive write CRC alerts of the write being sent -/
  crcAlerts : Nat
  /-- R374: bursts scrubbed in the lap, its start, and the last lap in s -/
  scrubPos : Nat
  lapStart : Nat
  lap : Nat
  /-- C360h: correctable counts by rank -/
  correctable : List Nat
  /-- R375 -/
  frost : Option Frost
  /-- R378: device time of the freeze -/
  frozenAt : Nat
  /-- R378: times of automatic thaws in the last 24 h, and of every thaw -/
  autoThaws : List Nat
  thaws : List Nat
deriving DecidableEq, Repr

/-- The DRAM subsystem. -/
structure DramSt where
  chans : Tbl DramCh
  /-- R367: the initial fill has completed -/
  filled : Bool
  /-- Table 11-3 -/
  nbrN : Nat
  mapGrain : Nat
  backGrain : Nat
  frostHold : Nat
  scrubEn : Bool
  autoThaws : Nat
  lapWarn : Nat
  /-- R366: grains in force since the start -/
  mapGrainNow : Nat
  backGrainNow : Nat
deriving DecidableEq, Repr


/-! ### Counters and metering (19_counters_metering_and_engines.md) -/

/-- A counter descriptor (Table 19-1). -/
structure CtrDesc where
  event : Nat
  /-- 0 edge, 1 level, 2 window -/
  mode : Nat
  enable : Bool
  readable : Bool
  sample : Bool
  origin : Nat
  cls : Nat
  masterSel : Nat
  master : Nat
  tenantEn : Bool
  tenant : Nat
  addrEn : Bool
  first : Nat
  last : Nat
  window : Nat
deriving DecidableEq, Repr

/-- A counter sample (Table 19-3). -/
structure CtrSample where
  addr : Nat
  tenant : Nat
  tag : Nat
  opcode : Nat
  clsOrigin : Nat
  source : Nat
  outcome : Nat
  skid : Nat
  latency : Nat
  time : Nat
  valid : Bool
  lost : Bool
deriving DecidableEq, Repr

/-- A counter (R554 to R559). -/
structure Ctr where
  desc : CtrDesc
  /-- R554: 64-bit count -/
  count : Nat
  /-- R557: total of the window in progress -/
  win : Nat
  /-- R557: number of the window in progress -/
  winNo : Nat
  /-- R557: total of the window that has ended, until the count takes it -/
  ended : Option Nat
  /-- R558: overflow bit -/
  ovf : Bool
  /-- R559: completions seen since an overflow, while the sampler watches -/
  armed : Option Nat
  /-- R559: held sample -/
  sample : Option CtrSample
deriving DecidableEq, Repr

/-- A request completion that a sampler has still to examine (R559). -/
structure Completion where
  set : Nat
  addr : Nat
  tenant : Nat
  tag : Nat
  opcode : Nat
  cls : Nat
  origin : Nat
  source : Nat
  outcome : Nat
  latency : Nat
  time : Nat
deriving DecidableEq, Repr

/-- A metering block (Table 19-4). -/
structure MeterBlock where
  bytesRead : Nat
  bytesWritten : Nat
  frames : Nat
  /-- R561: accumulator in byte-milliseconds -/
  fcByteMs : Nat
  remote : Nat
  exceeded : Nat
  start : Nat
deriving DecidableEq, Repr

/-- A tenant's metering page (Table 19-5). -/
structure Meter where
  buf0 : MeterBlock
  buf1 : MeterBlock
  live : MeterBlock
  /-- R563: the live counters at the tick of a snapshot whose copy runs -/
  held : Option MeterBlock
  /-- R564: counter groups mapped into the page -/
  groups : List Nat
deriving DecidableEq, Repr

/-- Counters and metering. -/
structure CountSt where
  /-- R554: counters by 64 × set + counter -/
  ctrs : Tbl Ctr
  /-- R559 -/
  completions : List Completion
  /-- R560: metering pages by tenant -/
  meters : Tbl Meter
  /-- R563: MINUTE and SEQ of snapshot buffers 0 and 1, the same for every tenant -/
  snap0 : Nat × Nat
  snap1 : Nat × Nat
deriving DecidableEq, Repr


/-! ### Fabric (12_fabric.md) -/

/-- A request sent to a remote owner (R419 to R422). -/
structure Remote where
  tag : Nat
  /-- host line, for the order of R421 -/
  line : Nat
  /-- R422: time of the first transmission or classification -/
  at_ : Nat
  /-- R422: expiries so far -/
  expired : Nat
  /-- R421: place among the requests that wait for an earlier one to their host line; 0 does not wait -/
  waits : Nat
  msg : FabMsg
deriving DecidableEq, Repr

/-- Port state (Table 12-1). -/
inductive FPort where
  | disabled | training | linked | up | retraining
deriving DecidableEq, Repr

/-- A payload flit in the retry buffer (R395). -/
structure RetryFlit where
  seq : Nat
  msg : WireMsg
  at_ : Nat
deriving DecidableEq, Repr

/-- A fabric port. -/
structure FabPort where
  /-- R391 -/
  st : FPort
  /-- R391: time the state was entered -/
  since : Nat
  /-- R391: Disabled after three entries to Retraining -/
  byRetrain : Bool
  /-- R391: times of entries to Retraining in the last 60 s -/
  retrains : List Nat
  /-- R387 -/
  width : Nat
  /-- R389: propagation in ns -/
  prop : Nat
  /-- R390: codewords of the last second that needed correction: time, corrected symbols, uncorrectable codewords -/
  fec : List (Nat × Nat × Nat)
  /-- R408: the last Hello received, with its time -/
  hello : Option (HelloMsg × Nat)
  /-- R408: time of the last Hello sent, with the HELLO_MS and DEAD_MULT that it brought into force (R424) -/
  helloAt : Nat
  helloMs : Nat
  deadMult : Nat
  /-- R409: SEEN_DEV of the last Hello sent -/
  sentSeen : Nat
  /-- R395: SEQ of the next payload flit -/
  txSeq : Nat
  /-- R395: unacknowledged payload flits, oldest first, at most 256 -/
  retry : List RetryFlit
  /-- R395: SEQ expected next -/
  rxNext : Nat
  /-- R395: an error has been reported by NAK and no replay has begun, with the time of the NAK -/
  nakAt : Option Nat
  /-- R396: replays without any advance of ACK_SEQ -/
  replays : Nat
  /-- R396: times of replays in the last ms -/
  replayTimes : List Nat
  /-- R399: slots sent, latest count reported, and slots granted, by class 0 to 12 -/
  sent : List Nat
  credit : List Nat
  granted : List Nat
  /-- R399: slots received since Linked entry, by class -/
  recvd : List Nat
  /-- R398: messages received and not yet taken -/
  inbox : List WireMsg
  /-- R398, R417: messages received here that wait at another port to be relayed, on the VC of their next link: they hold their slots -/
  relaying : List FabMsg
  /-- messages that wait for credit or for room in the retry buffer, oldest first -/
  outbox : List WireMsg
  /-- R420: round-robin position among the response VCs, and among the request VCs, 0 to 5 -/
  rrResp : Nat
  rrReq : Nat
  /-- flits sent, oldest first -/
  wire : List Flit
  /-- C405h: flits sent and received, replays, NAKs, CRC failures, corrected symbols, uncorrectable codewords, PRI_OVERRUN,
  drops, then stalls for VC0 to VC11 -/
  counts : List Nat
  /-- C406h: interface whose Retrain Fabric Port runs -/
  cci : Option Nat
deriving DecidableEq, Repr

/-- A route entry (Table 12-8). -/
structure RouteEnt where
  valid : Bool
  primary : Nat
  alternate : Nat
  altValid : Bool
  altLonger : Bool
  hops : Nat
  primaryDown : Bool
deriving DecidableEq, Repr

/-- Fabric policy (Table 12-10). -/
structure FabPolicy where
  helloMs : Nat
  deadMult : Nat
  timeout : Nat
  adaptLow : Nat
  portEn : BitVec 8
  autoId : Bool
  relayEn : Bool
deriving DecidableEq, Repr

/-- The fabric. -/
structure FabSt where
  /-- R404: FABRIC_DEVICE_ID -/
  devId : Nat
  /-- R391: ports 0 to 7 -/
  ports : Tbl FabPort
  /-- R416: routed messages that this device originates and that no route allows yet, oldest first -/
  egress : List FabMsg
  /-- R419: outstanding remote requests by tag -/
  remote : Tbl Remote
  /-- R419: TAG_GEN of each tag -/
  gens : Tbl Nat
  /-- R411: link-state database by origin -/
  db : Tbl Lsa
  /-- R406, R413: time of the last change to the database -/
  dbAt : Nat
  /-- R410: LSA_SEQ of the own LSA, and time of its origination -/
  lsaSeq : Nat
  lsaAt : Nat
  /-- R411: LSAs not acknowledged: port, LSA, time sent -/
  unacked : List (Nat × Lsa × Nat)
  /-- R413, R414: the route table in use, by destination -/
  routes : Tbl RouteEnt
  /-- R413: the standby half once computed -/
  standby : Option (Tbl RouteEnt)
  /-- R413: the database has changed since the last computation -/
  dirty : Bool
  /-- C403h: time of the last swap -/
  swapAt : Nat
  /-- Table 12-10 -/
  policy : FabPolicy
  /-- C405h: timeouts, resends and viral entries -/
  timeouts : Nat
  resends : Nat
  virals : Nat
deriving DecidableEq, Repr


/-! ### Epochs and the service ring (13_epochs_and_service_ring.md) -/

/-- Ring port state (Table 13-1). -/
inductive RingMode where
  | bypassed | electing | formed | broken
deriving DecidableEq, Repr

/-- A member of the ring as its ANNOUNCE frames show it (R434). -/
structure RingMember where
  serial : Nat
  devId : Nat
  flags : Nat
  /-- device time of the last ANNOUNCE -/
  at_ : Nat
deriving DecidableEq, Repr

/-- Ring and epoch policy (Table 13-7). -/
structure RingPolicy where
  ringEn : Bool
  spreadArm : Bool
  stormSend : Bool
  stormObey : Bool
  stormBudget : Nat
  stormHold : Nat
  mismatchHold : Nat
  actGrace : Nat
deriving DecidableEq, Repr

/-- The ring port. -/
structure RingSt where
  mode : RingMode
  /-- R428: the receiver has held lock for 1 ms, and the self-test has passed -/
  lock : Bool
  selfTest : Bool
  /-- R431, RING_POSITION (Table 2-7) -/
  position : Option Nat
  isHead : Bool
  headSerial : Nat
  members : Nat
  /-- R431: lowest serial seen in the election -/
  lowest : Nat
  /-- R431: beacons sent, device time of the last one, and of the last one heard -/
  beacons : Nat
  beaconSent : Nat
  beaconAt : Nat
  /-- R434: members by position -/
  table : Tbl RingMember
  /-- Table 13-2: own frame counter -/
  rseq : Nat
  /-- R433: frames given to RING_OUT, in the order in which they go out, each with the device time of its first character; one
  whose time lies ahead is queued -/
  sent : List (RingFrame × Nat)
  /-- R435: frames to repeat: frame, times left, device time of the next, spacing -/
  repeats : List (RingFrame × Nat × Nat × Nat)
  /-- R435: warnings and orders already acted on: type, serial or epoch, DRAIN_SEQ or digest -/
  acted : List (Nat × Nat × Nat)
  /-- R432: times of the last ANNOUNCE and EPOCH_STATUS sent -/
  announceAt : Nat
  statusAt : Nat
  /-- C510h: frames sent and received, CRC failures and breaks -/
  framesTx : Nat
  framesRx : Nat
  crcFails : Nat
  breaks : Nat
deriving DecidableEq, Repr

/-- Epoch state (Table 13-6). -/
inductive EpState where
  | settled | armed | lagging | divergent
deriving DecidableEq, Repr

/-- Configuration epochs. -/
structure EpochSt where
  /-- R441: the armed epoch: E, D and T -/
  arm : Option (Nat × Nat × Nat)
  /-- R443: T came with the data path not running -/
  late : Bool
  /-- Table 13-8: the second ticks counted when a step of the time base passed T -/
  stepAt : Option Nat
  /-- R445 -/
  st : EpState
  /-- R440, R541: the three manifest slots, each by byte offset; an unlisted byte is zero -/
  slots : Tbl (Tbl Byte)
  /-- R541: slots that ACTIVE_MANIFEST and STAGED_MANIFEST name -/
  manA : Option Nat
  manS : Option Nat
  /-- C501h: slot being written, and the bytes written so far, by offset and length -/
  load : Option (Nat × List (Nat × Nat))
  /-- R444: the previous epoch, and device time of the last activation -/
  prev : Nat
  actAt : Nat
  /-- R445: peers heard by fabric ID: epoch, digest and state -/
  peers : Tbl (Nat × Nat × Nat)
  /-- R445, R446: the peer that the device adopts from, and device time of the hearing -/
  heard : Option (Nat × Nat)
  /-- R447: tenants flagged by a tag, with device time of the last mismatch -/
  tagFlags : Tbl Nat
  ring : RingSt
  /-- Table 13-7 -/
  policy : RingPolicy
  /-- R437: end of bracing -/
  braceEnd : Option Nat
deriving DecidableEq, Repr


/-! ### Check-value units and bulk engines (19_counters_metering_and_engines.md) -/

/-- A check-value unit (Table 19-7). -/
structure CvUnit where
  /-- R565: the head it is assigned to -/
  head : Option Nat
  /-- Table 19-7 CV_CONFIG -/
  poly : Nat
  useSeed : Bool
  seed : Nat
  /-- R567: the register of the algorithm, not reflected and without the final XOR -/
  crc : Nat
  count : Nat
  /-- R568: feeds buffered and not processed, oldest first, at most 64 -/
  feeds : List (List Byte)
  /-- R568: CORE cycles already spent on the oldest feed -/
  spent : Nat
  /-- R575: the engine that holds the unit -/
  held : Option Nat
deriving DecidableEq, Repr

/-- A descriptor ring (Table 19-8). -/
structure DescRing where
  head : Nat
  tenant : Nat
  entries : Nat
  base : Nat
  tailP : Nat
  headP : Nat
  /-- Table 19-9: 0 Stopped, 1 Running, 2 Halted -/
  st : Nat
  lastError : Nat
  /-- STOP waits for the descriptor in progress -/
  stopping : Bool
deriving DecidableEq, Repr

/-- What a bulk engine waits for (R570). -/
inductive EngPhase where
  | idle
  /-- the descriptor is being read -/
  | fetch
  /-- the descriptor has been read -/
  | decoded
  | readSrc
  | readDst
  | write
  /-- bytes 40 to 63 are being written back -/
  | writeBack
deriving DecidableEq, Repr

/-- A bulk engine. -/
structure Engine where
  phase : EngPhase
  ring : Option Nat
  desc : List Byte
  /-- bytes completed -/
  pos : Nat
  /-- lines carried with poison, or the offset of the first difference -/
  result : Nat
  /-- status code of Table 19-12 so far -/
  code : Nat
  /-- source line at hand -/
  data : HostLine
  poison : Bool
  /-- CB00h: descriptors done -/
  done : Nat
  /-- R574: tenant whose erasure it sweeps -/
  erase : Option Nat
deriving DecidableEq, Repr

/-- Check-value units and bulk engines. -/
structure EngSt where
  /-- responses to engine requests, oldest first: engine, status and response -/
  resp : List (Nat × Nat × S2M)
  /-- R565: units 0 to 7 -/
  units : Tbl CvUnit
  /-- R569: rings 0 to 4,095 -/
  rings : Tbl DescRing
  /-- R569: engines 0 to 15 -/
  engines : Tbl Engine
  /-- R570: round-robin position -/
  rr : Nat
  /-- read completions of CV_RESULT and CV_COUNT, by head -/
  reads : List (Nat × Nat)
deriving DecidableEq, Repr


/-! ### Supplies and power states (15_supplies_and_sequencing.md) -/

/-- Power state (Table 15-9). -/
inductive PMode where
  | off | standby | active | idle | dormant
deriving DecidableEq, Repr

/-- A rail of the board rail sequencer. -/
structure Rail where
  /-- R475: RAIL_EN is high -/
  enabled : Bool
  /-- R477 -/
  good : Bool
  /-- R475: PG is high -/
  pg : Bool
  /-- R477: since when PG has been high -/
  pgSince : Option Nat
  /-- R477, R483: times of its enable, of becoming good, and of being off -/
  enabledAt : Nat
  goodAt : Nat
  offAt : Nat
  /-- R485: order in which rails became good, 0 never -/
  order : Nat
  /-- R477: times of PG edges since the enable, newest first -/
  edges : List Nat
  /-- R480: last sample in mV -/
  mv : Nat
  /-- R478: consecutive samples beyond the fault and warning levels: OV fault, UV fault, OV warning, UV warning -/
  ovBad : Nat
  uvBad : Nat
  ovLate : Nat
  uvLate : Nat
  /-- C712h, R592: warnings, latched until Clear Rail Faults -/
  ovWarn : Bool
  uvWarn : Bool
  /-- Table 15-8, R592: last fault code, 0 none, latched until Clear Rail Faults -/
  fault : Nat
  /-- R484: it has faulted since the power-up sequence began -/
  lost : Bool
  /-- R482: an enable is held back by the order guard -/
  held : Bool
deriving DecidableEq, Repr

/-- What a step-mode sequence waits for (Table 15-6). -/
inductive SeqWait where
  | none
  | good (rail : Nat)
  | off (rail : Nat)
  | until_ (t : Nat)
deriving DecidableEq, Repr

/-- A sequence in progress. -/
structure SeqRun where
  /-- power-up, or power-down -/
  up : Bool
  /-- R481: step mode: step, FLAG, steps executed, wait and its deadline -/
  pc : Nat
  flag : Bool
  steps : Nat
  wait : SeqWait
  deadline : Nat
  /-- R481, R483: rails whose timeout runs in the background, with the deadline -/
  timers : List (Nat × Nat)
  /-- R481, R483: rails that are being waited to fall in the background, with the deadline -/
  falling : List (Nat × Nat)
deriving DecidableEq, Repr

/-- Power policy (Table 15-10). -/
structure PowerPolicy where
  autoOn : Bool
  autoDormant : Bool
  keepFabric : Bool
  retries : Nat
  retryDelay : Nat
  idleDelay : Nat
  dormantDelay : Nat
deriving DecidableEq, Repr

/-- Supplies, sequencer and power state. -/
structure PowerSt where
  /-- R490 -/
  mode : PMode
  /-- C700h: cause and time of the last transition -/
  cause : Nat
  transAt : Nat
  /-- R485: retries used -/
  retries : Nat
  /-- Table 15-10 -/
  policy : PowerPolicy
  /-- R475: the stored blob, 3,264 B; none: the built-in program -/
  stored : Option (List Byte)
  /-- R487: the blob in use -/
  inUse : Option (List Byte)
  /-- R481, R483: sequence in progress -/
  seq : Option SeqRun
  /-- R475: rails 0 to 63 -/
  rails : Tbl Rail
  /-- R485: rails that have become good -/
  goodCount : Nat
  /-- R480: ADC codes by channel -/
  adc : Tbl Nat
  /-- R472: VAUX_IO and VDD_AON present -/
  vaux : Bool
  aon : Bool
  /-- R489: VAUX_IO is below 1.71 V -/
  vauxLow : Bool
  /-- R474: device time at which the always-on domain left reset -/
  aonAt : Nat
  /-- R491, R492: entry in progress: 2 Dormant, 3 Standby -/
  entering : Option Nat
  /-- R488: end of the 50 ms for which the fabric ports are held up -/
  hold : Option Nat
  /-- R485: when power-up is repeated -/
  retryAt : Option Nat
  /-- R490: device time of the last request -/
  lastReq : Nat
  /-- R491: since when every present head has been quiet and no fabric request has arrived -/
  quietSince : Nat
  /-- R494: a wake or request came during an entry -/
  wakeDue : Bool
  /-- R491: an exit from Dormant is in progress -/
  exiting : Bool
deriving DecidableEq, Repr

/-! ### Thermal management (16_thermal.md) -/

/-- Thermal policy (Table 16-3); `zones` holds Warm, Hot and Critical of DIE, MEDIA, DIMM and BOARD. -/
structure ThermPolicy where
  zones : List (Nat × Nat × Nat)
  hyst : Nat
  warmPause : Nat
  hotPause : Nat
  hotGap : Nat
  ntcMask : Nat
  ntcWake : Nat
  ntcBeta : Nat
  autoRestarts : Nat
  restartMargin : Nat
deriving DecidableEq, Repr

/-- A temperature sensor. -/
structure Sensor where
  /-- R498: last sample that showed no bad condition, 1/16 °C -/
  good : Option Int
  /-- R498: last sample, for the slope -/
  last : Option Int
  /-- R498: consecutive bad samples -/
  bad : Nat
  broken : Bool
  /-- R498: since when its samples have been good, while broken -/
  goodSince : Option Nat
  /-- R500: level that the previous sample reached -/
  reached : Nat
deriving DecidableEq, Repr

/-- The thermal monitor. Sensors: diodes 0 to 23, package sensors 24 + 8 × channel + package, DIMM sensors 312 + 2 × channel +
slot, NTC inputs 328 to 335 (C730h). -/
structure ThermSt where
  policy : ThermPolicy
  sensors : Tbl Sensor
  /-- R500: zone levels -/
  levels : List Nat
  /-- R500: since when a zone has read below its level's threshold minus HYST -/
  belowSince : List (Option Nat)
  /-- R501: level whose pauses are applied -/
  applied : Nat
  /-- R505: THERMTRIP_N is low -/
  trip : Bool
  /-- R506: times of Critical stops and trips, newest first -/
  stops : List Nat
  /-- R506: power-up waits for the restart conditions -/
  barred : Bool
  /-- R506: since when the conditions have held -/
  coolSince : Option Nat
  /-- R506: a wake is held -/
  wakeHeld : Bool
  /-- R508: counts not yet written, by spread counter -/
  counts : Tbl Nat
  /-- R508: per zone the highest temperature in 1/16 °C, and the time base then -/
  highest : List (Int × Nat)
  /-- R503: time of the last dispatch -/
  lastDispatch : Nat
deriving DecidableEq, Repr

/-! ### The whole state -/

/-- The CA4800. `free` counts the free values drawn (the model's own field, log entry 1); `pending` holds the commands that
wait, first in first out. -/
structure State where
  recorder : RecorderSt
  cellar : CellarSt
  mgmt : MgmtSt
  time : TimeSt
  heads : Tbl HeadSt
  start : StartSt
  media : MediaSt
  ten : TenancySt
  front : FrontSt
  persist : PersistSt
  back : BackSt
  map : MapSt
  place : PlaceSt
  drift : DriftSt
  dram : DramSt
  fabric : FabSt
  epoch : EpochSt
  count : CountSt
  eng : EngSt
  power : PowerSt
  therm : ThermSt
  free : Nat
  pending : List Instr
deriving DecidableEq, Repr

/-- No command of this model stops the machine with a fault: every error the spec names is an effect on the state. The one
reason stands for a command that no rule of the spec reaches. -/
inductive Fault where
  /-- Raised by no meaning; kept so that the type is not empty. Safe. -/
  | none
deriving DecidableEq, Repr

/-- Why a command is refused. -/
inductive Refusal where
  /-- The command has no meaning yet; raised only by an arm of `exec`. Safe. -/
  | notModelled (mnemonic : String)
deriving DecidableEq, Repr


/-! ### Reset -/

/-- The machine right after reset: Off, the always-on domain about to leave reset (R474, R490), every register at the value of
its Reset column, every buffer empty, the medium and the cellar book unwritten. Where the manual gives no value, the value is
the model's (log entry 9). -/
def State.reset : State :=
  { recorder :=
      { units := [], input := [], nextSeq := 0, seqReady := false, ringOn := false, ring := [], newest := none, held := [],
        events := [], copyTime := [], written := 0, folded := 0, overflows := 0 },
    cellar :=
      { indexed := false, system := { pages := 768, tail := 0, seq := 1, recs := [] },
        epoch := { pages := 29, tail := 0, seq := 1, recs := [] }, user := { pages := 640, tail := 0, seq := 1, recs := [] },
        writes := [], spread := [], locks := [] },
    mgmt :=
      { running := false, restarting := false, recovery := false, slotA := none, slotB := none, active := 0, nextSlot := none,
        tries := 0, runSlot := none, goodSince := none, transfer := none, activation := none, revoked := 0,
        debugLock := false, debugAccess := false, gradeFX := false, serial := 0, romVersion := 0, access := [2, 2, 2, 2],
        ccis := [],
        devLogs :=
          { info := { ents := [], overflow := 0, nextHandle := 1 }, warning := { ents := [], overflow := 0, nextHandle := 1 },
            failure := { ents := [], overflow := 0, nextHandle := 1 }, fatal := { ents := [], overflow := 0, nextHandle := 1 },
            dynCap := { ents := [], overflow := 0, nextHandle := 1 } },
        devPolicy := [0, 0, 0, 0, 0],
        host := { mode := .off, expiries := [], restarts := 0, slot := 0, version := 0 },
        media := { mode := .off, expiries := [], restarts := 0, slot := 0, version := 0 },
        fabric := { mode := .off, expiries := [], restarts := 0, slot := 0, version := 0 },
        platform := { mode := .off, expiries := [], restarts := 0, slot := 0, version := 0 },
        hub := [], inbound := [], hubDone := [], ucode := [], items := [], spdm := [], sanitize := none, shutdownState := 0, alerts := [none, none, none] },
    time :=
      { mono := 0, frac := 0, tbNow := 0, tbLastPps := 0, holdover := 0, pps := .absent, timeSet := false, tbRunning := false,
        tbMinute := 0, snapSeq := 0, snapBuf := false, snapCopy := none, secMark := 0, ticks := 0, acq := [],
        lastAccept := none, edgeSinceTick := false, missing := 0, outWin := 0, outWinTotal := 0, clean := 0, bound := 0,
        phaseErr := 0, rate := 0, slewRem := 0, halfRem := 0, halfRun := false, steps := 0, halfRuns := 0, bins := [],
        oscTemp := 0, oscComp := 0, alarm := 0, hrefGood := [true, true, true, true], frefGood := true, sysGood := true,
        sysFallback := false, domains := [], locking := [], lockQueue := [], heldStops := [],
        policy := { ppsEn := true, ppsEdge := false, ppsWindow := 50, ppsDelay := 0, ppsFilter := 10 } },
    heads := [],
    start :=
      { warm := false, phases := [], held := false, mediaError := false, upEnd := 0, phase12 := none, tap := 0, hbif0 := false,
        hbif1 := false, sbaddr := 0, strapTest := false },
    media := { dies := [], chans := [], popCh := 0, popPk := 0, popDies := 0 },
    ten :=
      { tenants := [], slots := [], extA := [], extS := [], profA := [], profS := [], epochA := 0, digestA := 0, epochS := 0,
        bankCopy := false, withheld := [], releaseAsked := [], releaseWait := [], affected := [], queues := [], reqs := [],
        rr := [0, 0, 0, 0], drr := 0, trackers := [], erasing := [], loads := [], overcommit := false },
    front :=
      { mode := .off, invAllDone := false, lines := [], miss := [], masks := List.replicate 8 0xFFFF, l2Limit := 75,
        maxDirtyAge := 100, coalesce := 2000, budget := 0, setStalls := 0, dirtyAt := [], urgent := [], spareDef := [],
        spareRr := 0, ireads := [], nextRead := 0, dieReads := [], asms := [], nextAsm := 0, maint := [], disableCci := [], stored := [], stalls := [], unloads := [],
        poisonSrcs := [], readCounts := [0, 0, 0, 0, 0, 0, 0] },
    persist :=
      { drain := none, run := none, drainLast := none, w0 := 0, w1 := 0, armed := 0, nextDrain := 1, imageList := [],
        image := [], setReset := [], relocAt := none, index := [], faults := [], pwrFail := false, pwrFailPin := false, lowSamples := 0,
        policy := { holdPower := 180, vCutoff := 9000, iTest := 500, senseRatio := 10000, supplyChannel := 0, supplyTrip := 0,
                    measurePeriod := 24, lullWait := 60 },
        phase := .idle, phaseAt := 0, holdState := 0, holdTest := false, vNow := 0, v0 := 0, esr := 0, cUf := 0, energy := 0,
        lastMeasure := 0, measured := false, testCap := none, braceCap := none, v0New := 0, retryAt := none, spill := false,
        measureCci := none, counted := false },
    back :=
      { slots := [], hand := 0, wanted := false, filter := [], promoting := [], window := 100, fills := 2, bulk := false,
        onCommit := true, onPromote := true, hits := 0, installs := 0, evictions := 0 },
    map :=
      { root := none, extents := 0, pendingE := 0, hFmt := 0, copyA := { ents := [], trimmed := [], locked := [], bad := [] },
        copyB := { ents := [], trimmed := [], locked := [], bad := [] }, mirror := true, mirrorNext := true, loaded := false,
        lost := [], nextRec := 1,
        staging := [], waiting := [], flight := [], replayed := 0, jframes := [], nextFrame := 0, spill := [], nextWseq := 1, ck0 := none, ck1 := none, ckptSeq := 0,
        pass := none, passCci := none, passDue := false, passEnd := 0, passDone := 0, gaps := 0, scans := 0, marked := [],
        markAll := false, rebuild := [], rebuildAt := 0, rebuilt := 0, rebuildPoisoned := 0, frames := [] },
    place :=
      { groups := [], degraded := [], sparesUsed := [], ready := [], open1 := [], open2 := [], rr := 0,
        busy := [], racks := [], reported := [], format := none, cap := .normal, withholdAt := 0, rackStart := 50,
        rackUrgent := 20, wDrain := 8, wRack := 8, wTop := 2, wearSpread := 2000, racking := [], waSamples := [],
        progFrames := 0, hostFrames := 0, counts := List.replicate 6 0 },
    drift :=
      { tables := [], temps := [], residual := [], windows := [], readDue := [], top := [], topTimes := [], clock := none,
        aonKept := false, interval := 0, provisional := false, recoveredAt := 0, lostSec := 0, activeAt := none, sweepDue := false, topAge := 180, topReads := 20, topMargin := 4,
        topUrgent := 1, unpoweredTemp := 55, offAssume := 0, trimWindow := 16 },
    dram :=
      { chans := [], filled := false, nbrN := 9, mapGrain := 4, backGrain := 4, frostHold := 10, scrubEn := true,
        autoThaws := 1, lapWarn := 24, mapGrainNow := 4, backGrainNow := 4 },
    fabric :=
      { devId := 0xFFF, ports := [], egress := [], remote := [], gens := [], db := [], dbAt := 0, lsaSeq := 0, lsaAt := 0,
        unacked := [], routes := [], standby := none, dirty := false, swapAt := 0,
        policy := { helloMs := 10, deadMult := 4, timeout := 20, adaptLow := 256, portEn := 0xFF, autoId := true,
                    relayEn := true },
        timeouts := 0, resends := 0, virals := 0 },
    epoch :=
      { arm := none, late := false, stepAt := none, st := .settled, slots := [], manA := none, manS := none, load := none, prev := 0, actAt := 0, peers := [],
        heard := none, tagFlags := [],
        ring :=
          { mode := .bypassed, lock := false, selfTest := false, position := none, isHead := false, headSerial := 0,
            members := 0, lowest := 0, beacons := 0, beaconSent := 0, beaconAt := 0, table := [], rseq := 0, sent := [], repeats := [],
            acted := [], announceAt := 0, statusAt := 0, framesTx := 0, framesRx := 0, crcFails := 0, breaks := 0 },
        policy := { ringEn := true, spreadArm := true, stormSend := true, stormObey := true, stormBudget := 48, stormHold := 60,
                    mismatchHold := 1000, actGrace := 10 },
        braceEnd := none },
    count := { ctrs := [], completions := [], meters := [], snap0 := (0, 0), snap1 := (0, 0) },
    eng := { resp := [], units := [], rings := [], engines := [], rr := 0, reads := [] },
    power :=
      { mode := .off, cause := 0, transAt := 0, retries := 0,
        policy := { autoOn := true, autoDormant := false, keepFabric := true, retries := 2, retryDelay := 10, idleDelay := 10,
                    dormantDelay := 60 },
        stored := none, inUse := none, seq := none, rails := [], goodCount := 0, adc := [], vaux := false, aon := false,
        vauxLow := false, aonAt := 0, entering := none, hold := none, retryAt := none, lastReq := 0, quietSince := 0,
        wakeDue := false, exiting := false },
    therm :=
      { policy := { zones := [(92, 98, 104), (80, 88, 95), (85, 90, 95), (70, 80, 90)], hyst := 3, warmPause := 15,
                    hotPause := 60, hotGap := 4, ntcMask := 0, ntcWake := 0, ntcBeta := 3435, autoRestarts := 3,
                    restartMargin := 10 },
        sensors := [], levels := [0, 0, 0, 0], belowSince := [none, none, none, none], applied := 0, trip := false, stops := [],
        barred := false, coolSince := none, wakeHeld := false, counts := [], highest := [(0, 0), (0, 0), (0, 0), (0, 0)],
        lastDispatch := 0 },
    free := 0, pending := [] }


end Sys2Proof.Machine
end

