-- ==== Sys2Proof/Machine/Operands.lean ====
section
/-!
DEFINITION. Operand forms: sparse tables in canonical form, little-endian payload fields (R19, R526), the check bytes of
R237 and R536, and the address forms of R50 to R55.
-/
namespace Sys2Proof.Machine

/-! ### Tables -/

/-- The value of a key, or the table's default. -/
def tget {α : Type} (t : Tbl α) (k : Nat) (d : α) : α :=
  match t with
  | [] => d
  | (k', v) :: r => if k' = k then v else tget r k d

/-- The value of a key, if listed. -/
def tfind {α : Type} (t : Tbl α) (k : Nat) : Option α :=
  match t with
  | [] => none
  | (k', v) :: r => if k' = k then some v else tfind r k

/-- Put a value under a key, keys kept rising. -/
def tput {α : Type} (t : Tbl α) (k : Nat) (v : α) : Tbl α :=
  match t with
  | [] => [(k, v)]
  | (k', v') :: r => if k < k' then (k, v) :: (k', v') :: r else if k = k' then (k, v) :: r else (k', v') :: tput r k v

/-- Remove a key. -/
def tdel {α : Type} (t : Tbl α) (k : Nat) : Tbl α :=
  match t with
  | [] => []
  | (k', v') :: r => if k' = k then r else (k', v') :: tdel r k

/-- Put a value in a table whose unlisted keys read as `d`: the default is not listed. -/
def tset {α : Type} [DecidableEq α] (t : Tbl α) (k : Nat) (v d : α) : Tbl α := if v = d then tdel t k else tput t k v

/-- Change the value of a key in a table with default `d`. -/
def tmod {α : Type} (t : Tbl α) (k : Nat) (d : α) (f : α → α) : Tbl α := tput t k (f (tget t k d))

/-- Change every listed value. -/
def tmap {α β : Type} (t : Tbl α) (f : Nat → α → β) : Tbl β := t.map fun (k, v) => (k, f k v)

/-- Keep the listed pairs that satisfy a test. -/
def tfilter {α : Type} (t : Tbl α) (p : Nat → α → Bool) : Tbl α := t.filter fun (k, v) => p k v

/-- Keys strictly rise: the canonical form of a table. -/
def tblWf {α : Type} : Tbl α → Bool
  | [] => true
  | [_] => true
  | (k, _) :: (k', v') :: r => decide (k < k') && tblWf ((k', v') :: r)

/-! ### Payloads -/

/-- The byte at an offset of a payload. -/
def byteAt (b : List Byte) (off : Nat) : Nat := (b.getD off 0).toNat

/-- The little-endian number of `n` bytes at an offset (R526). -/
def le (b : List Byte) (off n : Nat) : Nat :=
  match n with
  | 0 => 0
  | k + 1 => byteAt b off + 256 * le b (off + 1) k

/-- A number as `n` bytes, little-endian (R526). -/
def leBytes (n v : Nat) : List Byte :=
  match n with
  | 0 => []
  | k + 1 => BitVec.ofNat 8 v :: leBytes k (v / 256)

/-- Zero bytes, for reserved offsets. -/
def zeros (n : Nat) : List Byte := List.replicate n 0

/-- Bits `lo` to `lo + n - 1` of a number. -/
def bits (v lo n : Nat) : Nat := v / 2 ^ lo % 2 ^ n

/-- A number below 2^n read as signed. -/
def signed (n v : Nat) : Int := if v < 2 ^ (n - 1) then v else (v : Int) - 2 ^ n

/-- A signed number in the low `n` bits. -/
def unsignedOf (n : Nat) (v : Int) : Nat := (v % (2 ^ n : Int)).toNat

/-- A register after a write of one of its parts (R106). -/
def writePart (old : Nat) (part : RegPart) (v : Nat) : Nat :=
  match part with
  | .whole => v % 2 ^ 64
  | .low => old / 2 ^ 32 * 2 ^ 32 + v % 2 ^ 32
  | .high => v % 2 ^ 32 * 2 ^ 32 + old % 2 ^ 32

/-- True as 1. -/
def b2n (b : Bool) : Nat := if b then 1 else 0

/-! ### Check bytes -/

/-- One bit of a CRC-8 with polynomial 07h. -/
def crc8Bit (c : Nat) : Nat := if 128 ≤ c then (c * 2 % 256) ^^^ 7 else c * 2

/-- One byte into a CRC-8. -/
def crc8Byte (c : Nat) (b : Byte) : Nat :=
  crc8Bit (crc8Bit (crc8Bit (crc8Bit (crc8Bit (crc8Bit (crc8Bit (crc8Bit (c ^^^ b.toNat))))))))

/-- CRC-8, polynomial 07h, initial value 0, not reflected, no final XOR (R237, R330). -/
def crc8 (bs : List Byte) : Nat := bs.foldl crc8Byte 0

/-- One bit of a CRC-16 with polynomial 1021h. -/
def crc16Bit (c : Nat) : Nat := if 32768 ≤ c then (c * 2 % 65536) ^^^ 0x1021 else c * 2

/-- One byte into a CRC-16. -/
def crc16Byte (c : Nat) (b : Byte) : Nat :=
  crc16Bit (crc16Bit (crc16Bit (crc16Bit (crc16Bit (crc16Bit (crc16Bit (crc16Bit (c ^^^ (b.toNat * 256)))))))))

/-- CRC-16/CCITT as Table 19-6 gives it: polynomial 1021h, initial value FFFFh, not reflected, no final XOR (R406; that R406
means the row of this name is DEDUCED, log entry 3). -/
def crc16 (bs : List Byte) : Nat := bs.foldl crc16Byte 0xFFFF

/-- One bit of the reflected CRC-32C. -/
def crc32cBit (c : Nat) : Nat := if c % 2 = 1 then (c / 2) ^^^ 0x82F63B78 else c / 2

/-- One byte into the CRC-32C. -/
def crc32cByte (c : Nat) (b : Byte) : Nat :=
  crc32cBit (crc32cBit (crc32cBit (crc32cBit (crc32cBit (crc32cBit (crc32cBit (crc32cBit (c ^^^ b.toNat))))))))

/-- CRC-32C (R536, an outside standard by name). -/
def crc32c (bs : List Byte) : Nat := (bs.foldl crc32cByte 0xFFFFFFFF) ^^^ 0xFFFFFFFF

/-! ### Addresses -/

/-- Local address fields of Table 1-9. -/
def extentOf (a : Nat) : Nat := a / 2 ^ 30
/-- Logical frame address (R50). -/
def lfaOf (a : Nat) : Nat := a / 4096
/-- Front line number of a local address, 16 per frame (R50). -/
def lineOf (a : Nat) : Nat := a / 256
/-- Front line within the frame (R50). -/
def frontLineIn (a : Nat) : Nat := a / 256 % 16
/-- Host line within the front line (R50). -/
def hostLineIn (a : Nat) : Nat := a / 64 % 4
/-- Extent of an LFA (R50). -/
def extentOfLfa (l : Nat) : Nat := l / 262144

/-- Tile group of a PFA (R51). -/
def groupOf (pfa : Nat) : Nat := pfa / 131072
/-- Frame index within the group (R51). -/
def frameIdx (pfa : Nat) : Nat := pfa % 131072
/-- PFA of a frame of a group (R51). -/
def pfaOf (g f : Nat) : Nat := g * 131072 + f
/-- Die set of a tile group (R8). -/
def dieSetOf (g : Nat) : Nat := g / 1024
/-- Tile index of a tile group (R8). -/
def tileOf (g : Nat) : Nat := g % 1024
/-- Channel within quad of a die set (R8). -/
def dsK (ds : Nat) : Nat := ds / 128
/-- Package index of a die set (R8). -/
def dsP (ds : Nat) : Nat := ds / 16 % 8
/-- Die index of a die set (R8). -/
def dsD (ds : Nat) : Nat := ds % 16
/-- Die set of a position (R8). -/
def dieSetAt (k p d : Nat) : Nat := 128 * k + 16 * p + d
/-- Media channel of quad q and position k (R8). -/
def channelAt (q k : Nat) : Nat := 4 * q + k
/-- Quad of the parity segment of frame index f (R53). -/
def parityQuad (f : Nat) : Nat := f % 9
/-- Quad of data segment j of frame index f (R53). -/
def dataQuad (f j : Nat) : Nat := (f % 9 + 1 + j) % 9
/-- A die by channel, package and die index, as one number. -/
def dieId (ch p d : Nat) : Nat := (ch * 8 + p) * 16 + d

/-- Host line i of a front line. -/
def getHostLine (fl : FrontLine) (i : Nat) : HostLine := fl.extractLsb' (512 * i) 512
/-- Front line i of a frame. -/
def getFrontLine (f : FrameData) (i : Nat) : FrontLine := f.extractLsb' (2048 * i) 2048
/-- Put front line i into a frame. -/
def putFrontLine (f : FrameData) (i : Nat) (l : FrontLine) : FrameData :=
  (f &&& ~~~ ((BitVec.allOnes 2048).setWidth 32768 <<< (2048 * i))) ||| (l.setWidth 32768 <<< (2048 * i))

/-- Spread one bit per byte to eight bits per byte, `n` bytes from byte `i`. -/
def expandMask {w : Nat} (m : BitVec w) : Nat → BitVec 2048
  | 0 => 0
  | n + 1 => expandMask m n ||| (if m.getLsbD n then 0xFF#2048 <<< (8 * n) else 0)

/-- Replace the bytes of a line that a byte mask selects. -/
def blendLine (old new : FrontLine) (m : ByteMask) : FrontLine :=
  (old &&& ~~~ expandMask m 256) ||| (new &&& expandMask m 256)

/-- The byte mask of host line i. -/
def hostMask (i : Nat) : ByteMask := (BitVec.allOnes 64).setWidth 256 <<< (64 * i)

/-- Byte enables of host line i, as a mask of the front line. -/
def enableMask (be : W64) (i : Nat) : ByteMask := be.setWidth 256 <<< (64 * i)

/-- Host line data at its place in a front line. -/
def placeHostLine (d : HostLine) (i : Nat) : FrontLine := d.setWidth 2048 <<< (512 * i)

end Sys2Proof.Machine
end

