-- ==== Sys2Proof/Machine/Ops.lean ====
section
/-!
DEFINITION. The named operations that meanings share: reporting events (R38, R39), cellar book records and spread counters
(R536 to R545), completing commands (R525 to R527) and drawing free values.
-/
namespace Sys2Proof.Machine

/-- The outcome type of every meaning. -/
abbrev Res := Host.Outcome State Fault Refusal

/-! ### Free values -/

/-- A free value of width `w`, and the state with the counter advanced (log entry 1). -/
def drawBits (w : Nat) (s : State) : BitVec w × State := (Config.freeBits w s.free, { s with free := s.free + 1 })

/-- A free number, and the state with the counter advanced (log entry 1). -/
def drawNat (s : State) : Nat × State := (Config.freeNat s.free, { s with free := s.free + 1 })

/-! ### Events (R38, R39) -/

/-- An empty unit buffer. -/
def UnitBuf.empty : UnitBuf := { evs := [], lost := 0, before := 0 }

/-- A unit buffers an event, or counts it while 16 are unreported (R39). -/
def bufferEvent (u : UnitBuf) (e : Ev) : UnitBuf :=
  if u.evs.length < 16 then { u with evs := u.evs ++ [e] }
  else if u.lost = 0 then { u with lost := 1, before := 16 }
  else { u with lost := u.lost + 1 }

/-- A unit reports an event to its owner (R38). -/
def raiseEv (e : Ev) (s : State) : State :=
  { s with recorder := { s.recorder with units := tmod s.recorder.units e.src UnitBuf.empty (bufferEvent · e) } }

/-- A unit reports an event of Table 18-9 (R38). -/
def raise (src code p0 p1 p2 : Nat) (s : State) : State :=
  raiseEv { src := src, code := code, p0 := p0, p1 := p1, p2 := p2, sev := 0 } s

/-- 5006h of a unit (R32): the path row of Table 1-2 and DPA[31:0]; it concerns the extent of that address (R95). -/
def raiseParity (src row addr : Nat) (s : State) : State :=
  raiseEv { src := src, code := 0x5006, p0 := row, p1 := addr % 2 ^ 32, p2 := 0, sev := 0, ext := some (addr / 2 ^ 30) } s

/-- The parameters of an event that carries a DPA and its head (R552). -/
def raiseDpa (src code dpa head : Nat) (s : State) : State :=
  raise src code (dpa % 2 ^ 32) (dpa / 2 ^ 32 % 65536 + head * 65536) 0 s

/-! ### Start phases (R578) -/

/-- A phase of Table 20-1 completes. -/
def markPhase (n : Nat) (s : State) : State :=
  if s.start.phases.contains n then s else { s with start := { s.start with phases := s.start.phases ++ [n] } }

/-! ### Cellar book records (R536 to R541) -/

/-- Pages of a record of `len` data bytes (R536). -/
def recPages (len : Nat) : Nat := ((len + 3) / 4 * 4 + 24 + 255) / 256

/-- Pages from the tail to the write pointer (R538). -/
def usedPages (rs : List CRec) : Nat := (rs.map fun r => recPages r.data.length).sum

/-- The current record of a key: the valid one with the largest SEQ (R536). The list is oldest first. -/
def currentRec (rs : List CRec) (key : Nat) : Option CRec := (rs.reverse).find? fun r => r.key == key

/-- Whether a record is the current one of its key (R536). -/
def isCurrent (rs : List CRec) (r : CRec) : Bool := currentRec rs r.key == some r

/-- Pages of the current records, with a record of `len` bytes put under `key` (R538). -/
def currentPages (rs : List CRec) (key len : Nat) : Nat :=
  ((rs.filter fun r => isCurrent rs r && r.key != key).map fun r => recPages r.data.length).sum + recPages len

/-- Largest record the region holds, in pages (R538). -/
def largestRec (rs : List CRec) : Nat := (rs.map fun r => recPages r.data.length).foldl max 0

/-- Put a record at the write pointer (R536, R538). -/
def appendRec (l : RecLog) (key : Nat) (data : List Byte) : RecLog :=
  { l with recs := l.recs ++ [{ key := key, seq := l.seq, data := data }], seq := l.seq + 1, torn := none }

/-- Drop the oldest record at the tail (R538). -/
def dropTail (l : RecLog) : RecLog :=
  match l.recs with
  | [] => l
  | r :: rs => { l with recs := rs, tail := (l.tail + recPages r.data.length) % l.pages }

/-- One reclaim step at the tail: a current record is first written again (R538). -/
def reclaimOne (l : RecLog) : RecLog :=
  match l.recs with
  | [] => l
  | r :: _ => if isCurrent l.recs r then dropTail (appendRec l r.key r.data) else dropTail l

/-- Reclaim until `need` pages and one largest record fit, within one lap (R538). -/
def reclaim (need : Nat) : Nat → RecLog → RecLog
  | 0, l => l
  | n + 1, l =>
    if need + max need (largestRec l.recs) ≤ l.pages - usedPages l.recs then l else reclaim need n (reclaimOne l)

/-- Write a record, or refuse when current records would exceed half of the region (R538). -/
def logWrite (l : RecLog) (key : Nat) (data : List Byte) : Option RecLog :=
  if l.pages < 2 * currentPages l.recs key data.length then none
  else some (appendRec (reclaim (recPages data.length) l.recs.length l) key data)

/-- Page at the write pointer (R538). -/
def writePage (l : RecLog) : Nat := (l.tail + usedPages l.recs) % max 1 l.pages

/-- The scan of a record log at a start (R537): the tail stands at the first current record that follows the write pointer. -/
def rescan (l : RecLog) : Nat → RecLog
  | 0 => l
  | n + 1 =>
    match l.recs with
    | [] => l
    | r :: _ => if isCurrent l.recs r then l else rescan (dropTail l) n

/-- The record log of a region, if it has one (R535). -/
def regionLog (c : CellarSt) (region : Nat) : Option RecLog :=
  if region = 2 then some c.system else if region = 6 then some c.epoch else if region = 7 then some c.user else none

/-- Put back the record log of a region. -/
def setRegionLog (c : CellarSt) (region : Nat) (l : RecLog) : CellarSt :=
  if region = 2 then { c with system := l } else if region = 6 then { c with epoch := l }
  else if region = 7 then { c with user := l } else c

/-- Ask the controller for a write run (R534). -/
def cellarWrite (cls region key : Nat) (data : List Byte) (cci : Option Nat) (s : State) : State :=
  { s with cellar := { s.cellar with
      writes := s.cellar.writes ++
        [{ cls := cls, region := region, key := key, data := data, cci := cci }] } }

/-- The write run that the controller does next: the oldest of the highest class (R534). -/
def nextWrite (ws : List CWrite) : Option CWrite :=
  let top := (ws.map (·.cls)).foldl min 6
  ws.find? fun w => w.cls == top

/-- Write a record whose step is whole: the COMMIT word is written within the step (R193, R489). -/
def cellarCommitNow (region key : Nat) (data : List Byte) (s : State) : State :=
  match regionLog s.cellar region with
  | none => s
  | some l =>
    match logWrite l key data with
    | none => s
    | some l' => { s with cellar := setRegionLog s.cellar region l' }

/-- The current data of a key, none when it has no value (R536). -/
def cellarRead (s : State) (region key : Nat) : Option (List Byte) :=
  match regionLog s.cellar region with
  | none => none
  | some l =>
    match currentRec l.recs key with
    | none => none
    | some r => if r.data.isEmpty then none else some r.data

/-! ### Spread counters (R544, R545) -/

/-- An empty spread counter page. -/
def Spread.empty : Spread := { base0 := none, base1 := none, cells := List.replicate 44 (0, 0) }

/-- The base in force: the one with the higher generation (R545). -/
def spreadBase (p : Spread) : Nat × Nat :=
  match p.base0, p.base1 with
  | none, none => (0, 0)
  | some a, none => a
  | none, some b => b
  | some a, some b => if a.2 < b.2 then b else a

/-- The value of a counter (R545). -/
def spreadValue (p : Spread) : Nat :=
  (spreadBase p).1 + ((p.cells.filter fun c => c.1 == (spreadBase p).2 % 256).map (·.2)).sum

/-- Whether a cell holds an increment of the generation in force (R545). -/
def cellCurrent (p : Spread) (c : Nat × Nat) : Bool := c.1 == (spreadBase p).2 % 256 && c.2 != 0

/-- Put an increment into the lowest cell that is not of the generation in force. -/
def putCell (gen inc : Nat) : List (Nat × Nat) → List (Nat × Nat)
  | [] => []
  | c :: r => if c.1 == gen && c.2 != 0 then c :: putCell gen inc r else (gen, inc) :: r

/-- An increment of a spread counter: a cell write, or a carry into the other base slot (R545). -/
def spreadBump (p : Spread) (inc : Nat) : Spread :=
  if inc = 0 then p
  else if inc < 2 ^ 24 ∧ (p.cells.all fun c => cellCurrent p c) = false then
    { p with cells := putCell ((spreadBase p).2 % 256) inc p.cells }
  else
    let b := spreadBase p
    let nb := (spreadValue p + inc, b.2 + 1)
    let cells := p.cells.map fun c => if cellCurrent p c then c else (0, 0)
    if (b.2 + 1) % 2 = 0 then { p with base0 := some nb, cells := cells } else { p with base1 := some nb, cells := cells }

/-- Add to spread counter `c` (R545). -/
def spreadAdd (c inc : Nat) (s : State) : State :=
  { s with cellar := { s.cellar with spread := tmod s.cellar.spread c Spread.empty (spreadBump · inc) } }

/-- Read spread counter `c` (R545). -/
def spreadRead (s : State) (c : Nat) : Nat := spreadValue (tget s.cellar.spread c Spread.empty)

/-! ### Command interfaces (R522 to R527) -/

/-- A command interface that has run nothing. -/
def CciSt.fresh : CciSt := { lastOp := 0, rc := .success, out := .none, wait := none, bg := none, limit := 4096 }

/-- State of command interface `c`: 2h primary and 2h + 1 secondary mailbox of head h, 8 SMBus, 9 I3C (R522). -/
def cciOf (s : State) (c : Nat) : CciSt := tget s.mgmt.ccis c CciSt.fresh

/-- Put the state of a command interface. -/
def setCci (c : Nat) (x : CciSt) (s : State) : State := { s with mgmt := { s.mgmt with ccis := tput s.mgmt.ccis c x } }

/-- Complete a command on an interface (R525). -/
def complete (c op : Nat) (rc : Rc) (out : CmdOut) (s : State) : State :=
  setCci c { cciOf s c with lastOp := op, rc := rc, out := out, wait := none } s

/-- Complete a command that an interface still waits for; a head reset has discarded any other (Table 17-9). -/
def completeWaiting (c op : Nat) (rc : Rc) (out : CmdOut) (s : State) : State :=
  match (cciOf s c).wait with
  | some (o, _) => if o = op then complete c op rc out s else s
  | none => s

/-- Leave a command waiting for its record's COMMIT word (R539). -/
def awaitCommit (c op : Nat) (out : CmdOut) (s : State) : State :=
  setCci c { cciOf s c with lastOp := op, wait := some (op, out) } s

/-- Start a background operation (R527). -/
def startBg (c op : Nat) (s : State) : State :=
  setCci c { cciOf s c with lastOp := op, rc := .bgStarted, out := .none, wait := none,
                            bg := some { op := op, pct := 0, rc := none } } s

/-- The head of a mailbox interface. -/
def headOfCci (c : Nat) : Option Nat := if c < 8 then some (c / 2) else none

/-- Raise an MSI-X request of a head (R98, R522): a log number, or 5 for background completion. -/
def raiseMsix (h v : Nat) (s : State) : State :=
  match tfind s.heads h with
  | none => s
  | some x => { s with heads := tput s.heads h { x with msix := x.msix ++ [v] } }

/-- End the background operation of an interface, if it is `op` and runs; a head's interrupt follows (R527). -/
def endBgOn (c op : Nat) (rc : Rc) (s : State) : State :=
  match (cciOf s c).bg with
  | none => s
  | some b =>
    if b.op = op ∧ b.rc = none then
      let s := setCci c { cciOf s c with bg := some { b with pct := 100, rc := some rc } } s
      match headOfCci c with
      | some h => raiseMsix h 5 s
      | none => s
    else s

/-- End background operation `op` on whichever interfaces run it (R527). -/
def endBg (op : Nat) (rc : Rc) (s : State) : State := (List.range 10).foldl (fun s c => endBgOn c op rc s) s

/-- Whether some interface runs background operation `op`. -/
def bgRunning (s : State) (op : Nat) : Bool :=
  (List.range 10).any fun c =>
    match (cciOf s c).bg with
    | some b => b.op == op && b.rc == none
    | none => false

end Sys2Proof.Machine
end

