-- ==== Sys2Proof/Machine/Domains.lean ====
section
/-!
DEFINITION. The clock domains: which run, the order in which their PLLs lock, and what a drain keeps running
(14_time_base_and_clocks.md R467 and R468, 01_architecture.md R47 to R49).
-/
namespace Sys2Proof.Machine

/-- A drain runs. -/
def drainRunning (s : State) : Bool := s.persist.drain.isSome

/-! ### Clock domains (R47, R48, R467) -/

/-- State of a domain. -/
def domOf (s : State) (d : Nat) : DomState := tget s.time.domains d .unpowered

/-- Put a domain's state. -/
def setDom (d : Nat) (x : DomState) (s : State) : State :=
  { s with time := { s.time with domains := tput s.time.domains d x } }

/-- The other domain of a shared PLL: CORE and XTS, FRONT and MAP (R47). -/
def pllPartner (d : Nat) : Option Nat :=
  if d = 7 then some 11 else if d = 11 then some 7 else if d = 8 then some 9 else if d = 9 then some 8 else none

/-- Domains a drain uses: CORE, XTS, FRONT, MAP, MQ0 to MQ8, TBASE and AON (R468). -/
def drainDomain (d : Nat) : Bool := d == 1 || d == 2 || d == 7 || d == 8 || d == 9 || d == 11 || (20 ≤ d && d ≤ 28)

/-- The PLL of a domain, by the lower domain that uses it (R47). -/
def pllOf (d : Nat) : Nat := if d = 11 then 7 else if d = 9 then 8 else d

/-- The PLLs of a list of domains. -/
def pllCount (l : List Nat) : Nat := (l.filter fun d => pllOf d == d || !l.contains (pllOf d)).length

/-- A domain whose PLL runs already, through itself or its partner. -/
def pllRuns (s : State) (d : Nat) : Bool :=
  match pllPartner d with
  | some p => domOf s p == .running || domOf s p == .gated
  | none => false

/-- Start a domain: at once when gated or when its PLL runs, else its PLL locks, at most four at a time, and a domain that a
drain needs goes first in the queue (R48, R467). A stop of it that is held lapses (R468). -/
def startDom (d : Nat) (s : State) : State :=
  let s := { s with time := { s.time with heldStops := s.time.heldStops.filter (· != d) } }
  match domOf s d with
  | .running => s
  | .gated => setDom d .running s
  | _ =>
    if pllRuns s d then setDom d .running s
    else if s.time.locking.contains d || s.time.lockQueue.contains d then s
    else if (s.time.locking.any fun x => pllOf x == pllOf d) || decide (pllCount s.time.locking < 4) then
      { s with time := { s.time with locking := s.time.locking ++ [d] } }
    else
      let q := s.time.lockQueue
      let q := if drainDomain d then (q.filter drainDomain) ++ [d] ++ (q.filter fun x => !drainDomain x) else q ++ [d]
      { s with time := { s.time with lockQueue := q } }

/-- Gate a running domain, unless a drain uses it (R468). -/
def gateDom (d : Nat) (s : State) : State :=
  if domOf s d = .running ∧ ¬(drainRunning s ∧ drainDomain d) then setDom d .gated s else s

/-- Waiting requests begin to lock, oldest first, while fewer than four PLLs lock; a request for a PLL that locks joins it (R48). -/
def fillLocks : Nat → State → State
  | 0, s => s
  | n + 1, s =>
    match s.time.lockQueue with
    | [] => s
    | q :: qs =>
      if pllCount s.time.locking < 4 then
        fillLocks n { s with time := { s.time with
          locking := s.time.locking ++ [q] ++ qs.filter (fun d => pllOf d == pllOf q),
          lockQueue := qs.filter fun d => pllOf d != pllOf q } }
      else s

/-- Stop a domain's PLL; a stop of a domain that a running drain uses is held until the handover (R468). A lock that it breaks off
lets a waiting one begin (R48). -/
def stopDom (d : Nat) (s : State) : State :=
  if drainRunning s ∧ drainDomain d then { s with time := { s.time with heldStops := s.time.heldStops ++ [d] } }
  else
    let s := { s with time := { s.time with
      locking := s.time.locking.filter (· != d), lockQueue := s.time.lockQueue.filter (· != d) } }
    fillLocks s.time.lockQueue.length (setDom d .stopped s)

/-- The stop requests held during a drain take effect at the handover (R468). -/
def releaseStops (s : State) : State :=
  s.time.heldStops.foldl (fun s d => setDom d .stopped s) { s with time := { s.time with heldStops := [] } }

/-- A domain loses its supply (R49). -/
def unpowerDom (d : Nat) (s : State) : State := setDom d .unpowered s

end Sys2Proof.Machine
end

