-- ==== Sys2Proof/Machine/Mailbox.lean ====
section
/-!
DEFINITION. The path every mailbox and MCTP command takes: which interfaces accept which opcode (R522, R524, R516, R582),
what a supervisor fault answers (R41, R42), payload checks (R526), background operations (R527) and completion (R525, R539).
-/
namespace Sys2Proof.Machine

/-- Vendor commands whose name begins with Get (Tables 17-5 to 17-8). -/
def vendorGets : List Nat :=
  [0xC000, 0xC013, 0xC020, 0xC031, 0xC101, 0xC110, 0xC111, 0xC200, 0xC209, 0xC300, 0xC301, 0xC310, 0xC312, 0xC330,
   0xC340, 0xC341, 0xC344, 0xC350, 0xC352, 0xC360, 0xC362, 0xC400, 0xC403, 0xC404, 0xC405, 0xC500, 0xC502, 0xC510,
   0xC600, 0xC700, 0xC710, 0xC712, 0xC720, 0xC723, 0xC730, 0xC732, 0xC800, 0xC804, 0xC900, 0xC901, 0xCA00, 0xCA04,
   0xCA05, 0xCB00, 0xCB04, 0xCF02, 0xCF05]

/-- Opcodes of Table 17-4 and of Tables 17-5 to 17-8. -/
def listedOps : List Nat :=
  [0x0001, 0x0002, 0x0003, 0x0004, 0x0005, 0x0100, 0x0101, 0x0102, 0x0103, 0x0200, 0x0201, 0x0202, 0x0300, 0x0301, 0x0400,
   0x0401, 0x4000, 0x4200, 0x4201, 0x4202, 0x4203, 0x4204, 0x4300, 0x4301, 0x4302, 0x4400, 0x4800, 0x4801, 0x4802, 0x4803,
   0x5500, 0x5600, 0x5601, 0x5602, 0x5603, 0x5604, 0x5605] ++ vendorGets ++
  [0xC001, 0xC002, 0xC010, 0xC011, 0xC012, 0xC021, 0xC022, 0xC023, 0xC030, 0xC100, 0xC201, 0xC202, 0xC203, 0xC204, 0xC205,
   0xC206, 0xC207, 0xC208, 0xC302, 0xC303, 0xC304, 0xC305, 0xC311, 0xC331, 0xC342, 0xC343, 0xC351, 0xC361, 0xC363] ++
  [0xC401, 0xC402, 0xC406, 0xC501, 0xC503, 0xC504, 0xC511, 0xC512, 0xC601, 0xC602, 0xC701, 0xC702, 0xC711, 0xC713, 0xC721,
   0xC722, 0xC731, 0xC801, 0xC802, 0xC803, 0xC902, 0xCA01, 0xCA02, 0xCA03, 0xCB01, 0xCB02, 0xCB03, 0xCF00, 0xCF01, 0xCF03,
   0xCF04]

/-- Standard commands of scope Head (Table 17-4). -/
def headScope : List Nat :=
  [0x0001, 0x0002, 0x0003, 0x0004, 0x0005, 0x0100, 0x0101, 0x0102, 0x0103, 0x0300, 0x0400, 0x0401, 0x4000, 0x4200,
   0x4201, 0x4202, 0x4203, 0x4204, 0x4300, 0x4301, 0x4302, 0x4800, 0x4801, 0x4802, 0x4803]

/-- Commands of recovery mode (R516); Activate FW only for the next cold reset, which its meaning checks. -/
def recoveryOps : List Nat := [0x0001, 0x4000, 0x0200, 0x0201, 0x0202, 0xC900, 0xCF05]

/-- Commands that only MCTP carries: response message limits (Table 17-4), the FM API (R528) and Set Debug Access (CF04h). -/
def mctpOnly (op : Nat) : Bool := op == 0x0003 || op == 0x0004 || (0x5500 ≤ op && op ≤ 0x5605) || op == 0xCF04

/-- Commands a secondary mailbox refuses (R522). -/
def primaryOnly (op : Nat) : Bool := op == 0x0201 || op == 0x0202 || op == 0x4400

/-- Data-path commands that a held start answers with Media Disabled (R582). -/
def dataPathOp (op : Nat) : Bool :=
  (0xC000 ≤ op && op ≤ 0xC3FF && !vendorGets.contains op) || (0x4300 ≤ op && op ≤ 0x4302) || op == 0x4400 ||
    (0x4800 ≤ op && op ≤ 0x4803) || (0x5600 ≤ op && op ≤ 0x5605)

/-- The supervisor that owns a command's subject (Table 1-4): 1 host, 2 media, 3 fabric, 4 platform, 0 management. -/
def ownerOf (op : Nat) : Nat :=
  if op = 0xC030 ∨ op = 0xC031 then 0
  else if 0xC000 ≤ op ∧ op ≤ 0xC1FF then 1
  else if 0xC200 ≤ op ∧ op ≤ 0xC3FF then 2
  else if 0xC400 ≤ op ∧ op ≤ 0xC5FF then 3
  else if 0xC600 ≤ op ∧ op ≤ 0xC9FF then 4
  else if 0xCA00 ≤ op ∧ op ≤ 0xCBFF then 1
  else if op = 0xCF00 ∨ op = 0xCF01 then 2
  else if op = 0x0300 ∨ op = 0x0301 then 4
  else if 0x4300 ≤ op ∧ op ≤ 0x4400 then 2
  else if (0x4800 ≤ op ∧ op ≤ 0x4803) ∨ (0x5600 ≤ op ∧ op ≤ 0x5605) then 1
  else 0

/-- The supervisor of a number of `ownerOf`. -/
def supOf (s : State) (n : Nat) : Option SupSt :=
  if n = 1 then some s.mgmt.host else if n = 2 then some s.mgmt.media else if n = 3 then some s.mgmt.fabric
  else if n = 4 then some s.mgmt.platform else none

/-- Put back a supervisor. -/
def setSup (n : Nat) (x : SupSt) (s : State) : State :=
  if n = 1 then { s with mgmt := { s.mgmt with host := x } } else if n = 2 then { s with mgmt := { s.mgmt with media := x } }
  else if n = 3 then { s with mgmt := { s.mgmt with fabric := x } }
  else if n = 4 then { s with mgmt := { s.mgmt with platform := x } } else s

/-- The reset state of one event log. -/
def EvLog.empty : EvLog := { ents := [], overflow := 0, nextHandle := 1 }

/-- The reset state of a log set. -/
def LogSet.empty : LogSet :=
  { info := EvLog.empty, warning := EvLog.empty, failure := EvLog.empty, fatal := EvLog.empty, dynCap := EvLog.empty }

/-- The default layout of the dynamic capacity regions: region n is n × 32 TiB, in GiB (R75). -/
def defaultRegions : List (Nat × Nat) := (List.range 8).map fun n => (n * 32768, 32768)

/-- An uncommitted HDM decoder. -/
def Decoder.off : Decoder := { committed := false, base := 0, size := 0, ways := 1, gran := 256, pos := 0, skip := 0 }

/-- A head at its reset values (Table 2-7, R102). -/
def HeadSt.fresh : HeadSt :=
  { present := false, perst := true, linkUp := false, rate := 0, width := 0, flit := .lo256, l1 := false,
    memActive := false, maTime := 0, maRef := 0, viral := false, viralInternal := false,
    ide := { on := false, insecure := false, cur := none, pend := none }, ideIo := none, aer := false, withheld := true,
    gpfWait := false, gpfSent := [], resetRun := false, decoders := List.replicate 8 Decoder.off, regions := defaultRegions, extGen := 0,
    logs := LogSet.empty, intPolicy := [0, 0, 0, 0, 0], msix := [], vendorEvtEn := true, devloadEn := true, s2m := [] }

/-- A head. -/
def headOf (s : State) (h : Nat) : HeadSt := tget s.heads h HeadSt.fresh

/-- Put back a head. -/
def setHead (h : Nat) (x : HeadSt) (s : State) : State := { s with heads := tput s.heads h x }

/-- Access level of an interface: the head's, and 2 for MCTP (R524). -/
def accessOf (s : State) (c : Nat) : Nat :=
  match headOfCci c with
  | some h => s.mgmt.access.getD h 2
  | none => 2

/-- Whether an access level allows a command (Table 17-2); Get Tenant at level 0 is checked further by its meaning. -/
def levelAllows (lvl op : Nat) : Bool :=
  if 2 ≤ lvl then true
  else if lvl = 1 then op < 0xC000 || vendorGets.contains op
  else headScope.contains op || op == 0xC013

/-- A core of cores 1 to 3 is free for a command: fewer than three interfaces have a command in progress (R523). -/
def coreFree (s : State) : Bool := decide (((List.range 10).filter fun c => (cciOf s c).wait.isSome).length < 3)

/-- An interface that can take a command: the management complex runs, phase 6 has ended or recovery mode is on (R516,
R578), the head is present and out of PERST_N with its link up, no command waits on it, and a core is free (R523). -/
def cciOpen (s : State) (c : Nat) : Bool :=
  s.mgmt.running && !s.mgmt.restarting && (s.mgmt.recovery || s.start.phases.contains 6) && (cciOf s c).wait.isNone && coreFree s &&
    match headOfCci c with
    | some h => (headOf s h).present && !(headOf s h).perst && (headOf s h).linkUp
    | none => c < 10

/-- The refusal an interface gives before a command is looked at, if any (log entry 6 gives the order): an opcode of no table comes
first (R26). -/
def gate (s : State) (c op : Nat) : Option Rc :=
  if !listedOps.contains op then some .unsupported
  else if (mctpOnly op && decide (c < 8)) || (primaryOnly op && decide (c < 8) && decide (c % 2 = 1)) then
    some .unsupportedMailbox
  else if s.mgmt.recovery && !recoveryOps.contains op then some .mediaDisabled
  else if !levelAllows (accessOf s c) op then some .unsupportedMailbox
  else if s.start.held && dataPathOp op then some .mediaDisabled
  else
    match supOf s (ownerOf op) with
    | some x => if x.mode = .restarting then some .busy else if x.mode = .halted then some .internalError else none
    | none => none

/-- What a command's own meaning answers. -/
inductive Reply where
  /-- a return code other than Success, with no effect -/
  | fail (rc : Rc)
  /-- Success, with an output -/
  | done (out : CmdOut) (s : State)
  /-- Success once the record written last is committed (R539) -/
  | commit (out : CmdOut) (s : State)
  /-- Background Command Started (R527) -/
  | background (s : State)
  /-- a return code with an effect -/
  | failWith (rc : Rc) (s : State)
  /-- the command stays in progress until a later event completes it with Success and this output -/
  | wait (out : CmdOut) (s : State)
  /-- the command cannot start yet: a record it must journal waits for the staging area (R184, R250) -/
  | stall

/-- Length of an output in bytes; the layouts of CXL's own outputs are not counted. -/
def outLen : CmdOut → Nat
  | .bytes b => b.length
  | _ => 0

/-- Payload limit of an interface: 64 KiB for a mailbox, the response message limit for MCTP (R522, R526, R528). -/
def payloadLimit (s : State) (c : Nat) : Nat := if c < 8 then 65536 else (cciOf s c).limit

/-- Whether the interface holds a running background operation (R527). -/
def bgBusy (s : State) (c : Nat) : Bool :=
  match (cciOf s c).bg with
  | some b => b.rc == none
  | none => false

/-- Attach the interface to the newest cellar write, so that its COMMIT word completes the command (R539). -/
def tieCommit (c : Nat) (s : State) : State :=
  match s.cellar.writes.reverse with
  | [] => s
  | w :: ws => { s with cellar := { s.cellar with writes := (({ w with cci := some c } :: ws).reverse) } }

/-- Settle a command by its reply. -/
def settle (c op : Nat) (s : State) : Reply → State
  | .fail rc => complete c op rc .none s
  | .failWith rc s' => complete c op rc .none s'
  | .done out s' => if payloadLimit s c < outLen out then complete c op .invalidInput .none s else complete c op .success out s'
  | .commit out s' => awaitCommit c op out (tieCommit c s')
  | .background s' => startBg c op s'
  | .wait out s' => awaitCommit c op out s'
  | .stall => s

/-- Run a command on interface `c`: refusals first, then the payload checks of R526, then its own meaning. `bg` marks a
background command (R527). -/
def mailbox (c op : Nat) (bg lenOk reservedOk : Bool) (body : State → Reply) (s : State) : Res :=
  if cciOpen s c then
    match gate s c op with
    | some rc => .next (complete c op rc .none s)
    | none =>
      if !lenOk then .next (complete c op .invalidPayloadLength .none s)
      else if !reservedOk then .next (complete c op .invalidInput .none s)
      else if bg && bgBusy s c then .next (complete c op .busy .none s)
      else .next (settle c op s (body s))
  else .next s

/-- A vendor command: its payload must have `len` bytes and zeros at the reserved offsets, given as offset and count. -/
def vendor (c : Fin 10) (op : Nat) (inp : List Byte) (len : Nat) (resv : List (Nat × Nat)) (body : State → Reply)
    (s : State) : Res :=
  mailbox c op false (inp.length == len) (resv.all fun (o, n) => le inp o n == 0) body s

/-- A background vendor command (R527). -/
def vendorBg (c : Fin 10) (op : Nat) (inp : List Byte) (len : Nat) (resv : List (Nat × Nat)) (body : State → Reply)
    (s : State) : Res :=
  mailbox c op true (inp.length == len) (resv.all fun (o, n) => le inp o n == 0) body s

/-- A standard command: its payload layout is CXL's, so its fields come as operands (log entry 5). -/
def standard (c : Fin 10) (op : Nat) (body : State → Reply) (s : State) : Res := mailbox c op false true true body s

/-- The reply of a command that stores a setting: out of range, or a class 5 record whose COMMIT word completes the command and
puts the setting in force (R539; the registers change in `applySetting`). -/
def storeSetting (key : Nat) (r : Option (List Byte)) (s : State) : Reply :=
  match r with
  | none => .fail .invalidInput
  | some d => .commit .none (cellarWrite 5 2 key d none s)

/-- The newest record of a SYSTEM key that is requested and not yet committed. -/
def pendingRec (s : State) (key : Nat) : Option (List Byte) :=
  (s.cellar.writes.reverse.find? fun w => w.region == 2 && w.key == key).map (·.data)

/-- A reply of bytes and no change of state. -/
def answer (s : State) (b : List Byte) : Reply := .done (.bytes b) s

end Sys2Proof.Machine
end

