-- ==== Sys2Proof/Machine/Die.lean ====
section
/-!
DEFINITION. The ONB512 die: command acceptance, sense engines, programming, tile reset, features and status
(10_media_channel.md R323 to R349).
-/
namespace Sys2Proof.Machine

/-- An idle engine with an empty register. -/
def SenseEng.idle : SenseEng :=
  { st := .idle, form := none, next := none, full := false, valid := 0, data := 0, blank := false, outDue := [] }

/-- A die that does not answer; the features are at their reset values (Table 10-9). -/
def DieSt.absent : DieSt :=
  { present := false, page0 := [], page1 := [], buf := 0, bufSet := 0, setup := none, e0 := SenseEng.idle,
    e1 := SenseEng.idle, array := none, suspended := false, progFail := false, resetFail := false, cmdReject := false,
    cmdCheck := false, hot := false, odtWr := 4, odtPark := 0, drive := 1, vrefDq := 30, softBand := 3, trainMode := 0,
    temp := 0, tempDone := false, calEnd := 0, segs := [], undefTiles := [] }

/-- A channel before bring-up. -/
def ChanSt.down : ChanSt :=
  { mode := .down, mreset := true, mck := 0, probed := false, found := [], trainings := 0, retrains := 0, checks := 0,
    rejects := 0, mca := 0, pkgs := [], polls := [], invalid := [], retrained := [], dorm := false, checkTimes := [], wantRetrain := false, trainCci := none, pgLost := none,
    reenabled := false, lastRead := none, resp := [], bus := [], onBus := none }

/-- A die by number. -/
def dieOf (s : State) (d : Nat) : DieSt := tget s.media.dies d DieSt.absent

/-- Put back a die. -/
def setDie (d : Nat) (x : DieSt) (s : State) : State := { s with media := { s.media with dies := tput s.media.dies d x } }

/-- A channel. -/
def chanOf (s : State) (c : Nat) : ChanSt := tget s.media.chans c ChanSt.down

/-- Put back a channel. -/
def setChan (c : Nat) (x : ChanSt) (s : State) : State :=
  { s with media := { s.media with chans := tput s.media.chans c x } }

/-- Channel of a die number. -/
def chanOfDie (d : Nat) : Nat := d / 128
/-- Package of a die number. -/
def pkgOfDie (d : Nat) : Nat := d / 16 % 8
/-- Die index in its package. -/
def idxOfDie (d : Nat) : Nat := d % 16

/-- The dies of a package. -/
def pkgDies (c p : Nat) : List Nat := (List.range 16).map fun i => dieId c p i

/-- The bytes a channel's dies drive for a command. -/
def respond (c : Nat) (b : List Byte) (s : State) : State := setChan c { chanOf s c with resp := b } s

/-! ### Segments (R324, R325) -/

/-- Key of a segment in a die's table. -/
def segKey (tile seg : Nat) : Nat := tile * 131072 + seg

/-- Content of a segment: blank reads FFh in every byte (R324); an undefined tile reads a free value. -/
def segContent (x : DieSt) (tile seg : Nat) : BitVec 4736 :=
  match tfind x.segs (segKey tile seg) with
  | some v => v
  | none =>
    match tfind x.undefTiles tile with
    | some n => Config.freeSeg n tile seg
    | none => BitVec.allOnes 4736

/-- Whether a segment has been neither programmed nor left undefined since its tile was reset (R325). -/
def segBlank (x : DieSt) (tile seg : Nat) : Bool :=
  (tfind x.segs (segKey tile seg)).isNone && (tfind x.undefTiles tile).isNone

/-- The program buffer or register bytes as a list. -/
def bytesOf {w : Nat} (v : BitVec w) (start n : Nat) : List Byte :=
  (List.range n).map fun i => v.extractLsb' (8 * (start + i)) 8

/-- A list of bytes as a bit vector, byte 0 lowest. -/
def packBytes (w : Nat) : List Byte → BitVec w
  | [] => 0
  | b :: bs => b.setWidth w ||| (packBytes w bs <<< 8)

/-! ### Training pattern (R352) -/

/-- One step of PRBS-7, x^7 + x^6 + 1. -/
def prbsStep (v : Nat) : Nat := v * 2 % 128 + (v / 64 + v / 32 % 2) % 2

/-- `n` bits of PRBS-7 from a state, the top bit first (log entry 12). -/
def prbsBits (v : Nat) : Nat → List Nat
  | 0 => []
  | n + 1 => v / 64 % 2 :: prbsBits (prbsStep v) n

/-- The read pattern: MDQ bit b carries PRBS-7 seeded with 7Fh XOR b, one bit per beat, two bytes per beat (R352). -/
def readPattern : List Byte :=
  let lanes := (List.range 16).map fun b => prbsBits (0x7F ^^^ b) 592
  (List.range 592).flatMap fun beat =>
    let bitAt := fun b => ((lanes.getD b []).getD beat 0)
    [BitVec.ofNat 8 (((List.range 8).map fun b => bitAt b * 2 ^ b).sum),
     BitVec.ofNat 8 (((List.range 8).map fun b => bitAt (b + 8) * 2 ^ b).sum)]

/-! ### Sensing (R332, R333) -/

/-- Valid length of a form's result in 8 B units (R333). -/
def formLen : SenseForm → Nat
  | .seg .. => 74
  | .soft .. => 148
  | .page _ => 64

/-- A suspended operation works on a segment (R343). -/
def segBusy (x : DieSt) (tile seg : Nat) : Bool :=
  match x.array with
  | some (.prog t g) => t == tile && g == seg
  | some (.reset t) => t == tile
  | none => false

/-- What a sense finds in a segment: its content, and a free value while a suspended operation works on it. -/
def senseSeg (x : DieSt) (tile seg : Nat) (s : State) : BitVec 4736 × State :=
  if segBusy x tile seg then drawBits 4736 s else (segContent x tile seg, s)

/-- What a form senses; soft bits depend on resistances the manual does not give, so they are a free value. -/
def senseData (x : DieSt) (f : SenseForm) (s : State) : BitVec 9472 × Bool × State :=
  match f with
  | .seg t g _ _ _ =>
    let v := senseSeg x t g s
    (v.1.setWidth 9472, v.1 == BitVec.allOnes 4736, v.2)
  | .soft t g _ _ _ =>
    let v := senseSeg x t g s
    let r := drawBits 4736 v.2
    (v.1.setWidth 9472 ||| (r.1.setWidth 9472 <<< 4736), v.1 == BitVec.allOnes 4736, r.2)
  | .page c => (packBytes 9472 (if c = 0 then x.page0 else x.page1), false, s)

/-- One engine of a die. -/
def engOf (x : DieSt) (e : Bool) : SenseEng := if e then x.e1 else x.e0

/-- Put back one engine of a die. -/
def setEng (x : DieSt) (e : Bool) (g : SenseEng) : DieSt := if e then { x with e1 := g } else { x with e0 := g }

/-- Bytes that an output form returns: the training pattern, the buffer, or the register (R333, Table 10-9). -/
def outputBytes (x : DieSt) (g : SenseEng) (start len : Nat) : List Byte :=
  if x.trainMode = 1 then (readPattern.drop (8 * start)).take (8 * len)
  else if x.trainMode = 2 then bytesOf x.buf (8 * start) (8 * len)
  else bytesOf g.data (8 * start) (8 * len)

/-- The result that is due moves to the empty register; a held form then starts (Table 10-6). -/
def moveResult (d : Nat) (e : Bool) (s : State) : State :=
  let x := dieOf s d
  let g := engOf x e
  match g.form with
  | none => s
  | some f =>
    let r := senseData x f s
    let g' : SenseEng :=
      { g with full := true, valid := formLen f, data := r.1, blank := r.2.1, form := g.next, next := none,
               st := if g.next.isSome then .sensing else .idle, outDue := [] }
    let s := setDie d (setEng x e g') r.2.2
    if g.outDue.isEmpty then s
    else
      let s := respond (chanOfDie d) (g.outDue.flatMap fun o => outputBytes (dieOf s d) g' o.1 o.2.1) s
      if g.outDue.any fun o => o.2.2 then setDie d (setEng (dieOf s d) e { g' with full := false }) s else s

/-! ### Commands -/

/-- A command as a die takes it (Table 10-4). -/
inductive DieCmd where
  | sense (eng : Bool) (f : SenseForm)
  | output (eng free : Bool) (start len : Nat)
  | setup (tile seg : Nat)
  | data (start len : Nat) (bytes : List Byte)
  | confirm
  | resetTile (tile : Nat)
  | status
  | poll
  | setFeature (feature value : Nat)
  | getFeature (feature : Nat)
  | suspend
  | resume
  | tempRead
  | calibrate
deriving DecidableEq, Repr

/-- Reject a command: no effect but CMD_REJECT (R338). -/
def reject (d : Nat) (s : State) : State := setDie d { dieOf s d with cmdReject := true } s

/-- Both engines Idle. -/
def enginesIdle (x : DieSt) : Bool := x.e0.st == .idle && x.e1.st == .idle

/-- Acceptance of PROG SEG setup and RESET TILE (Table 10-7). -/
def arrayFree (x : DieSt) : Bool :=
  x.array.isNone && !x.suspended && enginesIdle x && !x.e0.full && !x.e1.full

/-- Whether a value is in a feature's range (Table 10-9). -/
def featureOk (f v : Nat) : Bool :=
  (f == 0 && decide (v ≤ 5)) || (f == 1 && decide (v ≤ 5)) || (f == 2 && decide (v ≤ 2)) || (f == 3 && decide (v ≤ 60)) ||
    (f == 4 && decide (1 ≤ v) && decide (v ≤ 7)) || (f == 5 && decide (v ≤ 2))

/-- Set a feature (Table 10-9). -/
def putFeature (x : DieSt) (f v : Nat) : DieSt :=
  if f = 0 then { x with odtWr := v } else if f = 1 then { x with odtPark := v } else if f = 2 then { x with drive := v }
  else if f = 3 then { x with vrefDq := v } else if f = 4 then { x with softBand := v } else { x with trainMode := v }

/-- Read a feature; package-wide ones are held by die 0, a reserved one reads 0000h (Table 10-9). -/
def readFeature (s : State) (d f : Nat) : Nat :=
  let x0 := dieOf s (d - idxOfDie d)
  let x := dieOf s d
  if f = 0 then x0.odtWr else if f = 1 then x0.odtPark else if f = 2 then x0.drive else if f = 3 then x0.vrefDq
  else if f = 4 then x.softBand else if f = 5 then x.trainMode else if f = 0x3F then 0x5A00 + idxOfDie d else 0

/-- Engine counts as sensing in the status word (Table 10-8). -/
def engBusy (g : SenseEng) : Bool := g.st != .idle

/-- The status word (Table 10-8). -/
def statusWord (x : DieSt) : Nat :=
  b2n x.array.isSome * 2 ^ 15 + b2n x.suspended * 2 ^ 14 + 2 ^ 13 + b2n x.e1.full * 2 ^ 11 + b2n x.e0.full * 2 ^ 10 +
    b2n (engBusy x.e1) * 2 ^ 9 + b2n (engBusy x.e0) * 2 ^ 8 + b2n x.progFail * 2 ^ 7 + b2n x.resetFail * 2 ^ 6 +
    b2n x.e1.blank * 2 ^ 5 + b2n x.e0.blank * 2 ^ 4 + b2n x.cmdReject * 2 ^ 3 + b2n x.cmdCheck * 2 ^ 2 + b2n x.hot * 2

/-! ### Parameter pages (R344, R345) -/

/-- ASCII ONBP (R344). -/
def pageSignature : Nat := 0x50424E4F

/-- A parameter page copy is valid (R345). -/
def pageValid (b : List Byte) : Bool :=
  b.length == 512 && le b 0 4 == pageSignature && le b 4 2 == 1 && le b 6 2 == 0x200 && le b 508 4 == crc32c (b.take 508)

/-- The page the CA4800 uses: copy 0 when it is valid, copy 1 otherwise; none when neither is (R345). -/
def goodPage (x : DieSt) : Option (List Byte) :=
  if pageValid x.page0 then some x.page0 else if pageValid x.page1 then some x.page1 else none

/-- TEMP_HOT of a die in °C, 95 when neither page is valid (Table 10-11, R345). -/
def tempHot (x : DieSt) : Nat :=
  match goodPage x with
  | some b => byteAt b 60
  | none => 95

/-- Offsets a die clamps to its OFS_MIN and OFS_MAX (R332, R345). -/
def clampOfs (x : DieSt) (o : Int) : Int :=
  match goodPage x with
  | some b => max (signed 8 (le b 46 1)) (min (signed 8 (le b 47 1)) o)
  | none => max (-64) (min 63 o)

/-- A form with its offsets clamped. -/
def clampForm (x : DieSt) : SenseForm → SenseForm
  | .seg t g a b c => .seg t g (clampOfs x a) (clampOfs x b) (clampOfs x c)
  | .soft t g a b c => .soft t g (clampOfs x a) (clampOfs x b) (clampOfs x c)
  | .page c => .page c

/-- A two-byte response word, the same on both beats (R339). -/
def wordResp (w : Nat) : List Byte := leBytes 2 w ++ leBytes 2 w

/-- The package of a die is being calibrated (R348). -/
def calibrating (s : State) (d : Nat) : Bool := decide (s.time.mono < (dieOf s (d - idxOfDie d)).calEnd)

/-- Whether a die takes commands: during a calibration only die 0 does, and only STATUS (R348). -/
def takesCmd (s : State) (d : Nat) (c : DieCmd) : Bool := !calibrating s d || (idxOfDie d == 0 && (c == .status || c == .poll))

/-- A die's bit of a poll beat: 0 when the engine is in Lead or Held or its register is Full (R334). -/
def pollBit (g : SenseEng) : Nat := if g.st = .lead ∨ g.st = .held ∨ g.full then 0 else 1

/-- The two beats of a STATUS poll; a bit that no die drives reads 1 (R334). -/
def pollWords (s : State) (c p : Nat) : Nat × Nat :=
  let bit := fun (e : Bool) (i : Nat) =>
    let x := dieOf s (dieId c p i)
    (if x.present ∧ (chanOf s c).mreset = false ∧ takesCmd s (dieId c p i) .poll = true then pollBit (engOf x e) else 1) * 2 ^ i
  (((List.range 16).map (bit false)).sum, ((List.range 16).map (bit true)).sum)

/-- Poll a package: the controller keeps the newest result (R334, R335). -/
def pollPkg (c p : Nat) (s : State) : State :=
  let w := pollWords s c p
  let ch := chanOf s c
  setChan c { ch with polls := tput ch.polls p w, resp := leBytes 2 w.1 ++ leBytes 2 w.2 } s

/-- A die takes a well-framed command in its state (R330, R338, Table 10-7). MRESET_N low or an absent die: nothing. -/
def dieRun (d : Nat) (c : DieCmd) (s : State) : State :=
  let x := dieOf s d
  if !x.present || (chanOf s (chanOfDie d)).mreset || !takesCmd s d c then s
  else
    match c with
    | .sense e f =>
      let g := engOf x e
      if x.array.isSome && !x.suspended then reject d s
      else if g.st = .idle then
        setDie d (setEng x e { g with st := .sensing, form := some (clampForm x f) }) s
      else if g.st = .lead ∧ g.next = none then setDie d (setEng x e { g with next := some (clampForm x f) }) s
      else reject d s
    | .output e free st len =>
      let g := engOf x e
      if g.full then
        if g.valid < st + len then reject d s
        else
          let s := respond (chanOfDie d) (outputBytes x g st len) s
          if free then
            let s := setDie d (setEng x e { g with full := false }) s
            if g.st = .held then moveResult d e s else s
          else s
      else if g.st = .lead then
        match g.form with
        | none => reject d s
        | some f =>
          if formLen f < st + len then reject d s else setDie d (setEng x e { g with outDue := g.outDue ++ [(st, len, free)] }) s
      else reject d s
    | .setup t g =>
      if arrayFree x then setDie d { x with setup := some (t, g), buf := 0, bufSet := 0, progFail := false } s
      else reject d s
    | .data st len bs =>
      if x.setup.isSome then
        let n := min (8 * len) (592 - 8 * st)
        let m : BitVec 592 := BitVec.ofNat 592 (2 ^ n - 1)
        let v : BitVec 4736 := packBytes 4736 (bs.take n)
        let keep : BitVec 4736 := ~~~ (BitVec.ofNat 4736 (2 ^ (8 * n) - 1) <<< (64 * st))
        setDie d { x with buf := (x.buf &&& keep) ||| (v <<< (64 * st)), bufSet := x.bufSet ||| (m <<< (8 * st)) } s
      else reject d s
    | .confirm =>
      match x.setup with
      | some (t, g) =>
        if x.bufSet = BitVec.allOnes 592 ∧ x.trainMode ≠ 2 then
          setDie d { x with array := some (.prog t g), setup := none } s
        else reject d s
      | none => reject d s
    | .resetTile t =>
      if arrayFree x then setDie d { x with array := some (.reset t), resetFail := false } s else reject d s
    | .status =>
      let s := respond (chanOfDie d) (wordResp (statusWord x ||| b2n (calibrating s d) * 2 ^ 15)) s
      let ch := chanOf s (chanOfDie d)
      let s := setChan (chanOfDie d)
        { ch with checks := ch.checks + b2n x.cmdCheck, rejects := ch.rejects + b2n x.cmdReject,
                  checkTimes := if x.cmdCheck then s.time.mono :: ch.checkTimes else ch.checkTimes } s
      setDie d { x with cmdReject := false, cmdCheck := false } s
    | .poll => pollPkg (chanOfDie d) (pkgOfDie d) s
    | .setFeature f v =>
      if x.array.isNone && enginesIdle x && featureOk f v && (decide (4 ≤ f) || idxOfDie d == 0) then
        setDie d (putFeature x f v) s
      else reject d s
    | .getFeature f => respond (chanOfDie d) (wordResp (readFeature s d f)) s
    | .suspend => if x.array.isSome && !x.suspended then setDie d { x with suspended := true } s else reject d s
    | .resume => if x.suspended then setDie d { x with suspended := false } s else reject d s
    | .tempRead =>
      if idxOfDie d = 0 then
        respond (chanOfDie d) (wordResp (unsignedOf 12 x.temp * 16 + b2n x.tempDone * 8 + 2)) s
      else reject d s
    | .calibrate =>
      if idxOfDie d = 0 ∧
          ((pkgDies (chanOfDie d) (pkgOfDie d)).all fun i => (dieOf s i).array.isNone && enginesIdle (dieOf s i)) then
        -- t_ZQ is at most 16 µs
        let r := drawNat s
        setDie d { x with calEnd := r.2.time.mono + r.1 % 16001 } r.2
      else reject d s

/-! ### Array operations end, MRESET_N (R336, R337, R349) -/

/-- Leave a segment undefined (R325). -/
def undefSeg (d tile seg : Nat) (s : State) : State :=
  let r := drawBits 4736 s
  setDie d { dieOf r.2 d with segs := tput (dieOf r.2 d).segs (segKey tile seg) r.1 } r.2

/-- Remove a tile's programmed segments. -/
def clearTile (x : DieSt) (tile : Nat) : DieSt :=
  { x with segs := tfilter x.segs (fun k _ => k / 131072 != tile), undefTiles := tdel x.undefTiles tile }

/-- Leave a tile undefined (R325, R337). -/
def undefTile (d tile : Nat) (s : State) : State :=
  let r := drawNat s
  let x := clearTile (dieOf r.2 d) tile
  setDie d { x with undefTiles := tput x.undefTiles tile s.free } r.2

/-- A program ends (R336): a blank segment takes the buffer; a failed one, or one that was not blank, is undefined (R325). A
suspended one does not end (R343). -/
def endProgram (d : Nat) (good : Bool) (s : State) : State :=
  let x := dieOf s d
  match x.array with
  | some (.prog t g) =>
    if x.suspended then s
    else
    let s := setDie d { x with array := none, suspended := false, progFail := !good } s
    if good && segBlank x t g then
      setDie d { dieOf s d with segs := tput (dieOf s d).segs (segKey t g) x.buf } s
    else undefSeg d t g s
  | _ => s

/-- A tile reset ends (R337); a suspended one does not (R343). -/
def endReset (d : Nat) (good : Bool) (s : State) : State :=
  let x := dieOf s d
  match x.array with
  | some (.reset t) =>
    if x.suspended then s
    else
    let s := setDie d { x with array := none, suspended := false, resetFail := !good } s
    if good then setDie d (clearTile (dieOf s d) t) s else undefTile d t s
  | _ => s

/-- MRESET_N low for one die: its operation is abandoned and its state reset (R349). -/
def resetDie (d : Nat) (s : State) : State :=
  let s := match (dieOf s d).array with
    | some (.prog t g) => undefSeg d t g s
    | some (.reset t) => undefTile d t s
    | none => s
  let x := dieOf s d
  setDie d { DieSt.absent with present := x.present, page0 := x.page0, page1 := x.page1, segs := x.segs,
                               undefTiles := x.undefTiles, temp := x.temp, hot := x.hot } s

/-- MRESET_N falls on a channel (R349). -/
def assertMreset (c : Nat) (s : State) : State :=
  let s := setChan c { chanOf s c with mreset := true, mck := 0, bus := [], onBus := none } s
  ((s.media.dies.map (·.1)).filter fun d => chanOfDie d == c).foldl (fun s d => resetDie d s) s

/-! ### Framing (R330, Table 10-5) -/

/-- Command bytes to a die index and command; none for a failed CRC, a wrong length or a reserved form (R330, Table 10-5). -/
def parseCmd (b : List Byte) : Option (Nat × DieCmd) :=
  let n := b.length
  let c := byteAt b 0 / 16
  let die := byteAt b 0 % 16
  let b1 := byteAt b 1
  let tile := b1 % 4 * 256 + byteAt b 2
  let seg := bits b1 4 1 * 65536 + le b 3 2
  let eng := bits b1 6 1 == 1
  let o := fun i => signed 8 (byteAt b i)
  if n < 4 ∨ crc8 (b.take (n - 1)) ≠ byteAt b (n - 1) then none
  else if c = 1 ∧ b1 < 128 ∧ n = 10 then some (die, .sense eng (.seg tile seg (o 5) (o 6) (o 7)))
  else if c = 1 ∧ 128 ≤ b1 ∧ n = 6 then some (die, .output eng (bits b1 4 1 == 1) (byteAt b 2) (byteAt b 3))
  else if c = 2 ∧ b1 < 128 ∧ n = 10 then some (die, .sense eng (.soft tile seg (o 5) (o 6) (o 7)))
  else if c = 3 ∧ b1 / 64 = 0 ∧ n = 6 then some (die, .setup tile seg)
  else if c = 3 ∧ b1 / 64 = 1 ∧ n = 6 then some (die, .data (byteAt b 2) (byteAt b 3) [])
  else if c = 3 ∧ b1 / 64 = 2 ∧ n = 4 then some (die, .confirm)
  else if c = 4 ∧ n = 4 then some (die, .resetTile tile)
  else if c = 5 ∧ b1 < 128 ∧ n = 4 then some (die, .status)
  else if c = 5 ∧ n = 4 then some (0, .poll)
  else if c = 6 ∧ n = 4 then some (die, .sense false (.page (b1 % 2)))
  else if c = 7 ∧ n = 6 then some (die, .setFeature b1 (le b 2 2))
  else if c = 8 ∧ n = 4 then some (die, .getFeature b1)
  else if c = 9 ∧ n = 4 then some (die, .suspend)
  else if c = 10 ∧ n = 4 then some (die, .resume)
  else if c = 11 ∧ n = 4 then some (die, .tempRead)
  else if c = 12 ∧ n = 4 then some (die, .calibrate)
  else none

/-- Every die of a package sets CMD_CHECK and ignores the command (R330). -/
def cmdCheckAll (c p : Nat) (s : State) : State :=
  (pkgDies c p).foldl (fun s d => if (dieOf s d).present then setDie d { dieOf s d with cmdCheck := true } s else s) s

/-! ### The bus of a channel (R354) -/

/-- Order in which transfers are given the bus (R354): poll responses and outputs of LAT and WR reads, sense forms, program data and other
outputs, STATUS of busy dies. -/
def busClass (x : BusXfer) : Nat :=
  match x.form with
  | .poll _ => if x.urgent then 1 else 3
  | .output .. => if x.urgent then 1 else 3
  | .sense _ => 2
  | .data .. => 3
  | .status _ => 4

/-- The free bus goes to the oldest transfer of the first class that waits; one that has started is never interrupted (R354). -/
def busGrant (c : Nat) (s : State) : State :=
  let x := chanOf s c
  match x.onBus, (x.bus.map busClass).min? with
  | none, some k =>
    match x.bus.find? fun t => busClass t == k with
    | some t => setChan c { x with bus := x.bus.erase t, onBus := some t } s
    | none => s
  | _, _ => s

/-- Transfers wait for the bus of a channel. -/
def busAdd (c : Nat) (ts : List BusXfer) (s : State) : State :=
  busGrant c (setChan c { chanOf s c with bus := (chanOf s c).bus ++ ts } s)

/-- Transfers that satisfy a test are no longer wanted. -/
def busDrop (c : Nat) (p : BusXfer → Bool) (s : State) : State :=
  let x := chanOf s c
  busGrant c (setChan c { x with bus := x.bus.filter fun t => !p t, onBus := x.onBus.filter fun t => !p t } s)

/-- A transfer has ended on the bus: the one that has it, or else the first of its form that waited. -/
def busDone (c : Nat) (f : BusForm) (s : State) : State :=
  let x := chanOf s c
  if x.onBus.any fun t => t.form == f then busGrant c (setChan c { x with onBus := none } s)
  else
    match x.bus.find? fun t => t.form == f with
    | some t => setChan c { x with bus := x.bus.erase t } s
    | none => s

/-- Pieces of at most 8 units of 8 B (R354): START and LEN. -/
def busPieces : Nat → Nat → Nat → List (Nat × Nat)
  | 0, _, _ => []
  | k + 1, start, len => if len = 0 then [] else (start, min 8 len) :: busPieces k (start + 8) (len - 8)

/-- Output forms of one codeword, at units 37c to 37c + 36 of the register: whole for a LAT or WR read, else in pieces (R333, R354). A soft
read gives a second half 74 units on (R332). -/
def outputForms (die : Nat) (r : DieRead) (half : Nat) : List BusXfer :=
  let starts := if r.shift = 0 then [37 * half] else [37 * half, 74 + 37 * half]
  (starts.flatMap fun st => if r.latency then [(st, 37)] else busPieces 37 st 37).map fun p =>
    { form := .output die p.1 p.2, urgent := r.latency, rd := some r.rd, again := false }

/-- Codeword of a read's front line: 0 or 1. -/
def readHalf (s : State) : ReadId → Nat
  | .fill k => k % 2
  | .internal n => ((tfind s.front.ireads n).map fun r => r.line % 2).getD 0

/-- An engine of a die is in Lead (R335, R354): its package is polled, and the output of the oldest read in the die's engines follows. -/
def leadBus (die : Nat) (s : State) : State :=
  let q := tget s.front.dieReads die []
  match q.find? fun r => r.started && !r.asked with
  | none => s
  | some r =>
    let q := q.map fun x => if x = r then { x with asked := true } else x
    let s := { s with front := { s.front with dieReads := tput s.front.dieReads die q } }
    busAdd (chanOfDie die) ({ form := .poll (pkgOfDie die), urgent := r.latency, rd := some r.rd, again := false } :: outputForms die r (readHalf s r.rd)) s

/-- Data forms of a program: the 592 B of a segment in pieces (R336, R354). -/
def dataForms (die : Nat) : List BusXfer :=
  (busPieces 74 0 74).map fun p => { form := .data die p.1 p.2, urgent := false, rd := none, again := false }

/-- STATUS of a busy die waits for the bus (R354, R355). -/
def statusForm (die : Nat) : BusXfer := { form := .status die, urgent := false, rd := none, again := false }

/-- A transfer carries a program's data or asks for the status of a die. -/
def programForm (die : Nat) (t : BusXfer) : Bool :=
  match t.form with
  | .data d _ _ => d == die
  | .status d => d == die
  | _ => false

/-- Package that a transfer addresses. -/
def formPkg : BusForm → Nat
  | .poll p => p
  | .output d _ _ | .sense d | .data d _ _ | .status d => pkgOfDie d

/-- The command on the bus failed its check at a package: it is sent again once, and given up when that fails as well (R355). -/
def sendAgain (c p : Nat) (s : State) : State :=
  let x := chanOf s c
  match x.onBus with
  | some t =>
    if formPkg t.form ≠ p then s
    else if t.again then busGrant c (setChan c { x with onBus := none } s)
    else setChan c { x with onBus := some { t with again := true } } s
  | none => s

/-! ### Meanings of the die commands -/

/-- READ_SEG_SENSE (R332). -/
def execReadSegSense (die : Nat) (eng : Bool) (tile seg : Nat) (o0 o1 o2 : Int) (s : State) : Res :=
  .next (busDone (chanOfDie die) (.sense die) (dieRun die (.sense eng (.seg tile seg o0 o1 o2)) s))

/-- READ_SEG_OUTPUT (R333). -/
def execReadSegOutput (die : Nat) (eng free : Bool) (start len : Nat) (s : State) : Res :=
  .next (busDone (chanOfDie die) (.output die start len) (dieRun die (.output eng free start len) s))

/-- READ_SOFT (R332). -/
def execReadSoft (die : Nat) (eng : Bool) (tile seg : Nat) (o0 o1 o2 : Int) (s : State) : Res :=
  .next (busDone (chanOfDie die) (.sense die) (dieRun die (.sense eng (.soft tile seg o0 o1 o2)) s))

/-- PROG_SEG_SETUP (R336). -/
def execProgSegSetup (die tile seg : Nat) (s : State) : Res := .next (dieRun die (.setup tile seg) s)

/-- PROG_SEG_DATA (R336). -/
def execProgSegData (die start len : Nat) (data : List Byte) (s : State) : Res :=
  .next (busDone (chanOfDie die) (.data die start len) (dieRun die (.data start len data) s))

/-- PROG_SEG_CONFIRM (R336). -/
def execProgSegConfirm (die : Nat) (s : State) : Res := .next (dieRun die .confirm s)

/-- RESET_TILE (R337). -/
def execResetTile (die tile : Nat) (s : State) : Res := .next (dieRun die (.resetTile tile) s)

/-- STATUS_POLL (R334). -/
def execStatusPoll (ch : Fin 36) (pkg : Fin 8) (s : State) : Res :=
  .next (busDone ch (.poll pkg) (pollPkg ch pkg s))

/-- STATUS_DIE (R339). -/
def execStatusDie (die : Nat) (s : State) : Res := .next (busDone (chanOfDie die) (.status die) (dieRun die .status s))

/-- READ_PARAM_PAGE (R332, R344): engine 0. -/
def execReadParamPage (die : Nat) (copy : Bool) (s : State) : Res := .next (dieRun die (.sense false (.page (b2n copy))) s)

/-- SET_FEATURE (R340). -/
def execSetFeature (die feature value : Nat) (s : State) : Res := .next (dieRun die (.setFeature feature value) s)

/-- GET_FEATURE (R340). -/
def execGetFeature (die feature : Nat) (s : State) : Res := .next (dieRun die (.getFeature feature) s)

/-- SUSPEND (R343). -/
def execSuspend (die : Nat) (s : State) : Res := .next (dieRun die .suspend s)

/-- RESUME (R343). -/
def execResume (die : Nat) (s : State) : Res := .next (dieRun die .resume s)

/-- TEMP_READ (R347): to die 0 of a package. -/
def execTempRead (ch : Fin 36) (pkg : Fin 8) (s : State) : Res := .next (dieRun (dieId ch pkg 0) .tempRead s)

/-- CALIBRATE (R348): to die 0 of a package. -/
def execCalibrate (ch : Fin 36) (pkg : Fin 8) (s : State) : Res := .next (dieRun (dieId ch pkg 0) .calibrate s)

/-- CMD_CHECK_FAIL (R330): a command whose CRC, length or code fails sets CMD_CHECK on every die of the package, and
the controller sends it again once (R355). -/
def execCmdCheckFail (ch : Fin 36) (pkg : Fin 8) (cmd : List Byte) (s : State) : Res :=
  if (parseCmd cmd).isNone ∧ (chanOf s ch).mreset = false then .next (sendAgain ch pkg (cmdCheckAll ch pkg s)) else .next s

/-- SENSE_LEAD (R332): a sensing engine enters Lead; MRDY_N is low while any engine is in Lead or Held or any register Full. -/
def execSenseLead (die : Nat) (eng : Bool) (s : State) : Res :=
  let x := dieOf s die
  if (engOf x eng).st = .sensing then .next (leadBus die (setDie die (setEng x eng { engOf x eng with st := .lead }) s))
  else .next s

/-- SENSE_RESULT_READY (R332): the result moves to an empty register, or is Held while the register is Full. -/
def execSenseResultReady (die : Nat) (eng : Bool) (s : State) : Res :=
  let x := dieOf s die
  let g := engOf x eng
  if g.st = .lead then
    if g.full then .next (setDie die (setEng x eng { g with st := .held }) s) else .next (moveResult die eng s)
  else .next s

/-- DIE_TILE_RESET_END (R337). -/
def execDieTileResetEnd (die : Nat) (good : Bool) (s : State) : Res := .next (endReset die good s)

/-- MRESET_N_RISE (R349, R351): MCK runs at 200 MHz and the dies become ready. -/
def execMresetNRise (ch : Fin 36) (s : State) : Res :=
  .next (setChan ch { chanOf s ch with mreset := false, mck := 200 } s)

/-- MRDY_N of a channel is low (R335). -/
def mrdyLow (s : State) (c : Nat) : Bool :=
  !(chanOf s c).mreset &&
    s.media.dies.any fun p => chanOfDie p.1 == c && p.2.present && (pollBit p.2.e0 == 0 || pollBit p.2.e1 == 0)

/-- A package with reads outstanding: an engine not Idle or a register Full. -/
def pkgOutstanding (s : State) (c p : Nat) : Bool :=
  (pkgDies c p).any fun d =>
    let x := dieOf s d
    x.present && (!enginesIdle x || x.e0.full || x.e1.full)

/-- Poll every package with reads outstanding while MRDY_N is low (R335). -/
def pollOutstanding (c : Nat) (s : State) : State :=
  if mrdyLow s c then
    ((List.range 8).filter fun p => pkgOutstanding s c p).foldl (fun s p => busDone c (.poll p) (pollPkg c p s)) s
  else s

/-- MRDY_N_FALL (R335). -/
def execMrdyNFall (ch : Fin 36) (s : State) : Res := .next (pollOutstanding ch s)

/-- MRDY_N_REPOLL (R335). -/
def execMrdyNRepoll (ch : Fin 36) (s : State) : Res := .next (pollOutstanding ch s)

end Sys2Proof.Machine
end

