-- ==== Sys2Proof/Machine/Cellar.lean ====
section
/-!
DEFINITION. Cellar book commands (18_cellar_book_and_event_recorder.md R532 to R545).
-/
namespace Sys2Proof.Machine

/-! ### Formats (Tables 18-4 and 18-6) -/

/-- Bytes 0 to the end of the padding of a record (Table 18-4). -/
def cellarBody (r : CRec) : List Byte :=
  let h := leBytes 4 r.key ++ leBytes 4 r.seq ++ leBytes 4 r.data.length
  h ++ leBytes 4 (crc32c h) ++ r.data ++ zeros ((r.data.length + 3) / 4 * 4 - r.data.length)

/-- A whole record of the cellar book (Table 18-4): REC_CRC, then COMMIT, the complement of SEQ. -/
def cellarBytes (r : CRec) : List Byte :=
  cellarBody r ++ leBytes 4 (crc32c (cellarBody r)) ++ leBytes 4 (2 ^ 32 - 1 - r.seq % 2 ^ 32)

/-- The bytes at a page hold a valid record: HDR_CRC, REC_CRC and COMMIT are all correct (R536). -/
def cellarValid (b : List Byte) : Bool :=
  let n := 16 + (le b 8 4 + 3) / 4 * 4
  le b 12 4 == crc32c (b.take 12) && le b n 4 == crc32c (b.take n) && le b (n + 4) 4 == 2 ^ 32 - 1 - le b 4 4

/-- A base slot of spread counter c in ten words: a record of LENGTH 12, and a zero word (Table 18-6). -/
def baseBytes (c : Nat) (b : Option (Nat × Nat)) : List Byte :=
  match b with
  | none => zeros 40
  | some (v, g) => cellarBytes { key := c, seq := g, data := leBytes 8 v ++ leBytes 4 g } ++ zeros 4

/-- The page of spread counter c in 64 words (Table 18-6). -/
def spreadPage (c : Nat) (p : Spread) : List Byte :=
  baseBytes c p.base0 ++ baseBytes c p.base1 ++ p.cells.flatMap fun x => leBytes 4 (x.1 % 256 * 2 ^ 24 + x.2 % 2 ^ 24)

/-! ### Passwords (R542, R543) -/

/-- A region lock with no password and no failure. -/
def RegionLock.open : RegionLock := { readVer := none, writeVer := none, fails := 0, refusal := 0 }

/-- Lock of a region. -/
def lockOf (s : State) (region : Nat) : RegionLock := tget s.cellar.locks region RegionLock.open

/-- Verifier of a password: SHA-256 over serial, region and password (R542). -/
def pwVerifier (s : State) (region pw : Nat) : Nat := Config.sha256 [s.mgmt.serial, region, pw] % 2 ^ 256

/-- Outcome of a password check. -/
inductive PwRes where
  | good | refused | wrong
deriving DecidableEq, Repr

/-- Check a password against a verifier; a region without one accepts any (R542, R543). -/
def pwCheck (s : State) (region : Nat) (ver : Option Nat) (pw : Nat) : PwRes :=
  if s.time.mono < (lockOf s region).refusal then .refused
  else match ver with
    | none => .good
    | some v => if v = pwVerifier s region pw then .good else .wrong

/-- Bytes of the LOCKOUT record: failure count and refusal remaining in ms of regions 2, 6 and 7 (R543). -/
def lockoutBytes (s : State) : List Byte :=
  [2, 6, 7].flatMap fun r =>
    leBytes 2 (lockOf s r).fails ++ leBytes 4 (((lockOf s r).refusal - s.time.mono + 999999) / 1000000)

/-- Put back a region lock. -/
def setLock (region : Nat) (l : RegionLock) (s : State) : State :=
  { s with cellar := { s.cellar with locks := tput s.cellar.locks region l } }

/-- A verifier of the PASSWORDS record: zero is none. -/
def verifierOf (v : Nat) : Option Nat := if v = 0 then none else some v

/-- The verifiers of a PASSWORDS record are in force (R542). -/
def putPasswords (d : List Byte) (s : State) : State :=
  [(2, 0), (6, 64), (7, 128)].foldl (fun s p =>
    setLock p.1 { lockOf s p.1 with readVer := verifierOf (le d p.2 32), writeVer := verifierOf (le d (p.2 + 32) 32) } s) s

/-- Bytes of the PASSWORDS record (Table 18-5). -/
def passwordBytes (s : State) : List Byte :=
  [2, 6, 7].flatMap fun r =>
    leBytes 32 ((lockOf s r).readVer.getD 0) ++ leBytes 32 ((lockOf s r).writeVer.getD 0)


/-- Refusal in ns after `n` consecutive failures: 1 s at the fifth, doubling to 1,024 s (R543). -/
def refusalTime (n : Nat) : Nat := if n < 5 then 0 else min (2 ^ (n - 5)) 1024 * 1000000000

/-- A wrong password is counted, logged, and may start a refusal (R543). -/
def pwFail (region : Nat) (s : State) : State :=
  let n := (lockOf s region).fails + 1
  let until_ := if n < 5 then 0 else s.time.mono + refusalTime n
  let s := setLock region { lockOf s region with fails := n, refusal := until_ } s
  let s := cellarWrite 5 2 0x21 (lockoutBytes s) none s
  raise 0x063 0xC001 region n 0 s

/-- A check that succeeds resets the count (R543). -/
def pwGood (region : Nat) (s : State) : State :=
  if (lockOf s region).fails = 0 then s
  else
    let s := setLock region { lockOf s region with fails := 0, refusal := 0 } s
    cellarWrite 5 2 0x21 (lockoutBytes s) none s

/-! ### Commands -/

/-- First page and pages of each region (Table 18-3). -/
def regionPages : List (Nat × Nat) :=
  [(0, 6144), (6144, 6144), (12288, 768), (13056, 256), (13312, 512), (13824, 1024), (14848, 896), (15744, 640)]

/-- GET_CELLAR_BOOK_INFO (C800h, R530). -/
def execGetCellarBookInfo (cci : Fin 10) (inp : List Byte) (s : State) : Res :=
  vendor cci 0xC800 inp 0 []
    (fun s =>
      answer s (leBytes 4 16384 ++ leBytes 1 8 ++ zeros 3 ++
        (List.range 8).flatMap fun r =>
          let l := lockOf s r
          let pg := regionPages.getD r (0, 0)
          leBytes 1 r ++ leBytes 1 (b2n l.readVer.isSome + 2 * b2n l.writeVer.isSome + (if r = 7 then 4 else 0)) ++
            leBytes 2 l.fails ++ leBytes 4 pg.1 ++ leBytes 4 pg.2 ++
            leBytes 4 ((l.refusal - s.time.mono + 999999) / 1000000))) s

/-- READ_CELLAR_RECORD (C801h, R535, R542). -/
def execReadCellarRecord (cci : Fin 10) (inp : List Byte) (s : State) : Res :=
  vendor cci 0xC801 inp 24 [(1, 3)]
    (fun s =>
      let region := le inp 0 1
      match regionLog s.cellar region with
      | none => .fail .invalidInput
      | some l =>
        match pwCheck s region (lockOf s region).readVer (le inp 8 16) with
        | .refused => .fail .busy
        | .wrong => .failWith .incorrectPassphrase (pwFail region s)
        | .good =>
          match currentRec l.recs (le inp 4 4) with
          | none => .failWith .invalidInput (pwGood region s)
          | some r =>
            if r.data.isEmpty then .failWith .invalidInput (pwGood region s)
            else .done (.bytes (leBytes 4 r.seq ++ leBytes 2 r.data.length ++ zeros 2 ++ r.data)) (pwGood region s)) s

/-- WRITE_CELLAR_RECORD (C802h, R535, R538, R542): the record is requested as a class 5 run and the command waits for its
COMMIT word (R539). -/
def execWriteCellarRecord (cci : Fin 10) (inp : List Byte) (s : State) : Res :=
  vendor cci 0xC802 inp (24 + le inp 2 2) [(1, 1)]
    (fun s =>
      let region := le inp 0 1
      if region = 2 ∨ region = 6 then .fail .unsupportedMailbox
      else if region ≠ 7 then .fail .invalidInput
      else if le inp 4 4 = 0xFFFFFFFF then .fail .invalidInput
      else
        match pwCheck s region (lockOf s region).writeVer (le inp 8 16) with
        | .refused => .fail .busy
        | .wrong => .failWith .incorrectPassphrase (pwFail region s)
        | .good => .commit .none (cellarWrite 5 region (le inp 4 4) (inp.drop 24) none (pwGood region s))) s

/-- The passwords in force once a pending record is, with those of a region that a command sets: bit 0 of its flags the read
password, bit 1 the write password, and a password of zeros is none (R542). -/
def withPasswords (region flags pw : Nat) (s : State) : State :=
  let v := if pw = 0 then none else some (pwVerifier s region pw)
  let base := ((pendingRec s 0x20).map fun d => putPasswords d s).getD s
  let l := lockOf base region
  let l := if bits flags 0 1 = 1 then { l with readVer := v } else l
  let l := if bits flags 1 1 = 1 then { l with writeVer := v } else l
  setLock region l base

/-- SET_REGION_PASSWORDS (C803h, R542): new verifiers under the current write password; the command waits for the PASSWORDS
record. -/
def execSetRegionPasswords (cci : Fin 10) (inp : List Byte) (s : State) : Res :=
  vendor cci 0xC803 inp 36 [(2, 2)]
    (fun s =>
      let region := le inp 0 1
      if (regionLog s.cellar region).isNone then .fail .invalidInput
      else
        match pwCheck s region (lockOf s region).writeVer (le inp 4 16) with
        | .refused => .fail .busy
        | .wrong => .failWith .incorrectPassphrase (pwFail region s)
        | .good =>
          let s := pwGood region s
          storeSetting 0x20 (some (passwordBytes (withPasswords region (byteAt inp 1) (le inp 20 16) s))) s) s

/-- LOCKOUT_PERSIST (R543): the refusal remainder is written to LOCKOUT every 10 s. -/
def execLockoutPersist (s : State) : Res :=
  if [2, 6, 7].any fun r => decide (s.time.mono < (lockOf s r).refusal) then
    .next (cellarWrite 5 2 0x21 (lockoutBytes s) none s)
  else .next s

/-- GET_SPREAD_COUNTER (C804h, R544). -/
def execGetSpreadCounter (cci : Fin 10) (inp : List Byte) (s : State) : Res :=
  vendor cci 0xC804 inp 2 []
    (fun s =>
      if 255 < le inp 0 2 then .fail .invalidInput
      else
        let p := tget s.cellar.spread (le inp 0 2) Spread.empty
        answer s (leBytes 8 (spreadValue p) ++ leBytes 4 (spreadBase p).2)) s

end Sys2Proof.Machine
end

