-- ==== Sys2Proof/Machine/MapOps.lean ====
section
/-!
DEFINITION. Operations of the map engine, the journal and the group table: map copies (R235 to R241, R362), committed records
and their effect (R246 to R248, Tables 7-6, 8-10 and 9-4), groups, capacity and placement (R268 to R274, R284 to R288).
-/
namespace Sys2Proof.Machine

/-! ### Population -/

/-- Channels per quad that are populated (R9). -/
def popK (s : State) : Nat := s.media.popCh / 9

/-- Die sets of the population, ascending (R8). -/
def dieSets (s : State) : List Nat :=
  (List.range (popK s)).flatMap fun k =>
    (List.range s.media.popPk).flatMap fun p => (List.range s.media.popDies).map fun d => dieSetAt k p d

/-- S, the number of die sets (R8). -/
def countS (s : State) : Nat := popK s * s.media.popPk * s.media.popDies

/-- Whether a die set is Degraded (R283). -/
def isDegraded (s : State) (ds : Nat) : Bool := s.place.degraded.any fun p => p.1 == ds

/-- Die sets that are not Degraded. -/
def liveSets (s : State) : List Nat := (dieSets s).filter fun ds => !isDegraded s ds

/-- S_live. -/
def countLive (s : State) : Nat := (liveSets s).length

/-- Round a quotient up. -/
def ceilDiv (a b : Nat) : Nat := (a + b - 1) / b

/-! ### DRAM channels as the map sees them -/

/-- A DRAM channel before any training. -/
def DramCh.down : DramCh :=
  { mode := .training, spd := false, dimms := [], trainFails := 0, thaw := false, step := 0, cci := none, lanes := [], trainTemp := 0,
    retrain := false, temps := [], refRate := 1, refreshed := 0, refBank := 0, refEnd := 0, nbrQueue := [], nbrIssued := 0,
    crcAlerts := 0, scrubPos := 0, lapStart := 0, lap := 0, correctable := [0, 0, 0, 0], frost := none, frozenAt := 0,
    autoThaws := [], thaws := [] }

/-- A DRAM channel. -/
def dramOf (s : State) (c : Nat) : DramCh := tget s.dram.chans c DramCh.down

/-- Put back a DRAM channel. -/
def setDram (c : Nat) (x : DramCh) (s : State) : State := { s with dram := { s.dram with chans := tput s.dram.chans c x } }

/-- Frozen, Thawing or Failed, or in the training of a thaw (Table 11-7). -/
def dramOut (s : State) (c : Nat) : Bool :=
  match (dramOf s c).mode with
  | .frozen | .thawing | .failed => true
  | .training => (dramOf s c).thaw
  | _ => false

/-- MAP_EXPOSED (R376). -/
def mapExposed (s : State) : Bool := s.map.mirror && (List.range 8).any (dramOut s)

/-- Interleave of a grain field: 256 B × 2^value (Table 11-3). -/
def grainBytes (v : Nat) : Nat := 256 * 2 ^ v

/-- Channel of an entry in a copy (R362). -/
def mapChan (s : State) (copyB : Bool) (lfa : Nat) : Nat :=
  let g := 8 * lfa / grainBytes s.dram.mapGrainNow
  if s.map.mirror then g % 4 + (if copyB then 4 else 0) else g % 8

/-- Whether a copy of an entry is held, on a channel that serves it (R213, Table 11-8). -/
def copyUp (s : State) (copyB : Bool) (lfa : Nat) : Bool :=
  (s.map.mirror || !copyB) && !dramOut s (mapChan s copyB lfa)

/-- A copy's entry fails its CHECK (R241). -/
def copyBad (s : State) (copyB : Bool) (lfa : Nat) : Bool := (if copyB then s.map.copyB else s.map.copyA).bad.contains lfa

/-- Whether a copy of an entry is held and good. -/
def copyGood (s : State) (copyB : Bool) (lfa : Nat) : Bool := copyUp s copyB lfa && !copyBad s copyB lfa

/-- A copy's entry turns out to fail its CHECK (R241). -/
def setBad (copyB : Bool) (lfa : Nat) (s : State) : State :=
  let add := fun (m : MapCopy) => { m with bad := lfa :: m.bad.erase lfa }
  if copyB then { s with map := { s.map with copyB := add s.map.copyB } } else { s with map := { s.map with copyA := add s.map.copyA } }

/-- Home channel of a back-cache slot (R363). -/
def slotHome (s : State) (n : Nat) : Nat :=
  let g := grainBytes s.dram.backGrainNow
  if 4096 ≤ g then 4096 * n / g % 8 else n % 8

/-- Channels that hold the data of a slot (R363). -/
def slotChans (s : State) (n : Nat) : List Nat :=
  let g := grainBytes s.dram.backGrainNow
  if 4096 ≤ g then [slotHome s n] else (List.range (min 8 (4096 / g))).map fun k => (n + k) % 8

/-- Channel that holds a byte of a slot (R363). -/
def chunkChan (s : State) (n off : Nat) : Nat :=
  let g := grainBytes s.dram.backGrainNow
  if 4096 ≤ g then slotHome s n else (n + off / g) % 8

/-- Channel of the directory entry of a slot (R364). -/
def dirChan (s : State) (n : Nat) : Nat := (slotHome s n + 4) % 8

/-- Where a channel-local address lies (Table 11-2): rank, bank group and bank as F_BANK numbers them, row, subchannel and column burst. -/
structure DramLoc where
  rank : Nat
  bank : Nat
  row : Nat
  sub : Nat
  col : Nat
deriving DecidableEq, Repr

/-- Decode of a channel-local address (R365, Table 11-2). -/
def dramLoc (x : DramCh) (a : Nat) : DramLoc :=
  let ranks := max 1 (x.dimms.map (·.ranks)).sum
  let row := a / 2 ^ 19 / ranks
  { rank := a / 2 ^ 19 % ranks, bank := (bits a 7 3 ^^^ bits row 0 3) * 4 + (bits a 10 2 ^^^ bits row 3 2), row := row, sub := bits a 6 1,
    col := bits a 12 7 }

/-- Channel-local address of a map entry (R361, R362). -/
def mapLocal (s : State) (lfa : Nat) : Nat :=
  let g := grainBytes s.dram.mapGrainNow
  8 * lfa / g / (if s.map.mirror then 4 else 8) * g + 8 * lfa % g

/-- Channel-local address of a byte of a slot that lies wholly on one channel (R361, R363). -/
def slotLocal (s : State) (n off : Nat) : Nat :=
  let g := grainBytes s.dram.backGrainNow
  s.map.extents * 2097152 / (if s.map.mirror then 4 else 8) + 4096 * n / g / 8 * g + 4096 * n % g + off

/-- Where a map entry lies on its channel. -/
def entryLoc (s : State) (copyB : Bool) (lfa : Nat) : DramLoc := dramLoc (dramOf s (mapChan s copyB lfa)) (mapLocal s lfa)

/-- Where a codeword of a slot lies on the slot's channel; a slot that is spread over the channels is not followed. -/
def slotLoc (s : State) (n off : Nat) : Option DramLoc :=
  if grainBytes s.dram.backGrainNow < 4096 then none else some (dramLoc (dramOf s (slotHome s n)) (slotLocal s n off))

/-- A bank of a channel is refreshing (R370). -/
def refreshing (s : State) (c bank : Nat) : Bool := decide (s.time.mono < (dramOf s c).refEnd) && (dramOf s c).refBank == bank

/-- An ACT of a row (R372): with probability 1 / 2^NBR_N a refresh of the row below or above it is queued. The draw is a free value (log
entry 223). -/
def openRow (c : Nat) (l : DramLoc) (s : State) : State :=
  let r := drawNat s
  let n := 2 ^ s.dram.nbrN
  let x := dramOf r.2 c
  let below := r.1 / n % 2 == 0
  if r.1 % n = 0 ∧ ¬(below = true ∧ l.row = 0) then
    setDram c { x with nbrQueue := x.nbrQueue ++ [(l.rank, l.bank, if below then l.row - 1 else l.row + 1)] } r.2
  else r.2

/-- A bank holds 4 queued neighbour refreshes, which go ahead of its traffic of priority 3 (R372). -/
def nbrFull (s : State) (c : Nat) (l : DramLoc) : Bool :=
  decide (4 ≤ ((dramOf s c).nbrQueue.filter fun q => q.1 == l.rank && q.2.1 == l.bank).length)

/-! ### Map copies -/

/-- The value of an entry in a copy (R235, R238); LOCKED while its extent is rebuilt (R263, log entry 20). -/
def MapCopy.get (m : MapCopy) (lfa : Nat) : MapEnt :=
  if m.locked.contains (extentOfLfa lfa) then { st := .locked, poison := 0, loc := 0 }
  else
  match tfind m.ents lfa with
  | some e => e
  | none => { st := if m.trimmed.contains (extentOfLfa lfa) then .trimmed else .unmapped, poison := 0, loc := 0 }

/-- Put an entry into a copy. -/
def MapCopy.put (m : MapCopy) (lfa : Nat) (e : MapEnt) : MapCopy :=
  { m with ents := tput m.ents lfa e, bad := m.bad.filter (· != lfa) }

/-- A copy whose every entry reads UNMAPPED. -/
def MapCopy.empty : MapCopy := { ents := [], trimmed := [], locked := [], bad := [] }

/-- Trim a range of a copy; a whole extent is kept as one mark. -/
def MapCopy.trim (m : MapCopy) (first count : Nat) : MapCopy :=
  let ents := tfilter m.ents fun l _ => !(decide (first ≤ l) && decide (l < first + count))
  let bad := m.bad.filter fun l => !(decide (first ≤ l) && decide (l < first + count))
  if first % 262144 = 0 ∧ count = 262144 then
    { m with ents := ents, bad := bad, trimmed := if m.trimmed.contains (first / 262144) then m.trimmed else first / 262144 :: m.trimmed }
  else
    let put := fun (t : Tbl MapEnt) (i : Nat) => tput t (first + i) { st := .trimmed, poison := 0, loc := 0 }
    { m with ents := (List.range count).foldl put ents, bad := bad }

/-- Bytes 0 to 6 of an entry (R235). -/
def entLow (e : MapEnt) : Nat :=
  let st := match e.st with
    | .unmapped => 0 | .media => 1 | .back => 2 | .trimmed => 3 | .locked => 4
  st * 2 ^ 52 + e.poison.toNat * 2 ^ 36 + e.loc % 2 ^ 36

/-- CHECK of an entry at an LFA (R237). -/
def entCheck (e : MapEnt) (lfa : Nat) : Nat := crc8 (leBytes 7 (entLow e) ++ leBytes 5 (lfa % 2 ^ 36))

/-- The 64 bits of an entry (Table 7-1). -/
def entWord (e : MapEnt) (lfa : Nat) : Nat := entCheck e lfa * 2 ^ 56 + entLow e

/-- An entry as the map engine reads it: from a good copy (R213), none when no copy is good (R262). -/
def mapEntry (s : State) (lfa : Nat) : Option MapEnt :=
  if s.map.lost.contains lfa then none
  else if copyGood s false lfa then some (s.map.copyA.get lfa)
  else if copyGood s true lfa then some (s.map.copyB.get lfa)
  else none

/-- Post an entry to every copy whose channel serves it (R240). -/
def postEntry (lfa : Nat) (e : MapEnt) (s : State) : State :=
  let a := if copyUp s false lfa then s.map.copyA.put lfa e else s.map.copyA
  let b := if copyUp s true lfa then s.map.copyB.put lfa e else s.map.copyB
  { s with map := { s.map with copyA := a, copyB := b } }

/-! ### Groups -/

/-- A group of a state, with nothing recorded. -/
def Group.ofState (st : GState) : Group :=
  { st := st, role := 0, failed := 0, valid := 0, cycles := 0, sub := List.replicate 9 0, vintage := 0, weather := 0,
    reads := 0, trim0 := 0, trim1 := 0, trim2 := 0, trimSat := false, wptr := 0, closedAt := 0 }

/-- What an unlisted group is: Spare at tile 1,004 and above, otherwise Free (Table 8-1). -/
def Group.default (g : Nat) : Group := Group.ofState (if 1004 ≤ tileOf g then .spare else .free)

/-- A group table entry. -/
def groupAt (s : State) (g : Nat) : Group :=
  match tfind s.place.groups g with
  | some x => x
  | none => Group.default g

/-- Put back a group table entry. -/
def setGroup (g : Nat) (x : Group) (s : State) : State :=
  { s with place := { s.place with groups := tput s.place.groups g x } }

/-- Change a group table entry. -/
def modGroup (g : Nat) (f : Group → Group) (s : State) : State := setGroup g (f (groupAt s g)) s

/-- One frame less, or more, in a group (Table 8-2 VALID_FRAMES). -/
def addValid (pfa : Nat) (n : Int) (s : State) : State :=
  modGroup (groupOf pfa) (fun x => { x with valid := ((x.valid : Int) + n).toNat }) s

/-- The PFA that an entry holds, as LOC or as D_PFA (R259). -/
def entPfa (s : State) (e : MapEnt) : Option Nat :=
  match e.st with
  | .media => some e.loc
  | .back => (tfind s.back.slots e.loc).map (·.pfa)
  | _ => none

/-- D_QUARANTINE of a slot released now: bits [41:10] of the time base, 10 µs on, rounded up (R219, Table 6-6). DESIGN CHOICE (log entry
208): a value of 0, which means not quarantined, is kept as 1. -/
def quarantineEnd (s : State) : Nat := max 1 ((s.time.tbNow + 10000 + 1023) / 1024 % 2 ^ 32)

/-- The time base has reached a D_QUARANTINE; the 32 bits wrap. -/
def quarantineOver (s : State) (q : Nat) : Bool := decide ((s.time.tbNow / 1024 + 2 ^ 32 - q) % 2 ^ 32 < 2 ^ 31)

/-- Release a back-cache slot through quarantine; a pinned slot's release is deferred with its VALID_FRAMES (R219,
Table 11-8). -/
def releaseSlot (n : Nat) (s : State) : State :=
  match tfind s.back.slots n with
  | none => s
  | some x =>
    if x.pinned then { s with back := { s.back with slots := tput s.back.slots n { x with deferred := true } } }
    else
      addValid x.pfa (-1) { s with back := { s.back with
        slots := tput s.back.slots n { x with st := .quarantined, quarantine := quarantineEnd s } } }

/-- Drop what an entry refers to: the frame's place in its group, or its slot (R166, R219). -/
def dropEntry (lfa : Nat) (s : State) : State :=
  match mapEntry s lfa with
  | none => s
  | some e =>
    match e.st with
    | .media => addValid e.loc (-1) s
    | .back => releaseSlot e.loc s
    | _ => s

/-- Set an entry whole, keeping VALID_FRAMES (R240 step 2). -/
def setEntry (lfa : Nat) (e : MapEnt) (s : State) : State :=
  let s := postEntry lfa e (dropEntry lfa s)
  if e.st = .media then addValid e.loc 1 s else s

/-! ### Committed records -/

/-- Change the tenant table. -/
def TenantSt.fresh : TenantSt :=
  { st := .free, slot := none, keyGen := 0, meterEn := false, mismatch := false,
    qosA := { w08 := 0x101010100F0F0F0F, w10 := 0xFFFFFFFF, w18 := 0xFFFFFFFF, w20 := 0xFFFFFFFF, w28 := 0xFFFFFFFF },
    qosS := { w08 := 0x101010100F0F0F0F, w10 := 0xFFFFFFFF, w18 := 0xFFFFFFFF, w20 := 0xFFFFFFFF, w28 := 0xFFFFFFFF },
    keyCheck := 0, fails := 0, refusal := 0, drainLevel := 0, drainAt := 0 }

/-- A tenant entry. -/
def tenantOf (s : State) (t : Nat) : TenantSt := tget s.ten.tenants t TenantSt.fresh

/-- Put back a tenant entry. -/
def setTenant (t : Nat) (x : TenantSt) (s : State) : State :=
  { s with ten := { s.ten with tenants := tput s.ten.tenants t x } }

/-- An extent entry at its reset values (Table 3-2). -/
def ExtentEnt.fresh (e : Nat) : ExtentEnt :=
  { st := .unassigned, head := 0, accessDev := 0xFFF, ownerDev := 0xFFF, ownerExtent := e, tenant := 0, keySlot := 0,
    prof := 0 }

/-- Extent entry of the active bank. -/
def extOf (s : State) (e : Nat) : ExtentEnt := tget s.ten.extA e (ExtentEnt.fresh e)

/-- Extent entry of the staged bank. -/
def extStg (s : State) (e : Nat) : ExtentEnt := tget s.ten.extS e (ExtentEnt.fresh e)

/-- Put an extent entry into the named banks. -/
def setExt (e : Nat) (act stg : Bool) (x : ExtentEnt) (s : State) : State :=
  { s with ten := { s.ten with
      extA := if act then tput s.ten.extA e x else s.ten.extA, extS := if stg then tput s.ten.extS e x else s.ten.extS } }

/-- Set the state of an extent; E_STATE is not banked (R121). -/
def setEState (e : Nat) (st : EState) (s : State) : State :=
  setExt e false true { extStg s e with st := st } (setExt e true false { extOf s e with st := st } s)

/-- A QoS word by its offset (Table 3-1). -/
def Qos.word (q : Qos) (off : Nat) : W64 :=
  if off = 0x08 then q.w08 else if off = 0x10 then q.w10 else if off = 0x18 then q.w18 else if off = 0x20 then q.w20
  else q.w28

/-- Put a QoS word (Table 3-1). -/
def Qos.setWord (q : Qos) (off : Nat) (v : W64) : Qos :=
  if off = 0x08 then { q with w08 := v } else if off = 0x10 then { q with w10 := v } else if off = 0x18 then { q with w18 := v }
  else if off = 0x20 then { q with w20 := v } else if off = 0x28 then { q with w28 := v } else q

/-- Word 00h of a tenant entry but for EXTENT_COUNT (Table 3-1). -/
def tenantWord0 (x : TenantSt) : Nat :=
  let st := match x.st with
    | .free => 0 | .active => 1 | .erasing => 2
  st * 2 ^ 60 + x.slot.getD 0 * 2 ^ 44 + x.keyGen * 2 ^ 28 + b2n x.meterEn * 2 ^ 9 + b2n x.mismatch * 2 ^ 8

/-- Set word 00h of a tenant entry (Table 3-1). -/
def setTenantWord0 (x : TenantSt) (v : Nat) : TenantSt :=
  let st := bits v 60 4
  { x with st := if st = 1 then .active else if st = 2 then .erasing else .free,
           slot := if st = 0 then none else some (bits v 44 16), keyGen := bits v 28 16, meterEn := bits v 9 1 == 1,
           mismatch := bits v 8 1 == 1 }

/-- Set a word of a tenant entry in the named banks (Table 7-6 TENANT_WORD). -/
def setTenantWord (x : TenantSt) (off : Nat) (act stg : Bool) (v : Nat) : TenantSt :=
  if off = 0 then setTenantWord0 x v
  else if off = 0x30 then { x with keyCheck := v }
  else
    { x with qosA := if act then x.qosA.setWord off (BitVec.ofNat 64 v) else x.qosA,
             qosS := if stg then x.qosS.setWord off (BitVec.ofNat 64 v) else x.qosS }

/-- Exchange the banks (R122, R443): QoS profiles, extent entries and class profiles. -/
def swapBanks (s : State) : State :=
  let ts := tmap s.ten.tenants fun _ x => { x with qosA := x.qosS, qosS := x.qosA }
  { s with ten := { s.ten with
      tenants := ts, extA := s.ten.extS, extS := s.ten.extA, profA := s.ten.profS, profS := s.ten.profA } }

/-- Bytes of IMAGE_LIST (Table 18-5). -/
def imageListBytes (l : List RunRec) : List Byte :=
  l.flatMap fun x =>
    leBytes 4 x.seq ++ leBytes 4 x.set ++ leBytes 4 x.startW ++ leBytes 4 x.rounds ++ leBytes 4 x.tail ++ leBytes 4 x.dump

/-- Rewrite IMAGE_LIST (R194). -/
def writeImageList (l : List RunRec) (s : State) : State :=
  cellarCommitNow 2 0x24 (imageListBytes l) { s with persist := { s.persist with imageList := l } }

/-- The effect of a record (Tables 7-6, 8-10 and 9-4). -/
def applyRec (r : JRec) (s : State) : State :=
  match r with
  | .mapSet lfa e _ _ => setEntry lfa e s
  | .mapMove lfa old new _ _ =>
    match mapEntry s lfa with
    | none => s
    | some e =>
      if e.st = .media ∧ e.loc = old then setEntry lfa { e with loc := new } s
      else if e.st = .back ∧ entPfa s e = some old then
        match tfind s.back.slots e.loc with
        | none => s
        | some x =>
          addValid new 1 (addValid old (-1)
            { s with back := { s.back with slots := tput s.back.slots e.loc { x with pfa := new } } })
      else s
  | .mapTrim first count _ =>
    let dropped := (s.map.copyA.ents.map (·.1) ++ s.map.copyB.ents.map (·.1)).eraseDups.filter fun l =>
      decide (first ≤ l) && decide (l < first + count)
    let s := dropped.foldl (fun s l => dropEntry l s) s
    { s with map := { s.map with copyA := s.map.copyA.trim first count, copyB := s.map.copyB.trim first count } }
  | .mapPoison lfa m =>
    match mapEntry s lfa with
    | none => s
    | some e => postEntry lfa { e with poison := e.poison ||| m } s
  | .groupOpen g role v =>
    let s := { s with drift := { s.drift with top := tdel s.drift.top g } }
    modGroup g (fun x => { x with st := .open_, role := role, vintage := v, weather := 0, reads := 0, trim0 := 0,
                                  trim1 := 0, trim2 := 0, trimSat := false, wptr := 0 }) s
  | .groupClose g n => modGroup g (fun x => { x with st := .closed, wptr := n, closedAt := s.time.mono }) s
  | .groupPendingReset g => modGroup g (fun x => { x with st := .pendingReset }) s
  | .groupFree g => modGroup g (fun x => { x with st := .free, role := 0, wptr := 0 }) s
  | .groupWear g c => modGroup g (fun x => { x with cycles := c }) s
  | .tileFailed g q _ => modGroup g (fun x => { x with failed := x.failed ||| (1#9 <<< q) }) s
  | .tileSubstitute g q v =>
    let k := dieSetOf g * 9 + q
    modGroup g (fun x => { x with sub := x.sub.set q v, failed := x.failed &&& ~~~ (1#9 <<< q) })
      { s with place := { s.place with sparesUsed := tput s.place.sparesUsed k (max v (tget s.place.sparesUsed k 0)) } }
  | .groupRetired g _ => modGroup g (fun x => { x with st := .retired, role := 0 }) s
  | .dieSetDegraded ds q =>
    if s.place.degraded.contains (ds, q) then s else { s with place := { s.place with degraded := s.place.degraded ++ [(ds, q)] } }
  | .extentWithhold e w =>
    let l := s.ten.withheld.filter (· != e)
    { s with ten := { s.ten with withheld := if w then l ++ [e] else l } }
  | .groupWeather xs => xs.foldl (fun s p => modGroup p.1 (fun x => { x with weather := p.2 * 65536 }) s) s
  | .groupReads xs => xs.foldl (fun s p => modGroup p.1 (fun x => { x with reads := p.2 % 2 ^ 25 }) s) s
  | .groupTrim g a b c => modGroup g (fun x => { x with trim0 := a, trim1 := b, trim2 := c }) s
  | .imageRelocated q set w n =>
    let f := fun (r : RunRec) => if r.seq = q then { r with set := set, startW := w, rounds := n } else r
    { s with persist := { s.persist with imageList := s.persist.imageList.map f } }
  | .tenantWord t off act stg v => setTenant t (setTenantWord (tenantOf s t) off act stg v) s
  | .extentEntry e act stg x => setExt e act stg x s
  | .classProfile p act stg v =>
    { s with ten := { s.ten with profA := if act then tput s.ten.profA p v else s.ten.profA,
                                 profS := if stg then tput s.ten.profS p v else s.ten.profS } }
  | .bankSwap n d =>
    if s.ten.epochA = n then s
    else
      let old := s.ten.epochA
      let s := swapBanks s
      { s with ten := { s.ten with epochA := n, digestA := d, epochS := old } }
  | .imageResolved q f m =>
    let keep := fun (k : Nat) (_ : DumpEnt) => !(k / 16 == q * 2 ^ 32 + f && bits m (k % 16) 1 == 1)
    { s with persist := { s.persist with index := tfilter s.persist.index keep } }
  | .imageRetired q =>
    if s.persist.imageList.any fun r => r.seq == q then writeImageList (s.persist.imageList.filter fun r => r.seq != q) s else s
  | .ckptBegin _ _ => s
  | .ckptEnd _ _ => s
  | .other c => raise 0x034 0x4005 c 0 0 s

/-- The records that follow one another from REC_SEQ `n` on. -/
def seqRun : Nat → List JEnt → List JEnt
  | _, [] => []
  | n, e :: es => if e.seq = n then e :: seqRun (n + 1) es else []

/-- Records cut into journal frames of at most 63 in sequence; after a frame that PAD records have filled, the next record begins a
new one (R249). -/
def cutFrames : Nat → List JEnt → List (List JEnt)
  | 0, _ => []
  | k + 1, es =>
    match es with
    | [] => []
    | e :: _ =>
      let f := (seqRun e.seq es).take 63
      f :: cutFrames k (es.drop f.length)

/-- Journal frames that the staging area holds (R184, R249). -/
def stagingFrames (s : State) : Nat := (cutFrames s.map.staging.length s.map.staging).length

/-- Capacity of one journal ring in frames (R244, R249). -/
def journalArea (s : State) : Nat :=
  match s.map.root with
  | none => 0
  | some r => min r.ja.length r.jb.length * 131072

/-- The newest complete checkpoint (R251). -/
def newestCkpt (s : State) : Option (Nat × Ckpt) :=
  match s.map.ck0, s.map.ck1 with
  | none, none => none
  | some a, none => some (0, a)
  | none, some b => some (1, b)
  | some a, some b => if a.seq < b.seq then some (1, b) else some (0, a)

/-- Number of the first journal frame kept: that of the newest complete checkpoint's CKPT_BEGIN, or without a checkpoint the first on
the medium (R250). -/
def keptFrom (s : State) : Nat :=
  match newestCkpt s with
  | some (_, c) => c.journalStart
  | none => ((s.map.jframes.head?).map (·.1)).getD s.map.nextFrame

/-- Journal frames kept since the newest complete checkpoint began (R250). -/
def journalKept (s : State) : Nat := s.map.nextFrame - keptFrom s

/-- The next k journal frames find free positions (R250): the group that holds the last of them holds no kept frame of the lap before.
A device without a MAP_ROOT keeps its records in the staging area. -/
def journalFits (s : State) (k : Nat) : Bool :=
  s.map.root.isNone || decide ((s.map.nextFrame + k - 1) / 131072 * 131072 + 131072 ≤ keptFrom s + journalArea s)

/-- Records that the staging area holds beyond which a commit waits: 64 frames, less 32 places so that every record of one step finds
room (R184, log entry 213). -/
def stagingRoom : Nat := 64 * 63 - 32

/-- A commit must wait: the staging area is full or records wait for it (R184), or the journal has no free position (R250). -/
def journalFull (s : State) : Bool :=
  decide (stagingRoom ≤ s.map.staging.length) || decide (s.persist.spill ∧ stagingRoom ≤ s.map.spill.length) ||
    !s.map.waiting.isEmpty || !journalFits s (ceilDiv (s.map.staging.length + 1) 63)

/-- Stage a record in REC_SEQ order, and in spill mode in the spill region, and apply it (R240, R248, R203). -/
def stage (r : JRec) (s : State) : State :=
  let e : JEnt := { seq := s.map.nextRec, spilled := s.persist.spill, at_ := s.time.mono, body := r }
  applyRec r { s with map := { s.map with
    nextRec := s.map.nextRec + 1, staging := s.map.staging ++ [e],
    spill := if s.persist.spill then s.map.spill ++ [e] else s.map.spill } }

/-- A record finds room: in the staging area (R184) and, in spill mode, in the 4,096 slots of the SPILL ring (R541). -/
def recordFits (s : State) : Bool :=
  decide (s.map.staging.length < 64 * 63) && (!s.persist.spill || decide (s.map.spill.length < 4096))

/-- Commit a record: it is staged and applied, or it waits its turn for room (R184, R541). -/
def commit (r : JRec) (s : State) : State :=
  if s.map.waiting.isEmpty && recordFits s then stage r s
  else { s with map := { s.map with waiting := s.map.waiting ++ [r] } }

/-- Records that waited are staged in order, as far as there is room. -/
def drainWaiting : Nat → State → State
  | 0, s => s
  | n + 1, s =>
    match s.map.waiting with
    | [] => s
    | r :: rs =>
      if recordFits s then drainWaiting n (stage r { s with map := { s.map with waiting := rs } }) else s

/-- A command that journals starts only when its records can be staged (R184, R250). -/
def journaled (s : State) (r : Reply) : Reply := if journalFull s then .stall else r

/-- Commit several records. -/
def commitAll (rs : List JRec) (s : State) : State := rs.foldl (fun s r => commit r s) s

/-! ### Capacity (R284, R285, R288) -/

/-- Listed groups of live die sets, of tiles that are not spare. -/
def listedGroups (s : State) : List (Nat × Group) :=
  let live := liveSets s
  s.place.groups.filter fun p => decide (tileOf p.1 < 1004) && live.contains (dieSetOf p.1)

/-- U: usable groups of die sets that are not Degraded (R284). -/
def usableGroups (s : State) : Nat :=
  countLive s * 1004 - ((listedGroups s).filter fun p => p.2.st == .retired || p.2.st == .metadata).length

/-- Free groups across the device (R273). -/
def freeTotal (s : State) : Nat := countLive s * 1004 - ((listedGroups s).filter fun p => p.2.st != .free).length

/-- Free groups of a die set. -/
def freeIn (s : State) (ds : Nat) : Nat :=
  1004 - (s.place.groups.filter fun p => decide (tileOf p.1 < 1004) && dieSetOf p.1 == ds && p.2.st != .free).length

/-- Racking reserve (R273). -/
def rackReserve (s : State) : Nat := max 2 (ceilDiv (countS s) 8)

/-- H_now (R285). -/
def headroom (s : State) : Int := (usableGroups s : Int) - 2 * ((s.map.extents : Int) - s.ten.withheld.length)

/-- SPARE in 0.01 % (R285). -/
def spareNow (s : State) : Nat := if s.map.hFmt = 0 then 0 else (10000 * headroom s / s.map.hFmt).toNat

/-- Code of a capacity-pressure state (Table 2-7). -/
def CapState.code : CapState → Nat
  | .normal => 0 | .ration => 1 | .critical => 2 | .writeLocked => 3

/-- One transition of Table 8-7 after a change in SPARE or in the Free groups. -/
def nextCap (c : CapState) (spare free reserve : Nat) : CapState :=
  match c with
  | .normal => if spare < 1000 then .ration else .normal
  | .ration => if 1200 ≤ spare then .normal else if spare < 300 then .critical else .ration
  | .critical => if 400 ≤ spare then .ration else .critical
  | .writeLocked =>
    if reserve + 32 < free then (if spare < 400 then .critical else if spare < 1200 then .ration else .normal)
    else .writeLocked

/-- Enter a capacity-pressure state, with its event (R288, 3007h); requests outstanding end when Critical is left (R289). -/
def setCap (c : CapState) (s : State) : State :=
  if s.place.cap = c then s
  else
    let old := s.place.cap
    let w := if c = .critical then 0 else s.place.withholdAt
    let s := raise 0x011 0x3007 old.code c.code (spareNow s) { s with place := { s.place with cap := c, withholdAt := w } }
    if old = .critical ∧ c ≠ .writeLocked then { s with ten := { s.ten with releaseAsked := [] } } else s

/-- Withheld extents are returned, lowest first, while SPARE stays at or above 12.00 % without them (R289). -/
def returnWithheld : Nat → State → State
  | 0, s => s
  | n + 1, s =>
    match s.ten.withheld.min? with
    | none => s
    | some e =>
      let s' := applyRec (.extentWithhold e false) s
      if 1200 ≤ spareNow s' then returnWithheld n (commit (.extentWithhold e false) s) else s

/-- SPARE is recomputed after a change in U or W (R285): the state of Table 8-7 and the withheld extents follow. With the
media supervisor halted, writes stay as in Write-Locked (Table 1-7). -/
def spareRecompute (s : State) : State :=
  let f := fun (s : State) => setCap (nextCap s.place.cap (spareNow s) (freeTotal s) (rackReserve s)) s
  if s.place.cap = .writeLocked ∧ s.mgmt.media.mode = .halted then s
  else
  let s := f (f s)
  returnWithheld s.ten.withheld.length s

/-! ### Free pools, ready queue and open groups (R270 to R274) -/

/-- Put a group into a pool ordered by CYCLES, then number (R270). -/
def poolInsert (s : State) (g : Nat) : List Nat → List Nat
  | [] => [g]
  | x :: xs =>
    if (groupAt s g).cycles < (groupAt s x).cycles ∨ ((groupAt s g).cycles = (groupAt s x).cycles ∧ g < x) then g :: x :: xs
    else x :: poolInsert s g xs

/-- The free pool of a die set (R270). -/
def freePool (s : State) (ds : Nat) : List Nat :=
  (((List.range 1004).map fun t => ds * 1024 + t).filter fun g => (groupAt s g).st == .free).foldr (poolInsert s) []

/-- Size to which a die set's share is refilled, and below which it must not fall (R271). -/
def shareFull (s : State) : Nat := max 2 (ceilDiv 64 (countS s))
/-- Lowest share (R271). -/
def shareLow (s : State) : Nat := max 1 (ceilDiv 32 (countS s))

/-- Open groups of a role by die set. -/
def openOf (s : State) (role ds : Nat) : Option Nat := tfind (if role = 1 then s.place.open1 else s.place.open2) ds

/-- Set the Open group of a role. -/
def setOpen (role ds : Nat) (g : Option Nat) (s : State) : State :=
  let f := fun (t : Tbl Nat) => match g with
    | some x => tput t ds x
    | none => tdel t ds
  if role = 1 then { s with place := { s.place with open1 := f s.place.open1 } }
  else { s with place := { s.place with open2 := f s.place.open2 } }

/-- Whether the frame engine may open a group of a role on a die set (R272, R273). -/
def mayOpen (s : State) (role ds : Nat) : Bool :=
  !isDegraded s ds && !(tget s.place.ready ds []).isEmpty && (role != 1 || decide (rackReserve s < freeTotal s))

/-- The media supervisor refills a die set's share that has fallen below its least size (R271). -/
def keepShare (ds : Nat) (s : State) : State :=
  if shareLow s ≤ (tget s.place.ready ds []).length ∨ s.mgmt.media.mode ≠ .running then s
  else { s with place := { s.place with ready := tput s.place.ready ds ((freePool s ds).take (shareFull s)) } }

/-- Open the head of a die set's share for a role (R271, R272). -/
def openGroup (role ds : Nat) (s : State) : State :=
  match tget s.place.ready ds [] with
  | [] => s
  | g :: gs =>
    let s := { s with place := { s.place with ready := tput s.place.ready ds gs } }
    keepShare ds (setOpen role ds (some g) (commit (.groupOpen g role (s.time.tbNow / 1000000000)) s))

/-- Close a group, Open in a die set's role or not (R268). -/
def closeGroup (g : Nat) (s : State) : State :=
  let ds := dieSetOf g
  let s := if openOf s 1 ds = some g then setOpen 1 ds none s else s
  let s := if openOf s 2 ds = some g then setOpen 2 ds none s else s
  commit (.groupClose g (groupAt s g).wptr) s

/-- An idle busy slot. -/
def BusySt.idle : BusySt := { waiting := [], cur := none, since := 0, opAt := 0, quad := 0, run := false, failed := [], retry := false, pause := none, defs := [0, 0, 0] }

/-- Busy slot of a die set. -/
def busyOf (s : State) (ds : Nat) : BusySt := tget s.place.busy ds BusySt.idle

/-- Put back a busy slot. -/
def setBusy (ds : Nat) (b : BusySt) (s : State) : State := { s with place := { s.place with busy := tput s.place.busy ds b } }

/-- Whether work is a tile reset (R275). -/
def WorkKind.isReset : WorkKind → Bool
  | .reset .. => true
  | .spare .. => true
  | _ => false

/-- A tile reset is in progress on a die set. -/
def resetting (s : State) (ds : Nat) : Bool :=
  match (busyOf s ds).cur with
  | some w => w.kind.isReset
  | none => false

/-- Programs waiting for a die set's busy slot, the one in progress included (R274). -/
def programsWaiting (s : State) (ds : Nat) : Nat :=
  let b := busyOf s ds
  (b.waiting.filter fun w => !w.kind.isReset).length +
    (match b.cur with
     | some w => b2n (!w.kind.isReset)
     | none => 0)

/-- Thresholds of a die set in Free groups (R277). -/
def rackThreshold (s : State) (percent : Nat) : Nat :=
  max 2 (ceilDiv (percent * (headroom s).toNat) (100 * max 1 (countLive s)))

/-- Keep the members that have the least key. -/
def keepLeast (f : Nat → Nat) (l : List Nat) : List Nat :=
  match (l.map f).min? with
  | none => []
  | some m => l.filter fun x => f x == m

/-- The die set for a frame of a role, by the preferences of R274. -/
def chooseSet (s : State) (role : Nat) : Option Nat :=
  let c := (liveSets s).filter fun ds => (openOf s role ds).isSome || mayOpen s role ds
  let c := keepLeast (fun ds => b2n (resetting s ds)) c
  let c := keepLeast (programsWaiting s) c
  let c := keepLeast (fun ds => if programsWaiting s ds = 0 then 0 else (busyOf s ds).since) c
  let c := keepLeast (fun ds => b2n (decide (freeIn s ds ≤ rackThreshold s s.place.rackUrgent))) c
  match c.find? fun ds => decide (s.place.rr ≤ ds) with
  | some ds => some ds
  | none => c.head?

/-- Place a frame of a role: its PFA (R272, R274); none while no group can open. -/
def place (role : Nat) (s : State) : Option (Nat × State) :=
  match chooseSet s role with
  | none => none
  | some ds =>
    let s := if (openOf s role ds).isSome then s else openGroup role ds s
    match openOf s role ds with
    | none => none
    | some g =>
      let w := (groupAt s g).wptr
      let s := modGroup g (fun x => { x with wptr := w + 1 }) { s with place := { s.place with rr := ds + 1 } }
      let s := if 131072 ≤ w + 1 then closeGroup g s else s
      some (pfaOf g w, s)

/-- Add work to a die set's busy slot. -/
def addWork (ds : Nat) (w : Work) (s : State) : State :=
  let b := busyOf s ds
  setBusy ds { b with waiting := b.waiting ++ [w] } s

end Sys2Proof.Machine
end

