-- ==== Sys2Proof/Machine/CounterOps.lean ====
section
/-!
DEFINITION. Counting an event in the counter sets (R554 to R559) and in the metering blocks (R560).
-/
namespace Sys2Proof.Machine

/-- The attributes of an event that filters look at (R555). -/
structure EvAttr where
  /-- 0 host, 1 fabric-forwarded, 2 internal maintenance -/
  origin : Nat
  /-- head of arrival -/
  head : Option Nat
  /-- fabric device of arrival -/
  dev : Option Nat
  cls : Option Nat
  tenant : Option Nat
  addr : Option Nat
deriving DecidableEq, Repr

/-- Attributes of an event that carries none. -/
def EvAttr.bare : EvAttr := { origin := 0, head := none, dev := none, cls := none, tenant := none, addr := none }

/-- A disabled descriptor (Table 19-1). -/
def CtrDesc.reset : CtrDesc :=
  { event := 0, mode := 0, enable := false, readable := false, sample := false, origin := 0, cls := 0, masterSel := 0,
    master := 0, tenantEn := false, tenant := 0, addrEn := false, first := 0, last := 0, window := 0 }

/-- A counter at reset. -/
def Ctr.reset : Ctr := { desc := CtrDesc.reset, count := 0, win := 0, winNo := 0, ended := none, ovf := false, armed := none, sample := none }

/-- Number of the window in which a time lies: windows are aligned to the time base (R557). -/
def windowOf (c : Ctr) (tb : Nat) : Nat := tb / (1000 * max 1 c.desc.window)

/-- Counter n of a set. -/
def ctrOf (s : State) (set n : Nat) : Ctr := tget s.count.ctrs (64 * set + n) Ctr.reset

/-- Whether an event passes a descriptor's filters (R555). -/
def passes (d : CtrDesc) (a : EvAttr) : Bool :=
  (d.origin == 0 || bits d.origin a.origin 1 == 1) &&
  (d.cls == 0 || (match a.cls with
    | some c => bits d.cls c 1 == 1
    | none => false)) &&
  (d.masterSel == 0 || (d.masterSel == 1 && a.head == some (d.master % 4)) || (d.masterSel == 2 && a.dev == some d.master)) &&
  (!d.tenantEn || a.tenant == some d.tenant) &&
  (!d.addrEn || (match a.addr with
    | some x => decide (d.first ≤ extentOf x) && decide (extentOf x ≤ d.last)
    | none => false))

/-- Add to a count: a wrap sets the overflow bit and arms the sampler; a held sample is then lost (R558, R559). -/
def ctrAdd (c : Ctr) (n : Nat) : Ctr :=
  if c.count + n < 2 ^ 64 then { c with count := c.count + n }
  else { c with count := (c.count + n) % 2 ^ 64, ovf := true, armed := if c.desc.sample then some 0 else c.armed }

/-- Count an event in one counter (R557). -/
def ctrEvent (code n : Nat) (a : EvAttr) (c : Ctr) : Ctr :=
  if c.desc.enable && c.desc.event == code && passes c.desc a then
    if c.desc.mode = 2 then { c with win := c.win + n } else ctrAdd c n
  else c

/-- Count an event in the device set and, when it arrived on a present head, in that head's set (R554). -/
def countEvent (code n : Nat) (a : EvAttr) (s : State) : State :=
  let hit : Nat → Bool := fun k => k / 64 == 4 || (match a.head with
    | some h => k / 64 == h && (headOf s h).present
    | none => false)
  let ctrs := tmap s.count.ctrs fun k c => if hit k then ctrEvent code n a c else c
  { s with count := { s.count with ctrs := ctrs } }

/-- A metering block that counts from a time (R560). -/
def MeterBlock.zero (start : Nat) : MeterBlock :=
  { bytesRead := 0, bytesWritten := 0, frames := 0, fcByteMs := 0, remote := 0, exceeded := 0, start := start }

/-- A metering page that counts from a time. -/
def Meter.zero (start : Nat) : Meter :=
  { buf0 := MeterBlock.zero 0, buf1 := MeterBlock.zero 0, live := MeterBlock.zero start, held := none, groups := [] }

/-- Metering page of a tenant. -/
def meterOf (s : State) (t : Nat) : Meter := tget s.count.meters t (Meter.zero 0)

/-- The page of a tenant that is created (R560, Table 19-13): its live counters start at 0 and no group is mapped; the snapshot buffers
keep what they hold, and a snapshot whose copy runs takes the counts as at its tick. -/
def freshMeter (t : Nat) (s : State) : Meter :=
  let m := meterOf s t
  { m with live := MeterBlock.zero s.time.tbNow, groups := [],
           held := if s.time.snapCopy.isSome then some (m.held.getD m.live) else none }

/-- Change the live block of a tenant that is not Free (R560). -/
def meterLive (t : Nat) (f : MeterBlock → MeterBlock) (s : State) : State :=
  if (tenantOf s t).st = .free then s
  else
    let m := meterOf s t
    { s with count := { s.count with meters := tput s.count.meters t { m with live := f m.live } } }

/-- Attributes of a request. -/
def reqAttr (r : Req) : EvAttr :=
  { origin := match r.src with
      | .fabric _ => 1
      | _ => 0,
    head := match r.src with
      | .head h => some h
      | _ => none,
    dev := match r.src with
      | .fabric d => some d
      | _ => none,
    cls := some r.cls, tenant := some r.tenant, addr := some r.addr }

/-- Count an event of a request. -/
def countReq (code n : Nat) (r : Req) (s : State) : State := countEvent code n (reqAttr r) s

/-- OPCODE of a sample (Table 19-3). -/
def sampleOp (r : Req) : Nat :=
  match r.src, r.op with
  | .engine _, .wr => 5
  | .engine _, .wrPtl => 5
  | .engine _, _ => 4
  | _, .rd => 0
  | _, .rdData => 0
  | _, .specRd => 3
  | _, .wr => 1
  | _, .wrPtl => 2

/-- Whether some sampler of a set watches. -/
def samplerArmed (s : State) (set : Nat) : Bool := s.count.ctrs.any fun p => p.1 / 64 == set && p.2.armed.isSome

/-- Show a completion to the samplers that watch (R559). -/
def showCompletion (tag outcome : Nat) (r : Req) (s : State) : State :=
  let a := reqAttr r
  let sets := (match a.head with
    | some h => [h]
    | none => []) ++ [4]
  let mk : Nat → Completion := fun set =>
    { set := set, addr := r.addr, tenant := r.tenant, tag := tag, opcode := sampleOp r, cls := r.cls, origin := a.origin,
      source := match r.src with
        | .head h => h
        | .fabric d => d + 32768
        | .engine e => e,
      outcome := outcome, latency := s.time.mono - r.at_, time := s.time.tbNow }
  { s with count := { s.count with completions :=
      s.count.completions ++ ((sets.filter (samplerArmed s)).map mk) } }

/-! ### Metering snapshots (R456, R563) -/

/-- A snapshot begins: each tenant's live counters as they stand at the tick are the values its copy will take (R563). -/
def startSnapshot (s : State) : State :=
  { s with count := { s.count with meters := tmap s.count.meters fun _ m => { m with held := some m.live } } }

/-- The copy of a snapshot ends: every page's other buffer takes the values held at the tick, and TB_MINUTE, SNAP_BUF and
SNAP_SEQ change together (R563). -/
def endSnapshot (s : State) : State :=
  match s.time.snapCopy with
  | none => s
  | some b =>
    let nb := !s.time.snapBuf
    let seq := (s.time.snapSeq + 1) % 2 ^ 31
    let take := fun (m : Meter) =>
      let v := m.held.getD m.live
      if nb then { m with buf1 := v, held := none } else { m with buf0 := v, held := none }
    { s with
      count := { s.count with meters := tmap s.count.meters fun _ m => take m,
                              snap0 := if nb then s.count.snap0 else (b, seq), snap1 := if nb then (b, seq) else s.count.snap1 },
      time := { s.time with snapCopy := none, tbMinute := b, snapBuf := nb, snapSeq := seq } }

/-- Every millisecond of the time base the meter adds 256 B for each of a tenant's front lines that is not Invalid (R561). -/
def meterMs (s : State) : State :=
  let lines : Nat → Nat := fun t => (s.front.lines.filter fun p => p.2.st != .invalid && p.2.tenant == t).length
  { s with count := { s.count with meters := tmap s.count.meters fun t m =>
      if (tenantOf s t).st = .free then m
      else { m with live := { m.live with fcByteMs := m.live.fcByteMs + 256 * lines t } } } }

end Sys2Proof.Machine
end

