-- ==== Sys2Proof/Machine/FabSend.lean ====
section
/-!
DEFINITION. Sending on the fabric (12_fabric.md): flits, retry and credits of a port (R392 to R399), the choice of an egress
port (R415, R416), Hellos and LSAs (R408 to R411), and the exit of a port from Up or Linked (R391, R396).
-/
namespace Sys2Proof.Machine

/-! ### Ports -/

/-- A fabric port that is Disabled and has run nothing (Table 12-1). -/
def FabPort.fresh : FabPort :=
  { st := .disabled, since := 0, byRetrain := false, retrains := [], width := 0, prop := 0, fec := [], hello := none,
    helloAt := 0, helloMs := 10, deadMult := 4, sentSeen := 0xFFF, txSeq := 0, retry := [], rxNext := 0, nakAt := none, replays := 0, replayTimes := [], sent := [],
    credit := [], granted := [], recvd := [], inbox := [], relaying := [], outbox := [], rrResp := 0, rrReq := 0, wire := [], counts := List.replicate 21 0,
    cci := none }

/-- A fabric port. -/
def portOf (s : State) (p : Nat) : FabPort := tget s.fabric.ports p FabPort.fresh

/-- Put back a fabric port. -/
def setPort (p : Nat) (x : FabPort) (s : State) : State :=
  { s with fabric := { s.fabric with ports := tput s.fabric.ports p x } }

/-- Flits may run: Linked or Up (Table 12-1). -/
def FPort.flits : FPort → Bool
  | .linked => true
  | .up => true
  | _ => false

/-- Code of a port state: its row of Table 12-1. -/
def FPort.code : FPort → Nat
  | .disabled => 0 | .training => 1 | .linked => 2 | .up => 3 | .retraining => 4

/-- A link is long above 30 ns of propagation (R389). -/
def FabPort.long (x : FabPort) : Bool := decide (30 < x.prop)

/-- A link below width 4 is narrow (R387). -/
def FabPort.narrow (x : FabPort) : Bool := decide (x.width < 4)

/-- A link is degraded: above 16 uncorrectable codewords in the last second, or a symbol error ratio above 2 × 10^-4; a lane
carries 10.625 billion symbols a second (R388, R390). -/
def FabPort.degraded (x : FabPort) (now : Nat) : Bool :=
  let f := x.fec.filter fun e => decide (now < e.1 + 1000000000)
  decide (16 < (f.map fun e => e.2.2).sum) || decide (2125000 * x.width < (f.map fun e => e.2.1).sum)

/-- Add to counter i of a port (C405h). -/
def FabPort.bump (x : FabPort) (i n : Nat) : FabPort := { x with counts := x.counts.set i (x.counts.getD i 0 + n) }

/-- Slots of a message (Table 12-4). -/
def wireSlots : WireMsg → Nat
  | .routed m => match m.kind with
    | .rd => 1 | .specRd => 1 | .cmp => 1 | .wr => 5 | .data => 5 | .wrPtl => 6
  | .hello _ => 4
  | .lsa _ => 5
  | .ack .. => 2

/-- Credit class of a message: its VC, or 12 for a link-local one (R397). -/
def wireCls : WireMsg → Nat
  | .routed m => m.vc
  | _ => 12

/-- PRI of a message (Table 12-3). -/
def wirePri : WireMsg → Bool
  | .routed m => m.pri
  | _ => false

/-- Available credit of a class: the count last reported less the slots sent, modulo 4,096 (R399). -/
def FabPort.avail (x : FabPort) (c : Nat) : Nat := (x.credit.getD c 0 + 4096 - x.sent.getD c 0 % 4096) % 4096

/-! ### Credits granted (R398 to R400) -/

/-- Slots dedicated to a class (R398). -/
def dedicated (c : Nat) : Nat := if c = 12 then 64 else 32

/-- Slots of a class that received messages still hold, those that wait to be relayed among them. -/
def FabPort.held (x : FabPort) (c : Nat) : Nat :=
  ((x.inbox.filter fun m => wireCls m == c).map wireSlots).sum +
    ((x.relaying.filter fun m => m.vc == c + 1).map fun m => wireSlots (.routed m)).sum

/-- Slots of a class granted and not yet used by the sender. -/
def FabPort.outstanding (x : FabPort) (c : Nat) : Nat := (x.granted.getD c 0 + 4096 - x.recvd.getD c 0 % 4096) % 4096

/-- Slots of the shared pool in use (R398). -/
def FabPort.poolUsed (x : FabPort) : Nat :=
  ((List.range 13).map fun c => x.outstanding c + x.held c - dedicated c).sum

/-- Grant slots of a class: its dedicated ones, then shared ones while its headroom is below 1,024 (R399). -/
def FabPort.grantClass (x : FabPort) (c : Nat) : FabPort :=
  let own := dedicated c - (x.outstanding c + x.held c)
  let x := { x with granted := x.granted.set c ((x.granted.getD c 0 + own) % 4096) }
  let more := if c = 12 then 0 else min (1024 - x.outstanding c) (5696 - x.poolUsed)
  { x with granted := x.granted.set c ((x.granted.getD c 0 + more) % 4096) }

/-- Grant slots as they free, response VCs first; no request VC during a drain (R399, R400). -/
def grantSlots (drain : Bool) (x : FabPort) : FabPort :=
  let cs := [6, 7, 8, 9, 10, 11] ++ (if drain then [] else [0, 1, 2, 3, 4, 5]) ++ [12]
  cs.foldl FabPort.grantClass x

/-! ### Flits (R392 to R395) -/

/-- The two credit reports of the next flit: every class within 7 flits, in rotation (R399). -/
def FabPort.reports (x : FabPort) : List (Nat × Nat) :=
  let n := x.counts.getD 0 0
  [2 * n % 13, (2 * n + 1) % 13].map fun c => (c, x.granted.getD c 0)

/-- Send a flit: a payload flit with one message, or an idle flit (R393). -/
def FabPort.emit (x : FabPort) (seq : Nat) (m : Option WireMsg) (nak : Bool) : FabPort :=
  let f : Flit :=
    { crcOk := true, payload := m.isSome, seq := if m.isSome then seq else 0, ackSeq := (x.rxNext + 4095) % 4096, nak := nak,
      credits := x.reports, msgs := m.toList }
  { x with wire := x.wire ++ [f] }.bump 0 1

/-- Send a new payload flit: it takes the next SEQ, its slots and a place in the retry buffer (R395, R399). -/
def FabPort.sendMsg (x : FabPort) (now : Nat) (m : WireMsg) : FabPort :=
  let x := x.emit x.txSeq (some m) false
  { x with txSeq := (x.txSeq + 1) % 4096, retry := x.retry ++ [{ seq := x.txSeq, msg := m, at_ := now }],
           sent := x.sent.set (wireCls m) ((x.sent.getD (wireCls m) 0 + wireSlots m) % 4096) }

/-- Whether a message can be sent now: flits run, room in the retry buffer, credit, and Up for a routed message. -/
def FabPort.canSend (x : FabPort) (m : WireMsg) : Bool :=
  x.st.flits && (x.st == .up || wireCls m == 12) && decide (x.retry.length < 256) && decide (wireSlots m ≤ x.avail (wireCls m))

/-- The message of a class that goes first: PRI ahead of others (R420). -/
def FabPort.firstOf (x : FabPort) (c : Nat) : Option WireMsg :=
  let ms := x.outbox.filter fun m => wireCls m == c
  match ms.find? wirePri with
  | some m => some m
  | none => ms.head?

/-- Order in which a port serves its classes: link-local, then the response VCs and the request VCs, each round-robin from
the position after the VC served last (R420). -/
def FabPort.serveOrder (x : FabPort) : List Nat :=
  [12] ++ (List.range 6).map (fun k => 6 + (x.rrResp + k) % 6) ++ (List.range 6).map (fun k => (x.rrReq + k) % 6)

/-- The round-robin position moves past the VC just served (R420). -/
def FabPort.served (x : FabPort) (c : Nat) : FabPort :=
  if c < 6 then { x with rrReq := (c + 1) % 6 } else if c < 12 then { x with rrResp := (c + 1) % 6 } else x

/-- The next message that a port can send. -/
def FabPort.nextMsg (x : FabPort) : Option WireMsg :=
  x.serveOrder.findSome? fun c =>
    match x.firstOf c with
    | some m => if x.canSend m then some m else none
    | none => none

/-- Send queued messages while credit and the retry buffer allow. -/
def pump (now : Nat) : Nat → FabPort → FabPort
  | 0, x => x
  | n + 1, x =>
    match x.nextMsg with
    | none => x
    | some m => pump now n (({ x with outbox := x.outbox.erase m }.served (wireCls m)).sendMsg now m)

/-- Event of data through a port (0040h and 0048h on, Table 19-2): 64 for a message that carries a host line. -/
def countPortData (code : Nat) (m : WireMsg) (s : State) : State :=
  match m with
  | .routed m =>
    if m.kind = .wr ∨ m.kind = .wrPtl ∨ m.kind = .data then
      countEvent code 64 { EvAttr.bare with origin := 1, dev := some m.src } s
    else s
  | _ => s

/-- A message that was relayed has left: the port that received it grants its slots again (R398, R399). -/
def freeRelay (drain : Bool) (m : WireMsg) (s : State) : State :=
  match m with
  | .routed m =>
    match s.fabric.ports.find? fun p => p.2.relaying.contains m with
    | some (p, x) =>
      let x := { x with relaying := x.relaying.erase m }
      setPort p (if x.st.flits then (grantSlots drain x).emit 0 none false else x) s
    | none => s
  | _ => s

/-- Send what a port holds. -/
def pumpPort (p : Nat) (s : State) : State :=
  let x := portOf s p
  let y := pump s.time.mono x.outbox.length x
  let sent := y.outbox.foldl (fun ms m => ms.erase m) x.outbox
  sent.foldl (fun s m => freeRelay s.persist.drain.isSome m (countPortData (0x48 + p) m s)) (setPort p y s)

/-- A PRI message finds the full-rate condition of R420 not met. -/
def FabPort.overrun (x : FabPort) (m : WireMsg) : Bool :=
  wirePri m && (x.st != .up || x.narrow || x.long || decide (0 < x.replays) || decide (x.avail (wireCls m) < wireSlots m) ||
    decide (15 < ((x.outbox.filter wirePri).map wireSlots).sum))

/-- Queue a message at a port and send what can be sent; a message short of credit counts as a stall of its VC. -/
def enqueue (p : Nat) (m : WireMsg) (s : State) : State :=
  let x := portOf s p
  let x := if x.overrun m then x.bump 7 1 else x
  let x := if wireCls m < 12 ∧ x.avail (wireCls m) < wireSlots m then x.bump (9 + wireCls m) 1 else x
  pumpPort p (setPort p { x with outbox := x.outbox ++ [m] } s)

/-! ### Egress (R414 to R416) -/

/-- Base VC of a kind (R397). -/
def baseVc : MsgKind → Nat
  | .data => 6
  | .cmp => 6
  | _ => 0

/-- An empty route entry. -/
def RouteEnt.none : RouteEnt :=
  { valid := false, primary := 0, alternate := 0, altValid := false, altLonger := false, hops := 0, primaryDown := false }

/-- The route entry of a destination in the table in use (R414). -/
def routeOf (s : State) (d : Nat) : RouteEnt :=
  if d = s.fabric.devId then { RouteEnt.none with valid := true } else tget s.fabric.routes d RouteEnt.none

/-- The egress port of a message whose next link is on its VC (R416); none when no allowed port satisfies it, or for a device
without an ID (R404). DEDUCED (log entry 224): an alternate that is not Up satisfies none. -/
def egressPort (s : State) (m : FabMsg) : Option Nat :=
  let r := routeOf s m.dst
  if !r.valid || s.fabric.devId == 0xFFF then none
  else
    let fits := fun (l : Nat) => decide (m.vc + l ≤ baseVc m.kind + 6)
    let credit := fun p => (portOf s p).avail m.vc
    let alt := if r.altValid && (portOf s r.alternate).st == .up && fits (if r.altLonger then r.hops + 1 else r.hops) then some r.alternate else none
    if r.primaryDown then alt
    else if r.altValid && !r.altLonger && decide (credit r.primary < s.fabric.policy.adaptLow) then
      let p := if credit r.primary < credit r.alternate then r.alternate else r.primary
      if fits r.hops then some p else none
    else if fits r.hops then some r.primary else none

/-- Drop a message at a relay, with its event counted as repeats (R416, 6004h; the reason codes are the model's: 0 no route,
1 tag not outstanding, 2 no device ID or relaying off, 3 reserved status). -/
def dropMsg (p reason dst : Nat) (s : State) : State :=
  raise (0x050 + p) 0x6004 p reason dst (setPort p ((portOf s p).bump 8 1) s)

/-- Send a message that this device originates on its base VC, or hold it until a route allows it (R416, R422). -/
def originate (m : FabMsg) (s : State) : State :=
  let m := { m with vc := baseVc m.kind }
  match egressPort s m with
  | some p => enqueue p (.routed m) s
  | none => { s with fabric := { s.fabric with egress := s.fabric.egress ++ [m] } }

/-- Messages held for a route are tried again. -/
def retryEgress (s : State) : State :=
  let ms := s.fabric.egress
  ms.foldl (fun s m => originate m s) { s with fabric := { s.fabric with egress := [] } }

/-- Pass a queued message on its VC: from this device or as a relay (R416). -/
def forward (ingress : Nat) (m : FabMsg) (s : State) : State :=
  match egressPort s m with
  | some p => enqueue p (.routed m) s
  | none =>
    if m.src = s.fabric.devId then { s with fabric := { s.fabric with egress := s.fabric.egress ++ [m] } }
    else freeRelay s.persist.drain.isSome (.routed m) (dropMsg ingress 0 m.dst s)

/-! ### Hellos and LSAs (R408 to R411) -/

/-- Send a Hello (R408, Table 12-6). -/
def sendHello (p : Nat) (s : State) : State :=
  let x := portOf s p
  let seen := match x.hello with
    | some (y, _) => y.src
    | none => 0xFFF
  let h : HelloMsg :=
    { src := s.fabric.devId, serial := s.mgmt.serial, epoch := s.ten.epochA, digest := s.ten.digestA, port := p,
      relayOk := s.fabric.policy.relayEn, long := x.long, narrow := x.narrow, degraded := x.degraded s.time.mono,
      seen := seen,
      lsaSeq := s.fabric.lsaSeq, helloMs := s.fabric.policy.helloMs }
  let x := { x with helloAt := s.time.mono, sentSeen := seen, helloMs := s.fabric.policy.helloMs, deadMult := s.fabric.policy.deadMult }
  enqueue p (.hello h) (setPort p x s)

/-- Ports that are Up. -/
def upPorts (s : State) : List Nat := (List.range 8).filter fun p => (portOf s p).st == .up

/-- The links this device lists: its Up ports (R410). -/
def ownLinks (s : State) : List FabLink :=
  (upPorts s).filterMap fun p =>
    let x := portOf s p
    match x.hello with
    | some (h, _) =>
      some { nbr := h.src, nbrPort := h.port, localPort := p, long := x.long,
             degraded := x.degraded s.time.mono, narrow := x.narrow }
    | none => none

/-- Send an LSA on a port and await its acknowledgement; while the fabric supervisor restarts it is not sent (R411,
Table 12-11). -/
def sendLsa (p : Nat) (l : Lsa) (s : State) : State :=
  let keep := s.fabric.unacked.filter fun u => !(u.1 == p && u.2.1.origin == l.origin)
  let s := { s with fabric := { s.fabric with unacked := keep ++ [(p, l, s.time.mono)] } }
  if s.mgmt.fabric.mode = .running ∨ s.mgmt.fabric.mode = .halted then enqueue p (.lsa l) s else s

/-- Flood an LSA on every Up port but one. -/
def floodLsa (but : Option Nat) (l : Lsa) (s : State) : State :=
  (upPorts s).foldl (fun s p => if some p = but then s else sendLsa p l s) s

/-- Store an LSA; the database has changed (R411, R413). -/
def storeLsa (l : Lsa) (s : State) : State :=
  { s with fabric := { s.fabric with db := tput s.fabric.db l.origin l, dbAt := s.time.mono, dirty := true } }

/-- The device originates its LSA with the next LSA_SEQ (R410); one without an ID originates none (R404). -/
def originateLsa (withdrawn : Bool) (s : State) : State :=
  if s.fabric.devId = 0xFFF then s
  else
    let l : Lsa :=
      { origin := s.fabric.devId, age := 0, seq := s.fabric.lsaSeq + 1, serial := s.mgmt.serial,
        relayOk := s.fabric.policy.relayEn, withdrawn := withdrawn, links := if withdrawn then [] else ownLinks s }
    let s := storeLsa l { s with fabric := { s.fabric with lsaSeq := l.seq, lsaAt := s.time.mono } }
    floodLsa none l s

/-! ### Port transitions (R391, R396, R415) -/

/-- Enter a port state, with its event (6001h); a Retrain Fabric Port completes at Up or Training (C406h). -/
def enterPort (p : Nat) (st : FPort) (s : State) : State :=
  let x := portOf s p
  if x.st = st then s
  else
    let s := raise (0x050 + p) 0x6001 p x.st.code st.code (setPort p { x with st := st, since := s.time.mono } s)
    match x.cci with
    | some c =>
      if st = .up ∨ st = .training then endBgOn c 0xC406 .success (setPort p { portOf s p with cci := none } s) else s
    | none => s

/-- Leave Up or Linked: the retry buffer is discarded, PRIMARY_DOWN is set, and queued messages choose again (R396, R411,
R415). -/
def leaveLink (p : Nat) (s : State) : State :=
  let x := portOf s p
  if !x.st.flits then s
  else
    let routes := if x.st = .up then
        tmap s.fabric.routes fun _ r => if r.valid && r.primary == p then { r with primaryDown := true } else r
      else s.fabric.routes
    let s := setPort p { x with retry := [], outbox := [], nakAt := none, hello := none } s
    let s := { s with fabric := { s.fabric with
      routes := routes, unacked := s.fabric.unacked.filter fun u => u.1 != p } }
    x.outbox.foldl (fun s m => match m with
      | .routed m => forward p m s
      | _ => s) s

/-- Leave the link, if there is one, for another state. -/
def dropPort (p : Nat) (st : FPort) (s : State) : State := enterPort p st (leaveLink p s)

end Sys2Proof.Machine
end

