-- ==== Sys2Proof/Machine/DriftOps.lean ====
section
/-!
DEFINITION. Operations of the drift model (09_drift_vintage_and_topping.md): acceleration factors, bins, offsets, margins,
trims and weathering.
-/
namespace Sys2Proof.Machine

/-! ### Acceleration (R299, R300) -/

/-- One in the fixed-point form of the AF table, 60 fractional bits. -/
def fxOne : Nat := 2 ^ 60

/-- Series of the exponential at a small argument. -/
def expSeries (r : Nat) : Nat → Nat → Nat → Nat
  | 0, _, acc => acc
  | n + 1, term, acc =>
    let k := 13 - (n + 1)
    let t := term * r / fxOne / k
    expSeries r n t (acc + t)

/-- Repeated squaring. -/
def fxSquares : Nat → Nat → Nat
  | 0, e => e
  | n + 1, e => fxSquares n (e * e / fxOne)

/-- exp of a fixed-point number. -/
def fxExp (x : Nat) : Nat := fxSquares 10 (expSeries (x / 1024) 12 fxOne fxOne)

/-- AF(T, Ea) × 65,536 at a whole degree, Ea in meV (R300), rounded to nearest (log entry 2). -/
def afFactor (t : Int) (ea : Nat) : Nat :=
  let t := max (-40) (min 125 t)
  let num := ea * (t - 55).natAbs * 10 ^ 12 * fxOne
  let den := 8617333 * 32815 * (100 * t + 27315).toNat
  let e := fxExp (num / den)
  let v := if 0 ≤ t - 55 then e else fxOne * fxOne / e
  (v * 65536 + fxOne / 2) / fxOne

/-- 60 × AF in whole equivalent seconds, with AF to a tenth: 4,110 at 95 °C and 1.10 eV, as R303 states it (log entry 2). -/
def critMinute (t : Int) (ea : Nat) : Nat := 6 * ((afFactor t ea * 10 + 32768) / 65536)

/-- The firmware default table (R308): its offsets and margins are those of the least favourable lot, which the manual does
not give, so they are free values (log entry 1). -/
def defaultTable : DriftTable :=
  { ea := 1300, retention := 365, source := 2,
    ents := (List.range 24).map fun b =>
      ((Config.freeBits 8 (4 * b)).toInt, (Config.freeBits 8 (4 * b + 1)).toInt, (Config.freeBits 8 (4 * b + 2)).toInt,
       (Config.freeBits 8 (4 * b + 3)).toNat) }

/-- Drift table in use for a die (R306, R308). -/
def tableOf (s : State) (die : Nat) : DriftTable := tget s.drift.tables die defaultTable

/-- Die of a die set on a quad. -/
def setDieOn (ds quad : Nat) : Nat := dieId (channelAt quad (dsK ds)) (dsP ds) (dsD ds)

/-- The nine dies of a die set. -/
def setDies (ds : Nat) : List Nat := (List.range 9).map (setDieOn ds)

/-- Temperature of a die set in whole °C, rounded down: the highest reading of its nine packages; a sensor not read for 5 s
or broken counts as the MEDIA zone's Hot threshold + 1 °C, given here (R299). -/
def setTemp (s : State) (hotPlus1 : Int) (ds : Nat) : Int :=
  let one : Nat → Int := fun d =>
    let k := 8 * chanOfDie d + pkgOfDie d
    match tfind s.drift.temps k with
    | some (t, at_) => if s.time.mono ≤ at_ + 5000000000 then t / 16 else hotPlus1
    | none => hotPlus1
  let ts := (setDies ds).map one
  max (-40) (min 125 (ts.foldl max (-40)))

/-- AF of a die set × 65,536: the largest over the activation energies of its dies (R300). -/
def setAf (s : State) (ds : Nat) (t : Int) : Nat := ((setDies ds).map fun d => afFactor t (tableOf s d).ea).foldl max 0

/-! ### Bins, offsets and margins (R305, R307, R313) -/

/-- Bin of an effective age (R305). -/
def driftBin (a : Nat) : Nat := if a < 64 then 0 else min 23 (1 + Nat.log2 (a / 64))

/-- WEATHERING of a group: the integer part, saturating (R301). -/
def weathering (x : Group) : Nat := min (x.weather / 65536) 0xFFFFFFFF

/-- Entry of a die's table at a group's bin. -/
def driftEntry (s : State) (die : Nat) (x : Group) : Int × Int × Int × Nat :=
  (tableOf s die).ents.getD (driftBin (weathering x)) (0, 0, 0, 0)

/-- The offsets that a read of a group carries to a die, plus a shift for soft reads (R307, R311). -/
def readOffsets (s : State) (die : Nat) (x : Group) (shift : Int) : Int × Int × Int :=
  let e := driftEntry s die x
  let c := clampOfs (dieOf s die)
  (c (e.1 + x.trim0 + shift), c (e.2.1 + x.trim1 + shift), c (e.2.2.1 + x.trim2 + shift))

/-- Predicted margin of a group (R313). -/
def groupMargin (s : State) (g : Nat) : Int :=
  let x := groupAt s g
  let ms := (setDies (dieSetOf g)).map fun d => (driftEntry s d x).2.2.2
  (ms.min?.getD 0 : Int) - (max x.trim0.natAbs (max x.trim1.natAbs x.trim2.natAbs) : Nat)

/-- Smallest rated retention of a group's dies in days (R320). -/
def groupRetention (s : State) (g : Nat) : Nat := (((setDies (dieSetOf g)).map fun d => (tableOf s d).retention).min?).getD 0

/-! ### Reads of a group (R309 to R312) -/

/-- A group that is read is the most recently read of those with window sums (R310). -/
def touchWindow (g : Nat) (s : State) : State :=
  let ws := s.drift.windows
  { s with drift := { s.drift with windows := (ws.filter fun w => w.group != g) ++ ws.filter fun w => w.group == g } }

/-- A read is sent to a tile of a group: READ_COUNT rises, and a multiple of 2^18 asks for its record (R312). -/
def countRead (g : Nat) (s : State) : State :=
  let s := touchWindow g s
  let x := groupAt s g
  let n := min (2 ^ 25 - 1) (x.reads + 1)
  let s := setGroup g { x with reads := n } s
  if x.reads / 2 ^ 18 < n / 2 ^ 18 ∧ s.drift.readDue.contains g = false then
    { s with drift := { s.drift with readDue := s.drift.readDue ++ [g] } }
  else s

/-- Send a read of a segment to a die: the tile that stands in for a substituted one, and the die's own offsets (R269,
R307). -/
def sendRead (pfa quad : Nat) (shift : Int) (s : State) : State :=
  let g := groupOf pfa
  let x := groupAt s g
  let die := setDieOn (dieSetOf g) quad
  let sub := x.sub.getD quad 0
  let tile := if sub = 0 then tileOf g else 1003 + sub
  let ch := chanOf s (chanOfDie die)
  let o := readOffsets s die x shift
  countRead g (setChan (chanOfDie die) { ch with lastRead := some (die, tile, frameIdx pfa, o.1, o.2.1, o.2.2) } s)

/-- Add the corrected-bit counts of a hard decode to the group's window (R309, R310). -/
def noteDecode (g : Nat) (up dn : List Nat) (s : State) : State :=
  let add : List Nat → List Nat → List Nat := fun a b => (List.range 3).map fun i => a.getD i 0 + b.getD i 0
  let old := s.drift.windows.find? fun w => w.group == g
  let rest := s.drift.windows.filter fun w => w.group != g
  let w : TrimWin := match old with
    | some w => { w with decodes := w.decodes + 1, up := add w.up up, dn := add w.dn dn }
    | none => { group := g, decodes := 1, up := add [] up, dn := add [] dn }
  let rest := if old.isNone ∧ 16384 ≤ rest.length then rest.drop 1 else rest
  { s with drift := { s.drift with windows := rest ++ [w] } }

/-- Move a trim by a step within −8 to +8 (R309). -/
def moveTrim (t d : Int) : Int := max (-8) (min 8 (t + d))

/-- Change a group's trims by steps: GROUP_TRIM commits when one changes, and a step the limit blocks marks the trim saturated
(R309). -/
def stepTrims (g : Nat) (d0 d1 d2 : Int) (s : State) : State :=
  let x := groupAt s g
  let a := moveTrim x.trim0 d0
  let b := moveTrim x.trim1 d1
  let c := moveTrim x.trim2 d2
  let blocked := a != x.trim0 + d0 || b != x.trim1 + d1 || c != x.trim2 + d2
  let s := if blocked then modGroup g (fun x => { x with trimSat := true }) s else s
  if a = x.trim0 ∧ b = x.trim1 ∧ c = x.trim2 then s else commit (.groupTrim g a b c) s

/-- Add weathering, with 16 fractional bits, to every live group of a die set and to its residual (R301, R302). -/
def weatherSet (ds gain : Nat) (s : State) : State :=
  let live : GState → Bool := fun st => st == .open_ || st == .closed || st == .metadata
  let gs := tmap s.place.groups fun g x =>
    if dieSetOf g == ds && live x.st then { x with weather := min (x.weather + gain) (2 ^ 48 - 1) } else x
  { s with place := { s.place with groups := gs },
           drift := { s.drift with residual := tput s.drift.residual ds (tget s.drift.residual ds 0 + gain) } }

/-- Pairs in lists of six, as GROUP_WEATHER holds them (Table 9-4). -/
def inSixes : Nat → List (Nat × Nat) → List (List (Nat × Nat))
  | 0, _ => []
  | n + 1, xs => if xs.isEmpty then [] else xs.take 6 :: inSixes n (xs.drop 6)

/-- Sweep a die set: GROUP_WEATHER for every live group, and its residual starts again (R302). -/
def sweepSet (ds : Nat) (s : State) : State :=
  let live := s.place.groups.filter fun p =>
    dieSetOf p.1 == ds && (p.2.st == .open_ || p.2.st == .closed || p.2.st == .metadata)
  let xs := live.map fun p => (p.1, weathering p.2)
  -- the fractional part in SRAM is kept: only the journaled value is whole
  let s' := commitAll ((inSixes xs.length xs).map .groupWeather) s
  { s' with place := { s'.place with groups := s.place.groups },
            drift := { s'.drift with residual := tput s'.drift.residual ds 0 } }

/-! ### Policy (Table 9-3) -/

/-- The drift policy that an image gives (Table 9-3). -/
def driftPolicyOf (b : List Byte) (d : DriftSt) : DriftSt :=
  let w := le b 0 4
  { d with topAge := bits w 24 8, topReads := bits w 16 8, topMargin := bits w 12 4, topUrgent := bits w 8 4,
           unpoweredTemp := bits w 0 8, offAssume := le b 6 2, trimWindow := byteAt b 5 }

/-- The ranges of Table 9-3. -/
def driftPolicyOk (d : DriftSt) : Bool :=
  decide (7 ≤ d.topAge) && decide (1 ≤ d.topReads) && decide (d.topReads ≤ 22) && decide (1 ≤ d.topMargin) &&
    decide (d.topUrgent < d.topMargin) && decide (d.unpoweredTemp ≤ 100) && decide (1 ≤ d.trimWindow)

end Sys2Proof.Machine
end

