-- ==== Sys2Proof/Machine/DramOps.lean ====
section
/-!
DEFINITION. Operations of the DRAM subsystem that other blocks need: frost and its effects on map shares and back-cache slots
(R373 to R377), slot eviction (R219) and affected extents (R262).
-/
namespace Sys2Proof.Machine

/-- Evict a back-cache slot: MEDIA with D_PFA in both copies, then quarantine (R219). -/
def evictSlot (n : Nat) (s : State) : State :=
  match tfind s.back.slots n with
  | none => s
  | some x =>
    let s := match mapEntry s x.lfa with
      | some e => if e.st == MState.back && e.loc == n then postEntry x.lfa { e with st := .media, loc := x.pfa } s else s
      | none => s
    { s with back := { s.back with
        slots := tput s.back.slots n { x with st := .quarantined, quarantine := quarantineEnd s },
        evictions := s.back.evictions + 1 } }

/-- Whether an extent has an entry on a channel in a copy (R362): its 2 MiB of map against the grain. -/
def extentOnChan (s : State) (copyB : Bool) (c e : Nat) : Bool :=
  let g := grainBytes s.dram.mapGrainNow
  let first := e * 2097152 / g
  let last := ((e + 1) * 2097152 - 1) / g
  let at_ : Nat → Nat := fun k => if s.map.mirror then k % 4 + (if copyB then 4 else 0) else k % 8
  (List.range (min 8 (last - first + 1))).any fun i => at_ (first + i) == c

/-- Mark extents affected (R262). -/
def markAffected (es : List Nat) (s : State) : State :=
  { s with ten := { s.ten with affected := s.ten.affected ++ es.filter fun e => !s.ten.affected.contains e } }

/-- The locally owned extents of the map. -/
def localExtents (s : State) : List Nat := (List.range s.map.extents).filter fun e => (extOf s e).ownerDev == 0xFFF

/-- Extents that have an entry with no good copy because of a frozen channel (Table 11-8). -/
def lostByChannel (s : State) (c : Nat) : List Nat :=
  if s.map.mirror then
    if dramOut s ((c + 4) % 8) then (localExtents s).filter (extentOnChan s (decide (4 ≤ c)) c) else []
  else (localExtents s).filter (extentOnChan s false c)

/-- Report entry to or exit from the Exposed state, if it has changed (2004h). -/
def exposedEvent (before : Bool) (c : Nat) (s : State) : State :=
  if mapExposed s = before then s else raise (0x040 + c) 0x2004 (b2n (mapExposed s)) 0 0 s

/-- What a frozen channel did to a slot: data lost evicts it through its directory, a lost directory pins it, and both lost
leave its entry without a good copy (Table 11-8). -/
def frostSlot (s : State) (n : Nat) : State :=
  match tfind s.back.slots n with
  | none => s
  | some x =>
    if x.st != .valid then s
    else
      let dataOut := (slotChans s n).any (dramOut s)
      let dirOut := dramOut s (dirChan s n)
      if dataOut && dirOut then
        markAffected [extentOfLfa x.lfa] { s with map := { s.map with lost := s.map.lost ++ [x.lfa] } }
      else if dataOut then evictSlot n s
      else if dirOut then { s with back := { s.back with slots := tput s.back.slots n { x with pinned := true } } }
      else s

/-- What a freeze reports, with the place of the failing burst; the device position stays in F_COLUMN [31:24] (Table 11-9). -/
def frostAt (f : FrostIn) (l : DramLoc) : FrostIn :=
  { f with subch := l.sub, rank := l.rank, bank := l.bank, row := l.row, column := f.column / 2 ^ 24 * 2 ^ 24 + l.col }

/-- A channel freezes (R375 to R377): the frost record, events 2002h and 2004h, affected extents and slots. A channel that was
thawing becomes Failed, and slots that its salvage unpinned are pinned again (Tables 11-7 and 11-8). -/
def freeze (c cause : Nat) (f : FrostIn) (s : State) : State :=
  let x := dramOf s c
  if x.mode != .inService && x.mode != .thawing && !(x.mode == .training && x.thaw) then s
  else
    let before := mapExposed s
    let fr : Frost :=
      { cause := cause, subch := f.subch, rank := f.rank, bank := f.bank, row := f.row, column := f.column,
        syndrome := f.syndrome, time := s.time.tbNow, temp := f.temp, tail := f.tail }
    if x.mode = .inService then
      let s := stopDom (12 + c) (setDram c { x with mode := .frozen, frost := some fr, frozenAt := s.time.mono, crcAlerts := 0 } s)
      let s := raise (0x040 + c) 0x2002 c cause 0 s
      let s := exposedEvent before c s
      let s := markAffected (lostByChannel s c) s
      (s.back.slots.map (·.1)).foldl frostSlot s
    else
      let s := stopDom (12 + c) (setDram c { x with mode := .failed, thaw := false, step := 0, cci := none } s)
      let s := raise (0x040 + c) 0x2003 c 1 0 s
      let s := ((s.back.slots.map (·.1)).filter fun n => dirChan s n == c && !((slotChans s n).any (dramOut s))).foldl frostSlot s
      match x.cci with
      | some k => endBgOn k 0xC363 .success s
      | none => s

/-- A correctable burst is corrected and written back; a DRAM event is logged and counted per rank (Table 11-6). -/
def correctable (c rank row col : Nat) (s : State) : State :=
  let x := dramOf s c
  raise (0x040 + c) 0x2001 (c + rank * 256) row col
    (setDram c { x with correctable := x.correctable.set rank (x.correctable.getD rank 0 + 1) } s)

end Sys2Proof.Machine
end

