-- ==== Sys2Proof/Machine/MediaRead.lean ====
section
/-!
DEFINITION. Codeword reads of the media, for fills and for internal reads: the ciphertext and stripe of a frame (R136, R223, R242),
the reads at each die (R220, R221), and a read direct, around a missing codeword, and on the slow path (R222 to R225).
-/
namespace Sys2Proof.Machine

/-! ### Ciphertext and stripe (R136, R223, R242) -/

/-- XTS over front line i of a frame: data unit i / 2, tweak 8 × LFA + j, blocks 16c to 16c + 15 (R136, R223). -/
def xtsOf (key lfa i : Nat) : Config.LinePerm := Config.xts key (8 * lfa + i / 2) (16 * (i % 2))

/-- Ciphertext of a frame's data under a key pair at its LFA (R136). -/
def sealFrame (key lfa : Nat) (d : FrameData) : Cipher :=
  (List.range 16).map fun i => (xtsOf key lfa i).enc (getFrontLine d i)

/-- Front line i of a frame, decrypted under a key pair at an LFA (R136). -/
def openLine (key lfa i : Nat) (x : FrontLine) : FrontLine := (xtsOf key lfa i).dec x

/-- The 16 metadata shares of a frame (Table 7-3). -/
def metaShares (kind lfa wseq tenant keyGen poison origin source : Nat) : List Nat :=
  let s := [kind * 2 ^ 60 + 2 ^ 56 + lfa % 2 ^ 36, wseq % 2 ^ 64, tenant * 2 ^ 48 + keyGen * 2 ^ 32 + poison * 2 ^ 16,
    origin * 2 ^ 62 + source]
  s ++ s ++ List.replicate 8 0

/-- The shares of a host-data frame (Table 7-3 FM_KIND 1h). -/
def frameShares (f : MFrame) : List Nat := metaShares 1 f.lfa f.wseq f.tenant f.keyGen f.poison.toNat f.origin f.source

/-- Data codeword i of a frame: 256 B of content, then the clear metadata share (R136, R242). -/
def dataCodeword (c : Cipher) (sh : List Nat) (i : Nat) : Codeword := BitVec.ofNat 64 (sh.getD i 0) ++ c.getD i 0

/-- Codeword c of the parity segment: the XOR of codeword c of the eight data segments (R223). -/
def parityCodeword (d : Cipher) (sh : List Nat) (c : Nat) : Codeword :=
  (List.range 8).foldl (fun x j => x ^^^ dataCodeword d sh (2 * j + c)) 0

/-- Codeword c of stripe position q: 0 to 7 data segments, 8 parity. -/
def stripeCodeword (d : Cipher) (sh : List Nat) (q c : Nat) : Codeword :=
  if q = 8 then parityCodeword d sh c else dataCodeword d sh (2 * q + c)

/-- The stripe position that a quad holds of a frame (R53). -/
def posOfQuad (pfa quad : Nat) : Nat :=
  ((List.range 9).find? fun p => (if p = 8 then parityQuad (frameIdx pfa) else dataQuad (frameIdx pfa) p) == quad).getD 0

/-- The eight positions other than q. -/
def otherPos (q : Nat) : List Nat := (List.range 9).filter (· != q)

/-- Codeword c of a missing position: the XOR of the eight decoded members (R223). -/
def rebuiltCodeword (d : Cipher) (sh : List Nat) (q c : Nat) : Codeword :=
  (otherPos q).foldl (fun x p => x ^^^ stripeCodeword d sh p c) 0

/-- The 592 B of the segment of a stripe position: each codeword with its LDPC parity (R136, R323). -/
def segmentBits (d : Cipher) (sh : List Nat) (q : Nat) : BitVec 4736 :=
  let cw := fun c => Config.ldpc (stripeCodeword d sh q c) ++ stripeCodeword d sh q c
  (cw 1 ++ cw 0).setWidth 4736

/-- Key pair in a tenant's slot, if any (R132). -/
def tenantKey (s : State) (t : Nat) : Option Nat :=
  match (tenantOf s t).slot with
  | none => none
  | some k =>
    match tget s.ten.slots k .empty with
    | .loaded key => some key
    | .loading key => some key
    | _ => none

/-! ### Positions and dies (R53, R220, R221) -/

/-- Quad of stripe position q of a frame (R53). -/
def posQuad (pfa q : Nat) : Nat := if q = 8 then parityQuad (frameIdx pfa) else dataQuad (frameIdx pfa) q

/-- Die of a stripe position. -/
def posDie (pfa q : Nat) : Nat := setDieOn (dieSetOf (groupOf pfa)) (posQuad pfa q)

/-- Positions that a fetch has outstanding at dies. -/
def stagePositions : FillStage → List Nat
  | .direct _ q => [q]
  | .around _ _ w _ => w
  | .slow _ _ soft w _ => soft.map (·.1) ++ w
  | _ => []

/-- PFA that a fetch holds (R227). -/
def stagePfa : FillStage → Option Nat
  | .direct p _ => some p
  | .around p _ _ _ => some p
  | .slow p _ _ _ _ => some p
  | .back _ p => some p
  | _ => none

/-- Reads at a die, in its sense engines or waiting (R221). -/
def dieQueue (s : State) (die : Nat) : List DieRead := tget s.front.dieReads die []

/-- Put back the reads at a die. -/
def setDieQueue (die : Nat) (q : List DieRead) (s : State) : State :=
  { s with front := { s.front with dieReads := tset s.front.dieReads die q [] } }

/-- Reads ahead at a die (R221). -/
def dieDepth (s : State) (die : Nat) : Nat := (dieQueue s die).length

/-- A die set has a channel in training or out of service; it starts no program or reset until that ends (R353, CF00h). -/
def setTraining (s : State) (ds : Nat) : Bool :=
  (setDies ds).any fun d =>
    (chanOf s (chanOfDie d)).mode == ChanMode.training || (chanOf s (chanOfDie d)).mode == ChanMode.outOfService

/-- The work of a die set is due on its present quad: nothing but the die's reads can hold it (Table 6-10). -/
def quadDue (s : State) (ds : Nat) : Bool :=
  match (busyOf s ds).cur with
  | some w => (w.kind.isReset || (busyOf s ds).pause.isNone) && !setTraining s ds
  | none => false

/-- A program or reset runs on a quad's die, or waits only for its reads (R220, Table 6-10). -/
def dieBusy (s : State) (ds quad : Nat) : Bool :=
  (busyOf s ds).cur.isSome && (busyOf s ds).quad == quad && ((busyOf s ds).run || quadDue s ds)

/-- The die has failed, or its channel is not in service (R283, R353). -/
def dieGone (s : State) (pfa q : Nat) : Bool :=
  (s.place.degraded.any fun p => p.1 == dieSetOf (groupOf pfa) && p.2 == posQuad pfa q) ||
    (chanOf s (chanOfDie (posDie pfa q))).mode != .inService

/-- A read of a position goes around its die (R220, R283). -/
def dieOut (s : State) (pfa q : Nat) : Bool := dieBusy s (dieSetOf (groupOf pfa)) (posQuad pfa q) || dieGone s pfa q

/-- A position that the slow path cannot read: of a busy die for a fetch, but a recovery read, q = 9, waits for busy dies (R225, R280). -/
def slowOut (s : State) (pfa q pos : Nat) : Bool := if q = 9 then dieGone s pfa pos else dieOut s pfa pos

/-- The cap refuses a read: more than 2 reads are ahead of it, or 1 for a BULK, ENG or internal read (R221). -/
def capRefuses (s : State) (latency : Bool) (pfa q : Nat) : Bool :=
  decide ((if latency then 2 else 1) < dieDepth s (posDie pfa q))

/-- A codeword is missing at issue (R222). -/
def missing (s : State) (latency : Bool) (pfa q : Nat) : Bool := dieOut s pfa q || capRefuses s latency pfa q

/-- Mark the first waiting read that satisfies a test as started. -/
def startFirst (p : DieRead → Bool) : List DieRead → Option (DieRead × List DieRead)
  | [] => none
  | r :: l => if !r.started && p r then some (r, { r with started := true } :: l) else (startFirst p l).map fun x => (x.1, r :: x.2)

/-- Start the next read at a die with a free sense engine: LAT and WR reads first, then the others, each in order (R221). A die
whose operation runs starts none (R220). -/
def startRead (die : Nat) (s : State) : State :=
  let q := dieQueue s die
  if 2 ≤ (q.filter (·.started)).length then s
  else
    match (startFirst (·.latency) q).orElse fun _ => startFirst (fun _ => true) q with
    | none => s
    | some (r, q) =>
      let ds := dieSetOf (groupOf r.pfa)
      let b := busyOf s ds
      if b.cur.isSome && b.run && b.quad == posQuad r.pfa r.pos then s
      else
        busAdd (chanOfDie die) [{ form := .sense die, urgent := r.latency, rd := some r.rd, again := false }]
          (sendRead r.pfa (posQuad r.pfa r.pos) r.shift (setDieQueue die q s))

/-- Fill both sense engines of a die. -/
def startReads (die : Nat) (s : State) : State := startRead die (startRead die s)

/-- Send the reads of positions of a frame to their dies (R221, R307). -/
def sendReads (rd : ReadId) (pfa : Nat) (latency : Bool) (shift : Int) (qs : List Nat) (s : State) : State :=
  qs.foldl (fun s q =>
    let die := posDie pfa q
    let r : DieRead := { rd := rd, pos := q, pfa := pfa, latency := latency, shift := shift, started := false,
                         asked := false }
    startReads die (setDieQueue die (dieQueue s die ++ [r]) s)) s

/-- A position of a fetch awaits its hard decode. -/
def hardRead : FillStage → Nat → Bool
  | .direct _ q, pos => q == pos
  | .around _ _ w _, pos => w.contains pos
  | .slow _ _ _ w _, pos => w.contains pos
  | _, _ => false

/-- A read of a position is in a sense engine. -/
def inEngine (s : State) (rd : ReadId) (pfa q : Nat) : Bool :=
  (dieQueue s (posDie pfa q)).any fun r => r.rd == rd && r.pos == q && r.started

/-- A transfer serves a read at a die (R354). -/
def readForm (die : Nat) (rd : ReadId) (t : BusXfer) : Bool :=
  t.rd == some rd && (match t.form with
    | .output d _ _ => d == die
    | .sense d => d == die
    | .poll p => p == pkgOfDie die
    | _ => false)

/-- A read of a position ends; the die's engine is free for the next. -/
def endRead (rd : ReadId) (pfa q : Nat) (s : State) : State :=
  let die := posDie pfa q
  let s := busDrop (chanOfDie die) (fun t => readForm die rd t) s
  startReads die (setDieQueue die ((dieQueue s die).filter fun r => !(r.rd == rd && r.pos == q)) s)

/-- A fetch asks no more of the dies. -/
def endReads (rd : ReadId) (s : State) : State :=
  let dies := (s.front.dieReads.filter fun p => p.2.any fun r => r.rd == rd).map (·.1)
  dies.foldl (fun s d => startReads d (setDieQueue d ((dieQueue s d).filter fun r => r.rd != rd)
    (busDrop (chanOfDie d) (readForm d rd) s))) s

/-! ### Fetches -/

/-- A fetch by its identity. -/
def fetchOf (s : State) : ReadId → Option Fetch
  | .fill k => (tfind s.front.miss k).map (·.toFetch)
  | .internal n => (tfind s.front.ireads n).map (·.toFetch)

/-- Put back a fetch. -/
def setFetch (rd : ReadId) (f : Fetch) (s : State) : State :=
  match rd with
  | .fill k =>
    match tfind s.front.miss k with
    | some m => { s with front := { s.front with miss := tput s.front.miss k { m with toFetch := f } } }
    | none => s
  | .internal n =>
    match tfind s.front.ireads n with
    | some r => { s with front := { s.front with ireads := tput s.front.ireads n { r with toFetch := f } } }
    | none => s

/-- Front line number that a fetch reads. -/
def lineOfRead (s : State) : ReadId → Nat
  | .fill k => k
  | .internal n => ((tfind s.front.ireads n).map (·.line)).getD 0

/-- Whether a fetch is a fill; only fills count in Table 6-11 (log entry 205). -/
def isFill : ReadId → Bool
  | .fill _ => true
  | .internal _ => false

/-- Add to one of the seven counts of Table 6-11. -/
def bumpRead (i : Nat) (s : State) : State :=
  { s with front := { s.front with readCounts := s.front.readCounts.set i (s.front.readCounts.getD i 0 + 1) } }

/-- Add to a count of Table 6-11 for a fill. -/
def bumpFill (rd : ReadId) (i : Nat) (s : State) : State := if isFill rd then bumpRead i s else s

/-- Add to one of the health counts of Table 8-8. -/
def bumpHealth (i : Nat) (s : State) : State :=
  { s with place := { s.place with counts := s.place.counts.set i (s.place.counts.getD i 0 + 1) } }

/-- Add to a health count of Table 8-8 that counts fills (log entry 205). -/
def bumpFillHealth (rd : ReadId) (i : Nat) (s : State) : State := if isFill rd then bumpHealth i s else s

/-- What a fetch makes of a codeword's 256 B: a fill and a merge decrypt it, none when the key is gone (Table 3-8); a copy, a
promotion and a recovery keep ciphertext (R137). -/
def clearText (s : State) (rd : ReadId) (x : FrontLine) : Option FrontLine :=
  match rd with
  | .fill k => ((tfind s.front.miss k).bind fun m => tenantKey s m.tenant).map fun key => openLine key (k / 16) (k % 16) x
  | .internal n =>
    match tfind s.front.ireads n with
    | none => none
    | some r =>
      match r.use_ with
      | .merge a => (tfind s.front.asms a).map fun a => openLine a.key (r.line / 16) (r.line % 16) x
      | _ => some x

/-- A fetch's data is at hand (R223, R225); a frame with no content on the medium, or a key that is gone, gives poison. -/
def fetchReady (rd : ReadId) (x : Option FrontLine) (f : Fetch) (s : State) : State :=
  match x.bind (clearText s rd) with
  | some d => setFetch rd { f with stage := .ready, data := d } s
  | none =>
    let r := drawBits 2048 s
    setFetch rd { f with stage := .ready, poison := true, data := r.1 } r.2

/-- A media fetch's codeword is whole: the one read, or the XOR of the eight members (R222, R223). -/
def mediaReady (rd : ReadId) (pfa q : Nat) (rebuilt : Bool) (f : Fetch) (s : State) : State :=
  let c := lineOfRead s rd % 2
  let cw := (tfind s.map.frames pfa).map fun fr =>
    if rebuilt then rebuiltCodeword fr.data (frameShares fr) q c else stripeCodeword fr.data (frameShares fr) q c
  endReads rd (fetchReady rd (cw.map fun w => w.extractLsb' 0 2048) f s)

/-- Record the source of a front line's poison (R81 to R83). -/
def notePoison (key : Nat) (src : PoisonSrc) (s : State) : State :=
  { s with front := { s.front with poisonSrcs := tset s.front.poisonSrcs key src .internal } }

/-! ### Ways of reading (R222 to R225) -/

/-- Shift of the k-th soft read, k from 1 (R311). -/
def softShift (k : Nat) : Int := [2, -2, 4, -4, 6, -6].getD (k - 1) 0

/-- Head of the extent of a front line, for an event that carries a DPA (R552). -/
def headOfLine (s : State) (key : Nat) : Nat := (extOf s (extentOfLfa (key / 16))).head

/-- The slow path has nothing more to read: the codeword is whole, reconstructed, or poisoned and its frame reported (R225). A
recovery read keeps the positions that stay missing (R280). -/
def slowDecide (rd : ReadId) (pfa q : Nat) (soft : List (Nat × Nat)) (waiting lost : List Nat) (f : Fetch) (s : State) : State :=
  let go := setFetch rd { f with stage := .slow pfa q soft waiting lost } s
  if q = 9 then go
  else if !lost.contains q && !waiting.contains q && !(soft.any fun p => p.1 == q) then
    mediaReady rd pfa q false f (bumpFillHealth rd 2 go)
  else if !soft.isEmpty || !waiting.isEmpty then go
  else if lost.length ≤ 1 then mediaReady rd pfa q true f (bumpFillHealth rd 2 go)
  else
    let key := lineOfRead s rd
    let s := bumpFillHealth rd 3 (bumpFill rd 5 go)
    let s := if isFill rd then notePoison key .internal s else s
    let s := raiseDpa (0x200 + dieSetOf (groupOf pfa)) 0x3002 (key * 256) (headOfLine s key) s
    let s := if s.place.reported.contains (key / 16, pfa) then s
      else { s with place := { s.place with reported := s.place.reported ++ [(key / 16, pfa)] } }
    let r := drawBits 2048 s
    setFetch rd { f with stage := .ready, poison := true, data := r.1 } r.2

/-- Enter the slow path with every position that can still be read (R224, R225): a busy die is never read, be it for a decode that
failed or for a member; the positions `sent` are still outstanding, those of `have_` decoded, and those of `failed` have failed
their hard decode. Positions that the cap refuses wait at their dies. -/
def enterSlow (rd : ReadId) (pfa q : Nat) (failed sent have_ : List Nat) (f : Fetch) (s : State) : State :=
  let rest := (List.range 9).filter fun p => !failed.contains p && !have_.contains p
  let lost := rest.filter fun p => !sent.contains p && slowOut s pfa q p
  let waiting := rest.filter fun p => !lost.contains p
  let new := waiting.filter fun p => !sent.contains p
  let soft := failed.filter fun p => !slowOut s pfa q p
  let s := bumpFill rd 4 s
  let s := if new.any fun p => capRefuses s f.latency pfa p then bumpFill rd 6 s else s
  let s := sendReads rd pfa f.latency (softShift 1) soft (sendReads rd pfa f.latency 0 new s)
  slowDecide rd pfa q (soft.map fun p => (p, 0)) waiting (lost ++ failed.filter fun p => !soft.contains p)
    { f with outcome := 5 } s

/-- Issue a media read of a codeword: direct, around one missing codeword, or the slow path (R222, R224). -/
def issueMedia (rd : ReadId) (pfa : Nat) (f : Fetch) (s : State) : State :=
  let q := lineOfRead s rd % 16 / 2
  if !missing s f.latency pfa q then
    bumpFill rd 0 (sendReads rd pfa f.latency 0 [q] (setFetch rd { f with stage := .direct pfa q, outcome := 2 } s))
  else if (otherPos q).all fun p => !missing s f.latency pfa p then
    bumpFill rd (if dieOut s pfa q then 1 else 2)
      (sendReads rd pfa f.latency 0 (otherPos q) (setFetch rd { f with stage := .around pfa q (otherPos q) false, outcome := 3 } s))
  else enterSlow rd pfa q [] [] [] f s

/-- A direct read's decode has failed: the same eight reads at once, or the slow path when another codeword is missing too
(R222, R224). -/
def reconstruct (rd : ReadId) (pfa q : Nat) (f : Fetch) (s : State) : State :=
  if (otherPos q).all fun p => !missing s f.latency pfa p then
    sendReads rd pfa f.latency 0 (otherPos q)
      (setFetch rd { f with stage := .around pfa q (otherPos q) true, outcome := 4 } s)
  else enterSlow rd pfa q [q] [] [] f s

/-- A hard decode of a position has ended (R222 to R225). -/
def decodeDone (rd : ReadId) (pos : Nat) (good : Bool) (f : Fetch) (s : State) : State :=
  match f.stage with
  | .direct pfa q => if good then mediaReady rd pfa q false f s else reconstruct rd pfa q f s
  | .around pfa q w df =>
    let w' := w.filter (· != pos)
    if good then
      if w'.isEmpty then mediaReady rd pfa q true f (if df then bumpFill rd 3 (bumpFillHealth rd 1 s) else s)
      else setFetch rd { f with stage := .around pfa q w' df } s
    else enterSlow rd pfa q (if df then [q, pos] else [pos]) w' ((otherPos q).filter fun p => !w.contains p) f s
  | .slow pfa q soft w lost =>
    let w' := w.filter (· != pos)
    if good then slowDecide rd pfa q soft w' lost f s
    else if slowOut s pfa q pos then slowDecide rd pfa q soft w' (lost ++ [pos]) f s
    else slowDecide rd pfa q (soft ++ [(pos, 0)]) w' lost f (sendReads rd pfa f.latency (softShift 1) [pos] s)
  | _ => s

/-- A soft decode of a position has ended (R225, R311): success moves every trim one step towards its shift, the sixth failure leaves
the codeword missing. -/
def softDone (rd : ReadId) (pos n : Nat) (good : Bool) (f : Fetch) (s : State) : State :=
  match f.stage with
  | .slow pfa q soft w lost =>
    let rest := soft.filter fun p => p.1 != pos
    if good then
      let d : Int := if 0 < softShift (n + 1) then 1 else -1
      slowDecide rd pfa q rest w lost f (stepTrims (groupOf pfa) d d d s)
    else if 6 ≤ n + 1 ∨ slowOut s pfa q pos = true then slowDecide rd pfa q rest w (lost ++ [pos]) f s
    else slowDecide rd pfa q (rest ++ [(pos, n + 1)]) w lost f (sendReads rd pfa f.latency (softShift (n + 2)) [pos] s)
  | _ => s

/-! ### Internal reads (R221) -/

/-- An internal fetch before its read. -/
def Fetch.start : Fetch := { stage := .ready, data := 0, poison := false, latency := false, outcome := 0 }

/-- A new internal read of a front line's codeword, at BULK priority, with its number. -/
def addIRead (u : ReadUse) (line : Nat) (st : FillStage) (s : State) : ReadId × State :=
  (.internal s.front.nextRead,
   { s with front := { s.front with
       ireads := tput s.front.ireads s.front.nextRead { Fetch.start with stage := st, use_ := u, line := line },
       nextRead := s.front.nextRead + 1 } })

/-- Read a codeword of a frame on the medium. -/
def readMedia (u : ReadUse) (pfa line : Nat) (s : State) : State :=
  let r := addIRead u line .blocked s
  issueMedia r.1 pfa { Fetch.start with stage := .blocked } r.2

/-- Read a whole frame: its 16 data codewords (R217, R258). -/
def readFrame (u : ReadUse) (lfa pfa : Nat) (s : State) : State :=
  (List.range 16).foldl (fun s i => readMedia u pfa (16 * lfa + i) s) s

/-- The internal reads of a use. -/
def readsOf (s : State) (u : ReadUse) : List (Nat × IRead) := s.front.ireads.filter fun p => p.2.use_ == u

/-- Every internal read of a use has its data. -/
def readsDone (s : State) (u : ReadUse) : Bool := (readsOf s u).all fun p => p.2.stage == .ready

/-- Front lines of a frame whose internal read was uncorrectable. -/
def readsBad (s : State) (u : ReadUse) : BitVec 16 :=
  (readsOf s u).foldl (fun m p => if p.2.poison then m ||| (1#16 <<< (p.2.line % 16)) else m) 0

/-- The internal reads of a use leave. -/
def dropReads (u : ReadUse) (s : State) : State :=
  (readsOf s u).foldl (fun s p =>
    endReads (.internal p.1) { s with front := { s.front with ireads := tdel s.front.ireads p.1 } }) s

end Sys2Proof.Machine
end

