-- ==== Sys2Proof/Machine/FrontOps.lean ====
section
/-!
DEFINITION. Operations of the front cache and of responses: lookups, victim searches, stores, gathers and commits
(04_front_cache.md), and the completion of requests (02_host_ports.md R68 to R73, 03_tenants_and_flow_queues.md R127).
-/
namespace Sys2Proof.Machine

/-! ### Responses (R68, R73, R127) -/

/-- A device-wide condition of the last row of Table 2-3. -/
def deviceSevere (s : State) : Bool := s.place.cap != .normal || s.front.mode != .writeBack

/-- DevLoad of a request that entered no flow queue (R73). -/
def plainLoad (s : State) : Nat := if deviceSevere s then 3 else 0

/-- A message tag, its TAG_GEN and PRI, kept as one number while the owner serves the request (R419). -/
def packTag (tag gen : Nat) (pri : Bool) : Nat := tag + 65536 * (gen + 16 * b2n pri)

/-- Bits [7:0] of the active epoch (Table 12-3 EPOCH_TAG). -/
def epochTag (s : State) : Nat := s.ten.epochA % 256

/-- Send a response towards the source of a request (R68, R403): a head's S2M channel, a DATA or CMP message on VC6, or a
bulk engine. DEVLOAD_EN 0 reads Light Load (Table 2-7). -/
def reply (src : Src) (rtag : Nat) (isData : Bool) (data : HostLine) (poison : Bool) (status load addr : Nat) (s : State) :
    State :=
  match src with
  | .head h =>
    let x := headOf s h
    let r : S2M :=
      { rtag := rtag, isData := isData, data := data, poison := poison, devload := if x.devloadEn then load else 0 }
    setHead h { x with s2m := x.s2m ++ [r] } s
  | .fabric d =>
    let m : FabMsg :=
      { kind := if isData then .data else .cmp, vc := 6, dst := d, src := s.fabric.devId, tag := rtag % 65536,
        gen := rtag / 65536 % 16, status := status, poison := poison, devload := load, eng := false, resend := false,
        pri := rtag / 1048576 % 2 == 1, epoch := epochTag s, addr := addr, be := 0,
        data := if status = 0 then data else 0 }
    originate m s
  | .engine e =>
    let r : S2M := { rtag := rtag, isData := isData, data := data, poison := poison, devload := load }
    { s with eng := { s.eng with resp := s.eng.resp ++ [(e, status, r)] } }

/-- Releases whose earlier transactions have all completed complete (R78); one with a remote owner is then Assigned. -/
def checkReleases (s : State) : State :=
  let busy : Nat → Bool := fun e => s.ten.reqs.any fun p => extentOf p.2.addr == e
  let done := s.ten.releaseWait.filter fun p => !busy p.1
  let s := { s with ten := { s.ten with releaseWait := s.ten.releaseWait.filter fun p => busy p.1 } }
  done.foldl (fun s p =>
    let s := if (extOf s p.1).ownerDev != 0xFFF then setEState p.1 .assigned s else s
    if s.ten.releaseWait.any fun q => q.2 == p.2 then s else completeWaiting p.2 0x4803 .success .none s) s

/-- Whether a request is a write. -/
def ReqOp.isWrite : ReqOp → Bool
  | .wr => true
  | .wrPtl => true
  | _ => false

/-- Complete a request: its tag is freed, the response is sent unless none is due, and the completion is counted (R68, R99,
R556, R560). `status` is that of Table 12-5, `outcome` that of Table 19-3. -/
def finish (tag : Nat) (data : HostLine) (poison : Bool) (status outcome : Nat) (s : State) : State :=
  match tfind s.ten.reqs tag with
  | none => s
  | some r =>
    let s := { s with ten := { s.ten with reqs := tdel s.ten.reqs tag } }
    -- a parity error on read data towards a head or port (R32): poison, and nothing stored changes
    let bad := r.badData && !r.op.isWrite
    let unit := match r.src with
      | .head h => 0x020 + h
      | _ => 0x030
    let s := if bad then raiseParity unit 1 r.addr s else s
    let poison := poison || bad
    let s := showCompletion tag (if poison && !r.op.isWrite then 9 else outcome) r s
    let s := if r.op = .specRd then s
      else if r.op.isWrite then (if outcome = 8 then s else countReq 0x0003 64 r s)
      else
        let s := countReq 0x0002 64 r s
        if poison then countReq 0x000A 1 r s else s
    let s := match r.loc with
      | .remote _ => if r.op = .specRd then s else meterLive r.tenant (fun m => { m with remote := m.remote + 64 }) s
      | .denied => s
      | _ =>
        if r.op.isWrite || r.op == .specRd then s
        else meterLive r.tenant (fun m => { m with bytesRead := m.bytesRead + 64 }) s
    let s := if r.quiet || r.op == .specRd then s
      else
        let s := if r.op.isWrite then s
          else match r.src with
            | .head h => countEvent 0x0051 64 { EvAttr.bare with head := some h } s
            | _ => s
        reply r.src r.rtag (!r.op.isWrite) data poison status r.devload r.addr s
    checkReleases s

/-- Change a request. -/
def modReq (tag : Nat) (f : Req → Req) (s : State) : State :=
  match tfind s.ten.reqs tag with
  | none => s
  | some r => { s with ten := { s.ten with reqs := tput s.ten.reqs tag (f r) } }

/-- A write is accepted and not discarded (R71): counted as BYTES_WRITTEN. -/
def countWritten (r : Req) (s : State) : State :=
  meterLive r.tenant (fun m => { m with bytesWritten := m.bytesWritten + 64 }) s

/-! ### Lines (R144 to R150) -/

/-- An Invalid line (Table 4-2 reset values). -/
def Line.fresh : Line :=
  { tag := 0, tenant := 0, st := .invalid, age := 3, poison := false, dirtyHl := 0, valid := 0,
    data := 0, excluded := false, part := 0 }

/-- A line by its directory index. -/
def lineAt (s : State) (i : Nat) : Line := tget s.front.lines i Line.fresh

/-- Put back a line. -/
def putLine (i : Nat) (l : Line) (s : State) : State :=
  { s with front := { s.front with lines := tset s.front.lines i l Line.fresh } }

/-- Allocate a line for a front line number; no maintenance operation that was accepted before acts on it (R177). -/
def allocLine (i key : Nat) (l : Line) (s : State) : State :=
  let forget := fun (m : Maint) => { m with lines := m.lines.filter (· != key) }
  putLine i l { s with front := { s.front with maint := s.front.maint.map forget } }

/-- Set of a front line number (R145). -/
def setOfLine (key : Nat) : Nat := 16 * (key / 16 % 1536) + key % 16

/-- Directory index of a front line, if present (R145, R151). -/
def findLine (s : State) (key : Nat) : Option Nat :=
  ((List.range 16).map fun w => 16 * setOfLine key + w).find? fun i =>
    (lineAt s i).st != .invalid && (lineAt s i).tag == key / 16

/-- Front line number of a line at an index. -/
def keyOfLine (i : Nat) (l : Line) : Nat := 16 * l.tag + i / 16 % 16

/-- Whether a line counts as dirty (Table 4-3). -/
def countsDirty (l : Line) : Bool :=
  match l.st with
  | .dirty | .cleaning | .cleaningRewritten => true
  | .fillPending => l.dirtyHl != 0
  | _ => false

/-- Dirty occupancy in lines (Table 4-3). -/
def dirtyLines (s : State) : Nat := (s.front.lines.filter fun p => countsDirty p.2).length

/-- Dirty budget in lines (R161). -/
def budgetLines (s : State) : Nat := s.front.budget * 4096

/-- Lines of a frame that are present: front line and index. -/
def frameLines (s : State) (lfa : Nat) : List (Nat × Nat) :=
  (List.range 16).filterMap fun f => (findLine s (16 * lfa + f)).map fun i => (f, i)

/-- Whether a frame has a line that counts as dirty. -/
def frameDirty (s : State) (lfa : Nat) : Bool := (frameLines s lfa).any fun p => countsDirty (lineAt s p.2)

/-- Keep the time a frame first became dirty, in 64 µs (R164). -/
def noteDirty (lfa : Nat) (s : State) : State :=
  if frameDirty s lfa then
    if (tfind s.front.dirtyAt lfa).isSome then s
    else { s with front := { s.front with dirtyAt := tput s.front.dirtyAt lfa (s.time.mono / 64000) } }
  else { s with front := { s.front with dirtyAt := tdel s.front.dirtyAt lfa, urgent := s.front.urgent.filter (· != lfa) } }

/-- Mark a frame for urgent cleaning (R164). -/
def markUrgent (lfa : Nat) (s : State) : State :=
  if s.front.urgent.contains lfa then s else { s with front := { s.front with urgent := s.front.urgent ++ [lfa] } }

/-- Every frame with dirty lines is cleaned at urgent priority (R171, Table 4-7). -/
def urgentAll (s : State) : State := s.front.dirtyAt.foldl (fun s p => markUrgent p.1 s) s

/-- Invalidate a line without writing it (R178). -/
def dropLine (i : Nat) (s : State) : State :=
  let l := lineAt s i
  let s := putLine i { Line.fresh with excluded := l.excluded } s
  noteDirty l.tag s

/-! ### Victim search (R159) -/

/-- Ways of a set that a mask allows. -/
def maskWays (set : Nat) (m : W16) : List Nat :=
  ((List.range 16).filter fun w => m.getLsbD w).map fun w => 16 * set + w

/-- Ways of a set that are Invalid and not excluded, or Clean (R162). -/
def freeWays (s : State) (set : Nat) (m : W16) : Nat :=
  ((maskWays set m).filter fun i =>
    let l := lineAt s i
    (l.st == .invalid && !l.excluded) || l.st == .clean).length

/-- Passes of a victim search: nominations first, then the lowest clean way of age 3, then every age below 3 rises. -/
def victimPasses (ways : List Nat) : Nat → State → Option Nat × State
  | 0, s => (none, s)
  | n + 1, s =>
    let nominated := ways.filter fun i => (lineAt s i).age == 3 && countsDirty (lineAt s i)
    let s := nominated.foldl (fun s i => markUrgent (lineAt s i).tag s) s
    match ways.find? fun i => (lineAt s i).st == .clean && (lineAt s i).age == 3 with
    | some i => (some i, s)
    | none =>
      victimPasses ways n (ways.foldl (fun s i =>
        if (lineAt s i).age < 3 then putLine i { lineAt s i with age := (lineAt s i).age + 1 } s else s) s)

/-- A victim search in a set with allowed ways (R159). -/
def victimSearch (set : Nat) (m : W16) (s : State) : Option Nat × State :=
  match (maskWays set m).find? fun i => (lineAt s i).st == .invalid && !(lineAt s i).excluded with
  | some i => (some i, s)
  | none => victimPasses (maskWays set m) 4 s

/-- Way mask of a partition (R157). -/
def partMask (s : State) (p : Nat) : W16 := s.front.masks.getD p 0xFFFF

/-- AGE of a line allocated or filled for a request (R160). -/
def allocAge (r : Req) : Nat := if r.stream || r.cls == 3 || (r.cls == 1 && !r.op.isWrite) then 3 else 0

/-! ### Fills (R151, R152, R213) -/

/-- Channels on which a fill's DRAM read is queued: of its map entry, or of its codeword (R213, R218). -/
def readChans (s : State) (p : Nat × Miss) : List Nat :=
  match p.2.stage with
  | .mapRead => [mapChan s p.2.copyB (p.1 / 16)]
  | .back n _ => slotChans s n
  | _ => []

/-- DRAM reads queued at the channel of a copy's entry (R213). -/
def mapQueue (s : State) (copyB : Bool) (lfa : Nat) : Nat :=
  (s.front.miss.filter fun p => (readChans s p).contains (mapChan s copyB lfa)).length

/-- The copy an entry is read from: the shorter queue, copy A when equal; a copy whose bank refreshes counts as the longer (R213, R370). -/
def chooseCopy (s : State) (lfa : Nat) : Bool :=
  if !copyUp s false lfa then true
  else if !copyUp s true lfa then false
  else
    let busy := fun (b : Bool) => refreshing s (mapChan s b lfa) ((entryLoc s b lfa).bank % 4)
    if busy false != busy true then busy false else decide (mapQueue s true lfa < mapQueue s false lfa)

/-- A maintenance walk in progress covers a front line, so that a new fill of it is held (R177). -/
def walkHolds (s : State) (key : Nat) : Bool :=
  s.front.maint.any fun m =>
    m.status == 0 && !m.walked && !m.fills.contains key && decide (m.start ≤ key * 256) && decide (key * 256 < m.start + m.len)

/-- Join a read to the miss-table entry of its front line, or allocate the entry (R151, R153). A line that becomes Fill-Pending is the
one that the fetch fills (R150, R152). -/
def joinMiss (key : Nat) (idx : Option Nat) (tag : Nat) (r : Req) (s : State) : State :=
  let s := modReq tag (fun r => { r with loc := .fill }) s
  match tfind s.front.miss key with
  | some m =>
    let m := { m with idx := idx.orElse fun _ => m.idx, waiters := if r.op = .specRd then m.waiters else m.waiters ++ [tag] }
    let s := { s with front := { s.front with miss := tput s.front.miss key m } }
    if r.op = .specRd then finish tag 0 false 0 0 s else s
  | none =>
    let m : Miss :=
      { idx := idx, waiters := [tag], stage := if walkHolds s key then .held else .mapRead,
        copyB := chooseCopy s (key / 16), second := false, data := 0, poison := false, latency := r.cls == 0 || r.cls == 2,
        age := allocAge r, tenant := r.tenant, outcome := 0, newer := none }
    { s with front := { s.front with miss := tput s.front.miss key m } }

/-- A read that its front line answers at once: a hit, or a speculative read of a line with no fill (R151). -/
def readWhole (s : State) (r : Req) : Bool :=
  match findLine s (r.addr / 256) with
  | none => false
  | some i =>
    (lineAt s i).st != .fillPending &&
      (r.op == .specRd || (lineAt s i).valid.extractLsb' (64 * hostLineIn r.addr) 64 == BitVec.allOnes 64)

/-- Whether the front cache accepts a read (R153): it needs no miss-table entry, or there is room in its entry or in the table. -/
def readAccepted (s : State) (r : Req) : Bool :=
  readWhole s r ||
    (match tfind s.front.miss (r.addr / 256) with
     | some m => decide (m.waiters.length < 32)
     | none => decide (s.front.miss.length < 16384))

/-- A read hit: the host line, with the line's poison; AGE 0 (R151). -/
def readHit (i : Nat) (tag : Nat) (r : Req) (s : State) : State :=
  let l := lineAt s i
  let s := countReq 0x0004 1 r (putLine i { l with age := 0 } s)
  finish tag (getHostLine l.data (hostLineIn r.addr)) l.poison 0 0 s

/-- A request waits inside the front cache until something it needs is free (R159, R163). -/
def waitFront (tag : Nat) (s : State) : State :=
  let s := modReq tag (fun r => { r with loc := .stall }) s
  { s with front := { s.front with stalls := s.front.stalls ++ [(tag, s.time.mono)] } }

/-- A dispatched read looks up its front line (R151, Table 4-7). DEDUCED (log entry 206): a read miss that finds no victim waits, as
R159 says of any request; it counts as no write stall of R163. -/
def frontRead (tag : Nat) (r : Req) (s : State) : State :=
  let key := r.addr / 256
  if s.front.mode = .off then joinMiss key none tag r s
  else
    match findLine s key with
    | some i =>
      let l := lineAt s i
      if r.op = .specRd ∧ l.st ≠ .fillPending then finish tag 0 false 0 0 s
      else if l.st = .fillPending then joinMiss key (some i) tag r s
      else if l.valid.extractLsb' (64 * hostLineIn r.addr) 64 = BitVec.allOnes 64 then readHit i tag r s
      else if (l.st = .clean ∨ l.st = .dirty) ∧ s.front.mode ≠ .draining then
        joinMiss key (some i) tag r (putLine i { l with st := .fillPending, age := 0 } s)
      else joinMiss key none tag r s
    | none =>
      if s.front.mode = .draining then joinMiss key none tag r s
      else if (tfind s.front.miss key).isSome then joinMiss key none tag r s
      else
        let v := victimSearch (setOfLine key) (partMask s r.part) s
        match v.1 with
        | none => waitFront tag v.2
        | some i =>
          let l : Line := { Line.fresh with tag := key / 16, tenant := r.tenant, st := .fillPending, age := allocAge r,
                                            part := r.part }
          joinMiss key (some i) tag r (allocLine i key l v.2)

/-! ### Writes (R154, R155, R162, R163) -/

/-- LSTATE after a write (R154). -/
def writeState : LState → LState
  | .invalid => .dirty | .clean => .dirty | .dirty => .dirty | .fillPending => .fillPending
  | .cleaning => .cleaningRewritten | .cleaningRewritten => .cleaningRewritten

/-- Store bytes into a line (R147, R154): VALID and DIRTY_HL follow; all 256 bytes clear POISON, a poisoned write sets it. -/
def storeBytes (i : Nat) (data : FrontLine) (m : ByteMask) (hl : BitVec 4) (poison : Option PoisonSrc) (s : State) : State :=
  let l := lineAt s i
  let l := { l with data := blendLine l.data data m, valid := l.valid ||| m, dirtyHl := l.dirtyHl ||| hl,
                    st := writeState l.st, poison := l.poison && m != BitVec.allOnes 256 }
  let l := match poison with
    | some _ => { l with poison := true }
    | none => l
  let s := match poison with
    | some p => notePoison (keyOfLine i l) p s
    | none => s
  noteDirty l.tag (putLine i l s)

/-- Poison that a write brings: its own is External, that of bad bytes Internal (R81, R82, R32). -/
def reqPoison (r : Req) : Option PoisonSrc :=
  if r.poison then some .external else if r.badData then some .internal else none

/-- Bytes and poison that a write request stores; a full write enables every byte. -/
def storeReq (i : Nat) (r : Req) (s : State) : State :=
  let h := hostLineIn r.addr
  storeBytes i (placeHostLine r.data h) (enableMask r.be h) (1#4 <<< h) (reqPoison r) s

/-- A new frame number, FM_WSEQ and all (R243). -/
def takeWseq (s : State) : Nat × State := (s.map.nextWseq, { s with map := { s.map with nextWseq := s.map.nextWseq + 1 } })

/-- Add a frame in assembly. -/
def addAsm (a : Asm) (s : State) : State :=
  { s with front := { s.front with asms := tput s.front.asms s.front.nextAsm a, nextAsm := s.front.nextAsm + 1 } }

/-- A tenant's key slot has been destroyed (Table 3-8): writes past the classifier complete with Cmp and are discarded. -/
def slotErased (s : State) (t : Nat) : Bool :=
  match (tenantOf s t).slot with
  | none => true
  | some k => tget s.ten.slots k .empty == .erased

/-- Byte mask of a front line at its place in a frame. -/
def frameMask (m : ByteMask) (f : Nat) : BitVec 4096 := m.setWidth 4096 <<< (256 * f)

/-- Front lines of an assembly that still lack bytes (R166). -/
def lacking (a : Asm) : List Nat :=
  (List.range 16).filter fun f => a.have_.extractLsb' (256 * f) 256 != BitVec.allOnes 256

/-- An earlier assembly of the same frame is not committed yet. -/
def asmEarlier (s : State) (id lfa : Nat) : Bool := s.front.asms.any fun p => decide (p.1 < id) && p.2.lfa == lfa

/-- The internal read of a front line that a merge needs, by the map state (R166). -/
def mergeRead (id lfa f : Nat) (e : MapEnt) (s : State) : State :=
  match e.st with
  | .media => readMedia (.merge id) e.loc (16 * lfa + f) s
  | .back =>
    match tfind s.back.slots e.loc with
    | some x => (addIRead (.merge id) (16 * lfa + f) (.back e.loc x.pfa) s).2
    | none => s
  | _ => s

/-- Issue the merge reads of a frame, once (R166): they wait for an earlier assembly of the frame, a LOCKED entry and an affected
extent. -/
def startMerge (id : Nat) (s : State) : State :=
  match tfind s.front.asms id with
  | none => s
  | some a =>
    if !a.merging || a.begun || asmEarlier s id a.lfa || s.ten.affected.contains (extentOfLfa a.lfa) then s
    else
      match mapEntry s a.lfa with
      | none => s
      | some e =>
        if e.st = .locked then s
        else
          let s := { s with front := { s.front with asms := tput s.front.asms id { a with begun := true } } }
          (lacking a).foldl (fun s f => mergeRead id a.lfa f e s) s

/-- Issue the merge reads of every frame that no longer waits. -/
def startMerges (s : State) : State := (s.front.asms.map (·.1)).foldl (fun s id => startMerge id s) s

/-- A write that the frame engine merges into its frame and commits (Table 4-7 Off and Draining). -/
def mergeWrite (key tenant : Nat) (data : FrontLine) (m : ByteMask) (poison : Option Bool) (tag : Option Nat)
    (resolves : List (Nat × Nat × Nat)) (ccis : List (Nat × Nat)) (s : State) : State :=
  match tenantKey s tenant with
  | none => s
  | some k =>
    let w := takeWseq s
    let f := key % 16
    let full := m = BitVec.allOnes 256
    let bit : BitVec 16 := 1#16 <<< f
    startMerge w.2.front.nextAsm <| addAsm
      { kind := .merge tag, lfa := key / 16, tenant := tenant, keyGen := (tenantOf s tenant).keyGen, key := k,
        image := putFrontLine 0 f data, have_ := frameMask m f, cipher := none, lines := [],
        poisonSet := if poison = some true then bit else 0,
        poisonClr := if full ∧ poison ≠ some true then bit else 0,
        merging := true, begun := false, wseq := w.1, pfa := none, prio := 3, debit := 0, acks := tag.toList,
        resolves := resolves, ccis := ccis, limited := false, programming := false } w.2

/-- A write stored in the cache is acknowledged: at once in write-back mode, otherwise after the commit of its frame, which
is cleaned urgently (R71, R154, Table 4-7). -/
def ackWrite (tag : Nat) (r : Req) (s : State) : State :=
  let s := countWritten r s
  if s.front.mode = .writeBack then finish tag 0 false 0 0 s
  else markUrgent (lfaOf r.addr) (modReq tag (fun r => { r with loc := .commit }) s)

/-- A write waits in the front cache, counted (R163). -/
def stallWrite (tag : Nat) (r : Req) (s : State) : State :=
  let s := waitFront tag s
  let s := { s with front := { s.front with setStalls := s.front.setStalls + 1 } }
  meterLive r.tenant (fun m => { m with exceeded := m.exceeded + 1 }) (countReq 0x000C 1 r s)

/-- Room for one more dirty line (R161). -/
def budgetRoom (s : State) : Bool := s.front.mode != .writeBack || decide (dirtyLines s + 1 ≤ budgetLines s)

/-- A line for a write to a front line: the present one, or a newly allocated one, where the budget allows (R155, R161, R162). With none,
the state after its victim search, which has nominated lines and raised ages (R159). -/
def lineFor (key tenant part age : Nat) (s : State) : Option Nat × State :=
  match findLine s key with
  | some i => if countsDirty (lineAt s i) || budgetRoom s then (some i, putLine i { lineAt s i with age := 0 } s) else (none, s)
  | none =>
    if budgetRoom s then
      let v := victimSearch (setOfLine key) (partMask s part) s
      match v.1 with
      | none => v
      | some i => (some i, allocLine i key { Line.fresh with tag := key / 16, tenant := tenant, age := age, part := part } v.2)
    else (none, s)

/-- Store a write in the cache, if it finds a line; true when it does (R155, R161, R162). -/
def tryStore (r : Req) (s : State) : Bool × State :=
  let v := lineFor (r.addr / 256) r.tenant r.part (allocAge r) s
  match v.1 with
  | some i => (true, storeReq i r v.2)
  | none => (false, v.2)

/-- A write discarded in Write-Locked (R291): a MAP_POISON record, POISON of a present line, and event 300Bh, then Cmp. -/
def lockedDiscard (tag : Nat) (r : Req) (s : State) : State :=
  let key := r.addr / 256
  let s := commit (.mapPoison (key / 16) (1#16 <<< (key % 16))) s
  let s := notePoison key .internal s
  let s := match findLine s key with
    | some i => putLine i { lineAt s i with poison := true } s
    | none => s
  let s := raiseDpa 0x033 0x300B (256 * key)
    (match r.src with
     | .head h => h
     | _ => (extOf s (extentOf r.addr)).head) s
  finish tag 0 false 4 8 s

/-- A dispatched write (R154, R155, R162, R163, R291, Table 4-7). -/
def frontWrite (tag : Nat) (r : Req) (s : State) : State :=
  let key := r.addr / 256
  let hit := findLine s key
  let dirtyHit := match hit with
    | some i => countsDirty (lineAt s i)
    | none => false
  if slotErased s r.tenant then finish tag 0 false 0 8 s
  else if r.be = 0 ∧ r.badData = false then finish tag 0 false 0 0 (countWritten r s)
  else if s.place.cap = .writeLocked ∧ dirtyHit = false then
    -- its record waits for the staging area (R184, R250)
    if journalFull s then waitFront tag s else lockedDiscard tag r s
  else if s.front.mode = .off ∨ (s.front.mode = .draining ∧ hit.isNone) then
    let h := hostLineIn r.addr
    let m := enableMask r.be h
    let s := countWritten r (modReq tag (fun r => { r with loc := .commit }) s)
    let s := match reqPoison r with
      | some p => notePoison key p s
      | none => s
    mergeWrite key r.tenant (placeHostLine r.data h) m (if (reqPoison r).isSome then some true else none) (some tag) [] [] s
  else
    let v := tryStore r s
    if v.1 then ackWrite tag r v.2 else stallWrite tag r v.2

/-- Whether the front cache accepts a write at level 2 (R162). -/
def writeAccepted (s : State) (r : Req) : Bool :=
  let key := r.addr / 256
  if s.front.mode = .off ∨ s.front.mode = .draining then true
  else
    (s.front.mode != .writeBack || decide (100 * dirtyLines s < s.front.l2Limit * budgetLines s)) &&
      ((findLine s key).isSome || decide (2 ≤ freeWays s (setOfLine key) (partMask s r.part)))

/-! ### Frame assembly (R166 to R168) -/

/-- A frame is in assembly. -/
def inAssembly (s : State) (lfa : Nat) : Bool := s.front.asms.any fun p => p.2.lfa == lfa

/-- Bits of a 4-bit mask. -/
def pop4 (m : BitVec 4) : Nat := b2n (m.getLsbD 0) + b2n (m.getLsbD 1) + b2n (m.getLsbD 2) + b2n (m.getLsbD 3)

/-- Whether frame assembly may gather a frame: dirty, its tenant's key Loaded, its extent not affected, not in assembly, and
a place for it (R166, R262, R274). -/
def mayGather (s : State) (lfa : Nat) : Bool :=
  (frameLines s lfa).any (fun p => (lineAt s p.2).st == .dirty && (tenantKey s (lineAt s p.2).tenant).isSome) &&
    !s.ten.affected.contains (extentOfLfa lfa) && !inAssembly s lfa && (chooseSet s 1).isSome

/-- The bytes that a frame's present lines give (R166). -/
def gatherImage (s : State) (lfa : Nat) : FrameData × BitVec 4096 :=
  (frameLines s lfa).foldl (fun a p =>
    let l := lineAt s p.2
    (putFrontLine a.1 p.1 (blendLine 0 l.data l.valid), a.2 ||| frameMask l.valid p.1)) (0, 0)

/-- Put a placed frame into its die set's busy slot. -/
def queueAsm (id : Nat) (s : State) : State :=
  match tfind s.front.asms id with
  | none => s
  | some a =>
    match a.pfa with
    | none => s
    | some p =>
      addWork (dieSetOf (groupOf p)) { prio := a.prio, kind := .frame id }
        { s with front := { s.front with asms := tput s.front.asms id { a with programming := true } } }

/-- Role of the group an assembled frame goes to (R274). -/
def asmRole (a : Asm) : Nat :=
  match a.kind with
  | .copy .. => 2
  | _ => 1

/-- Place an assembled frame, if a group of its role can take it and the records of opening and closing groups can be staged (R184,
R250, R274). -/
def placeAsm (id : Nat) (s : State) : State :=
  match tfind s.front.asms id with
  | none => s
  | some a =>
    if journalFull s then s
    else
      match place (asmRole a) s with
      | none => s
      | some (p, s) =>
        queueAsm id { s with front := { s.front with asms := tput s.front.asms id { a with pfa := some p, merging := false } } }

/-- Mark front lines of a frame poisoned: the cached lines, with source Internal (R32, R166). -/
def poisonFront (lfa : Nat) (m : BitVec 16) (s : State) : State :=
  ((List.range 16).filter fun f => m.getLsbD f).foldl (fun s f =>
    let s := notePoison (16 * lfa + f) .internal s
    match findLine s (16 * lfa + f) with
    | some i => putLine i { lineAt s i with poison := true } s
    | none => s) s

/-- Parity of the front lines on their way to the frame engine (R32 row 3): each detection is posted; lines whose error repeats after
the re-read are marked poisoned, and the rest of the frame is programmed. -/
def asmParity (a : Asm) (parity again : BitVec 16) (s : State) : Asm × State :=
  let s := if parity = 0 then s else raiseParity 0x035 3 (a.lfa * 4096) s
  let bad := parity &&& again
  if bad = 0 then (a, s)
  else
    ({ a with poisonSet := a.poisonSet ||| bad, poisonClr := a.poisonClr &&& ~~~ bad },
     poisonFront a.lfa bad (raiseParity 0x035 3 (a.lfa * 4096) s))

/-- Gather a frame (R166): its Dirty lines become Cleaning; a frame that lacks no byte is placed (R274). `parity` and `again` name the
front lines with a parity error, and those whose error repeats (R32). -/
def gather (lfa prio : Nat) (limited : Bool) (parity again : BitVec 16) (s : State) : State :=
  let ls := frameLines s lfa
  let dirty := ls.filter fun p => (lineAt s p.2).st == .dirty
  match dirty with
  | [] => s
  | (_, i0) :: _ =>
    let t := (lineAt s i0).tenant
    match tenantKey s t with
    | none => s
    | some k =>
      let img := gatherImage s lfa
      let debit := ((dirty.map fun p => pop4 (lineAt s p.2).dirtyHl).sum) * 64
      let acks := (s.ten.reqs.filter fun p => p.2.loc == .commit && lfaOf p.2.addr == lfa).map (·.1)
      let res := (s.front.stored.filter fun p => p.1 == lfa).map (·.2)
      let s := dirty.foldl (fun s p => putLine p.2 { lineAt s p.2 with st := .cleaning } s) s
      let w := takeWseq { s with front := { s.front with
        urgent := s.front.urgent.filter (· != lfa), stored := s.front.stored.filter fun p => p.1 != lfa } }
      let id := w.2.front.nextAsm
      let a : Asm :=
        { kind := .clean, lfa := lfa, tenant := t, keyGen := (tenantOf s t).keyGen, key := k, image := img.1, have_ := img.2,
          cipher := none, lines := dirty.map (·.2), poisonSet := 0, poisonClr := 0,
          merging := img.2 != BitVec.allOnes 4096, begun := false, wseq := w.1, pfa := none, prio := prio, debit := debit,
          acks := acks, resolves := res, ccis := [], limited := limited, programming := false }
      if a.merging then startMerge id (addAsm a w.2)
      else
        let r := asmParity a parity again w.2
        placeAsm id (addAsm r.1 r.2)

/-- Fill the missing bytes of an assembly from its merge reads (R166); a frame that is unmapped or trimmed gives zeros. -/
def mergeImage (id : Nat) (a : Asm) (s : State) : Asm :=
  let old := fun (f : Nat) => (((readsOf s (.merge id)).find? fun p => p.2.line % 16 == f).map fun p => p.2.data).getD 0
  let fill := (lacking a).foldl (fun img f =>
    putFrontLine img f (blendLine (old f) (getFrontLine img f) (a.have_.extractLsb' (256 * f) 256))) a.image
  { a with image := fill, have_ := BitVec.allOnes 4096, poisonSet := a.poisonSet ||| readsBad s (.merge id) }

/-- LINE_POISON at a commit (R167): by the cached line, and for a front line without one that is whole the bit it had, set by an
uncorrectable merge read and cleared by a write of all its bytes (R181). -/
def commitPoison (s : State) (a : Asm) (old : BitVec 16) : BitVec 16 :=
  (List.range 16).foldl (fun m f =>
    let prior := a.poisonSet.getLsbD f || (old.getLsbD f && !a.poisonClr.getLsbD f)
    let bit := match findLine s (16 * a.lfa + f) with
      | some i =>
        if (lineAt s i).poison then true else if (lineAt s i).valid = BitVec.allOnes 256 then false else prior
      | none => prior
    if bit then m ||| (1#16 <<< f) else m) 0

/-- Size of the back-cache region in bytes (R215). -/
def backRegion (s : State) : Nat :=
  let inst := ((List.range 8).map fun c => ((dramOf s c).dimms.map (·.gib)).sum).sum * 2 ^ 30
  inst - (if s.map.mirror then 2 else 1) * (s.map.extents * 2097152)

/-- N, the number of back-cache slots (R215). -/
def backSlots (s : State) : Nat := backRegion s / 4112

/-- The channels of a slot's data and directory entry are in service. -/
def slotUp (s : State) (n : Nat) : Bool := !((slotChans s n).any (dramOut s)) && !dramOut s (dirChan s n)

/-- The lowest Free slot whose channels are in service. -/
def freeSlot (s : State) : Option Nat :=
  let listed := s.back.slots.length
  (List.range (min (backSlots s) (listed + 2049))).find? fun n =>
    (match tfind s.back.slots n with
     | none => true
     | some x => x.st == .free) &&
    slotUp s n

/-- Install a frame (R217): the entry becomes BACK if it still holds the PFA. With no Free slot the install is skipped and the sweep
is asked to evict. -/
def backInstall (lfa pfa tenant : Nat) (d : Cipher) (s : State) : State :=
  match freeSlot s with
  | none => { s with back := { s.back with wanted := true } }
  | some n =>
    match mapEntry s lfa with
    | none => s
    | some e =>
      if e.st = .media ∧ e.loc = pfa then
        let x : Slot :=
          { lfa := lfa, pfa := pfa, tenant := tenant, quarantine := 0, ref := false, st := .valid, data := d,
            pinned := false, deferred := false }
        postEntry lfa { e with st := .back, loc := n }
          { s with back := { s.back with slots := tput s.back.slots n x, installs := s.back.installs + 1 } }
      else s

/-- Remove an assembly with its internal reads. -/
def dropAsm (id : Nat) (s : State) : State :=
  dropReads (.merge id) (dropReads (.copy id) { s with front := { s.front with asms := tdel s.front.asms id } })

/-- A frame with dirty lines stays at urgent priority: outside write-back mode (Table 4-7), while its tenant's unload waits (R179), and
while a write waits for its commit (R71). -/
def keepUrgent (lfa : Nat) (s : State) : State :=
  let owed := s.front.mode != .writeBack ||
    (s.front.unloads.any fun u => (frameLines s lfa).any fun p => (lineAt s p.2).tenant == u.1) ||
    (s.ten.reqs.any fun p => p.2.loc == .commit && lfaOf p.2.addr == lfa)
  if frameDirty s lfa && owed then markUrgent lfa s else s

/-- A committed frame's lines: Cleaning becomes Clean, Cleaning-Rewritten becomes Dirty (R166). -/
def settleLines (a : Asm) (s : State) : State :=
  let s := a.lines.foldl (fun s i =>
    let l := lineAt s i
    if l.tag != a.lfa then s
    else if l.st = .cleaning then putLine i { l with st := .clean, dirtyHl := 0 } s
    else if l.st = .cleaningRewritten then putLine i { l with st := .dirty } s
    else s) s
  keepUrgent a.lfa (noteDirty a.lfa { s with front := { s.front with dirtyAt := tdel s.front.dirtyAt a.lfa } })

/-- Bytes of the host lines that a mask names. -/
def dirtyBytes (m : BitVec 4) : ByteMask :=
  (List.range 4).foldl (fun x i => if m.getLsbD i then x ||| hostMask i else x) 0

/-- A commit reaches the fetches of the frame that read an older entry, and, for a merged write, the cached lines of the frame: a read
after Cmp returns the write's data (R72). Host lines written since keep their bytes. -/
def refresh (a : Asm) (po : BitVec 16) (s : State) : State :=
  let miss := tmap s.front.miss fun k m =>
    if k / 16 = a.lfa ∧ m.stage ≠ .mapRead ∧ m.stage ≠ .held ∧ m.stage ≠ .blocked then
      { m with newer := some (getFrontLine a.image (k % 16), po.getLsbD (k % 16)) } else m
  let s := { s with front := { s.front with miss := miss } }
  match a.kind with
  | .merge _ =>
    (frameLines s a.lfa).foldl (fun s p =>
      let l := lineAt s p.2
      putLine p.2 { l with data := blendLine (getFrontLine a.image p.1) l.data (dirtyBytes l.dirtyHl ||| ~~~ l.valid) } s) s
  | _ => s

/-- Drain bucket credit up to now: the tenant's WR RES_BW, capped at COALESCE + 1 ms of it (R164). -/
def drainCredit (s : State) (t : TenantSt) : Int :=
  let bw : Nat := (t.qosA.w20.toNat / 2 ^ 32) % 65536
  let cap : Int := (16 * bw * (s.front.coalesce + 1000) * 1000 : Nat)
  min cap (t.drainLevel + (16 * bw * (s.time.mono - t.drainAt) : Nat))

/-- Credit every drain bucket up to now, as before and after a change of WR RES_BW or COALESCE (R164). -/
def creditDrains (s : State) : State :=
  let ts := tmap s.ten.tenants fun _ x => { x with drainLevel := drainCredit s x, drainAt := s.time.mono }
  { s with ten := { s.ten with tenants := ts } }

/-- Debit a tenant's drain bucket for a cleaned frame (R164). -/
def debitDrain (t bytes : Nat) (s : State) : State :=
  let x := tenantOf s t
  setTenant t { x with drainLevel := drainCredit s x - 1000 * bytes, drainAt := s.time.mono } s

/-- Commit an assembled host frame (R166, R167, R240): MAP_SET, the frame on the medium, the install, the lines, then every
acknowledgement that waited. -/
def commitAsm (id : Nat) (s : State) : State :=
  match tfind s.front.asms id with
  | none => s
  | some a =>
    match a.pfa with
    | none => s
    | some p =>
      let old : BitVec 16 := match mapEntry s a.lfa with
        | some e => e.poison
        | none => 0
      let po := commitPoison s a old
      let fr : MFrame :=
        { lfa := a.lfa, wseq := a.wseq, tenant := a.tenant, keyGen := a.keyGen, poison := po, origin := 0, source := 0,
          data := sealFrame a.key a.lfa a.image }
      let s := commit (.mapSet a.lfa { st := .media, poison := po, loc := p } a.wseq a.tenant) s
      let s := { s with map := { s.map with frames := tput s.map.frames p fr } }
      let s := if s.back.onCommit then backInstall a.lfa p a.tenant fr.data s else s
      let s := settleLines a (refresh a po (dropAsm id s))
      let s := debitDrain a.tenant a.debit s
      let s := { s with place := { s.place with progFrames := s.place.progFrames + 1, hostFrames := s.place.hostFrames + 1 } }
      let s := countEvent 0x0030 1 { EvAttr.bare with tenant := some a.tenant } s
      let s := meterLive a.tenant (fun m => { m with frames := m.frames + 1 }) s
      let s := a.resolves.foldl (fun s r => commit (.imageResolved r.1 r.2.1 (2 ^ r.2.2)) s) s
      let s := a.acks.foldl (fun s t => finish t 0 false 0 0 s) s
      startMerges (a.ccis.foldl (fun s c => completeWaiting c.1 c.2 .success .none s) s)

end Sys2Proof.Machine
end

