-- ==== Sys2Proof/Machine/ReadPath.lean ====
section
/-!
DEFINITION. Read path and back cache (06_read_path_and_latency_bounds.md): fills by map state, promotion, eviction, and the two
commands of the chapter.
-/
namespace Sys2Proof.Machine

/-! ### Fill steps -/

/-- Put back a miss-table entry. -/
def setMiss (key : Nat) (m : Miss) (s : State) : State :=
  { s with front := { s.front with miss := tput s.front.miss key m } }

/-- A fill takes a stage and an OUTCOME. -/
def setStage (key : Nat) (st : FillStage) (outcome : Nat) (m : Miss) (s : State) : State :=
  setMiss key { m with stage := st, outcome := outcome } s

/-- The map entry of a fill is at hand (R214, Table 6-5). -/
def fillByEntry (key : Nat) (e : MapEnt) (m : Miss) (s : State) : State :=
  if e.poison.getLsbD (key % 16) then
    let r := drawBits 2048 s
    setMiss key { m with stage := .ready, poison := true, data := r.1, outcome := 7 } r.2
  else
    match e.st with
    | .unmapped => setMiss key { m with stage := .ready, data := 0, outcome := 7 } s
    | .trimmed => setMiss key { m with stage := .ready, data := 0, outcome := 7 } s
    | .locked => setMiss key { m with stage := .blocked } s
    | .media => issueMedia (.fill key) e.loc m.toFetch (setMiss key m s)
    | .back =>
      match tfind s.back.slots e.loc with
      | none => setMiss key { m with stage := .blocked } s
      | some x => setMiss key { m with stage := .back e.loc x.pfa, outcome := 1 } s

/-- An entry has no good copy: its extent is affected, and the fill waits (R241, R262). -/
def loseEntry (key : Nat) (m : Miss) (s : State) : State :=
  setMiss key { m with stage := .blocked }
    (markAffected [extentOfLfa (key / 16)] { s with map := { s.map with lost := s.map.lost ++ [key / 16] } })

/-- A copy's entry is good: the fill goes on by it, and a copy that failed before is rewritten from it (R241). -/
def serveEntry (key : Nat) (m : Miss) (s : State) : State :=
  let lfa := key / 16
  let e := (if m.copyB then s.map.copyB else s.map.copyA).get lfa
  let s := if m.second then postEntry lfa e s else s
  match mapEntry s lfa with
  | none => setMiss key { m with stage := .blocked } s
  | some e => if s.ten.affected.contains (extentOfLfa lfa) then setMiss key { m with stage := .blocked } s else fillByEntry key e m s

/-- The entry of a copy cannot be served: the read goes to the other copy, and with none left the entry is lost (R241, Table 6-9). -/
def otherCopy (key : Nat) (m : Miss) (s : State) : State :=
  if m.second ∨ copyUp s (!m.copyB) (key / 16) = false then loseEntry key m s
  else setMiss key { m with copyB := !m.copyB, second := true } s

/-- A read of an entry fails its CHECK: the copy keeps the bad CHECK until it is rewritten, and the failure is logged (R241). -/
def checkFails (key : Nat) (m : Miss) (s : State) : State :=
  let lfa := key / 16
  otherCopy key m (raise 0x034 0x4001 (lfa % 2 ^ 32) (lfa / 2 ^ 32) (b2n m.copyB) (setBad m.copyB lfa s))

/-- MAP_ENTRY_READ_DONE (R213, R214, R240, R241, R373, R32): the entry arrives with what the DRAM read met. A failing CHECK is served
and rewritten from the other copy; an uncorrectable read or a parity error freezes the channel and goes to the other copy; when both
copies fail, the extent is affected and the fill waits. -/
def execMapEntryReadDone (line : Nat) (err : DramErr) (s : State) : Res :=
  match tfind s.front.miss line with
  | none => .next s
  | some m =>
    if m.stage != .mapRead then .next s
    else
      let lfa := line / 16
      let c := mapChan s m.copyB lfa
      let l := entryLoc s m.copyB lfa
      let s := if copyUp s m.copyB lfa then openRow c l s else s
      let served := fun (s : State) => if copyBad s m.copyB lfa then checkFails line m s else serveEntry line m s
      match err with
      | .none => .next (if copyUp s m.copyB lfa then served s else otherCopy line m s)
      | .corrected _ _ _ => .next (if copyUp s m.copyB lfa then served (correctable c l.rank l.row l.col s) else otherCopy line m s)
      | .check => .next (if copyUp s m.copyB lfa then checkFails line m s else otherCopy line m s)
      | .uncorrectable f => .next (otherCopy line m (freeze c 1 (frostAt f l) s))
      | .parity f => .next (otherCopy line m (freeze c 1 (frostAt f l) (raiseParity 0x034 4 (line * 256) s)))

/-- A frame is promoted (R217): it takes a Free slot and is read whole, at BULK priority; with none Free the install is skipped, and the
sweep is asked to evict. DEDUCED (log entry 207): the slot is taken before the read. -/
def startPromotion (lfa pfa : Nat) (s : State) : State :=
  if s.back.promoting.any fun p => p.1 == lfa then s
  else
    match freeSlot s with
    | none => { s with back := { s.back with wanted := true } }
    | some n =>
      let x : Slot :=
        { lfa := lfa, pfa := pfa, tenant := ((tfind s.map.frames pfa).map (·.tenant)).getD 0, quarantine := 0, ref := false,
          st := .filling, data := [], pinned := false, deferred := false }
      readFrame (.promote lfa) lfa pfa { s with back := { s.back with
        slots := tput s.back.slots n x, promoting := s.back.promoting ++ [(lfa, n)] } }

/-- The promotion filter sees a media fill (R217): a frame that receives PROMOTE_FILLS within PROMOTE_WINDOW is read whole. -/
def promote (lfa pfa : Nat) (latency : Bool) (s : State) : State :=
  if !s.back.onPromote || (!latency && !s.back.bulk) then s
  else
    let now := s.time.mono
    let win := s.back.window * 10000000
    let rest := s.back.filter.filter fun p => p.lfa != lfa
    let e : Promo := match s.back.filter.find? fun p => p.lfa == lfa with
      | some p => if p.start + win < now then { p with count := 1, start := now, last := now }
        else { p with count := p.count + 1, last := now }
      | none => { lfa := lfa, count := 1, start := now, last := now }
    if s.back.fills ≤ e.count then startPromotion lfa pfa { s with back := { s.back with filter := rest } }
    else
      let rest := if 65536 ≤ rest.length then
          match rest.map (·.last) |>.min? with
          | some old => rest.eraseP fun p => p.last == old
          | none => rest
        else rest
      { s with back := { s.back with filter := rest ++ [e] } }

/-- A slot taken for an install is freed again (R217). -/
def freeTaken (n : Nat) (s : State) : State := { s with back := { s.back with slots := tdel s.back.slots n } }

/-- PROMOTION_READ_DONE (R217): the whole frame has been read, and it is installed if its entry still holds the PFA that was read;
otherwise its slot is freed. DEDUCED (log entry 207): a frame with an uncorrectable codeword is not installed. -/
def execPromotionReadDone (lfa : Nat) (s : State) : Res :=
  match s.back.promoting.find? fun p => p.1 == lfa with
  | none => .next s
  | some (_, n) =>
    if !readsDone s (.promote lfa) then .next s
    else
      let data : Cipher := (List.range 16).map fun i =>
        (((readsOf s (.promote lfa)).find? fun p => p.2.line % 16 == i).map fun p => p.2.data).getD 0
      let bad := readsBad s (.promote lfa)
      let s := dropReads (.promote lfa)
        { s with back := { s.back with promoting := s.back.promoting.filter fun p => p.1 != lfa } }
      match mapEntry s lfa, tfind s.back.slots n with
      | some e, some x =>
        if e.st = .media ∧ e.loc = x.pfa ∧ bad = 0 ∧ slotUp s n = true then
          .next (postEntry lfa { e with st := .back, loc := n }
            { s with back := { s.back with slots := tput s.back.slots n { x with st := .valid, data := data },
                                           installs := s.back.installs + 1 } })
        else .next (freeTaken n s)
      | _, _ => .next (freeTaken n s)

/-- One sweep of the clock over the Valid slots from the hand: referenced ones are skipped and cleared (R219). -/
def sweepSlots : List (Nat × Slot) → State → Option Nat × State
  | [], s => (none, s)
  | (n, x) :: r, s =>
    let s := { s with back := { s.back with hand := n + 1 } }
    if x.st != .valid || x.pinned then sweepSlots r s
    else if x.ref then sweepSlots r { s with back := { s.back with slots := tput s.back.slots n { x with ref := false } } }
    else (some n, s)

/-- BACK_CACHE_EVICT (R217, R219): once an install was skipped for want of a Free slot, the sweep evicts the next slot it selects. -/
def execBackCacheEvict (s : State) : Res :=
  if !s.back.wanted then .next s
  else
    let order := fun (s : State) =>
      (s.back.slots.filter fun p => decide (s.back.hand ≤ p.1)) ++ (s.back.slots.filter fun p => decide (p.1 < s.back.hand))
    let r := sweepSlots (order s) s
    let r := match r.1 with
      | some _ => r
      | none => sweepSlots (order r.2) r.2
    match r.1 with
    | some n => .next (evictSlot n { r.2 with back := { r.2.back with wanted := false } })
    | none => .next r.2

/-- QUARANTINE_EXPIRY (R219): 10 µs after its quarantine began, a slot is Free. -/
def execQuarantineExpiry (slot : Nat) (s : State) : Res :=
  match tfind s.back.slots slot with
  | none => .next s
  | some x =>
    if x.st = .quarantined ∧ quarantineOver s x.quarantine = true then
      .next { s with back := { s.back with slots := tdel s.back.slots slot } }
    else .next s

/-! ### Commands -/

/-- GET_READ_PATH_STATE (C330h, R234). -/
def execGetReadPathState (cci : Fin 10) (inp : List Byte) (s : State) : Res :=
  vendor cci 0xC330 inp 1 []
    (fun s =>
      let ch := le inp 0 1
      if ch != 0xFF && decide (36 ≤ ch) then .fail .invalidInput
      else
        let n := backSlots s
        let cnt := fun (d : DState) => (s.back.slots.filter fun p => p.2.st == d).length
        let free := n - (s.back.slots.filter fun p => p.2.st != .free).length
        answer s (((List.range 7).flatMap fun i => leBytes 8 (s.front.readCounts.getD i 0)) ++ leBytes 8 (backRegion s) ++
          leBytes 4 n ++ leBytes 4 free ++ leBytes 4 (cnt .filling) ++ leBytes 4 (cnt .valid) ++
          leBytes 4 (cnt .quarantined) ++ leBytes 8 s.back.hits ++ leBytes 8 s.back.installs ++ leBytes 8 s.back.evictions ++
          zeros 4 ++
          (List.range 128).map fun i => BitVec.ofNat 8 (if ch = 0xFF then 0 else dieDepth s (ch * 128 + i)))) s

/-- The back-cache policy register of its bytes (Table 6-7). -/
def backPolicyOf (b : List Byte) (x : BackSt) : BackSt :=
  let v := le b 0 4
  { x with window := bits v 24 8, fills := bits v 20 4, bulk := bits v 2 1 == 1, onCommit := bits v 1 1 == 1,
           onPromote := bits v 0 1 == 1 }

/-- Bytes of the back-cache policy register (Table 6-7). -/
def backPolicyBytes (b : BackSt) : List Byte :=
  leBytes 4 (b.window * 2 ^ 24 + b.fills * 2 ^ 20 + b2n b.bulk * 4 + b2n b.onCommit * 2 + b2n b.onPromote)

/-- The record of a back-cache policy within its ranges (Table 6-7, R234). -/
def backPolicyRec (inp : List Byte) (s : State) : Option (List Byte) :=
  if bits (le inp 0 4) 24 8 = 0 ∨ bits (le inp 0 4) 20 4 < 2 then none
  else some (backPolicyBytes (backPolicyOf inp s.back))

/-- SET_BACK_CACHE_POLICY (C331h, R234). -/
def execSetBackCachePolicy (cci : Fin 10) (inp : List Byte) (s : State) : Res :=
  vendor cci 0xC331 inp 4 []
    (fun s => storeSetting 0x1A (backPolicyRec inp s) s) s

end Sys2Proof.Machine
end

