-- ==== Sys2Proof/Machine/Flags.lean ====
section
/-!
DEFINITION. Status that is derived from the state and not stored: affected extents and the head of an extent, as the event
recorder needs them (R95, R262).
-/
namespace Sys2Proof.Machine

/-- At least one extent is affected (R262, Table 2-5). -/
def anyAffected (s : State) : Bool := !s.ten.affected.isEmpty

/-- The local head to which an extent is added (R95). -/
def extentHead (s : State) (e : Nat) : Option Nat :=
  match tfind s.ten.extA e with
  | some x => if x.st == EState.added && x.accessDev == 0xFFF then some x.head else none
  | none => none

end Sys2Proof.Machine
end

