-- ==== Sys2Proof/Machine/Recorder.lean ====
section
/-!
DEFINITION. Event recorder (18_cellar_book_and_event_recorder.md R546 to R552) and host event logs (02_host_ports.md R94 to
R98).
-/
namespace Sys2Proof.Machine

/-- Severity 0 to 5 and host visibility of each listed code (Table 18-9). -/
def codeInfo : List (Nat × Nat × Bool) :=
  [(0x0001, 3, false), (0x0002, 5, true), (0x0003, 3, true), (0x0004, 1, false), (0x0005, 3, false), (0x0006, 3, false),
   (0x1001, 3, true), (0x1002, 3, false), (0x1003, 5, true), (0x1004, 5, true), (0x1005, 1, false),
   (0x2001, 1, false), (0x2002, 4, true), (0x2003, 3, true), (0x2004, 3, true), (0x2005, 5, true), (0x2006, 3, false),
   (0x3001, 5, true), (0x3002, 4, true), (0x3003, 1, true), (0x3004, 3, false), (0x3005, 4, true), (0x3006, 3, false),
   (0x3007, 3, true), (0x3008, 1, false), (0x3009, 3, false), (0x300A, 4, true), (0x300B, 4, true)] ++
  [(0x4001, 3, false), (0x4002, 5, true), (0x4003, 1, false), (0x4004, 4, true), (0x4005, 3, false),
   (0x5001, 4, true), (0x5002, 3, false), (0x5003, 3, true), (0x5004, 3, true), (0x5005, 3, true), (0x5006, 4, true),
   (0x5007, 5, true), (0x6001, 1, false), (0x6002, 5, true), (0x6003, 5, true), (0x6004, 3, false), (0x6005, 3, false),
   (0x7001, 1, false), (0x7002, 3, false), (0x7003, 3, true), (0x7004, 3, true), (0x7005, 3, false)] ++
  [(0x8001, 3, false), (0x8002, 1, true), (0x8003, 5, true), (0x8004, 1, false), (0x9001, 3, true), (0x9002, 3, true),
   (0x9003, 3, false), (0x9004, 5, true), (0x9005, 5, true), (0xA001, 3, true), (0xA002, 1, false), (0xA003, 3, false),
   (0xA004, 1, false), (0xA005, 3, true), (0xB001, 4, false), (0xB002, 5, true), (0xB003, 5, true), (0xB004, 3, true),
   (0xB005, 3, false), (0xC001, 3, false), (0xC002, 3, false), (0xC003, 5, true)]

/-- Severity of an event: the table's, or the one given for an unlisted code (R552). -/
def evSeverity (e : Ev) : Nat :=
  match tfind codeInfo e.code with
  | some (v, _) => v
  | none => e.sev

/-- Host visibility of a code; an unlisted code never is (R552). -/
def evHostVisible (code : Nat) : Bool :=
  match tfind codeInfo code with
  | some (_, h) => h
  | none => false

/-- Bytes 0 to 30 of an event record (Table 18-8). -/
def evRecBody (r : EvRec) : List Byte :=
  leBytes 4 (r.src % 4096 * 2 ^ 20 + r.sev % 16 * 2 ^ 16 + r.code % 65536) ++ leBytes 4 r.p0 ++ leBytes 4 r.p1 ++
    leBytes 4 r.p2 ++ leBytes 8 r.time ++ leBytes 4 r.seq ++ leBytes 2 r.rep ++ zeros 1

/-- The 32 bytes of an event record; VALID is the CRC-8 of bytes 0 to 30 XOR 5Ah (Table 18-8). -/
def evRecBytes (r : EvRec) : List Byte := evRecBody r ++ [BitVec.ofNat 8 (crc8 (evRecBody r) ^^^ 0x5A)]

/-! ### Host logs -/

/-- The CXL record of an event and the log it goes to (Table 2-5). -/
def cxlMapping (s : State) (r : EvRec) : CxlRec × LogId :=
  if r.code = 0x3002 ∨ r.code = 0x300B ∨ (r.code = 0x5006 ∧ (r.p0 = 2 ∨ r.p0 = 3)) then (.generalMedia, .failure)
  else if r.code = 0x3003 then (.generalMedia, .info)
  else if r.code = 0x2002 ∨ r.code = 0x2004 ∨ r.code = 0x4004 then (.dram, if anyAffected s then .failure else .warning)
  else if r.code = 0x3007 then (.memoryModule, if 2 ≤ r.p1 then .failure else .warning)
  else if r.code = 0x1001 then (.memoryModule, if r.p2 = 3 then .failure else .warning)
  else if r.code = 0x5004 ∨ r.code = 0x5005 then (.memoryModule, .warning)
  else if r.sev = 5 then (.vendor, .fatal)
  else if r.sev = 4 then (.vendor, .failure)
  else if r.sev = 3 then (.vendor, .warning)
  else (.vendor, .info)

/-- Heads whose logs an event goes to (R95). -/
def eventHeads (s : State) (r : EvRec) : List Nat :=
  if r.code = 0x9001 ∨ r.code = 0x9003 ∨ r.code = 0x9004 ∨ r.code = 0x9005 then [r.p0]
  else if r.code = 0x9002 ∨ r.code = 0x3002 ∨ r.code = 0x300B ∨ r.code = 0x6003 then [bits r.p1 16 2]
  else if r.code = 0x5006 then
    match r.ext with
    | some e => (extentHead s e).toList
    | none => (List.range 4).filter fun h => (headOf s h).present
  else if r.code = 0x3003 then (extentHead s r.p0).toList
  else if r.code = 0xA001 then (extentHead s r.p1).toList
  else (List.range 4).filter fun h => (headOf s h).present

/-- Number of a log in the interrupt policy (R98). -/
def LogId.num : LogId → Nat
  | .info => 0 | .warning => 1 | .failure => 2 | .fatal => 3 | .dynCap => 4

/-- Capacity of a log (R94). -/
def LogId.cap : LogId → Nat
  | .info => 256 | .warning => 256 | .failure => 256 | .fatal => 64 | .dynCap => 1024

/-- One log of a set. -/
def LogSet.get (l : LogSet) : LogId → EvLog
  | .info => l.info | .warning => l.warning | .failure => l.failure | .fatal => l.fatal | .dynCap => l.dynCap

/-- Put back one log of a set. -/
def LogSet.put (l : LogSet) (i : LogId) (x : EvLog) : LogSet :=
  match i with
  | .info => { l with info := x } | .warning => { l with warning := x } | .failure => { l with failure := x }
  | .fatal => { l with fatal := x } | .dynCap => { l with dynCap := x }

/-- UUID of a Kunor vendor record (R97). -/
def vendorUuid : Nat := 0x7C1E40A253D84E0B9A610D3F8E5C2B74

/-- Vendor-specific data of a Kunor vendor record: the 32 B event record, then zeros (R97). Its 80 B are those of CXL's event
record format (PRESUMED, log entry 191). -/
def vendorData (r : EvRec) : List Byte := evRecBytes r ++ zeros 48

/-- The entry of a host log for an event. -/
def logEnt (k : CxlRec) (r : EvRec) (handle : Nat) : LogEnt :=
  { kind := k, ev := r, handle := handle, uuid := if k = .vendor then some vendorUuid else none,
    data := if k = .vendor then vendorData r else [] }

/-- Add a record to a log, or count it when the log is full (R94). -/
def EvLog.add (x : EvLog) (cap : Nat) (k : CxlRec) (r : EvRec) : EvLog :=
  if x.ents.length < cap then
    { x with ents := x.ents ++ [logEnt k r x.nextHandle], nextHandle := x.nextHandle % 65535 + 1 }
  else { x with overflow := x.overflow + 1 }

/-- Add a record to a log set. -/
def LogSet.add (l : LogSet) (i : LogId) (k : CxlRec) (r : EvRec) : LogSet := l.put i ((l.get i).add i.cap k r)

/-- Add a record to a head's log and raise its interrupt (R94, R98); vendor records only with VENDOR_EVT_EN (Table 2-7). DESIGN
CHOICE (log entry 192): a record that a full log only counts raises the interrupt too. -/
def logToHead (h : Nat) (k : CxlRec) (i : LogId) (r : EvRec) (s : State) : State :=
  let x := headOf s h
  if !x.present || (k == .vendor && !x.vendorEvtEn) then s
  else
    let x := { x with logs := x.logs.add i k r }
    setHead h (if x.intPolicy.getD i.num 0 = 0 then x else { x with msix := x.msix ++ [i.num] }) s

/-- Send a new record to the host logs it concerns, and to the device log set that MCTP reads (R95, R528). -/
def toHostLogs (r : EvRec) (s : State) : State :=
  if evHostVisible r.code then
    let m := cxlMapping s r
    let s := (eventHeads s r).foldl (fun s h => logToHead h m.1 m.2 r s) s
    { s with mgmt := { s.mgmt with devLogs := s.mgmt.devLogs.add m.2 m.1 r } }
  else s

/-! ### The recorder -/

/-- The newest record of the SRAM ring. -/
def newestRec (s : State) : Option EvRec :=
  match s.recorder.newest with
  | some k => tfind s.recorder.ring k
  | none => none

/-- Whether a post repeats a record (R547). -/
def isRepeat (e : Ev) (r : EvRec) : Bool :=
  r.code == e.code && r.src == e.src && r.p0 == e.p0 && r.p1 == e.p1 && r.p2 == e.p2 && decide (r.rep < 65535)

/-- Count an event of a unit as lost (R39, R549). -/
def countLost (e : Ev) (s : State) : State :=
  { s with recorder := { s.recorder with
      units := tmod s.recorder.units e.src UnitBuf.empty fun u => { u with lost := u.lost + 1 } } }

/-- Give a post its place in the rings: a repeat, a new record, or a record held while the SRAM ring is unpowered (R547,
R549). -/
def recordPost (e : Ev) (s : State) : State :=
  let q := s.recorder
  let new : EvRec :=
    { src := e.src, sev := evSeverity e, code := e.code, p0 := e.p0, p1 := e.p1, p2 := e.p2, time := s.time.tbNow,
      seq := q.nextSeq, rep := 0, ext := e.ext }
  let bump := (q.nextSeq + 1) % 2 ^ 32
  let crit := if new.sev = 5 then tput q.events (new.seq % 4096) new else q.events
  let ct := if new.sev = 5 then tput q.copyTime (new.seq % 4096) s.time.mono else q.copyTime
  if q.ringOn then
    match newestRec s with
    | some r =>
      if isRepeat e r then
        { s with recorder := { q with
            ring := tput q.ring (r.seq % 65536) { r with rep := r.rep + 1, time := s.time.tbNow }, folded := q.folded + 1 } }
      else
        toHostLogs new { s with recorder := { q with
          ring := tput q.ring (new.seq % 65536) new, newest := some (new.seq % 65536), nextSeq := bump, events := crit,
          copyTime := ct, written := q.written + 1 } }
    | none =>
      toHostLogs new { s with recorder := { q with
        ring := tput q.ring (new.seq % 65536) new, newest := some (new.seq % 65536), nextSeq := bump, events := crit,
        copyTime := ct, written := q.written + 1 } }
  else if q.held.length < 64 then
    toHostLogs new { s with recorder := { q with
      held := q.held ++ [new], nextSeq := bump, events := crit, copyTime := ct, written := q.written + 1 } }
  else countLost e s

/-- The front end accepts a post: numbered at once, or buffered until the counter resumes (R548, R550). -/
def acceptPost (e : Ev) (s : State) : State :=
  if s.recorder.seqReady then recordPost e s
  else { s with recorder := { s.recorder with input := s.recorder.input ++ [e] } }

/-- The front end accepts a post (R548, R549): its input buffer of 256 posts has room while the sequence counter has not resumed, and
the 64 held records leave room while the SRAM ring is unpowered. -/
def recorderRoom (s : State) : Bool :=
  if s.recorder.seqReady then s.recorder.ringOn || decide (s.recorder.held.length < 64)
  else decide (s.recorder.input.length < 256)

/-- EVENT_POST (R38, R547): the owner posts the oldest buffered event of a unit. A full input buffer accepts none (R548), and
an overflow record comes before newer events (R39). -/
def execEventPost (src : Nat) (s : State) : Res :=
  let u := tget s.recorder.units src UnitBuf.empty
  match u.evs with
  | [] => .next s
  | e :: es =>
    if (u.lost ≠ 0 ∧ u.before = 0) ∨ recorderRoom s = false then .next s
    else
      .next (acceptPost e { s with recorder := { s.recorder with
        units := tput s.recorder.units src { u with evs := es, before := u.before - 1 } } })

/-- EVENT_OVERFLOW_RECORD (R39): when the buffer has space again, one B005h record carries the lost count. -/
def execEventOverflowRecord (src : Nat) (s : State) : Res :=
  let u := tget s.recorder.units src UnitBuf.empty
  if u.lost = 0 ∨ 16 ≤ u.evs.length ∨ recorderRoom s = false then .next s
  else
    .next (acceptPost { src := src, code := 0xB005, p0 := src, p1 := u.lost, p2 := 0, sev := 0 }
      { s with recorder := { s.recorder with
          units := tput s.recorder.units src { u with lost := 0, before := 0 }, overflows := s.recorder.overflows + 1 } })

/-- Copy the repeats of a Critical record to its EVENTS slot (R549). -/
def copyCritical (r : EvRec) (s : State) : State :=
  match tfind s.recorder.events (r.seq % 4096) with
  | none => s
  | some c =>
    if c.seq = r.seq ∧ c.rep < r.rep then
      { s with recorder := { s.recorder with
          events := tput s.recorder.events (r.seq % 4096) r,
          copyTime := tput s.recorder.copyTime (r.seq % 4096) s.time.mono } }
    else s

/-- CRITICAL_REPEAT_COPY (R549): at most once per 60 s, the repeats of a Critical record are copied to the EVENTS ring. -/
def execCriticalRepeatCopy (seq : Nat) (s : State) : Res :=
  match tfind s.recorder.ring (seq % 65536) with
  | none => .next s
  | some r =>
    if r.seq = seq ∧ r.sev = 5 ∧ tget s.recorder.copyTime (seq % 4096) 0 + 60000000000 ≤ s.time.mono then
      .next (copyCritical r s)
    else .next s

/-- EVENT_MARK records the current sequence (R550). -/
def writeEventMark (s : State) : State :=
  cellarWrite 5 2 0x22 (leBytes 4 s.recorder.nextSeq) none s

/-- EVENT_MARK_WRITE (R550): every 60 s. -/
def execEventMarkWrite (s : State) : Res := if s.recorder.seqReady then .next (writeEventMark s) else .next s

/-- Copies of every Critical record with repeats, as at a drain (R549). -/
def copyAllCritical (s : State) : State :=
  s.recorder.ring.foldl (fun s p => if p.2.sev = 5 then copyCritical p.2 s else s) s

/-- Whether sequence a is newer than b (R550). -/
def seqNewer (a b : Nat) : Bool :=
  let d := (a + 2 ^ 32 - b % 2 ^ 32) % 2 ^ 32
  decide (1 ≤ d) && decide (d < 2 ^ 31)

/-- The newest sequence of a ring, 0 when empty. -/
def newestSeq (t : Tbl EvRec) : Nat :=
  match t with
  | [] => 0
  | (_, r) :: rest => rest.foldl (fun a p => if seqNewer p.2.seq a then p.2.seq else a) r.seq

/-- The oldest sequence of a ring, 0 when empty. -/
def oldestSeq (t : Tbl EvRec) : Nat :=
  match t with
  | [] => 0
  | (_, r) :: rest => rest.foldl (fun a p => if seqNewer a p.2.seq then p.2.seq else a) r.seq

/-- Records of the SRAM ring whose sequence is the expected one, from `first` on (R551). -/
def ringFrom (t : Tbl EvRec) (first : Nat) : Nat → List EvRec
  | 0 => []
  | n + 1 =>
    match tfind t (first % 65536) with
    | some r => if r.seq = first then r :: ringFrom t ((first + 1) % 2 ^ 32) n else ringFrom t ((first + 1) % 2 ^ 32) n
    | none => ringFrom t ((first + 1) % 2 ^ 32) n

/-- Put a record into a list kept in sequence order. -/
def insertSeq (r : EvRec) : List EvRec → List EvRec
  | [] => [r]
  | x :: xs => if seqNewer x.seq r.seq then r :: x :: xs else x :: insertSeq r xs

/-- Records of the EVENTS ring from sequence `first` on, oldest first. -/
def eventsFrom (t : Tbl EvRec) (first n : Nat) : List EvRec :=
  ((t.foldl (fun a p => insertSeq p.2 a) []).filter fun r => r.seq == first || seqNewer r.seq first).take n

/-- GET_EVENT_RECORDS_VENDOR (C900h, R551). -/
def execGetEventRecordsVendor (cci : Fin 10) (inp : List Byte) (s : State) : Res :=
  vendor cci 0xC900 inp 8 [(1, 1)]
    (fun s =>
      let n := le inp 2 2
      let first := le inp 4 4
      if 1 < le inp 0 1 ∨ 2040 < n then .fail .invalidInput
      else
        let t := if le inp 0 1 = 0 then s.recorder.ring else s.recorder.events
        let rs := if le inp 0 1 = 0 then ringFrom t first n else eventsFrom t first n
        answer s (leBytes 4 (newestSeq t) ++ leBytes 4 (oldestSeq t) ++ leBytes 4 (newestSeq t) ++ leBytes 2 rs.length ++
          zeros 2 ++ rs.flatMap evRecBytes)) s

/-- GET_EVENT_RECORDER_STATE (C901h, R530). -/
def execGetEventRecorderState (cci : Fin 10) (inp : List Byte) (s : State) : Res :=
  vendor cci 0xC901 inp 0 []
    (fun s =>
      answer s (leBytes 4 (newestSeq s.recorder.ring) ++ leBytes 4 (newestSeq s.recorder.events) ++
        leBytes 8 s.recorder.written ++ leBytes 8 s.recorder.folded ++ leBytes 4 s.recorder.overflows)) s

/-- POST_TEST_EVENT (C902h, R552): an event of any code with source 000h. -/
def execPostTestEvent (cci : Fin 10) (inp : List Byte) (s : State) : Res :=
  vendor cci 0xC902 inp 16 [(3, 1)]
    (fun s =>
      if 5 < le inp 2 1 then .fail .invalidInput
      else
        .done .none (raiseEv { src := 0, code := le inp 0 2, p0 := le inp 4 4, p1 := le inp 8 4, p2 := le inp 12 4,
                               sev := le inp 2 1 } s)) s

/-- The sequence counter resumes once the cellar book index is built, and numbers the posts that waited (R550): at the newer
of EVENT_MARK + 2^26 and the newest SEQUENCE of the EVENTS ring, plus 1. DESIGN CHOICE (log entry 232): without EVENT_MARK the
mark is 0, and an empty EVENTS ring gives no value. -/
def resumeSequence (s : State) : State :=
  let mark := ((cellarRead s 2 0x22).map fun b => le b 0 4).getD 0
  let a := (mark + 2 ^ 26) % 2 ^ 32
  let b := newestSeq s.recorder.events
  let from_ := ((if s.recorder.events.isEmpty || seqNewer a b then a else b) + 1) % 2 ^ 32
  let waiting := s.recorder.input
  waiting.foldl (fun s e => recordPost e s)
    { s with recorder := { s.recorder with nextSeq := from_, seqReady := true, input := [] } }

/-- The SRAM ring gets power: the held records enter it, in sequence order (R549). -/
def powerRing (s : State) : State :=
  if s.recorder.ringOn then s
  else
    let hs := s.recorder.held
    { s with recorder := { s.recorder with
        ringOn := true, held := [], ring := hs.foldl (fun t r => tput t (r.seq % 65536) r) [],
        newest := hs.getLast?.map fun r => r.seq % 65536 } }

end Sys2Proof.Machine
end

