-- ==== Sys2Proof/Machine/TenantOps.lean ====
section
/-!
DEFINITION. Operations on tenants, extents, flow queues and reservations (03_tenants_and_flow_queues.md): entries as bytes,
reservation limits (R129, R130), buckets (R124), dynamic capacity records (R76) and the discarding of image entries (R208).
-/
namespace Sys2Proof.Machine

/-! ### Entries as bytes (Tables 3-1 and 3-2) -/

/-- Code of E_STATE (Table 3-3). -/
def EState.code : EState → Nat
  | .unassigned => 0 | .assigned => 1 | .pending => 2 | .added => 3 | .releasing => 4 | .erasing => 5

/-- The 16 bytes of an extent entry (Table 3-2). -/
def extBytes (x : ExtentEnt) : List Byte :=
  leBytes 16 (x.st.code * 2 ^ 124 + x.head * 2 ^ 122 + x.accessDev * 2 ^ 110 + x.ownerDev * 2 ^ 98 + x.ownerExtent * 2 ^ 80 +
    x.tenant * 2 ^ 64 + x.keySlot * 2 ^ 48 + x.prof * 2 ^ 40)

/-- State of a key slot. -/
def slotOf (s : State) (k : Nat) : SlotState := tget s.ten.slots k .empty

/-- Put a key slot's state. -/
def setSlot (k : Nat) (x : SlotState) (s : State) : State := { s with ten := { s.ten with slots := tset s.ten.slots k x .empty } }

/-- A slot holds a key. -/
def SlotState.isLoaded : SlotState → Bool
  | .loaded _ => true
  | _ => false

/-- The state code of an extent with the derived states: 6 Locked, and 5 from its slot's destruction on (Table 3-3). -/
def derivedState (s : State) (e : Nat) : Nat :=
  let x := extOf s e
  if x.st = .added then
    if slotOf s x.keySlot = .erased then 5
    else if x.ownerDev == 0xFFF && !(slotOf s x.keySlot).isLoaded then 6
    else 3
  else x.st.code

/-- EXTENT_COUNT (Table 3-1). -/
def extentCount (s : State) (t : Nat) : Nat :=
  (s.ten.extA.filter fun p => p.2.tenant == t && p.2.st != .unassigned).length

/-- The 40 bytes of the QoS words. -/
def qosBytes (q : Qos) : List Byte := [q.w08, q.w10, q.w18, q.w20, q.w28].flatMap fun w => leBytes 8 w.toNat

/-- The 64 bytes of a tenant entry (Table 3-1). -/
def tenantBytes (s : State) (t : Nat) : List Byte :=
  let x := tenantOf s t
  leBytes 8 (tenantWord0 x + extentCount s t * 1024) ++ qosBytes x.qosA ++ leBytes 8 x.keyCheck ++ zeros 8

/-- QoS words from 40 bytes. -/
def qosOfBytes (b : List Byte) : Qos :=
  let w := fun i => BitVec.ofNat 64 (le b (8 * i) 8)
  { w08 := w 0, w10 := w 1, w18 := w 2, w20 := w 3, w28 := w 4 }

/-- Word 10h + 8 × class of a profile. -/
def Qos.cls (q : Qos) (c : Nat) : Nat := (q.word (0x10 + 8 * c)).toNat

/-- RES_OPS, RES_BW, CEIL_OPS and CEIL_BW of a class (Table 3-1). -/
def resOps (q : Qos) (c : Nat) : Nat := bits (q.cls c) 48 16
/-- RES_BW. -/
def resBw (q : Qos) (c : Nat) : Nat := bits (q.cls c) 32 16
/-- CEIL_OPS. -/
def ceilOps (q : Qos) (c : Nat) : Nat := bits (q.cls c) 16 16
/-- CEIL_BW. -/
def ceilBw (q : Qos) (c : Nat) : Nat := bits (q.cls c) 0 16
/-- Spare-capacity weight of a class (Table 3-1). -/
def weightOf (q : Qos) (c : Nat) : Nat := bits q.w08.toNat (56 - 8 * c) 8
/-- Depth ceiling of a class in requests (Table 3-1). -/
def depthOf (q : Qos) (c : Nat) : Nat := 16 * (bits q.w08.toNat (24 - 8 * c) 8 + 1)

/-- Value of a class profile in a bank (Table 3-4). -/
def profOf (t : Tbl Nat) (p : Nat) : Nat := tget t p 0x40

/-! ### Banked items (R121, R122, R441) -/

/-- Commands that write banked items answer Busy during the bank copy and while an epoch is armed (R122, R441). -/
def bankedBusy (s : State) : Bool := s.ten.bankCopy || s.epoch.arm.isSome

/-- An entry names another device. -/
def ExtentEnt.crosses (x : ExtentEnt) : Bool := x.ownerDev != 0xFFF || x.accessDev != 0xFFF

/-- Commit an extent's entry, both banks (Table 7-6). -/
def journalExt (e : Nat) (s : State) : State :=
  if extOf s e = extStg s e then commit (.extentEntry e true true (extOf s e)) s
  else commit (.extentEntry e false true (extStg s e)) (commit (.extentEntry e true false (extOf s e)) s)

/-- Change an extent's state and journal it (R112, R121). -/
def moveExt (e : Nat) (st : EState) (s : State) : State := journalExt e (setEState e st s)

/-- Commit word 00h of a tenant in both banks. -/
def journalTenant (t : Nat) (s : State) : State := commit (.tenantWord t 0 true true (tenantWord0 (tenantOf s t))) s

/-! ### Check-value units (R565) -/

/-- A check-value unit at reset (Table 19-7): CRC-32C from its Init, assigned to no head. -/
def CvUnit.fresh : CvUnit :=
  { head := none, poly := 1, useSeed := false, seed := 0, crc := 0xFFFFFFFF, count := 0, feeds := [], spent := 0, held := none }

/-- A check-value unit. -/
def cvOf (s : State) (u : Nat) : CvUnit := tget s.eng.units u CvUnit.fresh

/-- Put back a check-value unit. -/
def setCv (u : Nat) (x : CvUnit) (s : State) : State := { s with eng := { s.eng with units := tput s.eng.units u x } }

/-! ### Engines of erasures (R574) -/

/-- An idle engine. -/
def Engine.fresh : Engine :=
  { phase := .idle, ring := none, desc := [], pos := 0, result := 0, code := 0, data := 0, poison := false, done := 0,
    erase := none }

/-- An engine. -/
def engineOf (s : State) (e : Nat) : Engine := tget s.eng.engines e Engine.fresh

/-- Put back an engine. -/
def setEngine (e : Nat) (x : Engine) (s : State) : State :=
  { s with eng := { s.eng with engines := tput s.eng.engines e x } }

/-- An engine holds the sweep of a tenant's erasure. -/
def sweepHeld (s : State) (t : Nat) : Bool := s.eng.engines.any fun p => p.2.erase == some t

/-- An engine that serves nothing. -/
def engineFree (s : State) (e : Nat) : Bool := (engineOf s e).phase == .idle && (engineOf s e).erase.isNone

/-- Each erasure without an engine takes a free one, ahead of every ring (R574). -/
def takeSweeps (s : State) : State :=
  s.ten.erasing.foldl (fun s j =>
    if sweepHeld s j.tenant then s
    else
      match (List.range 16).find? (engineFree s) with
      | some e => setEngine e { engineOf s e with erase := some j.tenant } s
      | none => s) s

/-- The engine of an erasure is free again. -/
def endSweep (t : Nat) (s : State) : State :=
  takeSweeps { s with eng := { s.eng with
    engines := tmap s.eng.engines fun _ x => if x.erase = some t then { x with erase := none } else x } }

/-! ### Reservation limits (R129, R130) -/

/-- A channel that has failed, or whose every present die has (R129). -/
def chanFailed (s : State) (c : Nat) : Bool :=
  (chanOf s c).mode == .failed ||
    (let sets := (dieSets s).filter fun ds => dsK ds == c % 4
     !sets.isEmpty && sets.all fun ds => s.place.degraded.any fun p => p.1 == ds && p.2 == c / 4)

/-- C of R129. -/
def countC (s : State) : Nat :=
  ((List.range 36).filter fun c => decide (c % 4 < popK s) && !chanFailed s c).length

/-- The three sums of Table 3-6 in register units, of the active or the staged bank. -/
def resSums (s : State) (act : Bool) : List Nat :=
  let qs := (s.ten.tenants.filter fun p => p.2.st != .free).map fun p => if act then p.2.qosA else p.2.qosS
  [(qs.map fun q => resOps q 0 + resOps q 1 + 4 * resBw q 3).sum, (qs.map fun q => resBw q 2 + resBw q 3).sum,
   (qs.map fun q => resOps q 2).sum]

/-- The three limits of Table 3-6 in register units, as fractions: numerators over 36 and 512. -/
def resLimits (s : State) : List (Nat × Nat) := [(3840 * countC s, 36), (2500 * countLive s, 512), (10000 * countLive s, 512)]

/-- Every sum of a bank is within its limit. -/
def withinLimits (s : State) (act : Bool) : Bool :=
  ((resSums s act).zip (resLimits s)).all fun p => decide (p.1 * p.2.2 ≤ p.2.1)

/-- The sum most over its limit in register units, and that limit (A005h). -/
def mostOver (s : State) : Nat × Nat :=
  let l := ((resSums s true).zip (resLimits s)).map fun p => (p.1, p.2.1 / p.2.2)
  l.foldl (fun a b => if (a.1 : Int) - a.2 < (b.1 : Int) - b.2 then b else a) (l.headD (0, 0))

/-- The limits are live: after a channel failure or a new Degraded die set, a sum of the active bank above its limit sets
CAUSE_OVERCOMMIT and logs A005h with the sum most over its new limit (R130). -/
def limitsRecompute (s : State) : State :=
  if withinLimits s true then s
  else
    let m := mostOver s
    raise 0x010 0xA005 1 m.1 m.2 { s with ten := { s.ten with overcommit := true } }

/-- CAUSE_OVERCOMMIT clears at an activation after which every sum is within its limit (R130). -/
def limitsAtActivation (s : State) : State :=
  let s := if s.ten.overcommit then s else limitsRecompute s
  if s.ten.overcommit && withinLimits s true then
    let m := mostOver s
    raise 0x010 0xA005 0 m.1 m.2 { s with ten := { s.ten with overcommit := false } }
  else s

/-! ### Buckets (R124) -/

/-- Depth of a reservation bucket: 2 µs and never less than one 64 B request. -/
def resDepth (ops bw : Nat) : Bucket := { ops := (max (2000 * ops) 16000 : Nat), bytes := (max (32000 * bw) 64000 : Nat) }

/-- Depth of a ceiling bucket: 2 µs. -/
def ceilDepth (ops bw : Nat) : Bucket := { ops := (2000 * ops : Nat), bytes := (32000 * bw : Nat) }

/-- Credit a bucket for `dt` ns at register rates, capped at its depth. -/
def Bucket.credit (b d : Bucket) (ops bw dt : Nat) : Bucket :=
  { ops := min d.ops (b.ops + (ops * dt : Nat)), bytes := min d.bytes (b.bytes + (16 * bw * dt : Nat)) }

/-- A bucket after a cost. -/
def Bucket.debit (b : Bucket) (bytes : Nat) : Bucket := { ops := b.ops - 16000, bytes := b.bytes - (1000 * bytes : Nat) }

/-- A bucket holds one operation of `bytes` bytes. -/
def Bucket.holds (b : Bucket) (bytes : Nat) : Bool := decide (16000 ≤ b.ops) && decide ((1000 * bytes : Nat) ≤ b.bytes)

/-- A queue whose every bucket is full. -/
def fullQueue (q : Qos) (c now : Nat) : FlowQ :=
  { reqs := [], conf := resDepth (resOps q c) (resBw q c), serv := resDepth (resOps q c) (resBw q c),
    ceil := ceilDepth (ceilOps q c) (ceilBw q c), at_ := now, deficit := 0, lvl1 := 0, lvl2 := 0 }

/-- Active QoS profile of a queue's tenant. -/
def queueQos (s : State) (q : Nat) : Qos := (tenantOf s (q / 4)).qosA

/-- A flow queue as it stands. -/
def queueOf (s : State) (q : Nat) : FlowQ :=
  match tfind s.ten.queues q with
  | some x => x
  | none => fullQueue (queueQos s q) (q % 4) s.time.mono

/-- Put back a flow queue. -/
def setQueue (q : Nat) (x : FlowQ) (s : State) : State := { s with ten := { s.ten with queues := tput s.ten.queues q x } }

/-- A queue with every bucket credited up to now (R126). DESIGN CHOICE (log entry 202): a ceiling bucket that begins with a
new profile keeps the stored level. -/
def credited (s : State) (q : Nat) : FlowQ :=
  let x := queueOf s q
  let p := queueQos s q
  let c := q % 4
  let dt := s.time.mono - x.at_
  let d := resDepth (resOps p c) (resBw p c)
  { x with conf := x.conf.credit d (resOps p c) (resBw p c) dt, serv := x.serv.credit d (resOps p c) (resBw p c) dt,
           ceil := x.ceil.credit (ceilDepth (ceilOps p c) (ceilBw p c)) (ceilOps p c) (ceilBw p c) dt, at_ := s.time.mono }

/-- Credit every queue and drain bucket up to now, as before and after a change of profiles (R124, R164). -/
def creditAll (s : State) : State := creditDrains <| (s.ten.queues.map (·.1)).foldl (fun s q => setQueue q (credited s q) s) s

/-- The four queues of a tenant come into being with full buckets, and its drain bucket is full (R124, R164). -/
def freshQueues (t : Nat) (s : State) : State :=
  let s := (List.range 4).foldl (fun s c =>
    setQueue (4 * t + c) (fullQueue (tenantOf s t).qosA c s.time.mono) s) s
  let x := tenantOf s t
  setTenant t { x with drainLevel := (16 * resBw x.qosA 2 * (s.front.coalesce + 1000) * 1000 : Nat), drainAt := s.time.mono } s

/-- The ceiling bucket holds one operation of `bytes` bytes; a ceiling of FFFFh has no bucket (R124). -/
def ceilHolds (s : State) (q : Nat) (x : FlowQ) (bytes : Nat) : Bool :=
  let p := queueQos s q
  (ceilOps p (q % 4) == 0xFFFF || decide (16000 ≤ x.ceil.ops)) &&
    (ceilBw p (q % 4) == 0xFFFF || decide ((1000 * bytes : Nat) ≤ x.ceil.bytes))

/-! ### Dynamic capacity (R76 to R80) -/

/-- The extent entries that are added to a head. -/
def addedTo (s : State) (h : Nat) : List (Nat × ExtentEnt) :=
  s.ten.extA.filter fun p => p.2.st == .added && p.2.accessDev == 0xFFF && p.2.head == h

/-- Every extent added to a head can be served or is Locked (R100); one that awaits a map rebuild does not count against it
(R101). -/
def extentsReady (s : State) (h : Nat) : Bool :=
  (addedTo s h).all fun p => derivedState s p.1 == 3 || derivedState s p.1 == 6

/-- Post a Dynamic Capacity record to a head's log: 0 add, 1 release request, 2 forced release, 5 released by the host, as CXL
numbers them (Table 2-5, R76, R79, R139; log entry 193). The extent's
tag is its tenant ID (R114). -/
def dcRecord (h action e tenant : Nat) (s : State) : State :=
  let r : EvRec :=
    { src := 0x010, sev := 0, code := action, p0 := e, p1 := tenant, p2 := 0, time := s.time.tbNow, seq := 0, rep := 0 }
  let s := logToHead h .dynamicCapacity .dynCap r s
  { s with mgmt := { s.mgmt with devLogs := s.mgmt.devLogs.add .dynCap .dynamicCapacity r } }

/-- The generation number of a head's extent list changes (R80). -/
def bumpGen (h : Nat) (s : State) : State := setHead h { headOf s h with extGen := (headOf s h).extGen + 1 } s

/-- Initiate an add: the extent is Pending on the head, which gets an Add Capacity record (R76, R114). DESIGN CHOICE (log
entry 200): a banked assignment adds at once, under the TENANT of the active bank. -/
def initiateAdd (e h : Nat) (s : State) : State :=
  let s := setExt e false true { extStg s e with head := h, st := .pending }
    (setExt e true false { extOf s e with head := h, st := .pending } s)
  dcRecord h 0 e (extOf s e).tenant (journalExt e s)

/-! ### Images (R207, R208) -/

/-- An image has entries that are not resolved (R207). -/
def imagePending (s : State) (r : RunRec) : Bool := s.persist.index.any fun p => p.1 / 16 / 2 ^ 32 == r.seq

/-- The drain-set groups of Degraded die sets are retired once no pending image holds a frame in them (R283). -/
def retireDrainGroups (s : State) : State :=
  match s.map.root with
  | none => s
  | some r =>
    let holds := fun (g : Nat) =>
      s.persist.image.any fun p => groupOf p.1 == g && s.persist.imageList.any fun x => x.seq == p.2.seq && imagePending s x
    let gone := (r.drain0 ++ r.drain1).filter fun g =>
      isDegraded s (dieSetOf g) && (groupAt s g).st == .metadata && !holds g
    gone.foldl (fun s g => commit (.groupRetired g 3) s) s

/-- Images with no entry left stop being pending, by a journaled record (R207). An image without dump frames was never pending (R194). -/
def retireImages (s : State) : State :=
  retireDrainGroups ((s.persist.imageList.filter fun r => r.dump != 0 && !imagePending s r).foldl (fun s r =>
    if s.map.waiting.contains (.imageRetired r.seq) then s else commit (.imageRetired r.seq) s) s)

/-- The image entry (DRAIN_SEQ, FRAME_NO, entry) of an index key. -/
def entryOfKey (k : Nat) : Nat × Nat × Nat := (k / 16 / 2 ^ 32, k / 16 % 2 ^ 32, k % 16)

/-- IMAGE_RESOLVED for an entry of the index (Table 7-6). -/
def resolveRec (r : Nat × Nat × Nat) : JRec := .imageResolved r.1 r.2.1 (2 ^ r.2.2)

/-- Discard the pending entries that satisfy a test; the discard is journaled (R208). -/
def discardEntries (p : DumpEnt → Bool) (s : State) : State :=
  let ks := (s.persist.index.filter fun x => p x.2).map (·.1)
  if ks.isEmpty then s else retireImages (ks.foldl (fun s k => commit (resolveRec (entryOfKey k)) s) s)

/-- Invalidate every front line that satisfies a test, dirty ones included (R178). -/
def dropLines (p : Line → Bool) (s : State) : State :=
  ((s.front.lines.filter fun x => x.2.st != .invalid && p x.2).map (·.1)).foldl (fun s i => dropLine i s) s

/-- An extent enters Releasing (R78, R610): its lines are invalidated, its image entries discarded, and a release request
outstanding for it ends (R289). -/
def releaseExt (e : Nat) (s : State) : State :=
  let x := extOf s e
  let s := moveExt e .releasing s
  let s := if x.accessDev = 0xFFF then bumpGen x.head s else s
  if x.ownerDev = 0xFFF then
    discardEntries (fun d => extentOfLfa d.lfa == e) (dropLines (fun l => extentOfLfa l.tag == e) s)
  else s

/-! ### Image restore (R209) and Unload (R179) -/

/-- An image entry whose data is on its way, and which the commit of its frame resolves (R209). -/
def entryHeld (s : State) (res : Nat × Nat × Nat) : Bool :=
  (s.front.asms.any fun p => p.2.resolves.contains res) || s.front.stored.any fun p => p.2 == res

/-- The line of an entry, decrypted with its tenant's key (R192, R208). -/
def entryData (key : Nat) (res : Nat × Nat × Nat) (d : DumpEnt) : FrontLine :=
  (Config.xts key (2 ^ 127 + res.1 * 2 ^ 64 + (16 * d.lfa + d.line)) 0).dec d.data

/-- Restore one pending entry under its tenant's key (R208, R209). In write-back it is stored as a dirty line and resolved; in
write-through it is stored and its frame cleaned at once, whose commit resolves it; in Off and Draining it is merged into its frame,
whose commit resolves it. Without room it waits. -/
def restoreEntry (key k : Nat) (d : DumpEnt) (s : State) : State :=
  let line := 16 * d.lfa + d.line
  let part : Nat := bits (profOf s.ten.profA (extOf s (extentOfLfa d.lfa)).prof) 0 3
  let res := entryOfKey k
  let x := entryData key res d
  let pois : Option PoisonSrc := if d.poison then some .internal else none
  if journalFull s || entryHeld s res then s
  else if s.front.mode = .off ∨ s.front.mode = .draining then
    mergeWrite line d.tenant x d.valid (if d.poison then some true else none) none [res] [] s
  else
    let v := lineFor line d.tenant part 0 s
    match v.1 with
    | none => v.2
    | some i =>
      let s := storeBytes i x d.valid d.dirtyHl pois v.2
      if s.front.mode = .writeBack then commit (resolveRec res) s
      else
        let (q, f, n) := res
        markUrgent d.lfa { s with front := { s.front with stored := s.front.stored ++ [(d.lfa, q, f, n)] } }

/-- Pending entries of a tenant. -/
def pendingOf (s : State) (t : Nat) : List (Nat × DumpEnt) := s.persist.index.filter fun p => p.2.tenant == t

/-- Restore the pending entries of a tenant as far as there is room; while some are left, its frames are cleaned urgently (R209). -/
def restoreTenant (t : Nat) (s : State) : State :=
  match tenantKey s t with
  | none => s
  | some key =>
    let s := (pendingOf s t).foldl (fun s p => restoreEntry key p.1 p.2 s) s
    let s := retireImages s
    if (pendingOf s t).isEmpty then s
    else
      let lfas := (s.front.lines.filter fun p => p.2.tenant == t && p.2.st == .dirty).map (·.2.tag)
      lfas.foldl (fun s l => markUrgent l s) s

/-- ASCII codes of a text. -/
def ascii (t : String) : List Nat := t.toList.map (·.toNat)

/-- The check value of a key pair (R134). -/
def keyCheckOf (t pair : Nat) : Nat :=
  Config.sha384 (ascii "CA4800-KCV" ++ (leBytes 2 t ++ leBytes 64 pair).map (·.toNat)) % 2 ^ 64

/-- A load ends (R134): the slot is Loaded, KEY_CHECK is set if it was 0, and A002h is logged. A slot that held the key already, or
whose key an erasure destroyed meanwhile, does not change. -/
def finishLoad (t : Nat) (s : State) : State :=
  let x := tenantOf s t
  match x.slot with
  | none => s
  | some k =>
    match slotOf s k with
    | .loading pair =>
      let s := setSlot k (.loaded pair) s
      let s := if x.keyCheck = 0 then commit (.tenantWord t 0x30 true true (keyCheckOf t pair)) s else s
      raise 0x036 0xA002 t 0 0 s
    | _ => s

/-- Loads whose restore can go on, or is done (R209). -/
def checkLoads (s : State) : State :=
  s.ten.loads.foldl (fun s p =>
    let s := restoreTenant p.1 s
    if (pendingOf s p.1).isEmpty && !journalFull s then
      completeWaiting p.2 0xC021 (if (tenantOf s p.1).st = .active then .success else .invalidState) .none
        (finishLoad p.1 { s with ten := { s.ten with loads := s.ten.loads.filter (· != p) } })
    else s) s

/-- A tenant has a line that counts as dirty. -/
def tenantDirty (s : State) (t : Nat) : Bool := s.front.lines.any fun p => p.2.tenant == t && countsDirty p.2

/-- Zeroise a tenant's slot after its lines are gone (R138, R179). -/
def unloadSlot (t : Nat) (s : State) : State :=
  let s := dropLines (fun l => l.tenant == t) s
  match (tenantOf s t).slot with
  | some k => setSlot k .empty s
  | none => s

/-- Unloads whose last dirty frame has been cleaned complete (R179). -/
def checkUnloads (s : State) : State :=
  s.front.unloads.foldl (fun s p =>
    if tenantDirty s p.1 then s
    else
      complete p.2 0xC022 .success .none
        (unloadSlot p.1 { s with front := { s.front with unloads := s.front.unloads.filter (· != p) } })) s

end Sys2Proof.Machine
end

