-- ==== Sys2Proof/Machine/Records.lean ====
section
/-!
DEFINITION. Byte layouts of the journal, the checkpoint header and the drain image (Tables 5-2, 5-3, 7-5, 7-6, 7-7, 8-10 and 9-4), the
metadata shares of their frames (Table 7-3), and where their positions lie (R249, R251, R253).
-/
namespace Sys2Proof.Machine

/-! ### Journal records (R246, R247) -/

/-- REC_TYPE of a record (Tables 7-6, 8-10 and 9-4). -/
def recType : JRec → Nat
  | .mapSet .. => 0x01 | .mapMove .. => 0x02 | .mapTrim .. => 0x03 | .mapPoison .. => 0x04
  | .groupOpen .. => 0x10 | .groupClose .. => 0x11 | .groupPendingReset .. => 0x12 | .groupFree .. => 0x13
  | .groupWear .. => 0x14 | .tileFailed .. => 0x15 | .tileSubstitute .. => 0x16 | .groupRetired .. => 0x17
  | .dieSetDegraded .. => 0x18 | .extentWithhold .. => 0x19 | .groupWeather .. => 0x1A | .groupReads .. => 0x1B
  | .groupTrim .. => 0x1C | .imageRelocated .. => 0x1D
  | .tenantWord .. => 0x20 | .extentEntry .. => 0x21 | .classProfile .. => 0x22 | .bankSwap .. => 0x23
  | .imageResolved .. => 0x30 | .imageRetired .. => 0x31 | .ckptBegin .. => 0x40 | .ckptEnd .. => 0x41
  | .other c => c

/-- Banks of a record: bit 0 active, bit 1 staged. -/
def recBanks (act stg : Bool) : Nat := b2n act + 2 * b2n stg

/-- Pairs of a group and a value (Table 9-4). -/
def recPairs (xs : List (Nat × Nat)) : List Byte := leBytes 1 xs.length ++ xs.flatMap fun p => leBytes 3 p.1 ++ leBytes 4 p.2

/-- PAYLOAD of a record before its padding (Tables 7-6, 8-10 and 9-4). -/
def recPayload : JRec → List Byte
  | .mapSet lfa e w t => leBytes 5 lfa ++ leBytes 8 (entWord e lfa) ++ leBytes 8 w ++ leBytes 2 t
  | .mapMove lfa old new w o => leBytes 5 lfa ++ leBytes 5 old ++ leBytes 5 new ++ leBytes 8 w ++ leBytes 1 o
  | .mapTrim first n t => leBytes 5 first ++ leBytes 4 n ++ leBytes 2 t
  | .mapPoison lfa m => leBytes 5 lfa ++ leBytes 2 m.toNat
  | .groupOpen g r v => leBytes 3 g ++ leBytes 1 r ++ leBytes 8 v
  | .groupClose g n => leBytes 3 g ++ leBytes 3 n
  | .groupPendingReset g => leBytes 3 g
  | .groupFree g => leBytes 3 g
  | .groupWear g c => leBytes 3 g ++ leBytes 3 c
  | .tileFailed g q c => leBytes 3 g ++ leBytes 1 q ++ leBytes 1 c
  | .tileSubstitute g q v => leBytes 3 g ++ leBytes 1 q ++ leBytes 1 v
  | .groupRetired g c => leBytes 3 g ++ leBytes 1 c
  | .dieSetDegraded d q => leBytes 2 d ++ leBytes 1 q
  | .extentWithhold e w => leBytes 3 e ++ leBytes 1 (b2n w)
  | .groupWeather xs => recPairs xs
  | .groupReads xs => recPairs xs
  | .groupTrim g a b c => leBytes 3 g ++ leBytes 2 (unsignedOf 5 a + unsignedOf 5 b * 32 + unsignedOf 5 c * 1024)
  | .imageRelocated q set w n => leBytes 4 q ++ leBytes 1 set ++ leBytes 4 w ++ leBytes 4 n
  | .tenantWord t off a b v => leBytes 2 t ++ leBytes 1 off ++ leBytes 1 (recBanks a b) ++ leBytes 8 v
  | .extentEntry e a b x => leBytes 3 e ++ leBytes 1 (recBanks a b) ++ extBytes x
  | .classProfile p a b v => leBytes 1 p ++ leBytes 1 (recBanks a b) ++ leBytes 4 v
  | .bankSwap n d => leBytes 8 n ++ leBytes 16 d
  | .imageResolved q f m => leBytes 4 q ++ leBytes 4 f ++ leBytes 2 m
  | .imageRetired q => leBytes 4 q
  | .ckptBegin slot q => leBytes 1 slot ++ leBytes 8 q
  | .ckptEnd slot q => leBytes 1 slot ++ leBytes 8 q
  | .other _ => []

/-- REC_COMMIT of a REC_SEQ: the complement of its bits [31:0] (Table 7-5). -/
def recCommit (seq : Nat) : Nat := 2 ^ 32 - 1 - seq % 2 ^ 32

/-- The 64 bytes of a committed record (Table 7-5). -/
def recFrame (type flags seq : Nat) (payload : List Byte) : List Byte :=
  let b := leBytes 1 type ++ leBytes 1 flags ++ zeros 2 ++ leBytes 8 seq ++ (payload ++ zeros 44).take 44
  b ++ leBytes 4 (crc32c b) ++ leBytes 4 (recCommit seq)

/-- The bytes of a staged record. -/
def recBytes (e : JEnt) : List Byte := recFrame (recType e.body) (b2n e.spilled) e.seq (recPayload e.body)

/-- A record's bytes are committed: REC_CRC and REC_COMMIT are both correct (R246). -/
def recCommitted (b : List Byte) : Bool :=
  le b 56 4 == crc32c (b.take 56) && le b 60 4 == recCommit (le b 4 8)

/-- The 4 KiB of journal frame n: FRAME_HEADER with the REC_SEQ of slot 1, the records, and PAD records to the end (R249). -/
def journalFrameBytes (n : Nat) (f : JFrame) : List Byte :=
  recFrame 0x7F 0 f.first (leBytes 8 n ++ leBytes 8 f.ckpt) ++ f.ents.flatMap recBytes ++
    (List.range (63 - f.ents.length)).flatMap fun i => recFrame 0x7E 0 (f.first + f.ents.length + i) []

/-! ### Frames that are not encrypted -/

/-- The 4 KiB of a frame from its bytes. -/
def frameOfBytes (b : List Byte) : FrameData := BitVec.ofNat 32768 (le (b ++ zeros 4096) 0 4096)

/-- The codewords of a frame that is written as it is (R192, R251). -/
def plainFrame (d : FrameData) : Cipher := (List.range 16).map fun i => getFrontLine d i

/-! ### Checkpoint header (R253) -/

/-- Map frames of a checkpoint (Table 7-7 MAP_FRAMES). -/
def mapFrames (e : Nat) : Nat := 512 * e

/-- Bytes 0 to 51 of a header frame (Table 7-7). -/
def ckptHead (slot : Nat) (c : Ckpt) : List Byte :=
  leBytes 4 0x4B1A3C70 ++ leBytes 1 slot ++ leBytes 1 1 ++ zeros 2 ++ leBytes 8 c.seq ++ leBytes 8 c.startRec ++
    leBytes 4 c.journalStart ++ leBytes 8 c.wseqHigh ++ leBytes 1 c.popCh ++ leBytes 1 c.popPk ++ leBytes 1 c.popDies ++ zeros 1 ++
    leBytes 4 c.extents ++ leBytes 4 Config.tableFrames ++ leBytes 4 (mapFrames c.extents)

/-- A header frame (Table 7-7). -/
def ckptHeader (slot : Nat) (c : Ckpt) : List Byte :=
  ckptHead slot c ++ leBytes 4 (crc32c (ckptHead slot c)) ++ leBytes 4 (recCommit c.seq) ++ zeros 4036

/-- A header that decodes is valid: CK_MAGIC, CK_CRC, CK_COMMIT and POPULATION are correct (R253). -/
def headerValid (s : State) (b : List Byte) : Bool :=
  le b 0 4 == 0x4B1A3C70 && le b 52 4 == crc32c (b.take 52) && le b 56 4 == recCommit (le b 8 8) &&
    le b 36 1 == s.media.popCh && le b 37 1 == s.media.popPk && le b 38 1 == s.media.popDies

/-- The checkpoint of a slot, if its header decodes and is valid; `bad` names slots whose header does not decode. -/
def validSlot (s : State) (bad : List Nat) (slot : Nat) (c : Option Ckpt) : Option Ckpt :=
  c.filter fun c => !bad.contains slot && headerValid s (ckptHeader slot c)

/-- The map frame m of a checkpoint: 512 entries of 8 B (R251). -/
def mapFrameBytes (c : Ckpt) (m : Nat) : List Byte :=
  (List.range 512).flatMap fun i => leBytes 8 (entWord (c.map.get (512 * m + i)) (512 * m + i))

/-! ### The drain image (R191, R192) -/

/-- LINE of a dump entry (Table 5-3). -/
def dumpLineNo (d : DumpEnt) : Nat := 16 * d.lfa + d.line

/-- XTS over a dump slot: one data unit of 256 B, under a tweak whose bit 127 is 1 (R192). -/
def dumpXts (key seq line : Nat) : Config.LinePerm := Config.xts key (2 ^ 127 + seq * 2 ^ 64 + line) 0

/-- A dump entry (Table 5-3). -/
def dumpEntBytes (d : DumpEnt) : List Byte :=
  leBytes 32 d.valid.toNat ++ leBytes 5 (dumpLineNo d) ++ leBytes 2 d.tenant ++ leBytes 1 (b2n d.poison + d.dirtyHl.toNat * 2)

/-- The 4 KiB of an image frame: a journal frame, or a dump frame (R187, Table 5-2). DESIGN CHOICE (log entry 210): the FRAME_HEADER
of a tail frame carries its FRAME_NO as the journal frame number, and CKPT_SEQ 0. -/
def imageBytes (f : ImgFrame) : List Byte :=
  match f.body with
  | .tail rs => journalFrameBytes f.no { first := ((rs.head?).map (·.seq)).getD 0, ents := rs, ckpt := 0 }
  | .dump es =>
    leBytes 4 0x0D4A11C3 ++ leBytes 4 f.seq ++ leBytes 4 f.no ++ leBytes 2 es.length ++ zeros 2 ++
      (es.flatMap dumpEntBytes ++ zeros 520).take 520 ++ zeros 232 ++ es.flatMap fun d => leBytes 256 d.data.toNat

/-! ### Positions (R249, R251) -/

/-- Group of a position in an area whose groups are filled one after another. DESIGN CHOICE (log entry 211): the rings of the journal
and the slots of the checkpoint are filled group by group, in the order of MAP_ROOT. -/
def areaGroup (gs : List Nat) (n : Nat) : Option Nat := gs[n / 131072 % max 1 gs.length]?

/-- Groups of a journal ring. -/
def ringGroups (s : State) (ringB : Bool) : List Nat :=
  match s.map.root with
  | some r => (if ringB then r.jb else r.ja).take (min r.ja.length r.jb.length)
  | none => []

/-- PFA of journal frame n in a ring (R249). -/
def journalPfa (s : State) (n : Nat) (ringB : Bool) : Option Nat :=
  (areaGroup (ringGroups s ringB) n).map fun g => pfaOf g (n % 131072)

/-- Groups of a checkpoint slot. -/
def slotGroups (s : State) (slot : Nat) : List Nat :=
  match s.map.root with
  | some r => if slot = 0 then r.ck0 else r.ck1
  | none => []

/-- PFA of frame m of a checkpoint slot (R251). -/
def ckptPfa (s : State) (slot m : Nat) : Option Nat := (areaGroup (slotGroups s slot) m).map fun g => pfaOf g (m % 131072)

/-- Frames of a pass: tables, map frames, and the header last (R251). -/
def passFrames (c : Ckpt) : Nat := Config.tableFrames + mapFrames c.extents + 1

/-- Tile groups of a drain set (R190, R244). -/
def drainGroups (s : State) (set : Nat) : List Nat :=
  match s.map.root with
  | some r => if set = 0 then r.drain0 else r.drain1
  | none => []

/-- A die set's group of a drain set. -/
def drainGroup (s : State) (set ds : Nat) : Option Nat := (drainGroups s set).find? fun g => dieSetOf g == ds

end Sys2Proof.Machine
end

