-- ==== Sys2Proof/Machine/PersistOps.lean ====
section
/-!
DEFINITION. Operations of persistence and hold-up (05_persistence_and_holdup.md): run records, usable energy and the dirty
budget (R195, R200 to R203), front-cache mode changes that the budget makes (R169, R171, R202), drain sets and the start of a
drain (R185 to R190).
-/
namespace Sys2Proof.Machine

/-! ### Run records (R193) -/

/-- The 32 bytes of a run record (Table 5-4). -/
def runBytes (r : RunRec) : List Byte :=
  leBytes 1 r.kind ++ leBytes 1 r.triggers ++ leBytes 1 r.set ++ zeros 1 ++ leBytes 4 r.seq ++ leBytes 4 r.startW ++
    leBytes 4 r.rounds ++ leBytes 4 r.tail ++ leBytes 4 r.dump ++ leBytes 4 r.time ++ leBytes 2 r.vStart ++ leBytes 2 r.vEnd

/-- A run record of a kind with the last drain's position. -/
def runOf (kind : Nat) (s : State) : RunRec :=
  { kind := kind, triggers := 0, set := s.persist.armed, seq := s.persist.nextDrain - 1, startW := 0, rounds := 0, tail := 0,
    dump := 0, time := 0, vStart := 0, vEnd := 0 }

/-- Write a run record; it replaces the one before it (R194). -/
def writeRun (r : RunRec) (s : State) : State :=
  cellarCommitNow 2 0x02 (runBytes r) { s with persist := { s.persist with run := some r } }

/-- RUN_OPEN before the front cache acknowledges in write-back mode (R193). -/
def openRun (s : State) : State :=
  match s.persist.run with
  | some r => if r.kind = 1 then s else writeRun (runOf 1 s) s
  | none => writeRun (runOf 1 s) s

/-- RUN_CLOSED when nothing is at risk any more (R193). -/
def checkRunClosed (s : State) : State :=
  match s.persist.run with
  | some r =>
    if r.kind = 1 ∧ s.front.mode ≠ .writeBack ∧ dirtyLines s = 0 ∧ s.map.staging.isEmpty then writeRun (runOf 2 s) s else s
  | none => s

/-- The Dirty Shutdown Count (R205). -/
def dirtyCount (s : State) : Nat := spreadRead s 0

/-- An unsafe shutdown is counted, at most once a start (R205, R580). -/
def countUnsafe (s : State) : State :=
  if s.persist.counted then s
  else
    let s := writeRun { runOf 2 s with triggers := 128, rounds := dirtyCount s + 1 } s
    let s := spreadAdd 0 1 { s with persist := { s.persist with counted := true } }
    raise 0x011 0x5005 (dirtyCount s) 0 0 s

/-! ### Journal frames (R184, R249) -/

/-- A journal frame of records in sequence (R249). -/
def journalFrame (ckpt : Nat) (es : List JEnt) : JFrame := { first := ((es.head?).map (·.seq)).getD 0, ents := es, ckpt := ckpt }

/-- A journal frame is on the medium at both positions (R249): its records leave the staging area and their slots of the spill region
(R541), and records that waited take their room. Once the records replayed at the start are in journal frames, the images that hold tail
frames only leave IMAGE_LIST (R194). -/
def frameLanded (n : Nat) (f : JFrame) (s : State) : State :=
  let keep := fun (e : JEnt) => !(f.ents.any fun x => x.seq == e.seq)
  let s := { s with map := { s.map with
    flight := tdel s.map.flight n, staging := s.map.staging.filter keep, spill := s.map.spill.filter keep } }
  let tailOnly := s.persist.imageList.any fun r => r.dump == 0
  let s := if tailOnly && !(s.map.staging.any fun e => decide (e.seq < s.map.replayed)) then
      writeImageList (s.persist.imageList.filter fun r => r.dump != 0) s else s
  checkRunClosed (drainWaiting s.map.waiting.length s)

/-- A journal frame is programmed in a ring: it is on the medium, and it has landed when the other ring has it too (R249). -/
def journalPut (n : Nat) (ringB : Bool) (s : State) : State :=
  match tfind s.map.flight n with
  | none => s
  | some x =>
    let x := { x with doneA := x.doneA || !ringB, doneB := x.doneB || ringB }
    -- the frames of the lap before went with the reset of their group (R250)
    let old := tfilter s.map.jframes fun k _ => decide (n / 131072 < k / 131072 + (ringGroups s ringB).length)
    let s := { s with map := { s.map with jframes := tput old n x.frame, flight := tput s.map.flight n x } }
    if x.doneA && x.doneB then frameLanded n x.frame s else s

/-- Records of the staging area that no journal frame under way holds. -/
def unprogrammed (s : State) : List JEnt :=
  s.map.staging.filter fun e => !(s.map.flight.any fun p => p.2.frame.ents.any fun x => x.seq == e.seq)

/-! ### Drain sets (R190) -/

/-- Live die sets of the drain sets, ascending (R190, R283): a die set whose group has left one set has left both. -/
def drainSets (s : State) : List Nat := (liveSets s).filter fun ds => (drainGroup s 0 ds).isSome && (drainGroup s 1 ds).isSome

/-- Die sets that take part in a drain: those without a tile reset in progress (R189). -/
def drainParts (s : State) : List Nat := (drainSets s).filter fun ds => !resetting s ds

/-- S_d of R195: the die sets of the drain sets that are live, less the resets that may be in progress. -/
def modelSd (s : State) : Nat := (drainSets s).length - ceilDiv (countS s) 16

/-- F of R195. -/
def modelFrames (d : Nat) : Nat := ceilDiv (4096 * d) 13 + 64

/-- Rounds of a drain of d MiB. -/
def modelRounds (s : State) (d : Nat) : Nat := ceilDiv (modelFrames d) (max 1 (modelSd s))

/-- T_model(d) in µs (R195). -/
def modelTime (s : State) (d : Nat) : Nat := 500 + modelRounds s d * 54

/-- W of a drain set. -/
def setW (s : State) (i : Nat) : Nat := if i = 0 then s.persist.w0 else s.persist.w1

/-- Put W of a drain set. -/
def putW (i w : Nat) (s : State) : State :=
  if i = 0 then { s with persist := { s.persist with w0 := w } } else { s with persist := { s.persist with w1 := w } }

/-- Pending images. -/
def pendingImages (s : State) : Nat := (s.persist.imageList.filter (imagePending s)).length

/-- A drain set holds an image that is listed. -/
def setHolds (s : State) (i : Nat) : Bool := s.persist.imageList.any fun r => r.set == i

/-- A set that holds no image and has too little room for a drain of 96 MiB is to be reset (R190). -/
def resetDue (s : State) (i : Nat) : Bool := !setHolds s i && decide (131072 < setW s i + modelRounds s 96)

/-- Queue the resets of a drain set's groups (R190, Table 8-3). DESIGN CHOICE (log entry 214): they run at priority 5. -/
def resetDrainSet (i : Nat) (s : State) : State :=
  if s.persist.setReset.contains i || !resetDue s i then s
  else
    let gs := (drainGroups s i).filter fun g => !isDegraded s (dieSetOf g) && (groupAt s g).wptr != 0
    let s := { s with persist := { s.persist with
      image := tfilter s.persist.image fun p _ => !(drainGroups s i).contains (groupOf p) } }
    if gs.isEmpty then putW i 0 s
    else
      gs.foldl (fun s g => addWork (dieSetOf g) { prio := 5, kind := .reset g false } s)
        { s with persist := { s.persist with setReset := i :: s.persist.setReset } }

/-- W of a drain set returns to 0 when the last of its groups has been reset (R190). -/
def drainSetReset (s : State) : State :=
  let done := s.persist.setReset.filter fun i =>
    (drainGroups s i).all fun g => isDegraded s (dieSetOf g) || (groupAt s g).wptr == 0
  done.foldl (fun s i => putW i 0 { s with persist := { s.persist with setReset := s.persist.setReset.filter (· != i) } }) s

/-- The set to arm: without an image, not being reset, and with more room (R186). The choice between sets is the model's. -/
def armChoice (s : State) : Nat :=
  let bad := fun (i : Nat) => b2n (setHolds s i || s.persist.setReset.contains i)
  if bad 0 = bad 1 then (if s.persist.w1 < s.persist.w0 then 1 else 0) else bad 0

/-- Arm the drain sequencer with its set, W and drain sequence number (R186). -/
def armDrain (s : State) : State :=
  let s := resetDrainSet 1 (resetDrainSet 0 s)
  let s := { s with persist := { s.persist with armed := armChoice s } }
  cellarCommitNow 2 0x0D (leBytes 1 s.persist.armed ++ leBytes 4 s.persist.nextDrain ++ leBytes 4 s.persist.w0 ++
    leBytes 4 s.persist.w1) s

/-! ### Energy and budget (R200 to R203) -/

/-- V_end in µV (R200). -/
def vEndUv (p : HoldPolicy) (esr : Nat) : Nat := 1000 * p.vCutoff + 100000 * p.holdPower * esr / max 1 p.vCutoff

/-- E_u in µJ at a voltage in µV (R200), rounded down. -/
def energyAt (p : HoldPolicy) (cUf esr vUv : Nat) : Nat :=
  if vUv ≤ vEndUv p esr then 0 else cUf * (vUv * vUv - vEndUv p esr * vEndUv p esr) / 2000000000000

/-- E_u now: from the last good measurement, 0 without one (R199, R200). -/
def usableEnergy (s : State) : Nat :=
  if s.persist.measured then energyAt s.persist.policy s.persist.cUf s.persist.esr (10000 * s.persist.vNow) else 0

/-- The conditions of R201 at d MiB. -/
def budgetFits (s : State) (e d : Nat) : Bool :=
  decide (10 * s.persist.policy.holdPower * modelTime s d ≤ 6 * e) &&
    decide (setW s s.persist.armed + modelRounds s d ≤ 131072) && decide (550000 ≤ e) && decide (pendingImages s < 2)

/-- The largest budget of 0 to 96 MiB that an energy allows (R201). -/
def budgetFor (s : State) (e : Nat) : Nat :=
  if modelSd s = 0 then 0
  else
    match ((List.range 96).reverse.map (· + 1)).find? (budgetFits s e) with
    | some d => d
    | none => 0

/-- The dirty budget now, with the lowered budgets of a measurement and of bracing (R198, R437). -/
def budgetNow (s : State) : Nat :=
  let b := budgetFor s s.persist.energy
  let b := match s.persist.testCap with
    | some t => min b t
    | none => b
  match s.persist.braceCap with
  | some t => min b t
  | none => b

/-- The mode that follows the budget in write-back and write-through (Table 4-7). -/
def modeByBudget (s : State) : State :=
  if s.front.mode = .writeBack ∧ s.front.budget < 1 then
    urgentAll { s with front := { s.front with mode := .writeThrough } }
  else if s.front.mode = .writeThrough ∧ 1 ≤ s.front.budget then
    openRun { s with front := { s.front with mode := .writeBack } }
  else s

/-- The Memory Module record of a dirty budget below 1 MiB (R202, 5004h). DESIGN CHOICE (log entry 197): it carries source 011h. -/
def budgetLow (s : State) : State := raise 0x011 0x5004 (min (s.persist.energy / 1000) 0xFFFFFFFF) s.front.budget 0 s

/-- Write DIRTY_BUDGET, with the mode change and the record of R202. -/
def setBudget (b : Nat) (s : State) : State :=
  if b = s.front.budget then s
  else
    let old := s.front.budget
    let s := { s with front := { s.front with budget := b } }
    let s := if 1 ≤ old ∧ b < 1 then budgetLow s else s
    checkRunClosed (modeByBudget s)

/-- Recompute the dirty budget and spill mode (R201, R203). -/
def budgetUpdate (s : State) : State :=
  let spill := decide (6 * s.persist.energy < 10 * s.persist.policy.holdPower * modelTime s 0)
  setBudget (budgetNow s) { s with persist := { s.persist with spill := spill } }

/-- Recompute E_u, then the budget (R200, R201). -/
def energyUpdate (s : State) : State := budgetUpdate { s with persist := { s.persist with energy := usableEnergy s } }

/-! ### The start of a drain (R185 to R189) -/

/-- The drain sequencer is armed: phase 10 of the start has ended (R186, Table 20-1). -/
def drainArmed (s : State) : Bool := s.start.phases.contains 10

/-- A measurement is abandoned without a result: HOLD_TEST falls, the budget returns, and it repeats 60 s later (R199). -/
def abandonMeasure (s : State) : State :=
  if s.persist.phase = .idle ∨ s.persist.phase = .retry then s
  else
    let c := s.persist.measureCci
    let s := budgetUpdate { s with persist := { s.persist with
      phase := .retry, holdTest := false, testCap := none, retryAt := some (s.time.mono + 60000000000), measureCci := none } }
    match c with
    | some k => endBgOn k 0xC722 .aborted s
    | none => s

/-- An abandoned measurement is made 60 s from now: admission resumes, or bracing ends (R199); a failed one keeps its time. -/
def repeatMeasure (s : State) : State :=
  if s.persist.phase = .retry ∧ s.persist.holdState ≠ 3 then
    { s with persist := { s.persist with retryAt := some (s.time.mono + 60000000000) } }
  else s

/-- A frame in assembly whose program has started (R187 step 2). -/
def asmStarted (s : State) (id : Nat) : Bool :=
  s.place.busy.any fun p => match p.2.cur with
    | some { kind := .frame a, .. } => a == id
    | _ => false

/-- Return the lines of an abandoned assembly to dirty (R187 step 2). -/
def undoLines (a : Asm) (s : State) : State :=
  a.lines.foldl (fun s i =>
    let l := lineAt s i
    if l.tag = a.lfa ∧ (l.st = .cleaning ∨ l.st = .cleaningRewritten) then putLine i { l with st := .dirty } s else s) s

/-- Abandon a frame that has not started: a clean's lines stay dirty, a copy that is still being
read is made again, and a merged write or a copy at hand is placed again. -/
def abandonAsm (id : Nat) (s : State) : State :=
  match tfind s.front.asms id with
  | none => s
  | some a =>
    let drop := fun (b : BusySt) => { b with waiting := b.waiting.filter fun w => w.kind != .frame id }
    let s := { s with place := { s.place with busy := tmap s.place.busy fun _ b => drop b } }
    let again : Asm := { a with pfa := none, programming := false, begun := a.begun && !a.merging }
    let keep := { s with front := { s.front with asms := tput s.front.asms id again } }
    match a.kind with
    | .clean => dropAsm id (undoLines a s)
    | .merge _ => dropReads (.merge id) keep
    | .copy old _ =>
      if a.cipher.isSome then keep
      else
        let racks := s.place.racks.map fun r => if r.group = groupOf old then { r with todo := a.lfa :: r.todo } else r
        dropAsm id { s with place := { s.place with racks := racks } }

/-- Withhold the request credits of every head (R87, R187). -/
def withholdAll (b : Bool) (s : State) : State :=
  { s with heads := tmap s.heads fun _ x => { x with withheld := b } }

/-- A checkpoint pass in progress is abandoned: its slot is not valid, and a new pass is due (Table 7-9). -/
def abandonPass (rc : Rc) (s : State) : State :=
  match s.map.pass with
  | none => s
  | some x =>
    let c := s.map.passCci
    let s := { s with map := { s.map with pass := none, passDone := 0, passDue := true,
                                          passCci := if rc = .aborted then none else c } }
    -- its waiting programs and resets go with it
    let gone := fun (w : Work) => match w.kind with
      | .ckpt _ => true
      | .reset g _ => (slotGroups s x.slot).contains g
      | _ => false
    let s := { s with place := { s.place with
      busy := tmap s.place.busy fun _ b => { b with waiting := b.waiting.filter fun w => !gone w } } }
    match c with
    | some k => if rc = .aborted then endBgOn k 0xC342 .aborted s else s
    | none => s

/-- A GPF response goes out on a head's link (R86, R87). -/
def answerGpf (phase h : Nat) (s : State) : State :=
  setHead h { headOf s h with gpfSent := (headOf s h).gpfSent ++ [phase], gpfWait := false } s

/-- The Phase 2 responses that a drain owes go to the heads whose links are still up (R87, R89, R90). -/
def answerPhase2 (s : State) : State :=
  { s with heads := tmap s.heads fun _ x =>
      { x with gpfWait := false, gpfSent := if x.gpfWait && x.linkUp then x.gpfSent ++ [2] else x.gpfSent } }

/-- A drain stops every training in progress: the last good delays are restored, and a Retrain Media Channel ends (R356). -/
def stopTraining (s : State) : State :=
  let stop := fun (x : ChanSt) => if x.mode = .training ∧ x.pkgs ≠ [] then { x with mode := .inService, trainCci := none } else x
  let cs := (s.media.chans.filter fun p => p.2.mode == .training && !p.2.pkgs.isEmpty).filterMap fun p => p.2.trainCci
  let s := { s with media := { s.media with chans := tmap s.media.chans fun _ x => stop x } }
  cs.foldl (fun s c => endBgOn c 0xC351 .aborted s) s

/-- A drain's record at its trigger, with the armed set and sequence number (R186, R187). -/
def DrainRun.start (triggers : Nat) (heads : List Nat) (s : State) : DrainRun :=
  { triggers := triggers, set := s.persist.armed, seq := s.persist.nextDrain, startW := setW s s.persist.armed,
    at_ := s.time.mono, vStart := s.persist.vNow, heads := heads, parts := drainParts s, frames := none,
    left := [], rounds := [], tails := 0, dumps := 0, faults := [] }

/-- The domains of a drain run from its trigger on: those that Idle gated go on at once, and those that Dormant stopped start (R467,
R468, R491). -/
def drainClocks (s : State) : State :=
  let mq := (List.range 9).filter fun q => (List.range 4).any fun k => (chanOf s (4 * q + k)).dorm
  ([7, 11, 8, 9] ++ (List.range 9).map (20 + ·)).foldl (fun s d =>
    if domOf s d = DomState.gated ∨ (domOf s d = DomState.stopped ∧ (d < 20 ∨ mq.contains (d - 20))) then startDom d s else s) s

/-- Start a drain, or note a second trigger of the one that runs (R187, R89). `bit` is the trigger's bit of Table 5-4. -/
def drainStart (bit : Nat) (heads : List Nat) (s : State) : State :=
  let addBit := fun (t : Nat) => if bits t bit 1 = 1 then t else t + 2 ^ bit
  match s.persist.drain with
  | some d =>
    { s with persist := { s.persist with drain := some { d with triggers := addBit d.triggers, heads := d.heads ++ heads } } }
  | none =>
    let s := abandonMeasure (withholdAll true s)
    let ids := (s.front.asms.map (·.1)).filter fun id => !asmStarted s id
    let s := abandonPass .aborted (ids.foldl (fun s id => abandonAsm id s) s)
    let s := raise 0x011 0x0003 (2 ^ bit) s.persist.nextDrain s.persist.vNow s
    let s := drainClocks (stopTraining s)
    { s with persist := { s.persist with drain := some (DrainRun.start (2 ^ bit) heads s) } }

/-! ### The drain image (R190 to R193) -/

/-- Cut a list into pieces of `n`. -/
def chunks {α : Type} (n : Nat) : Nat → List α → List (List α)
  | 0, _ => []
  | k + 1, l => if l.isEmpty then [] else l.take n :: chunks n k (l.drop n)

/-- Lines that a drain dumps, in directory order: those that count as dirty, but for the lines of a tenant whose key slot is
Erased and of an extent in Releasing; each is encrypted with its tenant's key (R192). -/
def dumpLines (seq : Nat) (s : State) : List DumpEnt :=
  (s.front.lines.filter fun p => countsDirty p.2 && !slotErased s p.2.tenant &&
    (extOf s (extentOfLfa p.2.tag)).st != .releasing).map fun p =>
      let line := 16 * p.2.tag + p.1 / 16 % 16
      { lfa := p.2.tag, line := p.1 / 16 % 16, tenant := p.2.tenant, valid := p.2.valid, poison := p.2.poison,
        dirtyHl := p.2.dirtyHl, data := (dumpXts ((tenantKey s p.2.tenant).getD 0) seq line).enc p.2.data }

/-- The frames of a drain image: the staging area in journal frames, then dump frames of 13 lines (R187, R190, R191). -/
def imageFrames (seq : Nat) (s : State) : List ImgFrame :=
  let bodies := (cutFrames s.map.staging.length s.map.staging).map ImgBody.tail ++
    (chunks 13 s.front.lines.length (dumpLines seq s)).map ImgBody.dump
  ((List.range bodies.length).zip bodies).map fun p => { seq := seq, no := p.1, wseq := s.map.nextWseq + p.1, body := p.2 }

/-- FRAME_NOs of the i-th of n participating die sets (R190). -/
def framesOf (count n i : Nat) : List Nat := (List.range count).filter fun k => k % n == i

/-- Rounds started: the most of any die set (R193). -/
def roundsOf (d : DrainRun) : Nat := (d.rounds.map (·.2)).foldl max 0

/-- A die set of the drain has a frame left and a free frame index (R190). -/
def drainMore (d : DrainRun) (ds : Nat) : Bool :=
  !(tget d.left ds []).isEmpty && decide (d.startW + tget d.rounds ds 0 < 131072)

/-- Every image frame that could be written is on the medium (R187): the image is formed, nothing is left that fits and no program of
it runs. -/
def imageWritten (d : DrainRun) (s : State) : Bool :=
  d.frames.isSome && d.parts.all (fun ds => !drainMore d ds) &&
    d.parts.all fun ds => match (busyOf s ds).cur with
      | some { kind := .image _, .. } => false
      | _ => true

/-- Every image frame is on the medium. -/
def imageWhole (d : DrainRun) : Bool := d.tails + d.dumps == (d.frames.getD []).length

/-- The first 64 program failures of a drain go to DRAIN_FAULTS before its run record (R295). -/
def drainFaults (faults : List (Nat × Nat)) (s : State) : State :=
  let fs := faults.take 64
  if fs.isEmpty then s
  else
    cellarCommitNow 2 0x25 (fs.flatMap fun f => leBytes 3 f.1 ++ leBytes 1 f.2)
      { s with persist := { s.persist with faults := fs } }

/-- Write the run record of a drain, and move W and the drain sequence number on (R187 step 5, R190, R193). -/
def endDrain (kind vEnd : Nat) (d : DrainRun) (s : State) : State :=
  let r : RunRec :=
    { kind := kind, triggers := d.triggers, set := d.set, seq := d.seq, startW := d.startW, rounds := roundsOf d, tail := d.tails,
      dump := d.dumps, time := (s.time.mono - d.at_) / 1000, vStart := d.vStart, vEnd := vEnd }
  let s := drainFaults d.faults { s with persist := { s.persist with drain := none, nextDrain := d.seq + 1 } }
  let s := writeRun r (putW d.set (d.startW + roundsOf d) s)
  if 5000 < r.time then raise 0x011 0x5002 r.time 0 0 s else s

/-- DRAIN_ABORTED: a drain cannot complete; with no drain in progress the record carries the trigger alone and DUMP_FRAMES 0 (R193,
R479). -/
def abortDrain (bit : Nat) (s : State) : State :=
  match s.persist.drain with
  | some d =>
    let t := if bits d.triggers bit 1 = 1 then d.triggers else d.triggers + 2 ^ bit
    endDrain 4 s.persist.vNow { d with triggers := t } s
  | none => endDrain 4 s.persist.vNow (DrainRun.start (2 ^ bit) [] s) s

/-! ### Off and on (R172 to R174, Table 4-7) -/

/-- The cache reaches Off: every line is invalidated and every Disable completes (Table 4-7, R174). -/
def reachOff (s : State) : State :=
  let cs := s.front.disableCci
  let lines := tfilter s.front.lines fun _ l => l.excluded
  let s := { s with front := { s.front with
    mode := .off, lines := lines, dirtyAt := [], urgent := [], disableCci := [] } }
  let s := cs.foldl (fun s c => endBgOn c 0xC207 .success s) s
  checkRunClosed s

/-- Enable the front cache by the budget (Table 4-7); RUN_OPEN comes before the first acknowledgement (R193). -/
def enableFront (s : State) : State :=
  if 1 ≤ s.front.budget then openRun { s with front := { s.front with mode := .writeBack } }
  else budgetLow { s with front := { s.front with mode := .writeThrough } }

end Sys2Proof.Machine
end

