-- ==== Sys2Proof/Machine/PlaceOps.lean ====
section
/-!
DEFINITION. Operations of placement, wear and health (08_placement_wear_and_health.md): the busy slot of a die set (R220, R275),
racking and topping in the order of R258, and tile and die failures (R280 to R283).
-/
namespace Sys2Proof.Machine

/-! ### Busy slots (R220, R275) -/

/-- The tile that a group's commands address on a quad (R269). -/
def tileOn (s : State) (g quad : Nat) : Nat :=
  let n := (groupAt s g).sub.getD quad 0
  if n = 0 then tileOf g else 1003 + n

/-- Tile resets in progress, over the die sets. -/
def resetsRunning (s : State) : Nat := (s.place.busy.filter fun p => resetting s p.1).length

/-- A tile reset may start within the concurrent limit of R189. -/
def resetAllowed (s : State) : Bool := s.front.mode != .writeBack || decide (resetsRunning s < ceilDiv (countS s) 16)

/-- Ciphertext of an assembled frame (R136, R137). -/
def asmCipher (a : Asm) : Cipher := a.cipher.getD (sealFrame a.key a.lfa a.image)

/-- FM_POISON of an assembled frame: that of its commit, or of a copy's source (Table 7-3). -/
def asmPoison (s : State) (a : Asm) : BitVec 16 :=
  match a.kind with
  | .copy .. => a.poisonSet
  | _ => commitPoison s a (((mapEntry s a.lfa).map (·.poison)).getD 0)

/-- FM_ORIGIN and FM_SOURCE_PFA of an assembled frame (Table 7-3). -/
def asmOrigin (a : Asm) : Nat × Nat :=
  match a.kind with
  | .copy old o => (o, old)
  | _ => (0, 0)

/-- An assembled frame as it stands on the medium (R242). -/
def asmFrame (s : State) (a : Asm) : MFrame :=
  { lfa := a.lfa, wseq := a.wseq, tenant := a.tenant, keyGen := a.keyGen, poison := asmPoison s a, origin := (asmOrigin a).1,
    source := (asmOrigin a).2, data := asmCipher a }

/-- PFA that a die set's work programs (R190, R249, R251, R274). -/
def workPfa (s : State) (ds : Nat) : WorkKind → Option Nat
  | .frame id => (tfind s.front.asms id).bind (·.pfa)
  | .journal n b => (tfind s.map.flight n).bind fun _ => journalPfa s n b
  | .ckpt m => s.map.pass.bind fun x => ckptPfa s x.slot m
  | .image _ => s.persist.drain.bind fun d => (drainGroup s d.set ds).map fun g => pfaOf g (d.startW + tget d.rounds ds 0 - 1)
  | _ => none

/-- Codewords and metadata shares of the frame that work programs (R242); the manual does not give the layout of a checkpoint's table
frames, which are free. -/
def workFrame (s : State) : WorkKind → (Cipher × List Nat) × State
  | .frame id =>
    match tfind s.front.asms id with
    | some a => (((asmFrame s a).data, frameShares (asmFrame s a)), s)
    | none => (([], []), s)
  | .journal n _ =>
    match tfind s.map.flight n with
    | some x => ((plainFrame (frameOfBytes (journalFrameBytes n x.frame)), metaShares 3 n x.wseq 0 0 0 0 0), s)
    | none => (([], []), s)
  | .ckpt m =>
    match s.map.pass with
    | none => (([], []), s)
    | some x =>
      let sh := metaShares 2 m x.wseq 0 0 0 0 0
      if m < Config.tableFrames then
        let r := drawBits 32768 s
        ((plainFrame r.1, sh), r.2)
      else if m < passFrames x.ck - 1 then ((plainFrame (frameOfBytes (mapFrameBytes x.ck (m - Config.tableFrames))), sh), s)
      else ((plainFrame (frameOfBytes (ckptHeader x.slot x.ck)), sh), s)
  | .image n =>
    match s.persist.drain.bind fun d => d.frames.bind fun fs => fs.find? fun f => f.no == n with
    | some f => ((plainFrame (frameOfBytes (imageBytes f)), metaShares 4 0 f.wseq 0 0 0 0 0), s)
    | none => (([], []), s)
  | _ => (([], []), s)

/-- Spare tile that a substitution takes next: tile 1,003 + n for the n-th (R269, R281). -/
def nextSpare (s : State) (ds quad : Nat) : Nat := 1004 + tget s.place.sparesUsed (ds * 9 + quad) 0

/-- Start an operation on the die of a die set's present quad, with a program's data in the die's buffer. -/
def startOp (ds : Nat) (op : ArrayOp) (data : BitVec 4736) (s : State) : State :=
  let die := setDieOn ds (busyOf s ds).quad
  let x := dieOf s die
  let s := if x.present then setDie die { x with array := some op, buf := data, progFail := false, resetFail := false } s else s
  let forms := match op with
    | .prog .. => dataForms die ++ [statusForm die]
    | .reset _ => [statusForm die]
  let s := busAdd (chanOfDie die) forms s
  setBusy ds { busyOf s ds with run := true, opAt := s.time.mono } s

/-- Send the operation of the present quad to its die, if the die has no read in its engines or waiting (R220). In a drain no further
tile of a reset is started (R187). -/
def startQuad (ds : Nat) (s : State) : State :=
  let b := busyOf s ds
  match b.cur with
  | none => s
  | some w =>
    if b.run || b.quad == 9 || decide (dieDepth s (setDieOn ds b.quad) ≠ 0) || setTraining s ds then s
    else
      match w.kind with
      | .reset g _ =>
        if drainRunning s then s
        else
          startOp ds (.reset (tileOn s g b.quad)) 0
            (modGroup g (fun x => if x.st = .metadata then x else { x with st := .resetting }) s)
      | .spare _ q _ => if drainRunning s then s else startOp ds (.reset (nextSpare s ds q)) 0 s
      | k =>
        match workPfa s ds k with
        | none => setBusy ds { b with cur := none, quad := 0, failed := [], retry := false } s
        | some p =>
          if b.pause.isSome then s
          else
            let r := workFrame s k
            startOp ds (.prog (tileOn s (groupOf p) b.quad) (frameIdx p)) (segmentBits r.1.1 r.1.2 (posOfQuad p b.quad)) r.2

/-- FM_ORIGIN of the job that a group's work serves: 2 for topping, 1 otherwise. -/
def jobOrigin (s : State) (g : Nat) : Nat :=
  ((s.place.racks.find? fun r => r.group == g).map (·.origin)).getD 1

/-- Class of a priority-6 work: 0 drain, 1 racking, 2 topping; a reset counts as what produced it (R275, Table 8-3). -/
def workClass (s : State) (w : Work) : Nat :=
  match w.kind with
  | .reset g _ => jobOrigin s g
  | .spare g _ _ => jobOrigin s g
  | .frame id => ((tfind s.front.asms id).map fun a => (asmOrigin a).1).getD 0
  | _ => 0

/-- A journal or checkpoint position is reset-clean up to its frame index: the reset of its group comes first (R250, R251). -/
def positionClean (s : State) (p : Nat) : Bool := decide ((groupAt s (groupOf p)).wptr ≤ frameIdx p)

/-- Whether waiting work may start now: a reset within its limit, a program only outside a pause, and on a clean position (R187, R250,
R275, R502). -/
def mayStart (s : State) (ds : Nat) (b : BusySt) (w : Work) : Bool :=
  if w.kind.isReset then resetAllowed s
  else
    b.pause.isNone &&
      (match w.kind with
       | .frame _ => true
       | k => match workPfa s ds k with
         | some p => positionClean s p
         | none => false)

/-- The priority-6 class that is served next, and the deficits after it is (Table 8-3). -/
def drrClass (s : State) (defs : List Nat) (has : List Bool) : Nat × List Nat :=
  let pick := fun (d : List Nat) => [0, 1, 2].find? fun c => has.getD c false && decide (1 ≤ d.getD c 0)
  let w := [s.place.wDrain, s.place.wRack, s.place.wTop]
  let d := (List.range 3).map fun c => if has.getD c false then defs.getD c 0 else 0
  match pick d with
  | some c => (c, d.set c (d.getD c 0 - 1))
  | none =>
    let d := (List.range 3).map fun c => if has.getD c false then d.getD c 0 + w.getD c 1 else 0
    match pick d with
    | some c => (c, d.set c (d.getD c 0 - 1))
    | none => (0, d)

/-- The work that a die set starts next, in the order of Table 8-3, with the deficits after it. -/
def nextWork (s : State) (ds : Nat) (b : BusySt) : Option (Work × List Nat) :=
  let ws := b.waiting.filter (mayStart s ds b)
  let top : Nat := (ws.map fun w => w.prio).foldl min 6
  if top < 6 then (ws.find? fun w => w.prio == top).map fun w => (w, b.defs)
  else
    let has := [0, 1, 2].map fun c => ws.any fun w => workClass s w == c
    let r := drrClass s b.defs has
    (ws.find? fun w => workClass s w == r.1).map fun w => (w, r.2)

/-- A die set takes work into its busy slot. -/
def takeWork (ds : Nat) (w : Work) (s : State) : State :=
  let b := busyOf s ds
  startQuad ds (setBusy ds { b with
    waiting := b.waiting.erase w, cur := some w, since := s.time.mono, quad := 0, run := false, failed := [], retry := false } s)

/-- The image of a drain is formed once every frame in program has ended, and its frames are dealt to the die sets (R187, R190). -/
def formImage (s : State) : State :=
  match s.persist.drain with
  | none => s
  | some d =>
    if d.frames.isSome || s.front.asms.any fun p => asmStarted s p.1 then s
    else
      let fs := imageFrames d.seq s
      let left := ((List.range d.parts.length).zip d.parts).map fun p => (p.2, framesOf fs.length d.parts.length p.1)
      { s with
        persist := { s.persist with drain := some { d with frames := some fs, left := left.foldl (fun t p => tput t p.1 p.2) [] } },
        map := { s.map with nextWseq := s.map.nextWseq + fs.length } }

/-- A participating die set with a free busy slot starts its next round (R190). -/
def imageStart (ds : Nat) (s : State) : State :=
  match s.persist.drain with
  | none => s
  | some d =>
    if (busyOf s ds).cur.isSome || setTraining s ds || isDegraded s ds || !d.parts.contains ds || !drainMore d ds then s
    else
      match tget d.left ds [] with
      | [] => s
      | n :: ns =>
        takeWork ds { prio := 1, kind := .image n }
          { s with persist := { s.persist with drain := some { d with
              left := tput d.left ds ns, rounds := tput d.rounds ds (tget d.rounds ds 0 + 1) } } }

/-- The drain sequencer goes on: the image is formed when it can be, and every free die set starts a round (R186, R187). -/
def drainKick (s : State) : State :=
  let s := formImage s
  match s.persist.drain with
  | none => s
  | some d => d.parts.foldl (fun s ds => imageStart ds s) s

/-- Take the first waiting work of a free busy slot, or start the quad that waits for its die's reads (R275); in a drain only image
frames start (R187). -/
def slotStart (ds : Nat) (s : State) : State :=
  let b := busyOf s ds
  if isDegraded s ds || setTraining s ds then s
  else
    match b.cur with
    | some _ => startQuad ds s
    | none =>
      if drainRunning s then drainKick s
      else
        match nextWork s ds b with
        | none => s
        | some (w, d) => takeWork ds w (setBusy ds { b with defs := d } s)

/-- The busy slot is free. -/
def slotClear (ds : Nat) (s : State) : State :=
  setBusy ds { busyOf s ds with cur := none, quad := 0, run := false, failed := [], retry := false } s

/-- The die set whose busy slot holds a frame's program. -/
def slotOfAsm (s : State) (id : Nat) : Option Nat :=
  (s.place.busy.find? fun p => match p.2.cur with
    | some { kind := .frame a, .. } => a == id
    | _ => false).map (·.1)

/-- A frame's nine segment programs have all succeeded (R166). -/
def asmDone (s : State) (id : Nat) : Bool :=
  match slotOfAsm s id with
  | none => false
  | some ds => (busyOf s ds).quad == 9 && (busyOf s ds).failed.isEmpty

/-! ### Racking and topping (R258, R259) -/

/-- A racking or topping job of a group. -/
def rackOf (s : State) (g : Nat) : Option Rack := s.place.racks.find? fun r => r.group == g

/-- Put back a job. -/
def setRack (r : Rack) (s : State) : State :=
  { s with place := { s.place with racks := s.place.racks.map fun x => if x.group = r.group then r else x } }

/-- Drop the job of a group; a Rack Group command completes. -/
def endRack (g : Nat) (s : State) : State :=
  let c := (rackOf s g).bind (·.cci)
  let s := { s with place := { s.place with racks := s.place.racks.filter fun r => r.group != g } }
  match c with
  | some k => endBgOn k 0xC305 .success s
  | none => s

/-- Queue a group for racking at a priority, if it is not queued already; a lower priority number wins. -/
def addRack (g origin prio : Nat) (cci : Option Nat) (wear evac : Bool) (s : State) : State :=
  match rackOf s g with
  | some r => setRack { r with prio := min r.prio prio, evac := r.evac || evac, cci := if r.cci.isSome then r.cci else cci } s
  | none =>
    { s with place := { s.place with racks := s.place.racks ++
        [{ group := g, origin := origin, prio := prio, cci := cci, wear := wear, evac := evac, step := 0, todo := [] }] } }

/-- LFAs whose entry holds a PFA or D_PFA in a group (R258 step 1). -/
def validLfas (s : State) (g : Nat) : List Nat :=
  (s.map.frames.filter fun p => groupOf p.1 == g).filterMap fun p =>
    match mapEntry s p.2.lfa with
    | some e => if entPfa s e = some p.1 then some p.2.lfa else none
    | none => none

/-- A frame in assembly that copies a frame of the medium, with a new FM_WSEQ and its source (R137, R242, R258). -/
def copyAsm (f : MFrame) (pfa origin prio wseq : Nat) (c : Option Cipher) (poison : BitVec 16) : Asm :=
  { kind := .copy pfa origin, lfa := f.lfa, tenant := f.tenant, keyGen := f.keyGen, key := 0, image := 0, have_ := 0,
    cipher := c, lines := [], poisonSet := poison, poisonClr := 0, merging := c.isNone, begun := true, wseq := wseq, pfa := none,
    prio := prio, debit := 0, acks := [], resolves := [], ccis := [], limited := false, programming := false }

/-- Start the copy of one frame: its codewords are read as internal reads (R221, R258, R278). -/
def startCopy (lfa origin prio : Nat) (s : State) : State :=
  match (mapEntry s lfa).bind (entPfa s) with
  | none => s
  | some pfa =>
    match tfind s.map.frames pfa with
    | none => s
    | some f =>
      let w := takeWseq s
      readFrame (.copy w.2.front.nextAsm) lfa pfa (addAsm (copyAsm f pfa origin prio w.1 none f.poison) w.2)

/-- A copy of a group's frames is under way. -/
def copying (s : State) (g : Nat) : Bool :=
  s.front.asms.any fun p => match p.2.kind with
    | .copy old _ => groupOf old == g
    | _ => false

/-- A fetch holds a PFA in a group. -/
def stageHolds (g : Nat) (f : Fetch) : Bool :=
  match stagePfa f.stage with
  | some x => groupOf x == g
  | none => false

/-- A fill or an internal read that is issued or queued holds a PFA in a group (R227). -/
def fillHolds (s : State) (g : Nat) : Bool :=
  (s.front.miss.any fun p => stageHolds g p.2.toFetch) || s.front.ireads.any fun p => stageHolds g p.2.toFetch

/-- Racking and topping run: the media supervisor does, and the device is neither in Dormant nor on its way there or to Standby
(Table 1-7, R491). -/
def racksRun (s : State) : Bool :=
  s.mgmt.media.mode == .running && s.power.entering.isNone && s.power.mode != .dormant

/-- Start the next copy of a job; frames of affected extents wait (R262), and racking and topping pause while the media
supervisor does not run, or an entry to Dormant begins (Table 1-7, R491). -/
def nextCopy (g : Nat) (s : State) : State :=
  match rackOf s g with
  | none => s
  | some r =>
    if racksRun s = false then s else
    match r.todo.find? fun l => !s.ten.affected.contains (extentOfLfa l) with
    | none => s
    | some l => startCopy l r.origin r.prio (setRack { r with todo := r.todo.erase l } s)

/-- A job that was stopped leaves; its group stays as it is (R527). -/
def dropRack (g : Nat) (s : State) : State :=
  { s with place := { s.place with racks := s.place.racks.filter fun r => r.group != g },
           drift := { s.drift with top := tdel s.drift.top g } }

/-- Stop a job before its next copy (R527); past its copies it goes on without the command. Step 2 marks a stopped job. -/
def stopRack (g : Nat) (s : State) : State :=
  match rackOf s g with
  | none => s
  | some r =>
    if 3 ≤ r.step then setRack { r with cci := none } s
    else if copying s g then setRack { r with cci := none, todo := [], step := 2 } s
    else dropRack g s

/-- Step 3 of R258: when no entry and no fill holds a PFA of the group, GROUP_PENDING_RESET commits; a group of a Degraded die
set is retired instead, without a reset (R283). -/
def rackStep3 (g : Nat) (s : State) : State :=
  match rackOf s g with
  | none => s
  | some r =>
    if racksRun s = false then s
    else if r.step = 2 ∧ !copying s g then dropRack g s
    else if r.step = 0 ∨ 2 ≤ r.step ∨ !r.todo.isEmpty ∨ copying s g ∨ (groupAt s g).valid ≠ 0 ∨ fillHolds s g then s
    else if r.evac ∨ isDegraded s (dieSetOf g) then
      let s := { s with map := { s.map with frames := tfilter s.map.frames fun p _ => groupOf p != g } }
      spareRecompute (endRack g (commit (.groupRetired g 3) s))
    else setRack { r with step := 3 } (commit (.groupPendingReset g) s)

/-- Begin a job: its frames are listed and the first copy starts (R258 step 1, R278). -/
def beginRack (g : Nat) (s : State) : State :=
  match rackOf s g with
  | none => s
  | some r =>
    let s := { s with drift := { s.drift with top := tput s.drift.top g .inProgress } }
    rackStep3 g (nextCopy g (setRack { r with step := 1, todo := validLfas s g } s))

/-- The jobs that a restart of the media supervisor paused go on (Table 1-7). -/
def resumeRacks (s : State) : State :=
  s.place.racks.foldl (fun s r => if copying s r.group then s else rackStep3 r.group (nextCopy r.group s)) s

/-- A copy's internal reads have ended (R258): the frame is placed; one with an uncorrectable codeword has been reported (R225), and
the job goes on with its next frame. -/
def copyRead (id : Nat) (s : State) : State :=
  match tfind s.front.asms id with
  | none => s
  | some a =>
    if !a.merging || !readsDone s (.copy id) then s
    else if readsBad s (.copy id) ≠ 0 then
      match a.kind with
      | .copy old _ => rackStep3 (groupOf old) (nextCopy (groupOf old) (dropAsm id s))
      | _ => s
    else
      let line := fun (i : Nat) => (((readsOf s (.copy id)).find? fun p => p.2.line % 16 == i).map fun p => p.2.data).getD 0
      let a := { a with cipher := some ((List.range 16).map line), merging := false }
      placeAsm id (dropReads (.copy id) { s with front := { s.front with asms := tput s.front.asms id a } })

/-- A copied frame is on the medium (R258 step 2, R259): its move commits when the entry still holds the old PFA; otherwise it
is an orphan. It counts as programmed, and as wear of its tenant. -/
def copyDone (id : Nat) (s : State) : State :=
  match tfind s.front.asms id with
  | none => s
  | some a =>
    match a.kind, a.pfa with
    | .copy old origin, some p =>
      let fr := asmFrame s a
      let s := dropAsm id s
      let s := { s with map := { s.map with frames := tput s.map.frames p fr } }
      let s := if (mapEntry s a.lfa).bind (entPfa s) = some old then commit (.mapMove a.lfa old p a.wseq origin) s else s
      let s := { s with place := { s.place with progFrames := s.place.progFrames + 1 } }
      let s := if origin = 2 then { s with drift := { s.drift with topTimes := s.time.mono :: s.drift.topTimes } } else s
      let s := countEvent 0x0030 1 { EvAttr.bare with origin := 2, tenant := some a.tenant } s
      let s := meterLive a.tenant (fun m => { m with frames := m.frames + 1 }) s
      rackStep3 (groupOf old) (nextCopy (groupOf old) s)
    | _, _ => s

/-! ### Failures (R280 to R283) -/

/-- Add to one of the health counts of Table 8-8: 4 program failures, 5 reset failures. -/
def countFail (i : Nat) (s : State) : State := bumpHealth i s

/-- A program fails during a drain (R295): it is logged and counted, and its group and quad are kept for DRAIN_FAULTS. -/
def noteDrainFault (g quad : Nat) (s : State) : State :=
  match s.persist.drain with
  | none => s
  | some d =>
    countFail 4 (raise (0x200 + dieSetOf g) 0x3004 g quad 1
      { s with persist := { s.persist with drain := some { d with faults := d.faults ++ [(g, quad)] } } })

/-- A frame whose program cannot be followed up in a drain is abandoned (R187). -/
def abandonSlot (ds id : Nat) (s : State) : State := slotStart ds (abandonAsm id (slotClear ds s))

/-- Every tile group of a die set that is listed, or Free. -/
def setGroups (ds : Nat) : List Nat := (List.range 1004).map fun t => ds * 1024 + t

/-- Replace a group in a list. -/
def replaceIn (l : List Nat) (old new : Nat) : List Nat := l.map fun x => if x = old then new else x

/-- The group that replaces a metadata group: the last of the first live die set's free pool that has one, outside a die set to avoid
(the choice is the model's). -/
def replacement (s : State) (avoid : Option Nat) : Option Nat :=
  (liveSets s).findSome? fun ds => if avoid = some ds then none else (freePool s ds).getLast?

/-- Die set of the group that holds the same positions in the other ring (R249). -/
def partnerSet (r : MapRoot) (g : Nat) : Option Nat :=
  let at_ := fun (a b : List Nat) => (((a.zip b).find? fun p => p.1 == g).map fun p => dieSetOf p.2)
  (at_ r.ja r.jb).orElse fun _ => at_ r.jb r.ja

/-- Bytes of MAP_ROOT: population, then the group lists and SUB fields (Table 18-5). -/
def rootBytes (s : State) (r : MapRoot) : List Byte :=
  let l := fun (gs : List Nat) =>
    leBytes 2 gs.length ++ gs.flatMap fun g => leBytes 3 g ++ ((groupAt s g).sub.flatMap (leBytes 1))
  leBytes 1 r.popCh ++ leBytes 1 r.popPk ++ leBytes 1 r.popDies ++ l r.drain0 ++ l r.drain1 ++ l r.ck0 ++ l r.ck1 ++ l r.ja ++
    l r.jb

/-- Write MAP_ROOT (R244, R269). -/
def writeRoot (r : MapRoot) (s : State) : State :=
  cellarCommitNow 2 0x03 (rootBytes s r) { s with map := { s.map with root := some r } }

/-- A group has a FAILED tile on a Metadata group's quad substituted: the SUB fields go to MAP_ROOT (R269). -/
def rootSub (g : Nat) (s : State) : State :=
  match s.map.root with
  | some r => if (groupAt s g).st = .metadata then writeRoot r s else s
  | none => s

/-- Replace a checkpoint or journal group from the Free groups of another die set, outside that of its partner ring (R249, R283): a new
MAP_ROOT is written, then the group is retired. With no Free group it waits for one. -/
def replaceMeta (g cause : Nat) (s : State) : State :=
  match s.map.root with
  | none => s
  | some r =>
    if !(r.ck0 ++ r.ck1 ++ r.ja ++ r.jb).contains g then s
    else
      match replacement s (partnerSet r g) with
      | none => s
      | some n =>
        let role := if (r.ja ++ r.jb).contains g then 3 else 4
        let f := fun l => replaceIn l g n
        let r := { r with ck0 := f r.ck0, ck1 := f r.ck1, ja := f r.ja, jb := f r.jb }
        let rd := tget s.place.ready (dieSetOf n) []
        let s := { s with place := { s.place with ready := tput s.place.ready (dieSetOf n) (rd.erase n) } }
        let s := modGroup n (fun x => { x with st := .metadata, role := role, wptr := 0 }) s
        commit (.groupRetired g cause) (writeRoot r s)

/-- A journal group of a ring holds frames that the journal keeps, and is not the one being written (R250). -/
def ringKeeps (s : State) (ringB : Bool) (g : Nat) : Bool :=
  let gs := ringGroups s ringB
  let first := keptFrom s / 131072
  (List.range gs.length).any fun i =>
    gs[i]? == some g && ((List.range (s.map.nextFrame / 131072 - first)).any fun k => (first + k) % gs.length == i)

/-- A checkpoint or journal group holds what a recovery would read: a frame of the newest complete checkpoint, or of the journal kept
(R250, R251). It is replaced before its next use (R283). -/
def metaInUse (s : State) (g : Nat) : Bool :=
  (match newestCkpt s with
   | some (slot, _) => (slotGroups s slot).contains g
   | none => false) || ringKeeps s false g || ringKeeps s true g

/-- Replace every checkpoint and journal group of a Degraded die set that is still listed and holds nothing that is kept (R283). -/
def replaceMetas (s : State) : State :=
  match s.map.root with
  | none => s
  | some r =>
    ((r.ck0 ++ r.ck1 ++ r.ja ++ r.jb).filter fun g => isDegraded s (dieSetOf g) && !metaInUse s g).foldl
      (fun s g => replaceMeta g 3 s) s

/-- Add the program of a journal frame in a ring, after the reset that its group needs before its first position is reused (R249, R250). A
position whose die set is Degraded is left to the other ring. -/
def journalWork (n : Nat) (ringB : Bool) (s : State) : State :=
  match journalPfa s n ringB with
  | none => s
  | some p =>
    let ds := dieSetOf (groupOf p)
    if isDegraded s ds then
      match tfind s.map.flight n with
      | none => s
      | some x =>
        let x := { x with doneA := x.doneA || !ringB, doneB := x.doneB || ringB }
        let s := { s with map := { s.map with flight := tput s.map.flight n x } }
        if x.doneA && x.doneB then frameLanded n x.frame s else s
    else
      let s := if frameIdx p = 0 ∧ (groupAt s (groupOf p)).wptr ≠ 0 then
          addWork ds { prio := 2, kind := .reset (groupOf p) false } s else s
      slotStart ds (addWork ds { prio := 2, kind := .journal n ringB } s)

/-- A die set leaves a drain: the frames that it still had go to the next participating die sets (Table 5-8). -/
def drainLeave (ds : Nat) (s : State) : State :=
  match s.persist.drain with
  | none => s
  | some d =>
    if !d.parts.contains ds then s
    else
      let own := match (busyOf s ds).cur with
        | some { kind := .image n, .. } => [n]
        | _ => []
      let s := if own.isEmpty then s else slotClear ds s
      let parts := d.parts.filter (· != ds)
      let ns := own ++ tget d.left ds []
      let deal := fun (t : Tbl (List Nat)) (p : Nat × Nat) =>
        match parts[p.1 % max 1 parts.length]? with
        | some x => tput t x (tget t x [] ++ [p.2])
        | none => t
      let left := ((List.range ns.length).zip ns).foldl deal (tdel d.left ds)
      { s with persist := { s.persist with drain := some { d with parts := parts, left := left } } }

/-- The supply of a die set's packages is lost in a drain: its frame in program is abandoned, and it leaves the drain (Table 5-8). -/
def drainLose (ds : Nat) (s : State) : State :=
  if !drainRunning s then s
  else
    let s := match (busyOf s ds).cur with
      | some { kind := .frame id, .. } => abandonAsm id (slotClear ds s)
      | _ => s
    drainLeave ds s

/-- A die set becomes Degraded (R283): its work moves elsewhere, its groups are racked or retired, its metadata groups are
replaced, and limits, budget and SPARE follow. -/
def degradeSet (ds quad : Nat) (s : State) : State :=
  if s.place.degraded.contains (ds, quad) then s
  else if isDegraded s ds then commit (.dieSetDegraded ds quad) s
  else
    let s := raise (0x200 + ds) 0x3005 ds quad 0 (commit (.dieSetDegraded ds quad) s)
    -- frames placed on the die set are assembled again elsewhere
    let ids := (s.front.asms.filter fun p => match p.2.pfa with
      | some x => dieSetOf (groupOf x) == ds
      | none => false).map (·.1)
    let fl := s.map.flight.flatMap fun p => ([false, true].filter fun b =>
      !(if b then p.2.doneB else p.2.doneA) && (journalPfa s p.1 b).any fun x => dieSetOf (groupOf x) == ds).map fun b => (p.1, b)
    let onPass := s.map.pass.any fun x => (slotGroups s x.slot).any fun g => dieSetOf g == ds
    let s := if onPass then abandonPass .success s else s
    let s := setBusy ds BusySt.idle (drainLeave ds s)
    let s := { s with place := { s.place with ready := tdel s.place.ready ds } }
    let s := [openOf s 1 ds, openOf s 2 ds].foldl (fun s g => match g with
      | some g => closeGroup g s
      | none => s) s
    let s := ids.foldl (fun s id => match tfind s.front.asms id with
      | some a => placeAsm id { s with front := { s.front with asms := tput s.front.asms id { a with pfa := none, programming := false } } }
      | none => s) s
    let s := (setGroups ds).foldl (fun s g =>
      let x := groupAt s g
      match x.st with
      | .retired => s
      | .spare => s
      | .metadata => s
      | _ =>
        if x.valid ≠ 0 then addRack g 1 5 none false true s
        else endRack g (commit (.groupRetired g 3) s)) s
    let s := fl.foldl (fun s p => journalWork p.1 p.2 s) (replaceMetas s)
    spareRecompute (budgetUpdate (retireDrainGroups s))

/-- A die fails: every die set that holds it is Degraded (Table 8-5). A die lies in one die set (R8). -/
def failDie (die : Nat) (s : State) : State :=
  let c := chanOfDie die
  let ds := dieSetAt (c % 4) (pkgOfDie die) (idxOfDie die)
  if isDegraded s ds then degradeSet ds (c / 4) s else limitsRecompute (degradeSet ds (c / 4) s)

/-- Dies that MAP_ROOT names and that do not answer, or whose channel has failed, are failed dies once the map is loaded (R351,
Table 8-5). -/
def degradeMissing (s : State) : State :=
  let gone := (dieSets s).flatMap fun ds => ((List.range 9).filter fun q =>
    let die := setDieOn ds q
    !(dieOf s die).present || (chanOf s (chanOfDie die)).mode == ChanMode.failed).map fun q => (ds, q)
  let s' := gone.foldl (fun s p => degradeSet p.1 p.2 s) s
  if gone.isEmpty then s else limitsRecompute s'

/-- FAILED tiles of a die (Tables 8-2 and 8-5): groups whose FAILED bit of its quad is set. -/
def failedTiles (s : State) (die : Nat) : Nat :=
  let ds := dieSetAt (chanOfDie die % 4) (pkgOfDie die) (idxOfDie die)
  (s.place.groups.filter fun p => dieSetOf p.1 == ds && p.2.failed.getLsbD (chanOfDie die / 4)).length

/-- A tile fails (R280): TILE_FAILED commits with its event, the group closes and is racked at priority 5; 64 failed tiles fail
the die. -/
def failTile (g quad cause : Nat) (s : State) : State :=
  let die := setDieOn (dieSetOf g) quad
  let s := raise (0x200 + dieSetOf g) 0x3004 g quad cause (commit (.tileFailed g quad cause) s)
  let s := if (groupAt s g).st = .open_ then closeGroup g s else s
  let s := if (groupAt s g).st = .closed then addRack g 1 5 none false false s else s
  if 64 ≤ failedTiles s die then failDie die s else s

/-- A recovery read's positions have all been decoded, or stay missing. -/
def recoverySettled (r : IRead) : Bool :=
  match r.stage with
  | .slow _ _ soft w _ => soft.isEmpty && w.isEmpty
  | _ => true

/-- Positions that stay missing in codeword c of a frame under a recovery read (R225). -/
def recoveryLost (s : State) (lfa c : Nat) : List Nat :=
  (readsOf s (.recovery lfa)).flatMap fun p =>
    if p.2.line % 2 = c then
      match p.2.stage with
      | .slow _ _ _ _ lost => lost
      | _ => []
    else []

/-- Front lines that a recovery read leaves unrecovered: codeword c of data segment p holds front line 2p + c, and one that is missing
alone is reconstructed (R223, R242, R280). -/
def unrecovered (s : State) (lfa : Nat) : List Nat :=
  [0, 1].flatMap fun c =>
    if (recoveryLost s lfa c).length ≤ 1 then []
    else ((recoveryLost s lfa c).filter fun p => decide (p < 8)).map fun p => 2 * p + c

/-- Ciphertext of a frame with the lines that are lost as free values. -/
def loseLines (ls : List Nat) (c : Cipher) (s : State) : Cipher × State :=
  ls.foldl (fun a i =>
    let r := drawBits 2048 a.2
    (a.1.set i r.1, r.2)) (c, s)

/-- Start the recovery read of a reported frame: the slow path on each of its 18 codewords, at BULK priority (R280). -/
def recoveryStart (lfa pfa : Nat) (s : State) : State :=
  [0, 1].foldl (fun s c =>
    let r := addIRead (.recovery lfa) (16 * lfa + c) .blocked s
    enterSlow r.1 pfa 9 [] [] [] { Fetch.start with stage := .blocked } r.2) s

/-- A frame is moved by a single-frame topping copy, from the codewords at hand (R280, Table 8-3). -/
def recoveryMove (f : MFrame) (pfa : Nat) (ls : List Nat) (s : State) : State :=
  let d := loseLines ls f.data s
  let w := takeWseq d.2
  let lost := ls.foldl (fun (m : BitVec 16) i => m ||| (1#16 <<< i)) 0
  placeAsm w.2.front.nextAsm (addAsm (copyAsm f pfa 2 6 w.1 (some d.1) (f.poison ||| lost)) w.2)

/-- Front lines of a frame that stay lost are poisoned and reported, and the tile of each quad whose codeword failed has failed
(R280). DEDUCED (log entry 215): a quad whose die or channel is gone names no failed tile. -/
def recoveryFail (lfa pfa : Nat) (ls pos : List Nat) (s : State) : State :=
  let s := commit (.mapPoison lfa (ls.foldl (fun (m : BitVec 16) i => m ||| (1#16 <<< i)) 0)) s
  let s := ls.foldl (fun s i => notePoison (16 * lfa + i) .internal s) s
  let s := raiseDpa (0x200 + dieSetOf (groupOf pfa)) 0x3002 (lfa * 4096 + ls.headD 0 * 256) (headOfLine s (lfa * 16)) s
  let qs := ((pos.filter fun p => !dieGone s pfa p).map (posQuad pfa)).eraseDups
  let g := groupOf pfa
  let s := qs.foldl (fun s q => failTile g q 3 s) s
  if (groupAt s g).st = .closed then addRack g 1 5 none false false s else s

/-- The recovery read of a frame ends once every codeword has been through the slow path (Table 8-5): the frame is moved, with poison
for the front lines that stay lost. -/
def recoveryEnd (lfa : Nat) (s : State) : State :=
  match s.place.reported.find? fun p => p.1 == lfa with
  | none => s
  | some (_, pfa) =>
    let rs := readsOf s (.recovery lfa)
    if rs.isEmpty || rs.any (fun p => !recoverySettled p.2) || journalFull s || drainRunning s then s
    else
      let ls := unrecovered s lfa
      let pos := recoveryLost s lfa 0 ++ recoveryLost s lfa 1
      let s := dropReads (.recovery lfa) { s with place := { s.place with reported := s.place.reported.erase (lfa, pfa) } }
      if (mapEntry s lfa).bind (entPfa s) ≠ some pfa then s
      else
        match tfind s.map.frames pfa with
        | none => s
        | some f =>
          let s := if ls.isEmpty then s else recoveryFail lfa pfa ls pos s
          recoveryMove f pfa ls s

/-- Unused spares of a die (R281). -/
def sparesLeft (s : State) (ds quad : Nat) : Nat := 20 - tget s.place.sparesUsed (ds * 9 + quad) 0

/-- The first quad of a group whose tile has failed and awaits substitution (Table 8-2 FAILED). -/
def failedQuad (s : State) (g : Nat) : Option Nat := (List.range 9).find? fun q => (groupAt s g).failed.getLsbD q

/-- A spare has been reset and blank-checked (R281): a good one is substituted, and MAP_ROOT follows for a Metadata group (R269); one that
fails is marked used. -/
def spareDone (g quad : Nat) (failed : Bool) (s : State) : State :=
  let k := dieSetOf g * 9 + quad
  let used := tget s.place.sparesUsed k 0
  if failed then { s with place := { s.place with sparesUsed := tput s.place.sparesUsed k (used + 1) } }
  else rootSub g (raise (0x200 + dieSetOf g) 0x3004 g quad (used + 1) (commit (.tileSubstitute g quad (used + 1)) s))

/-- A freed group joins its pool, and displaces a more worn one at the end of its die set's share (R271). -/
def displace (g : Nat) (s : State) : State :=
  let ds := dieSetOf g
  let share := tget s.place.ready ds []
  match share.getLast? with
  | some last =>
    if (groupAt s g).cycles < (groupAt s last).cycles then
      { s with place := { s.place with ready := tput s.place.ready ds ((share.dropLast ++ [g]).foldr (poolInsert s) []) } }
    else s
  | none => s

end Sys2Proof.Machine
end

