-- ==== Sys2Proof/Machine/ThermOps.lean ====
section
/-!
DEFINITION. Sensors, zones and levels of the thermal monitor (16_thermal.md R496 to R501).
-/
namespace Sys2Proof.Machine

/-- Zone of a sensor: 0 DIE, 1 MEDIA, 2 DIMM, 3 BOARD (Table 16-1). -/
def zoneOfSensor (i : Nat) : Nat := if i < 24 then 0 else if i < 312 then 1 else if i < 328 then 2 else 3

/-- Threshold of a zone in °C: level 1 Warm, 2 Hot, 3 Critical (Table 16-3). -/
def zoneThr (s : State) (z lvl : Nat) : Nat :=
  let t := s.therm.policy.zones.getD z (0, 0, 0)
  if lvl = 1 then t.1 else if lvl = 2 then t.2.1 else t.2.2

/-- The reading of a broken sensor of a zone: its Hot threshold + 1 °C, in 1/16 °C (R498). -/
def hotPlus1 (s : State) (z : Nat) : Int := 16 * ((zoneThr s z 2 : Int) + 1)

/-- A sensor that has given no sample. -/
def Sensor.fresh : Sensor := { good := none, last := none, bad := 0, broken := false, goodSince := none, reached := 0 }

/-- A sensor. -/
def sensorOf (s : State) (i : Nat) : Sensor := tget s.therm.sensors i Sensor.fresh

/-- A package that bring-up has found, or that MAP_ROOT names (R351). -/
def packagePresent (s : State) (k : Nat) : Bool := decide (0 < (chanOf s (k / 8)).found.getD (k % 8) 0)

/-- A sensor in use (R499). -/
def sensorUsed (s : State) (i : Nat) : Bool :=
  if i < 24 then true
  else if i < 312 then packagePresent s (i - 24)
  else if i < 328 then decide ((i - 312) % 2 < (dramOf s ((i - 312) / 2)).dimms.length)
  else decide (i < 336) && decide (bits s.therm.policy.ntcMask (i - 328) 1 = 1)

/-- The reading of a sensor for its zone (R498). -/
def sensorRead (s : State) (i : Nat) : Int :=
  let x := sensorOf s i
  if x.broken then hotPlus1 s (zoneOfSensor i) else x.good.getD (hotPlus1 s (zoneOfSensor i))

/-- Sensors of a zone. -/
def zoneSensors (z : Nat) : List Nat :=
  if z = 0 then List.range 24 else if z = 1 then (List.range 288).map (24 + ·) else if z = 2 then (List.range 16).map (312 + ·)
  else (List.range 8).map (328 + ·)

/-- Readings of the sensors of a zone that are in use and have been sampled. -/
def zoneReads (s : State) (z : Nat) : List Int :=
  ((zoneSensors z).filter fun i => sensorUsed s i && (tfind s.therm.sensors i).isSome).map (sensorRead s)

/-- A zone's temperature (R496); none while no sensor in use has been sampled. -/
def zoneTemp (s : State) (z : Nat) : Option Int := (zoneReads s z).max?

/-- A zone's level. -/
def zoneLevel (s : State) (z : Nat) : Nat := s.therm.levels.getD z 0

/-- The device level (R500). -/
def deviceLevel (s : State) : Nat := s.therm.levels.foldl max 0

/-- The level whose pauses and suspensions apply: held while the platform supervisor restarts, at least Hot after its third
expiry (R42, R501). -/
def appliedLevel (s : State) : Nat :=
  match s.mgmt.platform.mode with
  | .halted => max 2 s.therm.applied
  | .restarting => s.therm.applied
  | _ => deviceLevel s

/-! ### Policy (Table 16-3) -/

/-- Bytes of the thermal policy register (Table 16-3). -/
def thermPolicyBytes (p : ThermPolicy) : List Byte :=
  (p.zones.flatMap fun z => leBytes 4 (z.1 * 2 ^ 24 + z.2.1 * 2 ^ 16 + z.2.2 * 2 ^ 8)) ++
    leBytes 4 (p.hyst * 2 ^ 24 + p.warmPause * 2 ^ 16 + p.hotPause * 2 ^ 8 + p.hotGap) ++
    leBytes 4 (p.ntcMask * 2 ^ 24 + p.ntcWake * 2 ^ 16 + p.ntcBeta) ++
    leBytes 4 (p.autoRestarts * 2 ^ 24 + p.restartMargin * 2 ^ 16)

/-- The thermal policy that an image gives (Table 16-3). -/
def thermPolicyOf (b : List Byte) : ThermPolicy :=
  { zones := (List.range 4).map fun z => (byteAt b (4 * z + 3), byteAt b (4 * z + 2), byteAt b (4 * z + 1)),
    hyst := byteAt b 0x13, warmPause := byteAt b 0x12, hotPause := byteAt b 0x11, hotGap := byteAt b 0x10,
    ntcMask := byteAt b 0x17, ntcWake := byteAt b 0x16, ntcBeta := le b 0x14 2, autoRestarts := byteAt b 0x1B,
    restartMargin := byteAt b 0x1A }

/-- The ranges of Table 16-3, with strictly ascending thresholds (R507). -/
def thermPolicyOk (p : ThermPolicy) : Bool :=
  let asc := fun (z : Nat × Nat × Nat) => decide (z.1 < z.2.1) && decide (z.2.1 < z.2.2)
  let lim := fun (z : Nat × Nat × Nat) => decide (20 ≤ z.1) && decide (z.2.2 ≤ 125)
  p.zones.all asc && p.zones.all lim && decide ((p.zones.getD 0 (0, 0, 0)).2.2 ≤ 105) &&
    decide (1 ≤ p.hyst) && decide (p.hyst ≤ 10) && decide (1 ≤ p.warmPause) && decide (1 ≤ p.hotPause) &&
    decide (1 ≤ p.hotGap) && decide (3000 ≤ p.ntcBeta) && decide (p.ntcBeta ≤ 4500) && decide (p.autoRestarts ≤ 7) &&
    decide (5 ≤ p.restartMargin) && decide (p.restartMargin ≤ 40)

end Sys2Proof.Machine
end

