-- ==== Sys2Proof/Machine/Slots.lean ====
section
/-!
DEFINITION. The ends of the operations that a die set's busy slot runs (R220, R275, R280, R355): frames of host data, journal frames,
checkpoint frames (R251), drain image frames (R187, R190) and tile resets.
-/
namespace Sys2Proof.Machine

/-! ### Checkpoint frames (R251) -/

/-- The slot that does not hold the newest complete checkpoint (R251). -/
def passSlot (s : State) : Nat :=
  match newestCkpt s with
  | some (0, _) => 1
  | _ => 0

/-- Put a checkpoint slot. -/
def setCkpt (slot : Nat) (c : Option Ckpt) (s : State) : State :=
  if slot = 0 then { s with map := { s.map with ck0 := c } } else { s with map := { s.map with ck1 := c } }

/-- A checkpoint of the tables as they stand, without map frames; a Resetting group is written as Pending-Reset (R251, R268). -/
def makeCkpt (seq startRec jstart : Nat) (s : State) : Ckpt :=
  { seq := seq, startRec := startRec, journalStart := jstart, wseqHigh := s.map.nextWseq - 1, popCh := s.media.popCh,
    popPk := s.media.popPk, popDies := s.media.popDies, extents := s.map.extents, tenants := s.ten.tenants, extA := s.ten.extA,
    extS := s.ten.extS, profA := s.ten.profA, profS := s.ten.profS,
    groups := tmap s.place.groups fun _ x => if x.st = .resetting then { x with st := .pendingReset } else x,
    degraded := s.place.degraded, withheld := s.ten.withheld, index := s.persist.index, map := MapCopy.empty }

/-- An entry as a checkpoint writes it: from a good copy, a BACK entry as MEDIA with its D_PFA (R216, R251). -/
def ckptEnt (s : State) (lfa : Nat) : Option MapEnt :=
  (mapEntry s lfa).map fun e =>
    if e.st = .back then
      match tfind s.back.slots e.loc with
      | some x => { e with st := .media, loc := x.pfa }
      | none => e
    else e

/-- Map frame m is copied into a checkpoint (R251), each entry from its good copy; none where an entry has no good copy. -/
def copyMapFrame (s : State) (m : Nat) (c : MapCopy) : Option MapCopy :=
  let e := m / 512
  let c : MapCopy := if m % 512 = 0 ∧ s.map.copyA.trimmed.contains e = true then { c with trimmed := e :: c.trimmed } else c
  (List.range 512).foldl (fun (a : Option MapCopy) i => a.bind fun c =>
    (ckptEnt s (512 * m + i)).map fun x => if c.get (512 * m + i) = x then c else c.put (512 * m + i) x) (some c)

/-- The checkpoint once frame m of the pass is formed: a map frame joins it, and the header takes WSEQ_HIGH (R251, R253). -/
def ckptFrame (s : State) (m : Nat) (c : Ckpt) : Option Ckpt :=
  if m < Config.tableFrames then some c
  else if m + 1 = passFrames c then some { c with wseqHigh := s.map.nextWseq }
  else (copyMapFrame s (m - Config.tableFrames) c.map).map fun x => { c with map := x }

/-- A program of a checkpoint frame waits or runs. -/
def ckptOut (s : State) : Bool :=
  let isCk := fun (k : WorkKind) => match k with
    | .ckpt _ => true
    | _ => false
  s.place.busy.any fun p => (p.2.waiting.any fun w => isCk w.kind) || (p.2.cur.any fun w => isCk w.kind)

/-- The next frame of a pass becomes work of its die set (R251, R275). -/
def issueCkpt (s : State) : State :=
  match s.map.pass with
  | none => s
  | some x =>
    let m := s.map.passDone
    if passFrames x.ck ≤ m || ckptOut s then s
    else
      match ckptFrame s m x.ck, ckptPfa s x.slot m with
      | some c, some p =>
        let ds := dieSetOf (groupOf p)
        let w := takeWseq s
        let s := { w.2 with map := { w.2.map with pass := some { x with ck := c, wseq := w.1 } } }
        slotStart ds (addWork ds { prio := 4, kind := .ckpt m } s)
      | _, _ => s

/-- A frame of the pass has been programmed: with the header on the medium the slot is valid and newest (R251, Table 7-9). -/
def ckptProgrammed (m : Nat) (s : State) : State :=
  match s.map.pass with
  | none => s
  | some x =>
    if m ≠ s.map.passDone then s
    else
      let s := { s with map := { s.map with passDone := m + 1 } }
      if m + 1 = passFrames x.ck then setCkpt x.slot (some x.ck) s else issueCkpt s

/-! ### Ends of operations (R280, R295, R355) -/

/-- A pause follows the end of a program at Warm and above, unless a drain runs (R502). -/
def pauseAfter (s : State) : Option Nat :=
  let l := appliedLevel s
  if l = 0 ∨ drainRunning s then none
  else some (s.time.mono + 100 * (if l = 1 then s.therm.policy.warmPause else s.therm.policy.hotPause))

/-- The failed tiles of a metadata program: TILE_FAILED commits, or in a drain they are kept for DRAIN_FAULTS (R280, R295). DESIGN CHOICE
(log entry 220): the frame stays at its position, and the tiles are substituted at the next reset of the group. -/
def metaFaults (g : Nat) (qs : List Nat) (s : State) : State :=
  qs.foldl (fun s q => if drainRunning s then noteDrainFault g q s else countFail 4 (failTile g q 1 s)) s

/-- A journal or checkpoint frame has been programmed on its nine dies (R249, R251). -/
def metaProgrammed (ds : Nat) (k : WorkKind) (qs : List Nat) (s : State) : State :=
  match workPfa s ds k with
  | none => slotStart ds (slotClear ds s)
  | some p =>
    let g := groupOf p
    let s := metaFaults g qs (modGroup g (fun x => { x with wptr := max x.wptr (frameIdx p + 1) }) (slotClear ds s))
    let s := match k with
      | .journal n b => journalPut n b s
      | .ckpt m => ckptProgrammed m s
      | _ => s
    slotStart ds s

/-- A frame of the drain image is issued again on the next participating die set (R295). -/
def redoImage (ds n : Nat) (s : State) : State :=
  match s.persist.drain with
  | none => s
  | some d =>
    let others := d.parts.filter (· != ds)
    let next := ((others.find? fun x => decide (ds < x)).orElse fun _ => others.head?).getD ds
    drainKick { s with persist := { s.persist with drain := some { d with left := tput d.left next (n :: tget d.left next []) } } }

/-- A frame of the drain image is on the medium (R190, R193). -/
def imageLanded (ds n p : Nat) (s : State) : State :=
  match s.persist.drain with
  | none => s
  | some d =>
    match (d.frames.getD []).find? fun f => f.no == n with
    | none => s
    | some f =>
      let d := match f.body with
        | .tail _ => { d with tails := d.tails + 1 }
        | .dump _ => { d with dumps := d.dumps + 1 }
      let s := { s with persist := { s.persist with image := tput s.persist.image p f, drain := some d } }
      drainKick (modGroup (groupOf p) (fun x => { x with wptr := max x.wptr (frameIdx p + 1) }) (slotClear ds s))

/-- A quad of an image frame has ended (R187, R295). -/
def imageQuad (ds n : Nat) (failed : Bool) (s : State) : State :=
  match workPfa s ds (.image n) with
  | none => slotStart ds (slotClear ds s)
  | some p =>
    let b := busyOf s ds
    if failed then redoImage ds n (slotClear ds (noteDrainFault (groupOf p) b.quad s))
    else if b.quad < 8 then startQuad ds (setBusy ds { b with run := false, quad := b.quad + 1 } s)
    else imageLanded ds n p s

/-- The present quad's operation has ended: a failed program stops a frame of host data, a failed reset is repeated once, and otherwise the
next quad starts (R220, R280). The die takes its reads again. -/
def quadEnded (ds : Nat) (failed : Bool) (s : State) : State :=
  let b := busyOf s ds
  let die := setDieOn ds b.quad
  let s := busDrop (chanOfDie die) (programForm die) s
  let fs := if failed && !b.failed.contains b.quad then b.failed ++ [b.quad] else b.failed
  let next := fun (s : State) => startQuad ds (setBusy ds { b with run := false, retry := false, quad := b.quad + 1, failed := fs } s)
  match b.cur with
  | none => s
  | some w =>
    startReads die (match w.kind with
      | .frame _ =>
        if failed then setBusy ds { b with run := false, failed := fs, pause := pauseAfter s } s
        else if b.quad = 8 then setBusy ds { b with run := false, quad := 9, pause := pauseAfter s } s
        else next s
      | .reset .. =>
        if failed && !b.retry then startQuad ds (setBusy ds { b with run := false, retry := true } s) else next s
      | .spare .. => setBusy ds { b with run := false, quad := 9, failed := fs } s
      | .image n => imageQuad ds n failed s
      | k => if b.quad < 8 then next s else metaProgrammed ds k fs (setBusy ds { b with pause := pauseAfter s } s))

/-- Tile resets that stop leave their group Reset-Suspect (R356), or a Metadata group to be reset again. -/
def stopReset (ds : Nat) (w : Work) (g : Nat) (s : State) : State :=
  let s := slotClear ds s
  if (groupAt s g).st = .metadata then addWork ds { w with kind := .reset g false } s
  else modGroup g (fun x => { x with st := .resetSuspect }) s

/-- A program of a channel's dies ends as a program failure, and a tile reset leaves its group Reset-Suspect (R356). -/
def stopWork (c : Nat) (s : State) : State :=
  ((s.place.busy.filter fun p => dsK p.1 == c % 4 && p.2.run && p.2.quad == c / 4).map (·.1)).foldl (fun s ds =>
    match (busyOf s ds).cur with
    | some w =>
      match w.kind with
      | .reset g _ => stopReset ds w g s
      | .spare g _ _ => stopReset ds w g s
      | _ => quadEnded ds true s
    | none => s) s

/-- The supply of a channel's packages is lost: its work stops, and in a drain its die sets leave it (R356, Table 5-8). -/
def loseWork (c : Nat) (s : State) : State :=
  if drainRunning s then ((dieSets s).filter fun ds => dsK ds == c % 4).foldl (fun s ds => drainLose ds s) s else stopWork c s

end Sys2Proof.Machine
end

