-- ==== Sys2Proof/Machine/TimeOps.lean ====
section
/-!
DEFINITION. Operations of the time base and the clock domains (14_time_base_and_clocks.md): the advance of the clock, ticks,
steps, and the start and stop of domains.
-/
namespace Sys2Proof.Machine

/-! ### The clock -/

/-- Rate the loop adds to the oscillator, in ppb: none in Absent (Table 14-2). -/
def tbRate (t : TimeSt) : Int := if t.pps = .absent then 0 else t.rate

/-- What a slew adds in one ns, at most 100 ppm (R462), in billionths of a ns. -/
def slewStep (t : TimeSt) : Int := max (-100000) (min 100000 t.slewRem)

/-- One ns of the device's clock: TB_NOW counts at its rate, a slew or half-rate run takes its part (R452, R462). -/
def clockNs (t : TimeSt) : TimeSt :=
  if t.tbRunning then
    let base : Int := if t.halfRem = 0 then 1000000000 + tbRate t + slewStep t else 500000000
    let f := t.frac + base.toNat
    { t with mono := t.mono + 1, frac := f % 1000000000, tbNow := (t.tbNow + f / 1000000000) % 2 ^ 64,
             slewRem := if t.halfRem = 0 then t.slewRem - slewStep t else t.slewRem, halfRem := t.halfRem - 500000000 }
  else { t with mono := t.mono + 1 }

/-- What TB_NOW and a capture read: to 1 ns, or in coarse steps of 122.0703125 ns while TBASE is stopped (R452). -/
def tbRead (s : State) : Nat :=
  if domOf s 2 = .running then s.time.tbNow else s.time.tbNow * 8192 / 1000000 * 1000000 / 8192

/-! ### Ticks and snapshots -/

/-- A minute boundary above TB_MINUTE starts a metering snapshot (R456); TB_MINUTE changes when its copy ends (R563). -/
def snapshotAt (boundary : Nat) (s : State) : State :=
  if s.time.tbMinute < boundary ∧ s.time.snapCopy.getD 0 < boundary then
    startSnapshot { s with time := { s.time with snapCopy := some boundary } }
  else s

/-- Change PPS_STATE, with its event (Table 14-2, 8001h). -/
def setPps (p : PpsState) (s : State) : State :=
  if s.time.pps = p then s
  else
    let n : PpsState → Nat := fun | .absent => 0 | .locked => 1 | .holdover => 2 | .noisy => 3
    raise 0x060 0x8001 (n s.time.pps) (n p) 0
      { s with time := { s.time with pps := p, holdover := 0, missing := 0, clean := 0, acq := [] } }

/-- Learned bin of the always-on diode, 2 °C each from −40 °C (R464). -/
def oscBin (t : TimeSt) : Nat := min 82 ((t.oscTemp + 640) / 32).toNat

/-- A bin is fresh within 30 days of its update (R464). -/
def binFresh (t : TimeSt) (b : Nat) : Bool :=
  match tfind t.bins b with
  | some (_, at_) => decide (t.tbNow / 1000000000 ≤ at_ + 2592000)
  | none => false

/-- Diode 22, which compensates the always-on oscillator, is broken (R498). -/
def diode22Broken (s : State) : Bool :=
  match tfind s.therm.sensors 22 with
  | some x => x.broken
  | none => false

/-- The holdover rate error is that of a fresh bin; it is not while diode 22 is broken (R464, R498). -/
def freshNow (s : State) : Bool := binFresh s.time (oscBin s.time) && !diode22Broken s

/-- A second tick at the start of second `sec` (R455), with or without an accepted edge: missing edges, holdover seconds, the
error bound, clean seconds and the metering minute. -/
def tickAt (sec : Nat) (edge : Bool) (s : State) : State :=
  let t := s.time
  let b := if t.pps = .locked ∧ edge then 0 else t.bound + (if freshNow s then 1000 else 10000)
  let miss := if edge then 0 else t.missing + 1
  let cl := if t.outWin = 0 then t.clean + 1 else 0
  let t' := { t with secMark := sec, ticks := t.ticks + 1, bound := b, missing := miss, outWin := 0, clean := cl,
                     holdover := if t.pps = .holdover then min 65535 (t.holdover + 1) else t.holdover }
  let s := { s with time := t' }
  let s :=
    if t.pps = .locked ∧ 3 ≤ miss then setPps .holdover s
    else if t.pps = .noisy ∧ 10 ≤ cl then setPps (if t.lastAccept.isSome then .holdover else .absent) s
    else s
  if sec % 60 = 0 then snapshotAt (sec * 1000000000) s else s

/-- Step the time base to a value (R456, R457): no boundary is passed, a forward step over minute boundaries gives one
snapshot at the last of them, and a correction in progress is abandoned (Table 14-5). -/
def stepTo (v : Nat) (s : State) : State :=
  let old := s.time.tbNow
  let s := { s with time := { s.time with
    tbNow := v % 2 ^ 64, frac := 0, slewRem := 0, halfRem := 0, secMark := v % 2 ^ 64 / 1000000000,
    steps := s.time.steps + 1 } }
  if old / 60000000000 < v / 60000000000 then snapshotAt (v / 60000000000 * 60000000000) s else s

/-! ### Clock domains of the media quads and the data path (Table 14-4) -/

/-- Some channel of a quad is in service or training, or a die of the quad is busy (Table 14-4). -/
def quadOn (s : State) (q : Nat) : Bool :=
  (List.range 4).any fun k =>
    let m := (chanOf s (4 * q + k)).mode
    m == .inService || m == .training ||
      (m != ChanMode.down && s.place.busy.any fun p => dsK p.1 == k && p.2.cur.isSome && p.2.run)

/-- The domains of the media quads follow their channels (Table 14-4). -/
def syncMq (s : State) : State :=
  (List.range 9).foldl (fun s q =>
    if quadOn s q then startDom (20 + q) s
    else if domOf s (20 + q) = .running ∨ domOf s (20 + q) = .gated then stopDom (20 + q) s
    else s) s

/-- Some work is in the data path (Table 14-4): requests, fills, frames, busy dies, walks or descriptors. -/
def anyWork (s : State) : Bool :=
  !s.ten.reqs.isEmpty || !s.front.miss.isEmpty || !s.front.asms.isEmpty || !s.front.maint.isEmpty || drainRunning s ||
    (s.place.busy.any fun p => p.2.cur.isSome) || (s.eng.engines.any fun p => p.2 != { Engine.fresh with done := p.2.done })

/-- Every gated domain that Idle gated runs again (R467). -/
def idleResume (s : State) : State :=
  ([7, 11, 8, 9] ++ (List.range 8).map (12 + ·) ++ (List.range 9).map (20 + ·)).foldl
    (fun s d => if domOf s d = DomState.gated then startDom d s else s) s

/-- In Idle the clocks of the data path gate after 1 µs without work, and run again for background work (R467, Table 14-4). -/
def idleClocks (s : State) : State :=
  if s.power.mode = .idle then
    if anyWork s then idleResume s
    else if s.power.lastReq + 1000 ≤ s.time.mono then
      ([7, 11, 8, 9] ++ (List.range 8).map (12 + ·) ++ (List.range 9).map (20 + ·)).foldl (fun s d => gateDom d s) s
    else s
  else s

/-! ### Policy (Table 14-1) -/

/-- Bytes of the policy register of Table 14-1. -/
def timePolicyBytes (p : TimePolicy) : List Byte :=
  leBytes 4 (b2n p.ppsEn * 2 ^ 31 + b2n p.ppsEdge * 2 ^ 30 + p.ppsWindow) ++
    leBytes 4 (unsignedOf 16 p.ppsDelay * 65536 + p.ppsFilter * 256)

/-- The policy register an image gives (Table 14-1). -/
def timePolicyOf (b : List Byte) : TimePolicy :=
  { ppsEn := bits (le b 0 4) 31 1 == 1, ppsEdge := bits (le b 0 4) 30 1 == 1, ppsWindow := bits (le b 0 4) 0 17,
    ppsDelay := signed 16 (bits (le b 4 4) 16 16), ppsFilter := bits (le b 4 4) 8 8 }

/-- Whether a policy is within its ranges (Table 14-1). -/
def timePolicyOk (p : TimePolicy) : Bool :=
  decide (1 ≤ p.ppsWindow) && decide (p.ppsWindow ≤ 100000) && decide (1 ≤ p.ppsFilter) && decide (p.ppsFilter ≤ 255)

/-- The clock domains of the fabric ports follow their states: stopped while Disabled, started when enabled (Table 14-4). -/
def syncFab (s : State) : State :=
  (List.range 8).foldl (fun s p =>
    if (portOf s p).st = .disabled then
      (if domOf s (29 + p) = .running then stopDom (29 + p) s else s)
    else if domOf s (29 + p) = .stopped then startDom (29 + p) s
    else s) s

end Sys2Proof.Machine
end

