-- ==== Sys2Proof/Machine/PowerOps.lean ====
section
/-!
DEFINITION. Operations of supplies, rail sequencing and power states (15_supplies_and_sequencing.md): the program blob, rails,
sequences, safe-off, what a loss of the device rails takes (R49, R183), and the entry to and exit from Idle, Dormant and
Standby (R490 to R494).
-/
namespace Sys2Proof.Machine

/-! ### The program (R475, R476, R483) -/

/-- A rail descriptor at its reset values, of a role (Table 15-4): no ADC channel. -/
def builtinRail (role : Nat) : List Byte :=
  leBytes 4 (role * 2 ^ 28 + 0x3F * 2 ^ 18) ++ leBytes 4 0x28141428 ++ leBytes 4 0x03E800C8 ++ leBytes 4 0x03E84000

/-- A dependency entry at its reset values but for PRED (Table 15-7). -/
def builtinDep (pred : Nat) : List Byte := leBytes 8 pred ++ leBytes 4 0x000A01F4 ++ leBytes 4 0x000A01F4

/-- The blob but for its PROG_CRC. -/
def builtinHead : List Byte := leBytes 4 0x00010100 ++ zeros 4 ++ leBytes 8 0xFF ++ zeros 8

/-- What follows the header of the built-in program: rails 0 to 7 as roles 1 to 8 in the order of Table 15-2 (R475). -/
def builtinRest : List Byte :=
  zeros 36 ++ ([1, 2, 3, 4, 5, 6, 7, 8].flatMap builtinRail) ++ zeros (56 * 16) ++ zeros 128 ++ zeros 1024 ++
    ([0, 1, 2, 4, 4, 0x18, 0x18, 0x18].flatMap builtinDep) ++ zeros (56 * 16)

/-- The built-in program (R475). -/
def builtinBlob : List Byte :=
  builtinHead ++ leBytes 4 (crc32c (builtinHead ++ zeros 4 ++ builtinRest)) ++ builtinRest

/-- The blob in use (R487). -/
def blobOf (s : State) : List Byte := s.power.inUse.getD builtinBlob

/-- Step mode, or dependency mode (Table 15-3). -/
def stepMode (b : List Byte) : Bool := byteAt b 1 == 0

/-- RAIL_MASK: a rail is in use (Table 15-3). -/
def railUsed (b : List Byte) (r : Nat) : Bool := bits (le b 8 8) r 1 == 1

/-- OUT_DEFAULT of a role-11 output (Table 15-3). -/
def outDefault (b : List Byte) (r : Nat) : Bool := bits (le b 0x10 8) r 1 == 1

/-- A descriptor word of a rail (Table 15-4). -/
def railWord (b : List Byte) (r off : Nat) : Nat := le b (0x40 + 16 * r + off) 4

/-- ROLE (Table 15-4); 0 for a rail not in use. -/
def railRole (b : List Byte) (r : Nat) : Nat := if railUsed b r then bits (railWord b r 0) 28 4 else 0

/-- PG_MODE (Table 15-4). -/
def pgMode (b : List Byte) (r : Nat) : Nat := bits (railWord b r 0) 26 2

/-- FAULT_ACTION (Table 15-4). -/
def faultAction (b : List Byte) (r : Nat) : Nat := bits (railWord b r 0) 24 2

/-- ADC_CH, 3Fh for none (Table 15-4). -/
def adcCh (b : List Byte) (r : Nat) : Nat := bits (railWord b r 0) 18 6

/-- NOMINAL in mV (Table 15-4). -/
def nominal (b : List Byte) (r : Nat) : Nat := bits (railWord b r 0) 0 16

/-- A level field of a rail: OV_FAULT at 24, OV_WARN at 16, UV_WARN at 8, UV_FAULT at 0 (Table 15-4). -/
def railLevel (b : List Byte) (r pos : Nat) : Nat := bits (railWord b r 4) pos 8

/-- T_SETTLE in ns (Table 15-4). -/
def tSettle (b : List Byte) (r : Nat) : Nat := bits (railWord b r 8) 0 16 * 10000

/-- QUAL_WINDOW in ns (Table 15-4). -/
def qualWindow (b : List Byte) (r : Nat) : Nat := bits (railWord b r 0xC) 16 16 * 10000

/-- CHATTER_MAX (Table 15-4). -/
def chatterMax (b : List Byte) (r : Nat) : Nat := bits (railWord b r 0xC) 12 4

/-- A package group entry (Table 15-5). -/
def groupEntry (b : List Byte) (n : Nat) : Nat := le b (0x440 + 8 * n) 8

/-- The package group entries in use that name a rail as VCC_M or VCCQ_M. -/
def groupsOfRail (b : List Byte) (r : Nat) : List Nat :=
  ((List.range 16).map (groupEntry b)).filter fun g => bits g 36 1 == 1 && (bits g 58 6 == r || bits g 52 6 == r)

/-- Media channels of the package groups of a rail. -/
def railChannels (b : List Byte) (r : Nat) : List Nat :=
  (List.range 36).filter fun c => (groupsOfRail b r).any fun g => bits g c 1 == 1

/-- A step of the program (Table 15-6). -/
def stepWord (b : List Byte) (pc : Nat) : Nat := le b (0x4C0 + 4 * pc) 4

/-- PRED of a rail (Table 15-7). -/
def predOf (b : List Byte) (r : Nat) : List Nat := (List.range 64).filter fun m => bits (le b (0x8C0 + 16 * r) 8) m 1 == 1

/-- UP_DELAY, TIMEOUT, DOWN_DELAY or DOWN_TIMEOUT of a rail, in ns (Table 15-7). -/
def depField (b : List Byte) (r i : Nat) : Nat :=
  if i = 0 then le b (0x8C0 + 16 * r + 10) 2 * 10000 else if i = 1 then le b (0x8C0 + 16 * r + 8) 2 * 100000
  else if i = 2 then le b (0x8C0 + 16 * r + 14) 2 * 10000 else le b (0x8C0 + 16 * r + 12) 2 * 100000

/-- Rails in use that the sequencer switches as supplies: every role but 0 and 11. -/
def supplyRails (b : List Byte) : List Nat := (List.range 64).filter fun r => railRole b r != 0 && railRole b r != 11

/-- Roles of the drain rails (R472). -/
def drainRole (role : Nat) : Bool := role == 1 || role == 2 || role == 3 || role == 4 || role == 7

/-! ### Rails -/

/-- A rail that is off. -/
def Rail.off : Rail :=
  { enabled := false, good := false, pg := false, pgSince := none, enabledAt := 0, goodAt := 0, offAt := 0, order := 0,
    edges := [], mv := 0, ovBad := 0, uvBad := 0, ovLate := 0, uvLate := 0, ovWarn := false, uvWarn := false, fault := 0, lost := false,
    held := false }

/-- A rail. -/
def railOf (s : State) (r : Nat) : Rail := tget s.power.rails r Rail.off

/-- Put back a rail. -/
def setRail (r : Nat) (x : Rail) (s : State) : State := { s with power := { s.power with rails := tput s.power.rails r x } }

/-- The ADC reads below 10% of NOMINAL; a rail without a channel is not monitored (R481). -/
def adcLow (b : List Byte) (r : Nat) (x : Rail) : Bool := adcCh b r == 0x3F || decide (10 * x.mv < nominal b r)

/-- A rail is off: PG low and the ADC below 10% of NOMINAL (R481). -/
def railOff (s : State) (r : Nat) : Bool := !(railOf s r).enabled && !(railOf s r).pg && adcLow (blobOf s) r (railOf s r)

/-- Rails of a role. -/
def railsOfRole (b : List Byte) (role : Nat) : List Nat := (List.range 64).filter fun r => railRole b r == role

/-- Every rail of the roles is good. -/
def rolesGood (s : State) (roles : List Nat) : Bool :=
  (roles.flatMap (railsOfRole (blobOf s))).all fun r => (railOf s r).good

/-- The roles that must be good before a device rail is enabled (Table 15-2). -/
def roleAbove (role : Nat) : List Nat :=
  if role = 2 then [1] else if role = 3 then [2] else if role = 4 ∨ role = 5 then [3]
  else if role = 6 ∨ role = 7 ∨ role = 8 then [4, 5] else []

/-- VCC_M rails of the groups in which a rail is VCCQ_M (Table 15-5). -/
def vccOf (b : List Byte) (r : Nat) : List Nat :=
  ((groupsOfRail b r).filter fun g => bits g 52 6 == r).map fun g => bits g 58 6

/-- The order guard's group above is good (R482). -/
def orderOk (s : State) (r : Nat) : Bool :=
  let role := railRole (blobOf s) r
  if role = 10 then (vccOf (blobOf s) r).all fun v => (railOf s v).good
  else rolesGood s (roleAbove role)

/-- Time from which the order guard lets an enable through: 100 µs after the group above, but for VDD_SRAM (Table 15-2). -/
def orderTime (s : State) (r : Nat) : Nat :=
  let b := blobOf s
  let role := railRole b r
  let above := ((roleAbove role).flatMap (railsOfRole b)).map fun v => (railOf s v).goodAt
  if role = 1 then s.power.aonAt + 100000
  else if role = 3 ∨ 8 < role then 0
  else above.foldl max 0 + 100000

/-- Drive an enable high (R481). -/
def driveOn (r : Nat) (s : State) : State :=
  setRail r { railOf s r with
    enabled := true, enabledAt := s.time.mono, edges := [], held := false, good := false, lost := false } s

/-- Drive an enable low; MRESET_N of the channels of a VCCQ_M rail falls first (R482). -/
def driveOff (r : Nat) (s : State) : State :=
  let s := if railRole (blobOf s) r = 10 then (railChannels (blobOf s) r).foldl (fun s c => assertMreset c s) s else s
  setRail r { railOf s r with enabled := false, good := false, order := 0, edges := [], held := false,
                              offAt := s.time.mono, ovLate := 0, uvLate := 0, ovBad := 0, uvBad := 0 } s

/-- A disable that must wait: VCC_M while its VCCQ_M is on (R482). -/
def offHeld (s : State) (r : Nat) : Bool :=
  ((groupsOfRail (blobOf s) r).filter fun g => bits g 58 6 == r).any fun g => !railOff s (bits g 52 6)

/-- Disable a rail; VCC_M stays on, with its disable held, while its VCCQ_M is on (R482). -/
def dropRail (r : Nat) (s : State) : State :=
  if offHeld s r then setRail r { railOf s r with held := true } s else driveOff r s

/-- A rail shows PG or a voltage before its enable (Table 15-8 PG_EARLY). -/
def pgEarly (s : State) (r : Nat) : Bool :=
  (railOf s r).pg || (adcCh (blobOf s) r != 0x3F && decide (nominal (blobOf s) r ≤ 10 * (railOf s r).mv) &&
    decide (0 < (railOf s r).mv))

/-! ### Power states -/

/-- Code of a power state (C700h); Off, which no command can read, is 4. -/
def PMode.code : PMode → Nat
  | .active => 0 | .idle => 1 | .dormant => 2 | .standby => 3 | .off => 4

/-- Enter a power state for a cause of C700h, with its event (0004h). -/
def setMode (m : PMode) (cause : Nat) (s : State) : State :=
  if s.power.mode = m then s
  else raise 0x061 0x0004 s.power.mode.code m.code cause
    { s with power := { s.power with mode := m, cause := cause, transAt := s.time.tbNow } }

/-- The device rails are up and no sequence runs: Active, Idle or Dormant (Table 15-9). -/
def devUp (s : State) : Bool :=
  (s.power.mode == .active || s.power.mode == .idle || s.power.mode == .dormant) && s.power.seq.isNone

/-- Clock domains after the device rails have gone: the always-on ones run, TBASE and MGMT are stopped, the rest have no supply
(R49, Table 14-4). -/
def standbyDomains : Tbl DomState :=
  (List.range 40).map fun i =>
    (i + 1, if i + 1 = 1 ∨ i + 1 = 37 ∨ i + 1 = 38 ∨ i + 1 = 39 then DomState.running
            else if i + 1 = 2 ∨ i + 1 = 10 then .stopped else .unpowered)

/-- What the loss of the device rails takes (R49, R183, R577, R583): every register, table and buffer but those of the
always-on domain, the cellar book, the fuses, the firmware slots and the medium. -/
def losePower (s : State) : State :=
  let s := (List.range 36).foldl (fun s c => assertMreset c s) s
  let r := State.reset
  { r with
    recorder := { s.recorder with units := tfilter s.recorder.units fun k _ => decide (0x60 ≤ k) && decide (k ≤ 0x65),
                                  ringOn := false, ring := [], newest := none },
    cellar := { s.cellar with writes := s.cellar.writes.map fun w => { w with cci := none } },
    mgmt := { r.mgmt with slotA := s.mgmt.slotA, slotB := s.mgmt.slotB, active := s.mgmt.active, nextSlot := s.mgmt.nextSlot,
                          tries := s.mgmt.tries, revoked := s.mgmt.revoked, debugLock := s.mgmt.debugLock,
                          gradeFX := s.mgmt.gradeFX, serial := s.mgmt.serial, romVersion := s.mgmt.romVersion,
                          access := s.mgmt.access, shutdownState := s.mgmt.shutdownState },
    time := { s.time with snapCopy := none, snapSeq := 0, snapBuf := false, tbMinute := 0, heldStops := [], locking := [],
                          lockQueue := [], domains := standbyDomains },
    heads := tmap s.heads fun _ x => { HeadSt.fresh with present := x.present, perst := x.perst },
    start := { s.start with warm := true, phases := s.start.phases.filter fun p => p == 1 || p == 2 || p == 3,
                            held := false, mediaError := false, phase12 := none },
    media := { s.media with chans := tmap s.media.chans fun _ x => { ChanSt.down with mreset := x.mreset, mck := x.mck } },
    persist := { r.persist with run := s.persist.run, drainLast := s.persist.drainLast, w0 := s.persist.w0,
                                w1 := s.persist.w1, armed := s.persist.armed, nextDrain := s.persist.nextDrain,
                                imageList := s.persist.imageList, image := s.persist.image,
                                faults := s.persist.faults, pwrFail := s.persist.pwrFail,
                                pwrFailPin := s.persist.pwrFailPin, lowSamples := s.persist.lowSamples,
                                policy := s.persist.policy, vNow := s.persist.vNow },
    map := { r.map with root := s.map.root, mirrorNext := s.map.mirrorNext, pendingE := s.map.pendingE,
                        hFmt := s.map.hFmt,
                        jframes := s.map.jframes, nextFrame := s.map.nextFrame, spill := s.map.spill, ck0 := s.map.ck0,
                        ck1 := s.map.ck1, ckptSeq := s.map.ckptSeq, passDue := s.map.passDue, frames := s.map.frames },
    drift := { r.drift with clock := s.drift.clock, aonKept := s.drift.aonKept },
    fabric := { r.fabric with devId := s.fabric.devId },
    epoch := { r.epoch with arm := s.epoch.arm, late := s.epoch.late, stepAt := s.epoch.stepAt, slots := s.epoch.slots, manA := s.epoch.manA, manS := s.epoch.manS,
                            ring := s.epoch.ring, policy := s.epoch.policy },
    power := s.power, therm := { s.therm with
      levels := [0, 0, 0, 0], belowSince := [none, none, none, none], applied := 0,
      sensors := tmap s.therm.sensors fun i x =>
        if i = 22 ∨ 328 ≤ i then { x with reached := 0 } else { Sensor.fresh with broken := x.broken } },
    free := s.free, pending := s.pending }

/-- Report a sequencer fault of Table 15-8 on a rail, with the step that waits or runs next (R484, 0002h). -/
def railFault (r code : Nat) (s : State) : State :=
  let pc := match s.power.seq with
    | some q => if q.wait = .none then q.pc else (q.pc + 255) % 256
    | none => 0
  raise 0x061 0x0002 code r pc (setRail r { railOf s r with fault := code, lost := true } s)

/-- In a safe-off rail `x` is disabled before rail `r` (R485): the enabled rails that never became good go first, the last enabled
foremost, then the good ones, the last good foremost. -/
def offBefore (s : State) (r x : Nat) : Bool :=
  let a := railOf s r
  let b := railOf s x
  b.enabled && if a.order = 0 then
      b.order == 0 && (decide (a.enabledAt < b.enabledAt) || (a.enabledAt == b.enabledAt && decide (r < x)))
    else b.order == 0 || decide (a.order < b.order)

/-- Device time at which a safe-off disables a rail: 1 µs after the MRESET_Ns fall, and 100 µs after the rail before it (R485). -/
def offTime (s : State) (r : Nat) : Nat :=
  s.time.mono + 1000 + 100000 * ((supplyRails (blobOf s)).filter (offBefore s r)).length

/-- Level of a RAIL_EN pin: a rail that a safe-off disables keeps it until its turn (R475, R485). -/
def railEn (s : State) (r : Nat) : Bool := (railOf s r).enabled || decide (s.time.mono < (railOf s r).offAt)

/-- Safe-off (R485): every MRESET_N low, every rail disabled in its turn without waiting, role-11 outputs at OUT_DEFAULT; the device
counts as Standby, and power-up repeats while retries are left. -/
def safeOff (cause : Nat) (s : State) : State :=
  let b := blobOf s
  let s0 := s
  let off := fun (r : Nat) (x : Rail) =>
    if railRole b r = 11 then { x with enabled := outDefault b r }
    else { x with enabled := false, good := false, order := 0, held := false, edges := [],
                  offAt := if x.enabled then offTime s0 r else x.offAt }
  let s := losePower { s with power := { s.power with
    rails := tmap s.power.rails off, seq := none, hold := none, entering := none, exiting := false, goodCount := 0, wakeDue := false,
    retryAt := if s.power.retries < s.power.policy.retries then
        some (s.time.mono + s.power.policy.retryDelay * 100000000) else none } }
  setMode .standby cause s

/-- Start the power-up sequence from Standby (R46, R487): the stored program is the one in use from here, and its role-11
outputs are at OUT_DEFAULT (Table 15-3). Nothing starts while the power-fail condition is latched (R488), or while a Critical
stop or a trip bars it (R506). -/
def startPowerUp (cause : Nat) (s : State) : State :=
  if s.power.mode = .standby ∧ s.power.seq.isNone ∧ s.persist.pwrFail = false ∧ s.power.hold.isNone ∧
      s.therm.barred = false then
    let s := { s with power := { s.power with inUse := s.power.stored, cause := cause, retryAt := none, goodCount := 0,
                                              transAt := s.power.transAt } }
    let b := blobOf s
    let outs := railsOfRole b 11
    { s with power := { s.power with
      rails := outs.foldl (fun t r => tput t r { tget t r Rail.off with enabled := outDefault b r })
        (tmap s.power.rails fun _ x => { x with lost := false }),
      seq := some { up := true, pc := byteAt b 7, flag := false, steps := 0, wait := .none, deadline := 0, timers := [],
                    falling := [] } } }
  else s

/-- The device rails are up: the domains without a clock have a supply, and TBASE, the data path's domains and those of the
heads out of PERST_N start (R467, Table 14-4). -/
def powerDomains (s : State) : State :=
  let s := { s with time := { s.time with
    domains := tmap s.time.domains fun _ x => if x = .unpowered then .stopped else x } }
  let hs := ((List.range 4).filter fun h => (headOf s h).present && !(headOf s h).perst).map (3 + ·)
  ([2, 7, 11, 8, 9] ++ hs).foldl (fun s d => startDom d s) s

/-- The power-up sequence has ended (R481, R490): Active, and phase 4 of the start is complete. -/
def endPowerUp (s : State) : State :=
  let s := setMode .active s.power.cause { s with power := { s.power with
    seq := none, lastReq := s.time.mono, quietSince := s.time.mono } }
  let s := { s with start := { s.start with phases := s.start.phases ++ [4], upEnd := s.time.mono, held := false,
                                            mediaError := false, phase12 := none } }
  powerDomains s

/-- Run the power-down program (R473, R481, R483). Everything on the device rails is lost. -/
def runPowerDown (s : State) : State :=
  let b := blobOf s
  let s := losePower { s with power := { s.power with hold := none, entering := none, exiting := false } }
  { s with power := { s.power with
    seq := some { up := false, pc := byteAt b 6, flag := false, steps := 0, wait := .none, deadline := 0, timers := [],
                  falling := [] } } }

/-- The power-down sequence has ended: Standby, and power-up again if it is due (R488, R494); a wake that a Critical stop bars is
held (R506). -/
def endPowerDown (s : State) : State :=
  let due := s.power.wakeDue
  let cause := s.power.cause
  let s := setMode .standby cause { s with power := { s.power with seq := none, wakeDue := false, goodCount := 0 } }
  if due && s.therm.barred then { s with therm := { s.therm with wakeHeld := true } }
  else if due then startPowerUp 5 s else s

/-- Begin the power-down that follows a drain or a rail fault (R488): the package groups and the board rails go, every domain
but the fabric ports' stops, and the fabric ports are held up for 50 ms with a withdrawn LSA. -/
def beginPowerDown (cause : Nat) (s : State) : State :=
  let b := blobOf s
  let rs := fun (role : Nat) => (railsOfRole b role).filter fun r => (railOf s r).enabled
  let s := (rs 10 ++ rs 12 ++ rs 9).foldl (fun s r => dropRail r s) s
  let s := originateLsa true s
  let keep := fun (d : Nat) (x : DomState) =>
    if (29 ≤ d ∧ d ≤ 36) ∨ d = 1 ∨ d = 2 ∨ d = 37 ∨ d = 38 ∨ d = 39 ∨ x = .unpowered then x else .stopped
  { s with
    power := { s.power with hold := some (s.time.mono + 50000000), cause := cause, entering := some 3, exiting := false },
    mgmt := { s.mgmt with running := false },
    heads := tmap s.heads fun _ x => { x with memActive := false, withheld := true, linkUp := false },
    time := { s.time with domains := tmap s.time.domains keep } }

/-! ### DRIFT_CLOCK (R302) -/

/-- Write DRIFT_CLOCK: the second, whether VDD_AON has been present since the record before, and the residuals (R302). -/
def writeDriftClock (s : State) : State :=
  let sec := s.time.tbNow / 1000000000
  let data := leBytes 8 sec ++ leBytes 1 (b2n s.drift.aonKept) ++ zeros 3 ++
    (List.range 512).flatMap fun ds => leBytes 4 (tget s.drift.residual ds 0 / 65536)
  cellarWrite 5 2 0x06 data none { s with drift := { s.drift with
    clock := some (sec, s.drift.aonKept, tmap s.drift.residual fun _ v => v / 65536), aonKept := true } }

/-! ### Admission -/

/-- Heads with Memory_Active grant credits again (R87, R88, R491), but not in Dormant or on the way in or out of it. -/
def resumeAdmission (s : State) : State :=
  if s.power.mode = .dormant ∨ s.power.entering.isSome ∨ s.power.exiting then s
  else { s with heads := tmap s.heads fun _ x => { x with withheld := !x.memActive } }

/-! ### Dormant and Standby (R491, R492) -/

/-- Dormant takes every channel that is in service out of it (Table 15-9). -/
def chansOut (s : State) : State :=
  { s with media := { s.media with chans := tmap s.media.chans fun _ x =>
      if x.mode = .inService then { x with mode := .outOfService, dorm := true } else x } }

/-- The channels that Dormant took out of service return (R491). -/
def chansIn (s : State) : State :=
  { s with media := { s.media with chans := tmap s.media.chans fun _ x =>
      if x.dorm then { x with mode := if x.mode = .outOfService then .inService else x.mode, dorm := false } else x } }

/-- The data path's clocks run and no DRAM channel is in self-refresh (R491). -/
def pathAwake (s : State) : Bool :=
  ([7, 8, 9, 11].all fun d => domOf s d == .running) && (s.dram.chans.all fun p => p.2.mode != .selfRefresh)

/-- The last steps of an exit from Dormant, once the clocks run and DRAM has left self-refresh: Invalidate All, Enable Front Cache,
and admission resumes; racking and topping go on (R491). -/
def continueExit (s : State) : State :=
  if s.power.exiting && pathAwake s && !drainRunning s then
    let s := { s with power := { s.power with exiting := false } }
    let s := if s.front.mode = .off then enableFront { s with front := { s.front with invAllDone := true } } else s
    resumeRacks (resumeAdmission s)
  else s

/-- Begin an exit from Dormant (R491): the clocks of the data path and the fabric ports start, the channels return to service,
and DRAM may leave self-refresh. -/
def exitDormant (cause : Nat) (s : State) : State :=
  let s := syncMq (chansIn <| [10, 7, 11, 8, 9].foldl (fun s d => startDom d s) s)
  let s := { s with power := { s.power with hold := none, entering := none, wakeDue := false, lastReq := s.time.mono,
                                            quietSince := s.time.mono } }
  let ps := (List.range 8).filter fun p => s.fabric.policy.portEn.getLsbD p && (portOf s p).st == .disabled &&
    !(portOf s p).byRetrain
  let s := syncFab (ps.foldl (fun s p => enterPort p .training s) s)
  setMode .active cause { s with power := { s.power with exiting := true } }

/-- A wake source of R46, or an exit from Dormant (R490, R491, R494, R506). The source numbers are the model's: 0 PERST_N,
1 sideband, 2 ring, 3 alarm, 4 NTC. -/
def wake (source : Nat) (s : State) : State :=
  let hold := if s.therm.wakeHeld then s
    else raise 0x062 0x1005 source 0 0 { s with therm := { s.therm with wakeHeld := true } }
  if s.power.entering.isSome ∨ (match s.power.seq with
      | some q => !q.up
      | none => false) = true then
    if s.therm.barred then hold else { s with power := { s.power with wakeDue := true } }
  else
    match s.power.mode with
    | .dormant => exitDormant 5 s
    | .standby => if s.therm.barred then hold else startPowerUp 5 s
    | _ => s

/-- A request at a head or fabric port: Idle and Dormant end, and an entry in progress is followed by an exit (R490, R494). -/
def noteRequest (s : State) : State :=
  let s := { s with power := { s.power with lastReq := s.time.mono } }
  if s.power.entering = some 2 then { s with power := { s.power with wakeDue := true } }
  else
    match s.power.mode with
    | .idle => setMode .active 1 (idleResume s)
    | .dormant => exitDormant 5 s
    | _ => s

/-- Stop the fabric ports (R491 step 7). -/
def stopFabric (s : State) : State := syncFab ((List.range 8).foldl (fun s p => dropPort p .disabled s) s)

/-- The last steps of an entry to Dormant or Standby, once the front cache is Off and its work has ended, the programming of the
staging area included (R491, R492). -/
def finishEntry (target : Nat) (s : State) : State :=
  let s := [7, 11, 8, 9].foldl (fun s d => stopDom d s) s
  let s := writeDriftClock s
  if target = 3 then
    { originateLsa true s with power := { s.power with hold := some (s.time.mono + 50000000), cause := 0 } }
  else
    let s := if s.power.policy.keepFabric then s
      else { originateLsa true s with power := { s.power with hold := some (s.time.mono + 50000000) } }
    let due := s.power.wakeDue
    let s := (List.range 9).foldl (fun s q => stopDom (20 + q) s) s
    let s := gateDom 10 (setMode .dormant s.power.cause { chansOut s with power := { s.power with entering := none } })
    if due then exitDormant 5 s else s

/-- The staging area has been programmed (R491 step 4); a device without a MAP_ROOT has no journal. -/
def stagingDone (s : State) : Bool := s.map.root.isNone || (s.map.staging.isEmpty && s.map.waiting.isEmpty)

/-- An entry in progress goes on once the front cache is Off, no fill or frame is in progress, and the staging area has been
programmed (R491). -/
def continueEntry (s : State) : State :=
  match s.power.entering with
  | some t =>
    if s.power.hold.isNone ∧ drainRunning s = false ∧ s.front.mode = .off ∧ s.front.miss.isEmpty ∧ s.front.asms.isEmpty ∧ stagingDone s = true then
      finishEntry t s
    else s
  | none => s

/-- Begin the entry to Dormant (2) or Standby (3): admission stops, a measurement is abandoned, and Disable Front Cache runs
(R491, R492). -/
def beginEntry (target cause : Nat) (s : State) : State :=
  let s := abandonMeasure (withholdAll true s)
  let s := { s with power := { s.power with entering := some target, cause := cause } }
  let s := match s.front.mode with
    | .off => s
    | .draining => s
    | _ => urgentAll { s with front := { s.front with mode := .draining, invAllDone := false } }
  let s := if s.front.mode = .draining ∧ dirtyLines s = 0 then reachOff s else s
  continueEntry s

/-! ### Rails in use -/

/-- The dependants of a rail: in dependency mode the rails that name it in PRED, directly or through others, in step mode the
rails that were enabled after it and are still on (R482, R483). -/
def dependants (s : State) (r : Nat) : List Nat :=
  let b := blobOf s
  let grow := fun (l : List Nat) => (List.range 64).filter fun x => l.contains x || (predOf b x).any l.contains
  let closed := (List.range 64).foldl (fun l _ => grow l) [r]
  if stepMode b then
    (supplyRails b).filter fun x => x != r && (railOf s x).enabled &&
      (decide ((railOf s r).enabledAt < (railOf s x).enabledAt) ||
        ((railOf s r).enabledAt == (railOf s x).enabledAt && decide ((railOf s r).order < (railOf s x).order)))
  else closed.filter fun x => x != r && (railOf s x).enabled

/-- A rail becomes good (R477): it joins the order, and a sequence that waits for it goes on. With the device rails good MGMT starts
(R467), and a dependency-mode power-up in which every rail in use is good has ended. -/
def becomeGood (r : Nat) (s : State) : State :=
  let b := blobOf s
  let n := s.power.goodCount + 1
  let s := setRail r { railOf s r with good := true, goodAt := s.time.mono, order := n } s
  let s := { s with power := { s.power with goodCount := n } }
  let s := if railRole b r = 3 then powerRing s else s
  match s.power.seq with
  | none => s
  | some q =>
    let s := if q.up && rolesGood s [1, 2, 3, 4, 5, 6, 7, 8] then startDom 10 s else s
    let q := { q with timers := q.timers.filter fun t => t.1 != r,
                      wait := if q.wait = .good r then .none else q.wait }
    let s := { s with power := { s.power with seq := some q } }
    let grp := fun x => railRole b x == 9 || railRole b x == 10
    if q.up && !stepMode b && (supplyRails b).all (fun x => (railOf s x).good || (grp x && (railOf s x).lost)) then
      endPowerUp s
    else s

/-- Whether a rail's ADC reading lies within its fault levels (R476). -/
def withinFault (b : List Byte) (r mv : Nat) : Bool :=
  let n := nominal b r
  decide (400 * mv ≤ n * (400 + railLevel b r 24)) && decide (n * (400 - railLevel b r 0) ≤ 400 * mv)

/-- Whether a rail's ADC reading lies within its warning levels (Table 15-6 CHECK). -/
def withinWarn (b : List Byte) (r mv : Nat) : Bool :=
  let n := nominal b r
  decide (400 * mv ≤ n * (400 + railLevel b r 16)) && decide (n * (400 - railLevel b r 8) ≤ 400 * mv)

/-- PG has been high without a break for T_SETTLE (R477). -/
def pgStable (s : State) (r : Nat) : Bool :=
  match (railOf s r).pgSince with
  | some t => decide (t + tSettle (blobOf s) r ≤ s.time.mono)
  | none => false

/-- The condition of PG_MODE (R477, Table 15-4). -/
def goodNow (s : State) (r : Nat) : Bool :=
  let b := blobOf s
  let x := railOf s r
  let m := pgMode b r
  if m = 0 then pgStable s r
  else if m = 1 then withinFault b r x.mv
  else if m = 2 then pgStable s r && withinFault b r x.mv
  else decide (x.enabledAt + tSettle b r ≤ s.time.mono)

/-- A rail that is enabled becomes good when its condition holds. -/
def checkGood (r : Nat) (s : State) : State :=
  if (railOf s r).enabled && !(railOf s r).good && goodNow s r then becomeGood r s else s

/-- A dependency-mode power-down in which every rail is disabled and none is waited for has ended (R483). -/
def checkDownEnd (s : State) : State :=
  match s.power.seq with
  | none => s
  | some q =>
    let b := blobOf s
    if !q.up && !stepMode b && q.falling.isEmpty && (supplyRails b).all (fun x => !(railOf s x).enabled) then endPowerDown s
    else s

/-- A rail is no longer waited for to fall. -/
def stopFalling (r : Nat) (s : State) : State :=
  match s.power.seq with
  | none => s
  | some q =>
    if (q.falling.any fun t => t.1 == r) || q.wait == .off r then
      let q := { q with falling := q.falling.filter fun t => t.1 != r, wait := if q.wait = .off r then .none else q.wait }
      let s := setRail r { railOf s r with offAt := s.time.mono } { s with power := { s.power with seq := some q } }
      checkDownEnd s
    else s

/-- A VCC_M rail whose disable was held goes once its VCCQ_M rails are off (R482). -/
def releaseVcc (v : Nat) (s : State) : State :=
  if (railOf s v).enabled && (railOf s v).held && !offHeld s v then
    let s := driveOff v s
    if railOff s v then stopFalling v s else s
  else s

/-- A rail that is being waited for has fallen (R481, R483); a VCC_M whose disable waited for it follows (R482). -/
def checkFallen (r : Nat) (s : State) : State :=
  if railOff s r then
    (((groupsOfRail (blobOf s) r).filter fun g => bits g 52 6 == r).map fun g => bits g 58 6).foldl
      (fun s v => releaseVcc v s) (stopFalling r s)
  else s

/-- A package group rail is lost: its group's two rails are disabled, VCCQ_M first, its channels stop, and nothing else
follows (R479, R484, Table 10-14). -/
def dropGroup (r code : Nat) (s : State) : State :=
  let s := railFault r code s
  let b := blobOf s
  let gs := groupsOfRail b r
  let s := gs.foldl (fun s g =>
    let s := driveOff (bits g 52 6) s
    let s := driveOff (bits g 58 6) s
    setRail (bits g 52 6) { railOf s (bits g 52 6) with fault := code, lost := true }
      (setRail (bits g 58 6) { railOf s (bits g 58 6) with fault := code, lost := true } s)) s
  let lose := fun (s : State) (c : Nat) =>
    let s := assertMreset c (loseWork c s)
    setChan c { chanOf s c with pgLost := some s.time.mono, mode := .outOfService } s
  let s := syncMq ((railChannels b r).foldl lose s)
  match s.power.seq with
  | some q =>
    let hit := fun (x : Nat) => gs.any fun g => x == bits g 52 6 || x == bits g 58 6
    let w := match q.wait with
      | .good x => if hit x then SeqWait.none else q.wait
      | w => w
    { s with power := { s.power with seq := some { q with wait := w, timers := q.timers.filter fun t => !hit t.1 } } }
  | none => s

/-- Disable the dependants of a rail that fails during power-down at once (R486); a dependency-mode sequence waits for them as
for its own disables. -/
def dropDependants (r : Nat) (s : State) : State :=
  let b := blobOf s
  let ds := dependants s r
  let s := ds.foldl (fun s x => dropRail x s) s
  let s := match s.power.seq with
    | some q =>
      if stepMode b then s
      else
        { s with power := { s.power with
          seq := some { q with falling := q.falling ++ ds.map fun x => (x, s.time.mono + depField b x 3) } } }
    | none => s
  ds.foldl (fun s x => checkFallen x s) s

/-- A fault of a rail (R479, R484, R486): during power-up it aborts to safe-off, package groups apart; in use, the action of
its role; during power-down, its dependants are disabled at once. -/
def faultAct (r code : Nat) (s : State) : State :=
  let b := blobOf s
  let role := railRole b r
  match s.power.seq with
  | some q =>
    if q.up then
      if role = 9 ∨ role = 10 then dropGroup r code s else safeOff 4 (railFault r code s)
    else dropDependants r (railFault r code s)
  | none =>
    if s.power.hold.isSome then dropDependants r (railFault r code s)
    else if !devUp s then railFault r code s
    else if drainRole role then safeOff 4 (abortDrain 3 (railFault r code s))
    else if role = 9 ∨ role = 10 then dropGroup r code s
    else
      let act := if role = 12 then faultAction b r else 1
      let s := railFault r code s
      if drainRunning s then dropDependants r s
      else if act = 1 then (if drainArmed s then drainStart 3 [] s else beginPowerDown 4 s)
      else if act = 2 then safeOff 4 s
      else s

/-! ### Power policy (Table 15-10) -/

/-- Bytes of the power policy register (Table 15-10). -/
def powerPolicyBytes (p : PowerPolicy) : List Byte :=
  leBytes 4 (b2n p.autoOn * 2 ^ 31 + b2n p.autoDormant * 2 ^ 30 + b2n p.keepFabric * 2 ^ 29 + p.retries * 2 ^ 26 +
    p.retryDelay * 2 ^ 16 + p.idleDelay) ++ leBytes 4 (p.dormantDelay * 2 ^ 16)

/-- The power policy that an image gives (Table 15-10). -/
def powerPolicyOf (b : List Byte) : PowerPolicy :=
  let w := le b 0 4
  { autoOn := bits w 31 1 == 1, autoDormant := bits w 30 1 == 1, keepFabric := bits w 29 1 == 1, retries := bits w 26 3,
    retryDelay := bits w 16 10, idleDelay := bits w 0 16, dormantDelay := le b 6 2 }

/-- The ranges of Table 15-10. -/
def powerPolicyOk (p : PowerPolicy) : Bool :=
  decide (1 ≤ p.retryDelay) && decide (1 ≤ p.idleDelay) && decide (p.idleDelay ≤ 1000) && decide (1 ≤ p.dormantDelay)

/-! ### Drift at a start (R303, R304, R312) -/

/-- Ten years in seconds, the longest interval applied (R304). -/
def tenYears : Nat := 10 * 365 * 86400

/-- Apply an unpowered interval at UNPOWERED_TEMP to every die set and log it; a longer one than ten years is applied as ten,
and a further event gives the value found (R304, 3008h). -/
def applyInterval (secs : Nat) (provisional : Bool) (s : State) : State :=
  let n := min secs tenYears
  let s := (dieSets s).foldl (fun s ds => weatherSet ds (n * setAf s ds s.drift.unpoweredTemp) s) s
  let s := raise 0x011 0x3008 n (b2n provisional) 0 s
  if tenYears < secs then raise 0x011 0x3008 (min secs 0xFFFFFFFF) (b2n provisional) 0 s else s

/-- A live group's reads grow by 2^18 at a recovery, to cover those not journaled (R312). -/
def addReads (x : Group) : Group :=
  match x.st with
  | .open_ | .closed | .metadata => { x with reads := min (x.reads + 2 ^ 18) (2 ^ 25 - 1) }
  | _ => x

/-- The additions of a recovery: each die set's residual and the 60 s at MEDIA_CRIT, the unpowered interval, and 2^18 reads of
each live group (R303, R304, R312). -/
def driftAdditions (s : State) : State :=
  let crit : Int := zoneThr s 1 3
  let one := fun (s : State) (ds : Nat) =>
    let old := match s.drift.clock with
      | some (_, _, r) => tget r ds 0
      | none => 0
    let minute := ((setDies ds).map fun d => critMinute crit (tableOf s d).ea).foldl max 0
    weatherSet ds ((old + minute) * 65536) s
  let s := (dieSets s).foldl one s
  let s := { s with place := { s.place with groups := tmap s.place.groups fun _ x => addReads x } }
  let now := s.time.tbNow / 1000000000
  let sec := match s.drift.clock with
    | some (t, _, _) => t
    | none => now
  let kept := s.drift.clock.isNone || s.drift.aonKept
  let n := if kept then now - sec else s.drift.offAssume * 3600
  let s := if s.drift.clock.isNone then s else applyInterval n (!kept) s
  writeDriftClock { s with drift := { s.drift with
    interval := n, provisional := !kept, recoveredAt := now, lostSec := sec, activeAt := none, sweepDue := true } }

/-- The first Set Timestamp within 24 h of Memory_Active completes a provisional interval (R304): the true interval, less
the OFF_ASSUME hours that the recovery added and less the seconds counted since recovery. `old` and `new` are the time base before and after, in ns. -/
def completeUnpowered (old new : Nat) (s : State) : State :=
  let inTime := match s.drift.activeAt with
    | some t => decide (s.time.mono ≤ t + 86400000000000)
    | none => true
  if s.drift.provisional && inTime then
    let elapsed := old / 1000000000 - s.drift.recoveredAt
    let n := new / 1000000000 - s.drift.lostSec - s.drift.interval - elapsed
    let s := { s with drift := { s.drift with provisional := false, interval := s.drift.interval + n } }
    if 0 < n then applyInterval n false s else s
  else s

/-! ### The time-base alarm (R469) -/

/-- TB_NOW has reached the alarm: it clears, wakes the device from Standby, or posts 8004h. -/
def alarmCheck (s : State) : State :=
  if s.time.alarm = 0 ∨ s.time.tbNow < s.time.alarm then s
  else
    let s := { s with time := { s.time with alarm := 0 } }
    if s.power.mode = .standby then wake 3 s else raise 0x060 0x8004 0 0 0 s

end Sys2Proof.Machine
end

