-- ==== Sys2Proof/Machine/EpochOps.lean ====
section
/-!
DEFINITION. Operations of configuration epochs and of the service ring (13_epochs_and_service_ring.md): slices and manifests
(R439, R440), the checks of an arm (R441), epoch states, gossip and tags (R444 to R447), activation (R443, R610), fabric ID
conflicts (R407), and sending on the ring (R432, R433).
-/
namespace Sys2Proof.Machine

/-! ### Sending on the ring (R432 to R435) -/

/-- Code of a ring port state: its row of Table 13-1. -/
def RingMode.code : RingMode → Nat
  | .bypassed => 0 | .electing => 1 | .formed => 2 | .broken => 3

/-- Put back the ring port. -/
def setRing (r : RingSt) (s : State) : State := { s with epoch := { s.epoch with ring := r } }

/-- Position of the ring port for SRC_POS: FFh before the roll (Table 13-2). -/
def srcPos (s : State) : Nat := s.epoch.ring.position.getD 0xFF

/-- The header of a frame (Table 13-2). -/
def ringHeader (f : RingFrame) : List Byte :=
  leBytes 1 f.typ ++ leBytes 1 f.ttl ++ leBytes 1 f.src ++ leBytes 1 f.dst ++ leBytes 1 f.payload.length ++ zeros 1 ++ leBytes 2 f.rseq

/-- The bytes of a frame: header, payload and CRC-32C over both (R432). -/
def ringBytes (f : RingFrame) : List Byte :=
  ringHeader f ++ f.payload ++ leBytes 4 (crc32c (ringHeader f ++ f.payload))

/-- The characters of a frame on the line: K27.7, the bytes as data characters, K29.7 (R432). A pair is a character's control
flag and its byte. -/
def ringChars (f : RingFrame) : List (Bool × Byte) :=
  [(true, 0xFB)] ++ (ringBytes f).map (fun b => (false, b)) ++ [(true, 0xFD)]

/-- How long a frame takes on the line, in ns: 40 ns per character (R427). -/
def ringTime (f : RingFrame) : Nat := 40 * (14 + f.payload.length)

/-- Frames one behind the other from a device time on. -/
def layRing (t : Nat) : List RingFrame → List (RingFrame × Nat)
  | [] => []
  | f :: fs => (f, t) :: layRing (t + ringTime f) fs

/-- Put a frame on RING_OUT, behind the frames queued; a STORM goes ahead of all but the STORM frames (R433). -/
def putRing (f : RingFrame) (s : State) : State :=
  let r := s.epoch.ring
  let begun := r.sent.filter fun x => decide (x.2 ≤ s.time.mono)
  let queued := (r.sent.filter fun x => decide (s.time.mono < x.2)).map (·.1)
  let storms := queued.filter fun x => x.typ == 0x20
  let others := queued.filter fun x => x.typ != 0x20
  let out := if f.typ = 0x20 then storms ++ [f] ++ others else storms ++ others ++ [f]
  let free := match begun.getLast? with
    | some x => max s.time.mono (x.2 + ringTime x.1)
    | none => s.time.mono
  setRing { r with sent := begun ++ layRing free out, framesTx := r.framesTx + 1 } s

/-- Originate a frame with the next RSEQ (Table 13-2). -/
def sendRing (typ dst : Nat) (payload : List Byte) (s : State) : State :=
  let r := s.epoch.ring
  let f : RingFrame := { typ := typ, ttl := 64, src := srcPos s, dst := dst, rseq := r.rseq, payload := payload, crcOk := true }
  putRing f (setRing { r with rseq := (r.rseq + 1) % 65536 } s)

/-- Originate a frame that is sent 3 times at a spacing in ns (R435). -/
def sendThrice (typ gap : Nat) (payload : List Byte) (s : State) : State :=
  let r := s.epoch.ring
  let f : RingFrame := { typ := typ, ttl := 64, src := srcPos s, dst := 0xFF, rseq := r.rseq, payload := payload, crcOk := true }
  let s := putRing f (setRing { r with rseq := (r.rseq + 1) % 65536 } s)
  let r := s.epoch.ring
  setRing { r with repeats := r.repeats ++ [(f, 2, s.time.mono + gap, gap)] } s

/-- Code of an epoch state (Table 13-6). -/
def EpState.code : EpState → Nat
  | .settled => 0 | .armed => 1 | .lagging => 2 | .divergent => 3

/-- EPOCH_STATUS (Table 13-3), sent by a Formed position. -/
def sendStatus (s : State) : State :=
  if s.epoch.ring.mode ≠ .formed then s
  else
    let a := s.epoch.arm.getD (0, 0, 0)
    let s := sendRing 0x11 0xFF (leBytes 8 s.ten.epochA ++ leBytes 16 s.ten.digestA ++ leBytes 1 s.epoch.st.code ++
      leBytes 8 a.1 ++ leBytes 8 a.2.2) s
    setRing { s.epoch.ring with statusAt := s.time.mono } s

/-- STORM at a drain trigger of PWR_FAIL_N or the supply monitor (R436). -/
def sendStorm (s : State) : State :=
  match s.persist.drain with
  | none => s
  | some d =>
    if s.epoch.policy.stormSend = false ∨ s.epoch.ring.mode ≠ .formed ∨ d.triggers % 4 = 0 then s
    else
      sendThrice 0x20 100000 (leBytes 8 s.mgmt.serial ++ leBytes 2 s.fabric.devId ++ leBytes 1 d.triggers ++
        leBytes 2 d.vStart ++ leBytes 4 d.seq) s

/-! ### Slices and manifests (R438 to R440, R541) -/

/-- A tenant has a record in a slice. -/
def inSlice (x : TenantSt) : Bool := x.st != .free

/-- An extent record of a slice, as a number of 16 B: none for an entry that names no other device (Table 13-4). -/
def extRecord (e : Nat) (x : ExtentEnt) : Option Nat :=
  if x.ownerDev = 0xFFF ∧ x.accessDev = 0xFFF then none
  else some (x.accessDev * 2 ^ 110 + x.ownerDev * 2 ^ 98 + x.ownerExtent * 2 ^ 80 + x.tenant * 2 ^ 64 + x.prof * 2 ^ 40 + e)

/-- Extent table of a bank. -/
def bankExts (s : State) (act : Bool) : Tbl ExtentEnt := if act then s.ten.extA else s.ten.extS

/-- The bytes of a slice (Table 13-4), of the active or the staged bank. -/
def sliceBytes (s : State) (act : Bool) : List Byte :=
  let ts := s.ten.tenants.filter fun p => inSlice p.2
  let es := (bankExts s act).filterMap fun p => extRecord p.1 p.2
  let pr := if act then s.ten.profA else s.ten.profS
  leBytes 2 1 ++ leBytes 2 s.fabric.devId ++ leBytes 2 ts.length ++ leBytes 4 es.length ++ zeros 6 ++
    ((List.range 256).flatMap fun p => leBytes 4 (profOf pr p)) ++
    (ts.flatMap fun p => leBytes 2 p.1 ++ zeros 6 ++ qosBytes (if act then p.2.qosA else p.2.qosS)) ++
    (es.flatMap fun r => leBytes 16 r)

/-- First 16 bytes of SHA-256 over bytes, as a little-endian number (R439). -/
def digest16 (b : List Byte) : Nat := Config.sha256 (b.map fun x => x.toNat) % 2 ^ 128

/-- Slice digest (R439). -/
def sliceDigest (s : State) (act : Bool) : Nat := digest16 (sliceBytes s act)

/-- Bytes in a manifest (R440). -/
def manifestLen : Nat := 73744

/-- Byte of a manifest slot; none of a slot is zero (R438). -/
def manByte (s : State) (slot : Option Nat) (off : Nat) : Nat :=
  match slot with
  | none => 0
  | some k => (tget (tget s.epoch.slots k []) off 0).toNat

/-- A little-endian number in a manifest. -/
def manLe (s : State) (slot : Option Nat) (off : Nat) : Nat → Nat
  | 0 => 0
  | n + 1 => manByte s slot off + 256 * manLe s slot (off + 1) n

/-- EPOCH and PREV_EPOCH of a manifest (Table 13-5). -/
def manEpoch (s : State) (slot : Option Nat) : Nat := manLe s slot 0 8
/-- PREV_EPOCH. -/
def manPrev (s : State) (slot : Option Nat) : Nat := manLe s slot 8 8

/-- Slice digest of a device in a manifest (Table 13-5). -/
def manSlice (s : State) (slot : Option Nat) (dev : Nat) : Nat := manLe s slot (16 + 16 * dev) 16

/-- CHANGED bit of a tenant in a manifest (Table 13-5). -/
def manChanged (s : State) (slot : Option Nat) (t : Nat) : Bool := bits (manByte s slot (65552 + t / 8)) (t % 8) 1 == 1

/-- Digest D of a manifest (R440). -/
def manDigest (s : State) (slot : Option Nat) : Nat :=
  digest16 ((List.range manifestLen).map fun i => BitVec.ofNat 8 (manByte s slot i))

/-- Extent records of a tenant in a bank. -/
def tenantRecords (s : State) (act : Bool) (t : Nat) : List Nat :=
  (bankExts s act).filterMap fun p => if p.2.tenant = t then extRecord p.1 p.2 else none

/-- Tenants whose tenant or extent records differ between the active and the staged slice, ascending (R441, C502h). -/
def changedTenants (s : State) : List Nat :=
  (s.ten.tenants.filter fun p =>
    (inSlice p.2 && p.2.qosA != p.2.qosS) || tenantRecords s true p.1 != tenantRecords s false p.1).map (·.1)

/-- Check 3 of R441. -/
def sliceMatches (s : State) : Bool :=
  manSlice s s.epoch.manS s.fabric.devId == sliceDigest s false && manSlice s s.epoch.manS s.fabric.devId != 0

/-- Check 4 of R441. -/
def changedCovered (s : State) : Bool := (changedTenants s).all fun t => manChanged s s.epoch.manS t

/-- The first failing check of R441, with its return code. -/
def armCheck (s : State) (e d t : Nat) : Option (Nat × Rc) :=
  if s.fabric.devId = 0xFFF ∨ s.time.timeSet = false ∨ s.epoch.manS = none ∨ manPrev s s.epoch.manS ≠ s.ten.epochA then
    some (1, .invalidState)
  else if e ≤ s.ten.epochA ∨ t * 1000000000 < s.time.tbNow + 2000000000 ∨
      s.time.tbNow + 604800 * 1000000000 < t * 1000000000 ∨ d ≠ manDigest s s.epoch.manS then some (2, .invalidInput)
  else if sliceMatches s = false then some (3, .invalidInput)
  else if changedCovered s = false then some (4, .invalidInput)
  else if s.epoch.arm.isSome then some (5, .busy)
  else none

/-! ### Epoch states and flags (R444 to R447) -/

/-- Enter an epoch state. -/
def setEpState (st : EpState) (s : State) : State := { s with epoch := { s.epoch with st := st } }

/-- Bytes of the EPOCH_ARM record (Table 18-5). -/
def armBytes (e d t flag : Nat) : List Byte := leBytes 8 e ++ leBytes 16 d ++ leBytes 8 t ++ leBytes 1 flag

/-- Arm an epoch (R441): the record, the state and EPOCH_STATUS. A Lagging or Divergent device stays in its state. -/
def armEpoch (e d t : Nat) (s : State) : State :=
  let s := { s with epoch := { s.epoch with arm := some (e, d, t), late := false, stepAt := none } }
  let s := if s.epoch.st = .settled then setEpState .armed s else s
  sendStatus (cellarWrite 5 6 0x102 (armBytes e d t 1) none s)

/-- Cancel the armed epoch (R442). -/
def disarmEpoch (e d t : Nat) (s : State) : State :=
  let s := { s with epoch := { s.epoch with arm := none } }
  let s := if s.epoch.st = .armed then setEpState .settled s else s
  sendStatus (cellarWrite 5 6 0x102 (armBytes e d t 0) none s)

/-- Flag a tenant as in Epoch-Mismatch. -/
def flagTenant (t : Nat) (s : State) : State := setTenant t { tenantOf s t with mismatch := true } s

/-- Tenants with a cross-device entry in the active bank (Table 13-6). -/
def crossTenants (s : State) : List Nat :=
  (s.ten.tenants.filter fun p => s.ten.extA.any fun x =>
    x.2.tenant == p.1 && x.2.st != .unassigned && (x.2.ownerDev != 0xFFF || x.2.accessDev != 0xFFF)).map (·.1)

/-- Enter Divergent (Table 13-6). -/
def diverge (s : State) : State :=
  if s.epoch.st = .divergent then s
  else sendStatus ((crossTenants s).foldl (fun s t => flagTenant t s) (setEpState .divergent s))

/-- Enter Lagging (Table 13-6): every tenant whose CHANGED bit is set in the staged manifest is flagged. -/
def lag (s : State) : State :=
  let ts := (s.ten.tenants.map (·.1)).filter fun t => manChanged s s.epoch.manS t
  sendStatus (ts.foldl (fun s t => flagTenant t s) (setEpState .lagging s))

/-- A peer at a higher epoch can be adopted from (Table 13-6); never while the fabric supervisor is halted. -/
def adoptable (s : State) (e d : Nat) : Bool :=
  s.epoch.manS.isSome && manEpoch s s.epoch.manS == e && manPrev s s.epoch.manS == s.ten.epochA &&
    manDigest s s.epoch.manS == d && sliceMatches s && changedCovered s && s.mgmt.fabric.mode != .halted

/-- A peer is heard through a Hello or EPOCH_STATUS (R445). -/
def hearPeer (dev e d st : Nat) (s : State) : State :=
  if dev = 0xFFF ∨ dev = s.fabric.devId then s
  else
    let s := { s with epoch := { s.epoch with peers := tput s.epoch.peers dev (e, d, st) } }
    if e < s.ten.epochA then s
    else if e = s.ten.epochA then (if d = s.ten.digestA then s else diverge s)
    else if adoptable s e d then
      let s := { s with epoch := { s.epoch with heard := some (dev, s.time.mono) } }
      if s.epoch.st = .divergent ∨ s.epoch.st = .lagging then s else lag s
    else if s.epoch.st = .lagging then s
    else diverge s

/-- A tag matches the active epoch, or within ACT_GRACE the one before or the one armed (R444). -/
def tagMatches (s : State) (tag : Nat) : Bool :=
  let grace := s.epoch.policy.actGrace * 100000
  tag == s.ten.epochA % 256 ||
    (tag == s.epoch.prev % 256 && decide (s.time.mono < s.epoch.actAt + grace)) ||
    (match s.epoch.arm with
     | some (e, _, t) => tag == e % 256 && decide (t * 1000000000 ≤ s.time.tbNow + grace)
     | none => false)

/-- The tag check of a message of a tenant (R444): a mismatch flags the tenant, with event 7003h. -/
def checkTag (t peer tag : Nat) (s : State) : Bool × State :=
  if tagMatches s tag then (true, s)
  else
    let s := flagTenant t { s with epoch := { s.epoch with tagFlags := tput s.epoch.tagFlags t s.time.mono } }
    (false, raise 0x012 0x7003 t peer tag s)

/-- The device is Settled: flags that a tag did not set end (R447). -/
def settleEpoch (s : State) : State :=
  let s := setEpState .settled s
  { s with ten := { s.ten with tenants := tmap s.ten.tenants fun t x =>
      if x.mismatch && (tfind s.epoch.tagFlags t).isNone then { x with mismatch := false } else x } }

/-! ### Activation (R443, R610) -/

/-- What an activation does to an extent that this device owns (Table 3-3, R610); `old` is its entry in the bank before. -/
def activateExt (e : Nat) (old : ExtentEnt) (s : State) : State :=
  let x := extOf s e
  if x.ownerDev ≠ 0xFFF then s
  else if old.accessDev ≠ 0xFFF ∧ x.st = .added ∧ (x.accessDev = 0xFFF ∨ x.tenant ≠ old.tenant) then releaseExt e s
  else if old.accessDev = 0xFFF ∧ x.accessDev ≠ 0xFFF ∧ (x.st = .assigned ∨ x.st = .pending) then moveExt e .added s
  else s

/-- The banks swap, the staged manifest becomes active and BANK_SWAP commits (R443, R122); the extents follow. -/
def activate (e d : Nat) (s : State) : State :=
  let old := s.ten.extA
  let prev := s.ten.epochA
  let s := commit (.bankSwap e d) (creditAll s)
  let s := { s with
    ten := { s.ten with bankCopy := true },
    epoch := { s.epoch with prev := prev, actAt := s.time.mono, arm := none, late := false, stepAt := none, heard := none, manA := s.epoch.manS } }
  let s := limitsAtActivation (creditAll s)
  let es := old.map (·.1) ++ (s.ten.extA.map (·.1)).filter fun k => (tfind old k).isNone
  let s := es.foldl (fun s k => activateExt k (tget old k (ExtentEnt.fresh k)) s) s
  let slot := s.epoch.manA.getD 0
  let s := cellarWrite 5 6 0x100 (leBytes 1 slot ++ leBytes 8 e ++ leBytes 16 d) none s
  sendStatus (settleEpoch (cellarWrite 5 6 0x102 (armBytes e d 0 0) none s))

/-! ### Fabric ID (R404 to R407) -/

/-- Write the FABRIC_ID record (Table 18-5). -/
def writeFabricId (s : State) : State :=
  cellarWrite 5 2 0x04 (leBytes 8 s.mgmt.serial ++ leBytes 2 s.fabric.devId) none s

/-- A fabric ID conflict (6002h). -/
def idConflict (id serial : Nat) (s : State) : State := raise 0x012 0x6002 id (serial % 2 ^ 32) (serial / 2 ^ 32) s

/-- A device shows an ID with a serial (R407, R434): a lower serial that holds this device's own ID takes it. -/
def claimId (id serial : Nat) (s : State) : State :=
  if id = s.fabric.devId ∧ id ≠ 0xFFF ∧ serial < s.mgmt.serial then
    writeFabricId (idConflict id serial { s with fabric := { s.fabric with devId := 0xFFF } })
  else s

end Sys2Proof.Machine
end

