-- ==== Sys2Proof/Machine/FrontCache.lean ====
section
/-!
DEFINITION. Meanings of the front cache commands and events (04_front_cache.md R144 to R182), with SRAM errors (R148, R149) and
viral entry (R84).
-/
namespace Sys2Proof.Machine

/-! ### Viral (R84, R149) -/

/-- A head enters viral (R84, 9004h). Triggers: 0 the host, 1 to 4 the rows of Table 2-4, 5 a directory error (R149). -/
def enterViral (trigger h : Nat) (s : State) : State :=
  let x := headOf s h
  if !x.present || x.viral then s
  else
    raise 0x010 0x9004 h trigger 0 (setHead h { x with viral := true, viralInternal := x.viralInternal || trigger != 0 } s)

/-- Every head enters viral on an internal trigger. -/
def viralAll (trigger : Nat) (s : State) : State := (List.range 4).foldl (fun s h => enterViral trigger h s) s

/-! ### SRAM errors (R148, R149) -/

/-- The outcome of a double-bit error (R148, R149). A Fill-Pending line without dirty data refetches its bytes. -/
def frontError (e : FrontErr) (s : State) : State :=
  match e with
  | .none => s
  | .data i =>
    let l := lineAt s i
    if l.st = .invalid then s
    else
      let s := raise 0x033 0x5001 (i / 16) (i % 16) 0 s
      if l.st = .clean then dropLine i s
      else if l.st = .fillPending ∧ l.dirtyHl = 0 then putLine i { l with valid := 0 } s
      else notePoison (keyOfLine i l) .internal (putLine i { l with poison := true } s)
  | .age i => raise 0x033 0x5001 (i / 16) (i % 16) 1 (putLine i { lineAt s i with age := 3 } s)
  | .validOrDirty i =>
    let l := lineAt s i
    let s := raise 0x033 0x5001 (i / 16) (i % 16) 1 s
    let s := putLine i { l with poison := true, valid := BitVec.allOnes 256, dirtyHl := 0xF } s
    if l.st = .invalid then s else notePoison (keyOfLine i l) .internal (noteDirty l.tag s)
  | .tag i f =>
    let l := lineAt s i
    let s := putLine i { Line.fresh with excluded := true } s
    viralAll 5 (raise 0x033 0x5007 (i / 16) (i % 16) f (noteDirty l.tag s))

/-- FRONT_SCRUB_PASS (R149): single-bit errors are corrected; a double-bit error has its outcome. Scrubbing stops in a drain
(R187). -/
def execFrontScrubPass (err : FrontErr) (s : State) : Res := if drainRunning s then .next s else .next (frontError err s)

/-! ### Registers -/

/-- FRONT_MODE code (Table 2-7). -/
def FrontMode.code : FrontMode → Nat
  | .writeBack => 0 | .writeThrough => 1 | .draining => 2 | .off => 3

/-- LSTATE code (Table 4-3). -/
def LState.code : LState → Nat
  | .invalid => 0 | .fillPending => 1 | .clean => 2 | .dirty => 3 | .cleaning => 4 | .cleaningRewritten => 5

/-- The 40 bytes of a directory entry (Table 4-2). -/
def lineBytes (l : Line) : List Byte :=
  leBytes 40 (l.tag * 2 ^ 282 + l.tenant * 2 ^ 266 + l.st.code * 2 ^ 263 + l.age * 2 ^ 261 + b2n l.poison * 2 ^ 260 +
    l.dirtyHl.toNat * 2 ^ 256 + l.valid.toNat)

/-- The drain policy register of its bytes (Table 4-5). -/
def drainPolicyOf (b : List Byte) (f : FrontSt) : FrontSt :=
  let v := le b 0 4
  { f with l2Limit := bits v 24 8, maxDirtyAge := bits v 16 8, coalesce := bits v 0 14 }

/-- The eight partition registers of a PARTITIONS record (Table 4-4). -/
def partMasksOf (b : List Byte) : List W16 := (List.range 8).map fun p => BitVec.ofNat 16 (le b (4 * p) 4)

/-- Bytes of the drain policy register (Table 4-5). -/
def drainPolicyBytes (f : FrontSt) : List Byte := leBytes 4 (f.l2Limit * 2 ^ 24 + f.maxDirtyAge * 2 ^ 16 + f.coalesce)

/-- GET_FRONT_CACHE_STATE (C200h, R182). DESIGN CHOICE (log entry 204): a dirty line counts for the partition that allocated
it. -/
def execGetFrontCacheState (cci : Fin 10) (inp : List Byte) (s : State) : Res :=
  vendor cci 0xC200 inp 6 []
    (fun s =>
      let first := le inp 0 4
      let n := le inp 4 2
      if 256 < n ∨ 393216 < first + n then .fail .invalidInput
      else
        let f := s.front
        let part := fun p => (f.lines.filter fun x => countsDirty x.2 && x.2.part == p).length
        answer s (leBytes 1 f.mode.code ++ leBytes 1 (b2n f.invAllDone) ++ leBytes 1 f.budget ++ zeros 1 ++
          leBytes 4 (dirtyLines s) ++ ((List.range 8).flatMap fun p => leBytes 4 (part p)) ++ leBytes 8 f.setStalls ++
          ((List.range 8).flatMap fun p => leBytes 4 (partMask s p).toNat) ++ drainPolicyBytes f ++ zeros 4 ++
          (List.range n).flatMap fun i => lineBytes (lineAt s (first + i)))) s

/-- Bits set in a way mask. -/
def pop16 (m : W16) : Nat := ((List.range 16).filter fun i => m.getLsbD i).length

/-- The PARTITIONS record with one register changed: 2 to 16 ways, and every way in some partition (R157, R158). -/
def partitionRec (inp : List Byte) (s : State) : Option (List Byte) :=
  let p := le inp 0 1
  let m : W16 := BitVec.ofNat 16 (le inp 4 4)
  let masks := (((pendingRec s 0x1B).map partMasksOf).getD s.front.masks).set p m
  if 8 ≤ p ∨ pop16 m < 2 ∨ masks.foldl (· ||| ·) 0 ≠ 0xFFFF#16 then none
  else some (masks.flatMap fun m => leBytes 4 m.toNat)

/-- SET_FRONT_CACHE_PARTITION (C201h, R157, R158): kept in the cellar book. -/
def execSetFrontCachePartition (cci : Fin 10) (inp : List Byte) (s : State) : Res :=
  vendor cci 0xC201 inp 8 [(1, 3)]
    (fun s => storeSetting 0x1B (partitionRec inp s) s) s

/-- The record of a drain policy within its ranges (R165). -/
def drainPolicyRec (inp : List Byte) (s : State) : Option (List Byte) :=
  let f := drainPolicyOf inp s.front
  if f.l2Limit < 50 ∨ 90 < f.l2Limit ∨ f.maxDirtyAge = 0 ∨ 10000 < f.coalesce then none else some (drainPolicyBytes f)

/-- SET_DRAIN_POLICY (C202h, R165): kept in the cellar book. A new COALESCE caps the drain buckets at their next credit. -/
def execSetDrainPolicy (cci : Fin 10) (inp : List Byte) (s : State) : Res :=
  vendor cci 0xC202 inp 4 []
    (fun s => storeSetting 0x19 (drainPolicyRec inp s) s) s

/-! ### Maintenance operations (R176 to R178) -/

/-- Add an operation to the list, newest first; the oldest ended one leaves when nine would be kept (C209h). -/
def listMaint (m : Maint) (l : List Maint) : List Maint :=
  let dropOld := fun (l : List Maint) =>
    match (l.reverse).find? fun x => x.status != 0 with
    | some x => (l.reverse.erase x).reverse
    | none => l
  m :: (if 8 ≤ l.length then dropOld l else l)

/-- A maintenance operation as it is accepted: the fills pending in its range, and the lines present there (R176, R177). -/
def newMaint (op : Nat) (cci : Option Nat) (start len : Nat) (s : State) : Maint :=
  let inRange := fun (k : Nat) => decide (start ≤ k * 256) && decide (k * 256 < start + len)
  let lines := (s.front.lines.filter fun p => p.2.st != .invalid && inRange (keyOfLine p.1 p.2)).map fun p => keyOfLine p.1 p.2
  { op := op, cci := cci, start := start, len := len, status := 0, invalidated := 0, skipped := 0, firstSkip := 0, doneAt := 0,
    walked := false, fills := (s.front.miss.map (·.1)).filter inRange, lines := lines, late := [], awaits := [],
    inOff := s.front.mode == .off }

/-- Post a maintenance operation (R176, R177): Busy while eight are in progress. -/
def postMaint (op : Nat) (cci : Option Nat) (start len : Nat) (s : State) : Option State :=
  if 8 ≤ (s.front.maint.filter fun m => m.status == 0).length then none
  else some { s with front := { s.front with maint := listMaint (newMaint op cci start len s) s.front.maint } }

/-- A range operation from a command (C203h to C205h). -/
def maintRange (op : Nat) (cci : Fin 10) (inp : List Byte) (s : State) : Res :=
  vendorBg cci op inp 16 []
    (fun s =>
      let a := le inp 0 8
      let n := le inp 8 8
      if a % 256 ≠ 0 ∨ n % 256 ≠ 0 ∨ 2 ^ 48 ≤ a ∨ 2 ^ 48 ≤ n then .fail .invalidInput
      else
        match postMaint op (some cci) a n s with
        | none => .fail .busy
        | some s => .background s) s

/-- CLEAN_RANGE (C203h). -/
def execCleanRange (cci : Fin 10) (inp : List Byte) (s : State) : Res := maintRange 0xC203 cci inp s

/-- INVALIDATE_RANGE (C204h). -/
def execInvalidateRange (cci : Fin 10) (inp : List Byte) (s : State) : Res := maintRange 0xC204 cci inp s

/-- CLEAN_AND_INVALIDATE_RANGE (C205h). -/
def execCleanAndInvalidateRange (cci : Fin 10) (inp : List Byte) (s : State) : Res := maintRange 0xC205 cci inp s

/-- INVALIDATE_ALL (C206h, R173). -/
def execInvalidateAll (cci : Fin 10) (inp : List Byte) (s : State) : Res :=
  vendorBg cci 0xC206 inp 0 []
    (fun s =>
      match postMaint 0xC206 (some cci) 0 (2 ^ 48) s with
      | none => .fail .busy
      | some s => .background s) s

/-- Indices of the lines that an operation acts on, in walk order (R177). -/
def maintLines (m : Maint) (s : State) : List Nat := m.lines.filterMap (findLine s)

/-- Invalidate one line (Table 4-8): a dirty one is skipped unless its tenant is Erasing; one that awaits its fill is invalidated after
it. -/
def invalidateLine (a : Maint × State) (i : Nat) : Maint × State :=
  let l := lineAt a.2 i
  let key := keyOfLine i l
  if l.st = .clean ∨ (countsDirty l && (tenantOf a.2 l.tenant).st == TState.erasing) then
    ({ a.1 with invalidated := a.1.invalidated + 1 }, dropLine i a.2)
  else if countsDirty l then
    ({ a.1 with skipped := a.1.skipped + 1, firstSkip := if a.1.skipped = 0 then key * 256 else a.1.firstSkip }, a.2)
  else if l.st = .fillPending then ({ a.1 with late := a.1.late ++ [key] }, a.2)
  else a

/-- Invalidate the lines of an operation (Table 4-8). -/
def maintInvalidate (m : Maint) (s : State) : Maint × State := (maintLines m s).foldl invalidateLine (m, s)

/-- Clean step of a walk: every frame with a dirty line in range is cleaned urgently, once or, where a line was rewritten since
its gather, twice (Table 4-8). -/
def maintClean (m : Maint) (s : State) : Maint × State :=
  let lfas := ((maintLines m s).filter fun i => countsDirty (lineAt s i)).map fun i => (lineAt s i).tag
  lfas.eraseDups.foldl (fun a lfa =>
    let again := inAssembly a.2 lfa && (frameLines a.2 lfa).any fun p =>
      (lineAt a.2 p.2).st == .cleaningRewritten || (lineAt a.2 p.2).st == .dirty
    ({ a.1 with awaits := a.1.awaits ++ (if again then [lfa, lfa] else [lfa]) }, markUrgent lfa a.2)) (m, s)

/-- Put back the n-th newest operation. -/
def setMaint (n : Nat) (m : Maint) (s : State) : State := { s with front := { s.front with maint := s.front.maint.set n m } }

/-- Fills held behind walks are requested once no walk covers them (R177). -/
def releaseHeld (s : State) : State :=
  { s with front := { s.front with
    miss := tmap s.front.miss fun k m =>
      if m.stage = .held ∧ walkHolds s k = false then { m with stage := .mapRead, copyB := chooseCopy s (k / 16) } else m } }

/-- An operation ends: its command completes, and an Invalidate All accepted in Off with no line skipped sets INV_ALL_DONE
(R173). -/
def endMaint (n : Nat) (m : Maint) (s : State) : State :=
  let s := setMaint n { m with status := 1, doneAt := s.time.tbNow } s
  let s := if m.op = 0xC206 ∧ m.inOff ∧ m.skipped = 0 then { s with front := { s.front with invAllDone := true } } else s
  match m.cci with
  | some c => endBgOn c m.op .success s
  | none => s

/-- An operation whose cleans have all committed goes on to its invalidate step, or ends once no line awaits its fill (Table 4-8). -/
def advanceMaint (n : Nat) (s : State) : State :=
  match s.front.maint[n]? with
  | none => s
  | some m =>
    if m.status ≠ 0 ∨ !m.walked then s
    else
      let m := { m with awaits := m.awaits.filter fun l => frameDirty s l }
      if !m.awaits.isEmpty then setMaint n m s
      else
        -- the second step of C205h follows the last clean, once
        let r := if m.op = 0xC205 ∧ !m.lines.isEmpty then maintInvalidate m s else (m, s)
        let m := { r.1 with lines := [] }
        if m.late.isEmpty then endMaint n m r.2 else setMaint n m r.2

/-- Two ranges share a line. -/
def rangesMeet (a b : Maint) : Bool := decide (a.start < b.start + b.len) && decide (b.start < a.start + a.len)

/-- MAINTENANCE_WALK_DONE (R176, R177): the walk of the n-th newest operation acts on its range, once the fills that were
pending at its acceptance are done and every older operation on an overlapping range has walked. -/
def execMaintenanceWalkDone (n : Fin 8) (s : State) : Res :=
  match s.front.maint[n.val]? with
  | none => .next s
  | some m =>
    let older := (s.front.maint.drop (n.val + 1)).any fun x => x.status == 0 && rangesMeet x m
    if m.status ≠ 0 ∨ m.walked ∨ older ∨ !m.fills.isEmpty ∨ drainRunning s then .next s
    else
      let r := if m.op = 0xC203 ∨ m.op = 0xC205 then maintClean m s else maintInvalidate m s
      .next (releaseHeld (advanceMaint n (setMaint n { r.1 with walked := true } r.2)))

/-- A fill has completed: no operation waits for it any more, and one that found its line Fill-Pending invalidates it (R177,
Table 4-8). -/
def fillEnds (key : Nat) (s : State) : State :=
  let s := (List.range 8).foldl (fun s n =>
    match s.front.maint[n]? with
    | none => s
    | some m =>
      let m' := { m with fills := m.fills.filter (· != key) }
      if m.status = 0 ∧ m.late.contains key then
        let m' := { m' with late := m.late.filter (· != key) }
        let r := match findLine s key with
          | some i => invalidateLine (m', s) i
          | none => (m', s)
        advanceMaint n (setMaint n r.1 r.2)
      else setMaint n m' s) s
  releaseHeld s

/-- GET_MAINTENANCE_RESULTS (C209h). -/
def execGetMaintenanceResults (cci : Fin 10) (inp : List Byte) (s : State) : Res :=
  vendor cci 0xC209 inp 0 []
    (fun s =>
      answer s (s.front.maint.flatMap fun m =>
        leBytes 2 m.op ++ leBytes 1 m.status ++ zeros 1 ++ leBytes 4 m.invalidated ++ leBytes 4 m.skipped ++ zeros 4 ++
          leBytes 8 m.firstSkip ++ leBytes 8 m.doneAt)) s

/-! ### Modes (R169 to R175) -/

/-- DRAINING_COMPLETE (R169): no line holds dirty data. -/
def execDrainingComplete (s : State) : Res :=
  if s.front.mode = .draining ∧ dirtyLines s = 0 then .next (continueEntry (reachOff s)) else .next s

/-- DISABLE_FRONT_CACHE (C207h, R173, R174). -/
def execDisableFrontCache (cci : Fin 10) (inp : List Byte) (s : State) : Res :=
  vendorBg cci 0xC207 inp 0 []
    (fun s =>
      match s.front.mode with
      | .off => .done .none s
      | .draining => .background { s with front := { s.front with disableCci := s.front.disableCci ++ [cci.val] } }
      | _ =>
        .background (urgentAll { s with front := { s.front with
          mode := .draining, invAllDone := false, disableCci := s.front.disableCci ++ [cci.val] } })) s

/-- ENABLE_FRONT_CACHE (C208h, R172). -/
def execEnableFrontCache (cci : Fin 10) (inp : List Byte) (s : State) : Res :=
  vendor cci 0xC208 inp 0 []
    (fun s =>
      match s.front.mode with
      | .off => if s.front.invAllDone then .done .none (enableFront s) else .fail .invalidState
      | .draining => .fail .invalidState
      | _ => .done .none s) s

/-! ### The drain engine (R164) -/

/-- Time in 64 µs. -/
def tick64 (s : State) : Nat := s.time.mono / 64000

/-- Tenant of a frame's present lines. -/
def frameTenant (s : State) (lfa : Nat) : Nat :=
  match (frameLines s lfa).find? fun p => countsDirty (lineAt s p.2) with
  | some p => (lineAt s p.2).tenant
  | none => 0

/-- Dirty frames, oldest first; ties by LFA. -/
def oldestFirst (s : State) : List (Nat × Nat) :=
  s.front.dirtyAt.foldr (fun p acc =>
    let older := acc.takeWhile fun q => decide (q.2 < p.2)
    older ++ [p] ++ acc.drop older.length) []

/-- A set where some partition's allowed ways hold fewer than two Invalid or Clean lines (R164). -/
def setShort (s : State) (set : Nat) : Bool := (List.range 8).any fun p => decide (freeWays s set (partMask s p) < 2)

/-- Frames that urgent cleaning covers now (R164): nominated ones, those in short sets, and the oldest while occupancy exceeds
the budget. -/
def urgentFrame (s : State) : Option Nat :=
  match s.front.urgent.find? (mayGather s) with
  | some l => some l
  | none =>
    let frames := (oldestFirst s).map (·.1)
    match frames.find? fun l => mayGather s l && (frameLines s l).any fun p => setShort s (p.2 / 16) with
    | some l => some l
    | none => if budgetLines s < dirtyLines s then frames.find? (mayGather s) else none

/-- A die set holds a frame of reserved or spare drain waiting for its busy slot (R164). -/
def drainHeld (s : State) (ds : Nat) : Bool :=
  (busyOf s ds).waiting.any fun w => match w.kind with
    | .frame id => ((tfind s.front.asms id).map (·.limited)).getD false
    | _ => false

/-- Reserved and spare drain may gather only for a die set that holds no frame of theirs waiting, the frames that still read their
missing bytes taking a die set each (R164). -/
def drainPlace (s : State) : Bool :=
  match chooseSet s 1 with
  | none => false
  | some ds =>
    let unplaced := (s.front.asms.filter fun p => p.2.limited && p.2.pfa.isNone).length
    !drainHeld s ds && decide (unplaced < ((liveSets s).filter fun d => !drainHeld s d).length)

/-- Frames dirty for longer than COALESCE (R164). -/
def coalesced (s : State) : List (Nat × Nat) :=
  (oldestFirst s).filter fun p => decide (s.front.coalesce < (tick64 s - p.2) * 64) && mayGather s p.1

/-- Reserved drain: the oldest coalesced frame of a tenant whose drain bucket holds credit (R164). -/
def reservedFrame (s : State) : Option Nat :=
  ((coalesced s).find? fun p => decide (0 < drainCredit s (tenantOf s (frameTenant s p.1)))).map (·.1)

/-- Weight of a tenant in spare drain: W_WR, and 1 in place of 0 for a frame past MAX_DIRTY_AGE (R164). -/
def spareWeight (s : State) (p : Nat × Nat) : Nat :=
  let w := weightOf (tenantOf s (frameTenant s p.1)).qosA 2
  if w = 0 ∧ s.front.maxDirtyAge * 10000 < (tick64 s - p.2) * 64 then 1 else w

/-- Bytes of dirty host lines that cleaning a frame would write. -/
def frameCost (s : State) (lfa : Nat) : Nat := 64 * ((frameLines s lfa).map fun p => pop4 (lineAt s p.2).dirtyHl).sum

/-- Candidates of spare drain, one frame per tenant, by tenant (R164). -/
def spareCands (s : State) : List (Nat × Nat × Nat) :=
  let open_ := decide (budgetLines s ≤ 4 * dirtyLines s)
  let fs := (coalesced s).filter fun p =>
    (open_ || decide (s.front.maxDirtyAge * 10000 < (tick64 s - p.2) * 64)) && spareWeight s p != 0
  let add := fun (acc : Tbl (Nat × Nat)) (p : Nat × Nat) =>
    let t := frameTenant s p.1
    if (tfind acc t).isSome then acc else tput acc t (p.1, spareWeight s p)
  (fs.foldl add []).map fun p => (p.1, p.2.1, p.2.2)

/-- Deficit round-robin over the candidates from the tenant that is next, `n` visits at most; each visit adds weight × 64 B. -/
def spareVisit (cands : List (Nat × Nat × Nat)) : Nat → State → Option Nat × State
  | 0, s => (none, s)
  | n + 1, s =>
    let c := match cands.find? fun c => decide (s.front.spareRr ≤ c.1) with
      | some c => some c
      | none => cands.head?
    match c with
    | none => (none, s)
    | some (t, lfa, w) =>
      let d := tget s.front.spareDef t 0 + 64 * w
      let cost := frameCost s lfa
      if cost ≤ d then (some lfa, { s with front := { s.front with spareDef := tput s.front.spareDef t (d - cost) } })
      else spareVisit cands n { s with front := { s.front with spareDef := tput s.front.spareDef t d, spareRr := t + 1 } }

/-- DRAIN_ENGINE_SELECT (R164, R166): the next frame to clean is gathered; cleaning stops in a drain (R187). `parity` and `again` are
what the gathered front lines meet on their way (R32). -/
def execDrainEngineSelect (parity again : BitVec 16) (s : State) : Res :=
  if drainRunning s then .next s
  else
    match urgentFrame s with
    | some l => .next (gather l 3 false parity again s)
    | none =>
      if !drainPlace s then .next s
      else
        match reservedFrame s with
        | some l => .next (gather l 3 true parity again s)
        | none =>
          let c := spareCands s
          let r := spareVisit c (65 * (c.length + 1)) s
          match r.1 with
          | some l => .next (gather l 6 true parity again r.2)
          | none => .next s

/-! ### Assembly (R166 to R168) -/

/-- MERGE_READ_DONE (R166, R32): the missing bytes of a frame have arrived. An uncorrectable merge read poisons each front line that
needed its bytes; `parity` and `again` name front lines that met a parity error, and those whose error repeated. The frame is placed
and programmed; one whose reads had to wait issues them now. -/
def execMergeReadDone (asm : Nat) (parity again : BitVec 16) (s : State) : Res :=
  match tfind s.front.asms asm with
  | none => .next s
  | some a =>
    if a.pfa.isSome ∨ drainRunning s ∨ asmEarlier s asm a.lfa then .next s
    else if a.merging then
      if !a.begun then .next (startMerge asm s)
      else if !readsDone s (.merge asm) then .next s
      else
        let bad := readsBad s (.merge asm)
        let r := asmParity (mergeImage asm a s) parity again s
        let s := dropReads (.merge asm) (poisonFront a.lfa bad r.2)
        .next (placeAsm asm { s with front := { s.front with asms := tput s.front.asms asm { r.1 with merging := false } } })
    else .next (placeAsm asm s)

/-- What follows a commit: maintenance operations that await the frame, loads, unloads and run state (R176, R179, R193,
R209). -/
def afterCommit (lfa : Nat) (s : State) : State :=
  let s := { s with front := { s.front with
    maint := s.front.maint.map fun (m : Maint) => if m.status = 0 ∧ m.walked then { m with awaits := m.awaits.erase lfa } else m } }
  let s := (s.front.maint.flatMap fun (m : Maint) => if m.status = 0 then m.awaits else []).foldl (fun s l =>
    if l = lfa then markUrgent l s else s) s
  let s := (List.range 8).foldl (fun s n => advanceMaint n s) s
  checkRunClosed (checkUnloads (checkLoads s))

/-- FRAME_PROGRAM_DONE (R166, R240): all nine segment programs of a host frame succeed; it commits once the staging area can
take its record (R184). DEDUCED (log entry 216): in a drain, which empties no staging area, a frame that finds it full is abandoned. -/
def execFrameProgramDone (asm : Nat) (s : State) : Res :=
  match tfind s.front.asms asm, slotOfAsm s asm with
  | some a, some ds =>
    match a.kind with
    | .copy .. => .next s
    | _ =>
      if !asmDone s asm then .next s
      else if journalFull s then .next (if drainRunning s then abandonSlot ds asm s else s)
      else .next (slotStart ds (afterCommit a.lfa (commitAsm asm (slotClear ds s))))
  | _, _ => .next s

/-- FRAME_PROGRAM_FAIL (R168, R280): the frame is assembled again to a new PFA from the same image; the tile has failed. In a drain
the frame is abandoned and the failure kept for DRAIN_FAULTS (R187, R295). -/
def execFrameProgramFail (asm : Nat) (s : State) : Res :=
  match tfind s.front.asms asm, slotOfAsm s asm with
  | some a, some ds =>
    match (busyOf s ds).failed, a.pfa with
    | q :: _, some p =>
      if drainRunning s then .next (abandonSlot ds asm (noteDrainFault (groupOf p) q s))
      else if journalFull s then .next s
      else
        let s := slotClear ds s
        let s := { s with front := { s.front with asms := tput s.front.asms asm { a with pfa := none, programming := false } } }
        let s := countFail 4 (failTile (groupOf p) q 1 s)
        .next (slotStart ds (placeAsm asm s))
    | _, _ => .next s
  | _, _ => .next s

end Sys2Proof.Machine
end

