-- ==== Sys2Proof/Machine/MapJournal.lean ====
section
/-!
DEFINITION. Meanings of the map, journal and checkpoint rows (07_translation_map_and_journal.md R235 to R267, 05 R184): journal
programming, checkpoint passes, recovery, rebuild and scan; and the formatting of the medium (R287).
-/
namespace Sys2Proof.Machine

/-! ### The journal on the medium (R184, R249) -/

/-- The staging area is to be programmed: it holds 32 frames, its oldest record is 1 ms old (R184), an entry to a low-power state waits for
it (R491), or it holds records that a recovery replayed (R254). -/
def stagingDue (s : State) : Bool :=
  let es := unprogrammed s
  match es with
  | [] => false
  | e :: _ => decide (32 ≤ (cutFrames es.length es).length) || decide (e.at_ + 1000000 ≤ s.time.mono) || s.power.entering.isSome ||
      decide (e.seq < s.map.replayed)

/-- A journal frame leaves the staging area for its two positions (R184, R249). PAD records fill it, and the next record takes the
REC_SEQ after theirs. -/
def takeFrame (s : State) (es : List JEnt) : State :=
  let f := journalFrame (((newestCkpt s).map (·.2.seq)).getD 0) es
  let w := takeWseq s
  let s := w.2
  let n := s.map.nextFrame
  let s := { s with map := { s.map with
    flight := tput s.map.flight n { frame := f, wseq := w.1, doneA := false, doneB := false }, nextFrame := n + 1,
    nextRec := max s.map.nextRec (f.first + 63) } }
  journalWork n true (journalWork n false s)

/-- STAGING_PROGRAM (R184): the frames of the staging area that find positions in the journal (R250) become work of their die sets; none
does in a drain (R187). -/
def execStagingProgram (s : State) : Res :=
  if drainRunning s ∨ s.map.root.isNone ∨ stagingDue s = false then .next s
  else
    let s := replaceMetas s
    let es := unprogrammed s
    let fs := cutFrames es.length es
    let k := (((List.range (fs.length + 1)).reverse).find? (journalFits s)).getD 0
    .next (checkRunClosed ((fs.take k).foldl takeFrame s))

/-! ### Checkpoints (R251 to R253) -/

/-- Number of the journal frame that holds a record committed last (R249): those of the staging area take the next numbers. -/
def frameOfLast (s : State) : Nat :=
  let es := unprogrammed s
  s.map.nextFrame + (cutFrames es.length es).length - 1

/-- A group must be reset before it is written: its die set takes the reset (R251, R287). -/
def resetMeta (prio g : Nat) (s : State) : State :=
  let s := modGroup g (fun x => { x with wptr := 131072 }) s
  slotStart (dieSetOf g) (addWork (dieSetOf g) { prio := prio, kind := .reset g false } s)

/-- Begin a pass: CKPT_BEGIN commits, the groups of the slot are reset, and the first frame waits for its group (R251). -/
def beginPass (s : State) : State :=
  let slot := passSlot s
  let seq := s.map.ckptSeq + 1
  let start := s.map.nextRec
  let s := commit (.ckptBegin slot seq) (setCkpt slot none s)
  let s := { s with map := { s.map with
    pass := some { slot := slot, ck := makeCkpt seq start (frameOfLast s) s, wseq := 0 }, passDone := 0, passDue := false } }
  issueCkpt ((slotGroups s slot).foldl (fun s g => resetMeta 4 g s) s)

/-- A pass may begin: none runs or has a program left, no rebuild and no formatting runs, no drain, a formatted medium, and the groups of
its slot lie in live die sets. -/
def passFree (s : State) : Bool :=
  s.map.pass.isNone && !ckptOut s && s.map.rebuild.isEmpty && s.place.format.isNone && !drainRunning s && s.map.root.isSome &&
    s.map.loaded && !journalFull s && (slotGroups s (passSlot s)).all fun g => !isDegraded s (dieSetOf g)

/-- CHECKPOINT_PASS_START (R252): at 40 % of the journal area, 3,600 s after the previous pass, or for a pass that was
abandoned. -/
def execCheckpointPassStart (s : State) : Res :=
  let s' := replaceMetas s
  if passFree s' ∧
      (2 * journalArea s' ≤ 5 * journalKept s' ∨ s'.map.passEnd + 3600000000000 ≤ s'.time.mono ∨ s'.map.passDue) then
    .next (beginPass s')
  else .next s

/-- CHECKPOINT_PASS_END (R251): with the header programmed CKPT_END commits, and the journal before the new start is free. Before that, a
frame that waited for a good copy of an entry is taken up. -/
def execCheckpointPassEnd (s : State) : Res :=
  match s.map.pass with
  | none => .next s
  | some x =>
    if drainRunning s ∨ journalFull s then .next s
    else if s.map.passDone < passFrames x.ck then .next (issueCkpt s)
    else
      let c := s.map.passCci
      let s := commit (.ckptEnd x.slot x.ck.seq) s
      let s := { s with map := { s.map with
        ckptSeq := x.ck.seq, pass := none, passDone := 0, passEnd := s.time.mono, passCci := none } }
      let s := replaceMetas s
      match c with
      | some k => .next (endBgOn k 0xC342 .success s)
      | none => .next s

/-- START_CHECKPOINT (C342h, R252). -/
def execStartCheckpoint (cci : Fin 10) (inp : List Byte) (s : State) : Res :=
  vendorBg cci 0xC342 inp 0 []
    (fun s =>
      if s.map.pass.isSome ∨ !s.map.rebuild.isEmpty then .fail .busy
      else
        let s' := replaceMetas s
        if passFree s' then
          let s' := beginPass s'
          .background { s' with map := { s'.map with passCci := some cci.val } }
        else .stall) s

/-! ### Formatting (R244, R284 to R287) -/

/-- Groups of one checkpoint slot for E extents (Table 7-4). -/
def ckptGroups (e : Nat) : Nat := ceilDiv (2 * e + 64) 512

/-- The first eight tile groups of a die set that are not Retired: its part of the metadata reserve. -/
def metaPool (s : State) (ds : Nat) : List Nat :=
  (((List.range 1004).map fun t => ds * 1024 + t).filter fun g => (groupAt s g).st != .retired).take 8

/-- Elements at even or odd places. -/
def everyOther : List Nat → List Nat
  | [] => []
  | [x] => [x]
  | x :: _ :: r => x :: everyOther r

/-- The division of the metadata reserve (Table 7-4). The rings take alternate groups, so that their positions lie in different
die sets (R249). -/
def divide (s : State) (e : Nat) : MapRoot :=
  let pools := (liveSets s).map (metaPool s)
  let col := fun i => pools.filterMap fun p => p[i]?
  let rest := (List.range 6).flatMap fun i => col (i + 2)
  let c := ckptGroups e
  let j := rest.drop (2 * c)
  { popCh := s.media.popCh, popPk := s.media.popPk, popDies := s.media.popDies, drain0 := col 0, drain1 := col 1,
    ck0 := rest.take c, ck1 := (rest.drop c).take c, ja := everyOther j, jb := everyOther (j.drop 1) }

/-- Every group of a MAP_ROOT with its role (Table 8-2). -/
def rootGroups (r : MapRoot) : List (Nat × Nat) :=
  (r.drain0 ++ r.drain1).map (·, 5) ++ (r.ck0 ++ r.ck1).map (·, 4) ++ (r.ja ++ r.jb).map (·, 3)

/-- A metadata group of the new division that is reset-clean (R287). -/
def cleanGroup (s : State) (g : Nat) : Bool :=
  let x := groupAt s g
  x.st == .free || (x.st == .metadata && x.wptr == 0)

/-- A read is one of the device's own (R221). -/
def internalRead : ReadId → Bool
  | .internal _ => true
  | .fill _ => false

/-- What is under way on the old map and division ends (R287): waiting records are applied, a pass and the relocation jobs end, and frames
in assembly, internal reads and waiting programs go. -/
def quiesce (root : MapRoot) (s : State) : State :=
  let keep := rootGroups root
  let s := s.map.waiting.foldl (fun s r => applyRec r s) { s with map := { s.map with waiting := [] } }
  let s := abandonPass .aborted s
  let undo := fun (s : State) (p : Nat × Asm) =>
    dropAsm p.1 (match p.2.kind with
      | .clean => undoLines p.2 s
      | _ => s)
  let s := s.front.asms.foldl undo s
  let s := s.place.racks.foldl (fun s r => endRack r.group s) s
  let stays := fun (w : Work) => match w.kind with
    | .reset g _ => !(keep.any fun p => p.1 == g)
    | _ => false
  let noRead := fun (t : BusXfer) => !(t.rd.any internalRead)
  { s with
    media := { s.media with chans := tmap s.media.chans fun _ x => { x with bus := x.bus.filter noRead, onBus := x.onBus.filter noRead } },
    place := { s.place with busy := tmap s.place.busy fun _ b => { b with waiting := b.waiting.filter stays },
                            open1 := [], open2 := [], reported := [] },
    front := { s.front with ireads := [], dieReads := tmap s.front.dieReads fun _ q => q.filter fun r => !internalRead r.rd },
    map := { s.map with passDue := false } }

/-- W of a drain set after a division: kept with its groups, else 0 when they are clean, else no room until its reset (R190, R287). -/
def formatW (s : State) (set : Nat) (new : List Nat) : Nat :=
  if drainGroups s set = new then setW s set else if new.all (cleanGroup s) then 0 else 131072

/-- Group states after formatting (R287): the new reserve is Metadata, groups that held frames and dropped Metadata groups are
Pending-Reset. -/
def formatGroups (root : MapRoot) (s : State) : State :=
  let keep := rootGroups root
  let gone := fun (x : Group) =>
    x.st == .open_ || x.st == .closed || x.st == .pendingReset || x.st == .resetSuspect || x.st == .metadata
  let same := fun (g : Nat) => (drainGroups s 0 = root.drain0 && root.drain0.contains g) ||
    (drainGroups s 1 = root.drain1 && root.drain1.contains g)
  let wptr := fun (g : Nat) => if cleanGroup s g then 0 else if same g then (groupAt s g).wptr else 131072
  let ws := keep.map fun p => (p, wptr p.1)
  let gs := tmap s.place.groups fun g x =>
    if keep.any fun p => p.1 == g then x
    else if gone x then { x with st := .pendingReset, role := 0, valid := 0 } else x
  let s := { s with place := { s.place with
    groups := gs, ready := tmap s.place.ready fun _ l => l.filter fun g => !(keep.any fun p => p.1 == g) } }
  ws.foldl (fun s p => modGroup p.1.1 (fun x => { x with st := .metadata, role := p.1.2, valid := 0, wptr := p.2 }) s) s

/-- Format the medium (R287): entries UNMAPPED, withheld marks cleared, the reserve divided for the pending E, a new MAP_ROOT, and every
group that held frames Pending-Reset. The journal goes on at the next group of its rings. Completion waits for the empty checkpoint and
the ready queue. -/
def formatMedia (s : State) : State :=
  let e := if s.map.pendingE ≠ 0 then s.map.pendingE else if s.map.extents ≠ 0 then s.map.extents else 472 * countS s
  let s := s.ten.withheld.foldl (fun s x => commit (.extentWithhold x false) s) s
  let root := divide s e
  let s := quiesce root s
  let w0 := formatW s 0 root.drain0
  let w1 := formatW s 1 root.drain1
  let s := formatGroups root s
  let s := { s with
    map := { s.map with
      extents := e, pendingE := 0, copyA := MapCopy.empty, copyB := MapCopy.empty, lost := [], marked := [],
      markAll := false, rebuild := [], jframes := [], ck0 := none, ck1 := none, flight := [],
      nextFrame := ceilDiv s.map.nextFrame 131072 * 131072, staging := [], spill := [], frames := [] },
    back := { s.back with slots := [], filter := [], promoting := [] },
    ten := { s.ten with affected := [] },
    place := { s.place with format := some 10 },
    persist := { s.persist with w0 := w0, w1 := w1, image := [], setReset := [] } }
  let s := writeRoot root { s with map := { s.map with hFmt := (headroom s).toNat } }
  let s := if s.persist.imageList.isEmpty then s else writeImageList [] s
  let s := (root.ck0.filter fun g => !(groupAt s g).wptr == 0).foldl (fun s g => resetMeta 5 g s) s
  spareRecompute (armDrain { s with map := { s.map with passEnd := s.time.mono } })

/-- REC_SEQ and journal frame number from which the records since formatting begin. -/
def formatStart (s : State) : Nat × Nat :=
  let fs := (s.map.jframes.map fun p => (p.2.first, p.1)) ++ (s.map.flight.map fun p => (p.2.frame.first, p.1))
  let rest := (((s.map.staging.head?).map (·.seq)).getD s.map.nextRec, s.map.nextFrame)
  fs.foldl (fun a p => if p.2 < a.2 then p else a) rest

/-- The empty checkpoint of a formatting is written once the groups of its slot are reset-clean (R287). DESIGN CHOICE (log entry 217): it
is one effect. -/
def formatCkpt (s : State) : State :=
  if s.place.format.isSome && (newestCkpt s).isNone && s.map.root.isSome &&
      (slotGroups s 0).all fun g => (groupAt s g).wptr == 0 then
    let st := formatStart s
    let seq := s.map.ckptSeq + 1
    setCkpt 0 (some (makeCkpt seq st.1 st.2 s)) { s with map := { s.map with ckptSeq := seq } }
  else s

/-! ### Replay (R247, R254, R255) -/

/-- A replay: the REC_SEQ that comes next, the records applied, newest first, and whether the source under way has ended. -/
structure Replay where
  seq : Nat
  applied : List JEnt
  ended : Bool
  s : State

/-- Replay records in sequence (R254, R255): one below the sequence is skipped; an uncommitted one, which `torn` names, or a later one
ends the source. -/
def replayEnts (torn : List Nat) : List JEnt → Replay → Replay
  | [], a => a
  | e :: es, a =>
    if torn.contains e.seq || decide (a.seq < e.seq) then { a with ended := true }
    else if e.seq < a.seq then replayEnts torn es a
    else replayEnts torn es { a with seq := e.seq + 1, applied := e :: a.applied, s := applyRec e.body a.s }

/-- The first blank journal position from n on. -/
def firstBlank (s : State) (bad : List Nat) (n : Nat) : Nat :=
  let ks := (List.range (s.map.jframes.length + bad.length + 1)).map (n + ·)
  (ks.find? fun k => !bad.contains k && (tfind s.map.jframes k).isNone).getD n

/-- A frame within the next 128 positions continues the sequence from above (R255). -/
def gapAhead (s : State) (bad : List Nat) (n seq : Nat) : Bool :=
  (List.range 128).any fun i =>
    !bad.contains (n + 1 + i) && (tfind s.map.jframes (n + 1 + i)).any fun f => decide (seq < f.first)

/-- Replay of the journal ends at position n, which is the next to be written, or the first blank one after it (R255). -/
def endJournal (bad : List Nat) (n : Nat) (a : Replay) : Replay :=
  { a with s := { a.s with map := { a.s.map with nextFrame := firstBlank a.s bad n } } }

/-- A gap in the journal (R255): every LFA is marked, 4002h is logged, and the journal goes on at the first blank position after the 128
that were read. -/
def journalGap (bad : List Nat) (n : Nat) (a : Replay) : Replay :=
  let s := raise 0x034 0x4002 n (a.seq % 2 ^ 32) 0 a.s
  endJournal bad (n + 129) { a with s := { s with map := { s.map with markAll := true, gaps := s.map.gaps + 1 } } }

/-- Replay journal frames from number n (R255); `bad` names those that decode in neither copy. PAD records are in sequence too. -/
def replayFrames (bad torn : List Nat) (first : Nat) : Nat → Nat → Replay → Replay
  | 0, n, a => endJournal bad n a
  | k + 1, n, a =>
    if bad.contains n then (if gapAhead a.s bad n a.seq then journalGap bad n a else endJournal bad n a)
    else
      match tfind a.s.map.jframes n with
      | none => endJournal bad n a
      | some f =>
        if n ≠ first ∧ f.first ≠ a.seq then endJournal bad n a
        else
          let r := replayEnts torn f.ents a
          let r := { r with seq := if r.ended then r.seq else max r.seq (f.first + 63), ended := false }
          replayFrames bad torn first k (n + 1) r

/-- Insert a frame by FRAME_NO. -/
def insertNo (f : ImgFrame) : List ImgFrame → List ImgFrame
  | [] => [f]
  | x :: r => if f.no ≤ x.no then f :: x :: r else x :: insertNo f r

/-- Frames of a listed image, by FRAME_NO: those on the medium in the rounds that IMAGE_LIST gives (R194, R207). -/
def imageOn (s : State) (r : RunRec) : List ImgFrame :=
  let gs := drainGroups s r.set
  ((s.persist.image.filter fun p => p.2.seq == r.seq && gs.contains (groupOf p.1) && decide (r.startW ≤ frameIdx p.1) &&
    decide (frameIdx p.1 < r.startW + r.rounds)).map (·.2)).foldr insertNo []

/-- The records of an image's tail frames; an undecodable frame ends them (R255). -/
def tailRecs (bad : List Nat) : List ImgFrame → List (List JEnt)
  | [] => []
  | f :: fs =>
    if bad.contains (f.seq * 2 ^ 32 + f.no) then []
    else
      match f.body with
      | .tail es => es :: tailRecs bad fs
      | .dump _ => tailRecs bad fs

/-- Replay a source frame by frame; PAD records stand between a frame that they fill and the next (R249). In the spill region they stand
wherever a sequence number is missing between records. -/
def replayParts (torn : List Nat) (spill : Bool) : Option Nat → List (List JEnt) → Replay → Replay
  | _, [], a => a
  | prev, es :: rest, a =>
    let first := ((es.head?).map (·.seq)).getD 0
    let padded := prev.any fun p => spill || p + 63 == first
    let r := replayEnts torn es { a with seq := if padded then max a.seq first else a.seq }
    if r.ended then r else replayParts torn spill (some first) rest r

/-- Replay the tail frames of each listed image, oldest drain first, then the spill region (R254, R255). -/
def replayTails (f : MediumFaults) (a : Replay) : Replay :=
  let a := a.s.persist.imageList.foldl (fun a r =>
    { replayParts f.torn false none (tailRecs f.image (imageOn a.s r)) a with ended := false }) a
  let sp := a.s.map.spill
  replayParts f.torn true none (cutFrames sp.length sp) a

/-- Entries of a listed image's dump frames that can be read (R207). -/
def imageEntries (s : State) (bad : List Nat) (r : RunRec) : Tbl DumpEnt :=
  (imageOn s r).foldl (fun t f =>
    if bad.contains (f.seq * 2 ^ 32 + f.no) then t
    else
      match f.body with
      | .dump es => ((List.range es.length).zip es).foldl (fun t q => tput t ((f.seq * 2 ^ 32 + f.no) * 16 + q.1) q.2) t
      | .tail _ => t) []

/-- The image index before replay: what the checkpoint holds of each listed image, or all of its entries (R207). -/
def seedIndex (s : State) (bad : List Nat) (ck : Tbl DumpEnt) : Tbl DumpEnt :=
  s.persist.imageList.foldl (fun t r =>
    let known := ck.filter fun p => p.1 / 16 / 2 ^ 32 == r.seq && !bad.contains (p.1 / 16)
    (if known.isEmpty then imageEntries s bad r else known).foldl (fun t p => tput t p.1 p.2) t) []

/-- Two pending images hold the same line: the older entry is discarded, and the discard is journaled (R208). -/
def dropOlder (s : State) : State :=
  let old := s.persist.index.filter fun p =>
    s.persist.index.any fun q => q.2.lfa == p.2.lfa && q.2.line == p.2.line && decide (p.1 < q.1)
  retireImages (old.foldl (fun s p => commit (resolveRec (entryOfKey p.1)) s) s)

/-- Largest FM_WSEQ in a list of records. -/
def maxWseq (es : List JEnt) (m : Nat) : Nat :=
  es.foldl (fun m e => match e.body with
    | .mapSet _ _ w _ => max m w
    | .mapMove _ _ _ w _ => max m w
    | _ => m) m

/-- A REC_SEQ above every record of the medium and the spill region. -/
def recsTop (s : State) : Nat :=
  let j := s.map.jframes.foldl (fun m p => max m (p.2.first + 63)) s.map.nextRec
  let ents := (s.persist.image.flatMap fun p => match p.2.body with
    | .tail es => es
    | .dump _ => []) ++ s.map.spill
  ents.foldl (fun m e => max m (e.seq + 1)) j

/-- The records replayed from tail frames and the spill region go back to the staging area, from which they are programmed as journal
frames (R254). -/
def stageReplayed (es : List JEnt) (s : State) : State :=
  let bound := ((es.getLast?).map fun e => e.seq + 1).getD 0
  { s with map := { s.map with
    staging := es.map fun e => { e with at_ := s.time.mono }, replayed := bound,
    spill := s.map.spill.filter fun e => es.any fun x => x.seq == e.seq } }

/-- Count each group's valid frames from the map (R254). -/
def recount (s : State) : State :=
  let s := { s with place := { s.place with groups := tmap s.place.groups fun _ x => { x with valid := 0 } } }
  s.map.copyA.ents.foldl (fun s p => if p.2.st = .media then addValid p.2.loc 1 s else s) s

/-- SUB fields of a list of groups in MAP_ROOT, and what follows it (R269). -/
def rootList (b : List Byte) : List (Nat × List Nat) × List Byte :=
  let n := le b 0 2
  ((List.range n).map fun i => (le b (2 + 12 * i) 3, (List.range 9).map fun q => byteAt b (5 + 12 * i + q)), b.drop (2 + 12 * n))

/-- SUB fields of every Metadata group, as MAP_ROOT holds them (R269). -/
def rootSubs (b : List Byte) : List (Nat × List Nat) :=
  ((List.range 6).foldl (fun (a : List (Nat × List Nat) × List Byte) _ =>
    let r := rootList a.2
    (a.1 ++ r.1, r.2)) ([], b.drop 3)).1

/-- The groups that MAP_ROOT lists are Metadata, with its SUB fields (Table 8-1, R269). -/
def applyRoot (s : State) : State :=
  match s.map.root with
  | none => s
  | some r =>
    let s := (rootGroups r).foldl (fun s p => modGroup p.1 (fun x => { x with st := .metadata, role := p.2 }) s) s
    (rootSubs ((cellarRead s 2 0x03).getD [])).foldl (fun s p => modGroup p.1 (fun x => { x with sub := p.2 }) s) s

/-- Spares that some group's SUB field names are used (R281). -/
def sparesFromSub (s : State) : State :=
  let put := fun (t : Tbl Nat) (k n : Nat) => if n = 0 then t else tput t k (max n (tget t k 0))
  let one := fun (t : Tbl Nat) (p : Nat × Group) =>
    ((List.range 9).zip p.2.sub).foldl (fun t q => put t (dieSetOf p.1 * 9 + q.1) q.2) t
  { s with place := { s.place with sparesUsed := s.place.groups.foldl one s.place.sparesUsed } }

/-- How far a journal ring group is programmed (R249, R250): the block being written up to the next position; another that holds frames is
to be reset before its next use. -/
def ringWptr (s : State) (gs : List Nat) (i g : Nat) : Nat :=
  let cur := s.map.nextFrame / 131072
  let here := fun (n : Nat) => n % max 1 gs.length == i
  if here cur && s.map.nextFrame % 131072 != 0 then s.map.nextFrame % 131072
  else if s.map.jframes.any fun p => here (p.1 / 131072) then 131072
  else (groupAt s g).wptr

/-- Write pointers of the drain sets and the journal rings, which the medium shows (R190, R249). -/
def metaPointers (s : State) : State :=
  let ring := fun (gs : List Nat) (s : State) =>
    ((List.range gs.length).zip gs).foldl (fun s p => modGroup p.2 (fun x => { x with wptr := ringWptr s gs p.1 p.2 }) s) s
  let s := [0, 1].foldl (fun s i => (drainGroups s i).foldl (fun s g => modGroup g (fun x => { x with wptr := setW s i }) s) s) s
  ring (ringGroups s true) (ring (ringGroups s false) s)

/-- The end of recovery (R254): open groups are Closed, Pending-Reset ones Reset-Suspect, valid frames are counted, Pending
extents are Assigned (R115), erasures resume, and the map is loaded. DESIGN CHOICE (log entry 201): an extent with a remote
owner stays Releasing. -/
def finishRecovery (s : State) : State :=
  let gs := tmap s.place.groups fun _ x =>
    if x.st = .open_ then { x with st := .closed, closedAt := s.time.mono }
    else if x.st = .pendingReset then { x with st := .resetSuspect } else x
  let unPend := fun (x : ExtentEnt) => if x.st = .pending then { x with st := .assigned } else x
  let er := (s.ten.tenants.filter fun p => p.2.st == .erasing).map fun p => ({ tenant := p.1, cci := 10 } : EraseJob)
  let s := { s with
    place := { s.place with groups := gs, open1 := [], open2 := [], ready := [], racks := [] },
    ten := { s.ten with extA := tmap s.ten.extA fun _ x => unPend x, extS := tmap s.ten.extS fun _ x => unPend x,
                        erasing := er } }
  let s := recount (takeSweeps s)
  let s := { s with map := { s.map with copyB := if s.map.mirror then s.map.copyA else MapCopy.empty, loaded := true } }
  let s := dropOlder s
  let s := if s.map.staging.any fun e => decide (e.seq < s.map.replayed) then s
    else if s.persist.imageList.any fun r => r.dump == 0 then writeImageList (s.persist.imageList.filter fun r => r.dump != 0) s
    else s
  let s := (s.ten.tenants.map (·.1)).foldl (fun s t => freshQueues t s) s
  let s := { s with count := { s.count with meters := tmap s.ten.tenants fun _ _ => Meter.zero s.time.tbNow } }
  let marked := if s.map.markAll then localExtents s else (s.map.marked.map extentOfLfa).eraseDups
  let s := driftAdditions (spareRecompute (limitsRecompute (armDrain (markAffected marked s))))
  let s := markPhase 12 (markPhase 11 (markPhase 10 (degradeMissing s)))
  { s with start := { s.start with phase12 := some s.time.mono } }

/-- Load a checkpoint's tables and map (R254). -/
def loadCkpt (c : Ckpt) (f : MediumFaults) (s : State) : State :=
  let lfas := f.maps.flatMap fun m => (List.range 512).map fun i => m * 512 + i
  let map := { c.map with ents := tfilter c.map.ents fun l _ => !f.maps.contains (l / 512) }
  { s with
    map := { s.map with extents := c.extents, copyA := map, copyB := map, marked := lfas },
    ten := { s.ten with tenants := c.tenants, extA := c.extA, extS := c.extS, profA := c.profA, profS := c.profS,
                        withheld := c.withheld },
    place := { s.place with groups := c.groups, degraded := c.degraded },
    persist := { s.persist with index := seedIndex s f.image c.index } }

/-- Recovery can run: DRAM is filled, media bring-up has ended, the map is not loaded, the start not held (R254, R578, R582). -/
def recoveryDue (s : State) : Bool :=
  !s.map.loaded && s.dram.filled && s.start.phases.contains 7 && !s.start.held

/-- Groups in which the medium shows frames, and those of the old MAP_ROOT, where no group table is at hand. DEDUCED (log entry 218): they
are Closed in the role of their frames, or Metadata to be reset. -/
def groupsFromMedium (s : State) : State :=
  let s := s.map.frames.foldl (fun s p => modGroup (groupOf p.1) (fun x =>
    { x with st := .closed, role := if p.2.origin = 0 then 1 else 2 }) s) s
  match s.map.root with
  | none => s
  | some r => (rootGroups r).foldl (fun s p => modGroup p.1 (fun x => { x with st := .metadata, role := p.2, wptr := 131072 }) s) s

/-- A listed image has a frame that stays unreadable after the slow path (R205). -/
def imageLost (s : State) (bad : List Nat) : Bool := bad.any fun k => s.persist.imageList.any fun r => r.seq == k / 2 ^ 32

/-- Recovery from a valid checkpoint (R254): its tables and map load, the journal is replayed, then tail frames and the spill region. -/
def recoverFrom (c : Ckpt) (f : MediumFaults) (s : State) : State :=
  let s := loadCkpt c f s
  let j := replayFrames f.journal f.torn c.journalStart (s.map.jframes.length + 1) c.journalStart
    { seq := c.startRec, applied := [], ended := false, s := s }
  let r := replayTails f { j with applied := [] }
  let s := r.s
  let next := if j.s.map.gaps = 0 then r.seq else recsTop s
  let s := { s with map := { s.map with
    nextRec := next, nextWseq := maxWseq (r.applied ++ j.applied) c.wseqHigh + 2 ^ 32, ckptSeq := max s.map.ckptSeq c.seq } }
  stageReplayed r.applied.reverse s

/-- Recovery without a valid checkpoint (R254): every LFA is marked for the scan. DEDUCED (log entry 219): tail frames and the spill region
are replayed from their own first record, and the sequences go on above what the medium shows. -/
def recoverScan (f : MediumFaults) (s : State) : State :=
  let e := if s.map.extents ≠ 0 then s.map.extents else 472 * countS s
  let s := groupsFromMedium s
  let s := { s with map := { s.map with markAll := true, extents := e },
                    persist := { s.persist with index := seedIndex s f.image [] } }
  let first := ((((s.persist.imageList.map fun r => tailRecs f.image (imageOn s r)).flatten.flatten ++ s.map.spill).head?).map (·.seq)).getD 0
  let r := replayTails f { seq := first, applied := [], ended := false, s := s }
  let s := r.s
  let last := s.map.jframes.foldl (fun m p => max m (p.1 + 1)) s.map.nextFrame
  let w := s.map.frames.foldl (fun m p => max m p.2.wseq) (maxWseq r.applied s.map.nextWseq)
  let s := { s with map := { s.map with
    nextRec := recsTop s, nextWseq := w + 2 ^ 32, nextFrame := firstBlank s f.journal last } }
  stageReplayed r.applied.reverse s

/-- What a start knows of the map before the medium is read: the stored mirroring choice, and nothing in DRAM or under way (R239, R254). -/
def recoveryBase (s : State) : State :=
  { s with
    map := { s.map with mirror := s.map.mirrorNext, staging := [], waiting := [], flight := [], rebuild := [], lost := [] },
    place := { s.place with busy := [] } }

/-- MAP_ROOT is present and of the present population (R244). -/
def rootFits (s : State) : Bool :=
  match s.map.root with
  | none => false
  | some r => r.popCh == s.media.popCh && r.popPk == s.media.popPk && r.popDies == s.media.popDies

/-- Recovery of a medium whose division is known (R254): from the newest valid slot, or by marking every LFA for the scan. -/
def recoverMedium (f : MediumFaults) (s : State) : State :=
  let s := setCkpt 1 (validSlot s f.slots 1 s.map.ck1) (setCkpt 0 (validSlot s f.slots 0 s.map.ck0) s)
  let s := match newestCkpt s with
    | some (_, c) => recoverFrom c f s
    | none => recoverScan f s
  metaPointers (sparesFromSub (applyRoot s))

/-- A medium whose division is not known is formatted, with the sequences above what it shows (R244, R243). -/
def recoverNone (s : State) : State :=
  let s := groupsFromMedium s
  let w := s.map.frames.foldl (fun m p => max m p.2.wseq) s.map.nextWseq
  formatMedia { s with map := { s.map with nextRec := recsTop s, nextWseq := w + 2 ^ 32 } }

/-- MAP_RECOVERY (R254, R255, R257): `f` gives what stays unreadable on the medium. A MAP_ROOT that is absent or of another population
formats the medium (R244). An image frame that stays unreadable counts as an unsafe shutdown (R205, R580). -/
def execMapRecovery (f : MediumFaults) (s : State) : Res :=
  if !recoveryDue s then .next s
  else if !rootFits (recoveryBase s) then .next (finishRecovery (recoverNone (recoveryBase s)))
  else
    let s := recoverMedium f (recoveryBase s)
    .next (finishRecovery (if imageLost s f.image then countUnsafe s else s))

/-! ### The frame-metadata scan (R265) -/

/-- The newest candidate for an LFA on the medium; `bad` names frames with a data codeword that does not decode hard. -/
def scanLfa (s : State) (bad : List Nat) (lfa : Nat) : Option (Nat × MFrame) :=
  let x := extOf s (extentOfLfa lfa)
  let cands := s.map.frames.filter fun p =>
    p.2.lfa == lfa && p.2.tenant == x.tenant && p.2.keyGen == (tenantOf s x.tenant).keyGen && !bad.contains p.1 &&
      ((groupAt s (groupOf p.1)).role == 1 || (groupAt s (groupOf p.1)).role == 2)
  cands.foldl (fun a p => match a with
    | none => some p
    | some q => if q.2.wseq < p.2.wseq then some p else a) none

/-- The entry that the scan gives an LFA. -/
def scanEntry (s : State) (bad : List Nat) (lfa : Nat) : MapEnt :=
  match scanLfa s bad lfa with
  | some (p, f) => { st := .media, poison := f.poison, loc := p }
  | none => { st := .unmapped, poison := 0, loc := 0 }

/-- Each scanned map frame is logged (R265). -/
def logScan (ms : List Nat) (s : State) : State :=
  let s := ms.foldl (fun s m => raise 0x034 0x4003 m 0 0 s) s
  { s with map := { s.map with scans := s.map.scans + ms.length } }

/-- LFAs to replay or scan: a test by LFA, and extents that lie wholly within it. -/
structure LfaSet where
  has : Nat → Bool
  whole : Nat → Bool

/-- The effect of a record on one map copy alone, for the LFAs of a set. -/
def replayMap (p : LfaSet) (c : MapCopy) (r : JRec) : MapCopy :=
  match r with
  | .mapSet l e _ _ => if p.has l then c.put l e else c
  | .mapMove l old new _ _ =>
    if p.has l && (c.get l).st == .media && (c.get l).loc == old then c.put l { c.get l with loc := new } else c
  | .mapTrim first n _ =>
    if first % 262144 = 0 ∧ n = 262144 ∧ p.whole (first / 262144) = true then c.trim first n
    else ((List.range n).filter fun i => p.has (first + i)).foldl (fun (c : MapCopy) i =>
      c.put (first + i) { st := .trimmed, poison := 0, loc := 0 }) c
  | .mapPoison l m => if p.has l then c.put l { c.get l with poison := (c.get l).poison ||| m } else c
  | _ => c

/-- Records of the journal from a REC_SEQ on, then of the staging area. -/
def recordsFrom (s : State) (start : Nat) : List JRec :=
  let js := s.map.jframes.flatMap fun p => p.2.ents
  let st := s.map.staging.filter fun e => !(js.any fun x => x.seq == e.seq)
  ((js ++ st).filter fun e => decide (start ≤ e.seq)).map (·.body)

/-! ### Rebuild (R262 to R264) -/

/-- Some copy of an extent's entries lies wholly on channels that are in service. -/
def regionBack (s : State) (e : Nat) : Bool :=
  let good := fun b => (List.range 8).all fun c => !(extentOnChan s b c e && dramOut s c)
  good false || (s.map.mirror && good true)

/-- MAP_REBUILD_START (R263): the entries of the affected extents whose region is back become LOCKED. -/
def execMapRebuildStart (s : State) : Res :=
  let x := s.ten.affected.filter (regionBack s)
  if x.isEmpty ∨ !s.map.rebuild.isEmpty ∨ drainRunning s then .next s
  else
    let s := abandonPass .success s
    let lock := fun (m : MapCopy) => { m with locked := m.locked ++ x.filter fun e => !m.locked.contains e }
    .next (raise 0x034 0x4004 1 x.length 0
      { s with map := { s.map with
          rebuild := x, rebuildAt := s.time.mono, rebuilt := 0, rebuildPoisoned := 0, copyA := lock s.map.copyA,
          copyB := if s.map.mirror then lock s.map.copyB else s.map.copyB } })

/-- Insert into an ascending list. -/
def insertAsc (x : Nat) : List Nat → List Nat
  | [] => [x]
  | y :: r => if x ≤ y then x :: y :: r else y :: insertAsc x r

/-- Merge reads that wait for extents are issued again. -/
def reissueMerges (p : Nat → Bool) (s : State) : State :=
  let held := s.front.asms.filter fun x => x.2.merging && p (extentOfLfa x.2.lfa) &&
    ((readsOf s (.merge x.1)).any fun r => r.2.stage == .blocked)
  startMerges (held.foldl (fun s x => dropReads (.merge x.1)
    { s with front := { s.front with asms := tput s.front.asms x.1 { x.2 with begun := false } } }) s)

/-- Fills and merge reads that waited for extents read their entries again (Table 6-5, R262), and copies go on. -/
def unblock (p : Nat → Bool) (s : State) : State :=
  let miss := tmap s.front.miss fun k m =>
    if m.stage = .blocked ∧ p (extentOfLfa (k / 16)) = true then { m with stage := .mapRead, copyB := chooseCopy s (k / 16) } else m
  resumeRacks (reissueMerges p { s with front := { s.front with miss := miss } })

/-- Affected extents that a scan of their marked LFAs frees: their region is back (R265). -/
def scannedExtents (s : State) : List Nat :=
  s.ten.affected.filter fun e => (s.map.markAll || s.map.marked.any fun l => extentOfLfa l == e) && regionBack s e

/-- Map frames that hold the marked LFAs (R265). -/
def scannedFrames (s : State) : List Nat :=
  if s.map.markAll then List.range (mapFrames s.map.extents) else (s.map.marked.map (· / 512)).eraseDups

/-- A map copy after the scan: every marked LFA takes its newest candidate, then the journal is replayed for those LFAs (R265). -/
def scanCopy (bad : List Nat) (s : State) (m : MapCopy) : MapCopy :=
  let all := s.map.markAll
  let mine : LfaSet := { has := fun l => all || s.map.marked.contains l, whole := fun _ => all }
  let lfas := if all then (s.map.frames.map fun p => p.2.lfa).eraseDups else s.map.marked
  let start := match newestCkpt s with
    | some (_, k) => k.startRec
    | none => 0
  let base : MapCopy := if all then { MapCopy.empty with locked := m.locked } else m
  let c := lfas.foldl (fun (c : MapCopy) l => c.put l (scanEntry s bad l)) base
  (recordsFrom s start).foldl (replayMap mine) c

/-- The map after the scan of the marked LFAs: nothing is marked, and the scanned extents stop being affected (R265). -/
def scanMarked (bad : List Nat) (s : State) : State :=
  let t := logScan (scannedFrames s) s
  let gone := fun (l : Nat) => (s.map.markAll || s.map.marked.contains l) && (scannedExtents s).contains (extentOfLfa l)
  { t with
    map := { t.map with
      copyA := scanCopy bad s t.map.copyA, copyB := if t.map.mirror then scanCopy bad s t.map.copyB else t.map.copyB,
      lost := t.map.lost.filter fun l => !gone l, marked := [], markAll := false },
    ten := { t.ten with affected := t.ten.affected.filter fun e => !(scannedExtents s).contains e } }

/-- FRAME_METADATA_SCAN (R265, R579): after Memory_Active every marked LFA takes its newest candidate, the journal is replayed
for those LFAs, and their extents stop being affected. -/
def execFrameMetadataScan (bad : List Nat) (s : State) : Res :=
  if !s.map.loaded ∨ s.drift.activeAt.isNone ∨ drainRunning s ∨ (s.map.marked.isEmpty ∧ s.map.markAll = false) then .next s
  else .next (unblock (scannedExtents s).contains (recount (scanMarked bad s)))

/-- An entry names a frame that is not its LFA's (R264). -/
def wrongFrame (s : State) (p : Nat × MapEnt) : Bool :=
  p.2.st == .media && (match tfind s.map.frames p.2.loc with
    | some f => f.lfa != p.1
    | none => true)

/-- A slot of a rebuilt extent that is Valid becomes Quarantined (R263). -/
def quarantineIf (mine : Nat → Bool) (until_ : Nat) (x : Slot) : Slot :=
  if mine x.lfa && x.st == .valid then { x with st := .quarantined, quarantine := until_ } else x

/-- The rebuilt entries of extents `xs` (R263): from the newest checkpoint, with scanned candidates for the map frames that `toScan`
names, then the journal. An LFA without a candidate becomes UNMAPPED, in a trimmed extent too. -/
def rebuiltEntries (xs : List Nat) (toScan : Nat → Bool) (bad : List Nat) (s : State) : MapCopy :=
  let mine : Nat → Bool := fun l => xs.contains (extentOfLfa l)
  let base : MapCopy × Nat := match newestCkpt s with
    | some (_, k) => (k.map, k.startRec)
    | none => (MapCopy.empty, 0)
  let frames := (xs.flatMap fun e => (List.range 512).map (512 * e + ·)).filter toScan
  let c0 : MapCopy :=
    { ents := tfilter base.1.ents fun l _ => mine l && !toScan (l / 512), trimmed := base.1.trimmed.filter xs.contains,
      locked := [], bad := [] }
  let scanned := (s.map.frames.map fun p => p.2.lfa).eraseDups.filter fun l => mine l && toScan (l / 512)
  let c1 := (frames.filter fun m => c0.trimmed.contains (m / 512)).foldl (fun (c : MapCopy) m =>
    (List.range 512).foldl (fun (c : MapCopy) i => c.put (512 * m + i) { st := .unmapped, poison := 0, loc := 0 }) c) c0
  let c1 := scanned.foldl (fun (c : MapCopy) l => c.put l (scanEntry s bad l)) c1
  (recordsFrom s base.2).foldl (replayMap { has := mine, whole := xs.contains }) c1

/-- A map copy takes the rebuilt entries of extents `xs`, which stop being LOCKED (R263). -/
def mergeRebuilt (xs : List Nat) (c m : MapCopy) : MapCopy :=
  let mine : Nat → Bool := fun l => xs.contains (extentOfLfa l)
  { ents := c.ents.foldl (fun t p => tput t p.1 p.2) (tfilter m.ents fun l _ => !mine l),
    trimmed := (m.trimmed.filter fun e => !xs.contains e) ++ c.trimmed, locked := m.locked.filter fun e => !xs.contains e,
    bad := m.bad.filter fun l => !mine l }

/-- The map with a rebuild ended (R263, R264): `badMap` names checkpoint map frames that are unreadable and are scanned, `bad` frames
that are no candidates; an entry whose frame is not its own is poisoned and reported. -/
def rebuildMap (badMap bad : List Nat) (s : State) : State :=
  let xs := s.map.rebuild.foldr insertAsc []
  let mine : Nat → Bool := fun l => xs.contains (extentOfLfa l)
  let toScan := fun (m : Nat) => (newestCkpt s).isNone || badMap.contains m
  let c2 := rebuiltEntries xs toScan bad s
  let wrong := c2.ents.filter (wrongFrame s)
  let c3 := wrong.foldl (fun (c : MapCopy) p => c.put p.1 { p.2 with poison := 0xFFFF }) c2
  let t := wrong.foldl (fun s p => raiseDpa 0x034 0x3002 (p.1 * 4096) (extOf s (extentOfLfa p.1)).head s)
    (logScan ((xs.flatMap fun e => (List.range 512).map (512 * e + ·)).filter toScan) s)
  { t with
    map := { t.map with copyA := mergeRebuilt xs c3 t.map.copyA,
                        copyB := if t.map.mirror then mergeRebuilt xs c3 t.map.copyB else t.map.copyB,
                        rebuild := [], lost := t.map.lost.filter fun l => !mine l, rebuilt := t.map.rebuilt + xs.length,
                        rebuildPoisoned := t.map.rebuildPoisoned + wrong.length },
    back := { t.back with slots := tmap t.back.slots fun _ x => quarantineIf mine (quarantineEnd t) x },
    ten := { t.ten with affected := t.ten.affected.filter fun e => !xs.contains e } }

/-- MAP_REBUILD_DONE (R263, R264): the rebuilt entries are in the map, and the requests that waited for them go on. -/
def execMapRebuildDone (badMap bad : List Nat) (s : State) : Res :=
  if s.map.rebuild.isEmpty ∨ drainRunning s then .next s
  else
    let xs := s.map.rebuild.foldr insertAsc []
    .next (unblock xs.contains (raise 0x034 0x4004 0 xs.length 0 (rebuildMap badMap bad s)))

/-! ### Commands -/

/-- The 128 bytes of metadata shares of a frame (Table 7-3). -/
def metaBytes (f : MFrame) : List Byte := (frameShares f).flatMap (leBytes 8)

/-- GET_MAP_ENTRY (C340h, R267). -/
def execGetMapEntry (cci : Fin 10) (inp : List Byte) (s : State) : Res :=
  vendor cci 0xC340 inp 6 []
    (fun s =>
      let l := le inp 0 5
      if 262144 * s.map.extents ≤ l then .fail .invalidInput
      else
        let a := copyUp s false l
        let b := copyUp s true l
        let good := fun (h : Bool) => !s.map.lost.contains l && !copyBad s h l
        let w := fun (h : Bool) (c : MapCopy) => leBytes 8 (if h then entWord (c.get l) l else 0)
        let md := if bits (byteAt inp 5) 0 1 = 1 then
            match ((mapEntry s l).bind (entPfa s)).bind (tfind s.map.frames) with
            | some f => metaBytes f
            | none => zeros 128
          else zeros 128
        answer s (w a s.map.copyA ++ w b s.map.copyB ++
          leBytes 1 (b2n a + 2 * b2n (a && good false) + 4 * b2n b + 8 * b2n (b && good true)) ++ zeros 7 ++ md)) s

/-- GET_JOURNAL_STATE (C341h, R267). -/
def execGetJournalState (cci : Fin 10) (inp : List Byte) (s : State) : Res :=
  vendor cci 0xC341 inp 0 []
    (fun s =>
      let n := newestCkpt s
      let slot := match n with
        | some (k, _) => k
        | none => 0
      let seq := match n with
        | some (_, c) => c.seq
        | none => 0
      let st := match n with
        | some (_, c) => c.startRec
        | none => 0
      let done := min (s.map.passDone - Config.tableFrames) (mapFrames s.map.extents)
      answer s (leBytes 8 s.map.nextRec ++ leBytes 4 (journalKept s) ++ leBytes 4 (journalArea s) ++ leBytes 1 slot ++ zeros 7 ++
        leBytes 8 seq ++ leBytes 8 st ++ leBytes 4 done ++ leBytes 4 (mapFrames s.map.extents) ++
        leBytes 4 (stagingFrames s) ++ leBytes 4 s.map.gaps ++ leBytes 4 s.map.scans)) s

/-- Installed DRAM in GiB (R16). -/
def installedGib (s : State) : Nat := ((List.range 8).map fun c => ((dramOf s c).dimms.map (·.gib)).sum).sum

/-- Installed DRAM meets R15 for E extents in a mirroring mode. -/
def dramMeets (s : State) (mirror : Bool) (e : Nat) : Bool :=
  decide ((if mirror then 2 else 1) * (2 * e) + 65536 ≤ installedGib s * 1024)

/-- The record of a map mirroring choice that the DRAM can hold (R239). -/
def mirroringRec (inp : List Byte) (s : State) : Option (List Byte) :=
  if 1 < le inp 0 1 ∨ !dramMeets s (le inp 0 1 == 1) s.map.extents then none else some (leBytes 1 (le inp 0 1))

/-- SET_MAP_MIRRORING (C343h, R239): for the next start; kept in the cellar book. -/
def execSetMapMirroring (cci : Fin 10) (inp : List Byte) (s : State) : Res :=
  vendor cci 0xC343 inp 1 []
    (fun s => storeSetting 0x0E (mirroringRec inp s) s) s

/-- GET_REBUILD_STATE (C344h, R267). -/
def execGetRebuildState (cci : Fin 10) (inp : List Byte) (s : State) : Res :=
  vendor cci 0xC344 inp 0 []
    (fun s =>
      let phase := if !s.map.marked.isEmpty ∨ s.map.markAll then 3 else if !s.map.rebuild.isEmpty then 2
        else if !s.ten.affected.isEmpty then 1 else 0
      let ms := if s.map.rebuild.isEmpty then 0 else (s.time.mono - s.map.rebuildAt) / 1000000
      answer s (leBytes 4 s.ten.affected.length ++ leBytes 4 s.map.rebuilt ++ leBytes 8 s.map.rebuildPoisoned ++ leBytes 8 ms ++
        leBytes 1 phase)) s

end Sys2Proof.Machine
end

