-- ==== Sys2Proof/Machine/Placement.lean ====
section
/-!
DEFINITION. Meanings of the placement, racking, wear and health rows (08_placement_wear_and_health.md R268 to R296, 06 R227,
07 R256 to R258, 10 R355).
-/
namespace Sys2Proof.Machine

/-! ### Ready queue and busy slots (R271, R275) -/

/-- The media supervisor runs (Table 1-7), and the media is in service, which it is not in Dormant (Table 15-9). -/
def mediaUp (s : State) : Bool := s.mgmt.media.mode == .running && s.power.mode != .dormant

/-- A die set's share of the ready queue meets R271: it is full, or holds every group of the die set that can become Free once no reset of
it is left. -/
def shareMet (s : State) (ds : Nat) : Bool :=
  let n := (tget s.place.ready ds []).length
  let left := s.place.groups.any fun p => dieSetOf p.1 == ds &&
    (p.2.st == .pendingReset || p.2.st == .resetting || p.2.st == .resetSuspect)
  decide (shareFull s ≤ n) || (!left && n == freeIn s ds)

/-- Frames that found no group are placed as soon as one can open (R274). -/
def placeWaiting (s : State) : State :=
  ((s.front.asms.filter fun p => p.2.pfa.isNone && !p.2.merging && !p.2.programming).map (·.1)).foldl
    (fun s id => placeAsm id s) s

/-- A Sanitize ends once every group outside Spare, Retired and Metadata has been reset (R529). -/
def checkSanitize (s : State) : State :=
  match s.mgmt.sanitize with
  | none => s
  | some c =>
    let dirty := s.place.groups.any fun p =>
      p.2.st == .open_ || p.2.st == .closed || p.2.st == .pendingReset || p.2.st == .resetting || p.2.st == .resetSuspect
    if dirty then s else endBgOn c 0x4400 .success { s with mgmt := { s.mgmt with sanitize := none } }

/-- A formatting completes when the empty checkpoint is written and the ready queue meets R271 (R287). -/
def checkFormat (s : State) : State :=
  let s := formatCkpt s
  match s.place.format with
  | some c =>
    if (newestCkpt s).isSome && (liveSets s).all (shareMet s) then
      endBgOn c 0xC303 .success { s with place := { s.place with format := none } }
    else s
  | none => s

/-- READY_QUEUE_REFILL (R271): the share becomes the first groups of the free pool; metadata groups that waited for a Free group are
replaced (R283), and a Format Media may complete (R287). -/
def execReadyQueueRefill (ds : Fin 512) (s : State) : Res :=
  if !mediaUp s ∨ drainRunning s ∨ !(liveSets s).contains ds.val ∨ !s.map.loaded ∨ journalFull s then .next s
  else
    let s := replaceMetas s
    let s := { s with place := { s.place with ready := tput s.place.ready ds.val ((freePool s ds.val).take (shareFull s)) } }
    .next (checkFormat (checkSanitize (placeWaiting s)))

/-- BUSY_SLOT_FREE (R275): the scheduler starts the first waiting work. -/
def execBusySlotFree (ds : Fin 512) (s : State) : Res := .next (slotStart ds.val s)

/-! ### Tile resets and racking (R256, R258, R277 to R282) -/

/-- TILE_RESET_START (R227, R258 step 4, R256): once no fill holds a PFA of the group, its nine resets become work of its die
set; those of a Reset-Suspect group end with its blank check. -/
def execTileResetStart (g : Nat) (s : State) : Res :=
  let x := groupAt s g
  let ds := dieSetOf g
  let queued := (busyOf s ds).waiting.any fun w => match w.kind with
    | .reset h _ => h == g
    | _ => false
  if (x.st ≠ .pendingReset ∧ x.st ≠ .resetSuspect) ∨ fillHolds s g ∨ queued ∨ isDegraded s ds ∨ drainRunning s ∨ !mediaUp s then
    .next s
  else
    let prio : Nat := match rackOf s g with
      | some r => r.prio
      | none => 5
    .next (slotStart ds (addWork ds { prio := prio, kind := .reset g (x.st == .resetSuspect) } s))

/-- A drain-set group leaves its set, and with it its die set both (R190, R283): a new MAP_ROOT omits it. -/
def leaveDrainSet (g : Nat) (s : State) : State :=
  match s.map.root with
  | none => s
  | some r => writeRoot { r with drain0 := r.drain0.filter (· != g), drain1 := r.drain1.filter (· != g) } s

/-- A metadata group retires (R281, R282): it leaves the drain sets, or another group replaces it. -/
def retireMeta (g cause : Nat) (s : State) : State :=
  if (groupAt s g).role = 5 then budgetUpdate (armDrain (commit (.groupRetired g cause) (leaveDrainSet g s)))
  else replaceMeta g cause s

/-- The resets of a metadata group have ended: it is reset-clean for its area (R190, R250, R251, R287). -/
def metaReset (g : Nat) (s : State) : State :=
  let n := (groupAt s g).cycles + 1
  let s := modGroup g (fun x => { x with wptr := 0 }) (commit (.groupWear g n) s)
  let s := if (groupAt s g).role = 5 then budgetUpdate (armDrain (drainSetReset s)) else s
  checkFormat (if 100000 ≤ n then retireMeta g 1 s else s)

/-- Step 5 of R258: the group is Free, or Retired for want of a spare (cause 2) or at 100,000 cycles (cause 1). -/
def freeGroup (g : Nat) (spared : Bool) (s : State) : State :=
  let n := (groupAt s g).cycles + 1
  let s := commit (.groupWear g n) { s with map := { s.map with frames := tfilter s.map.frames fun p _ => groupOf p != g } }
  let s :=
    if !spared then commit (.groupRetired g 2) s
    else if 100000 ≤ n then commit (.groupRetired g 1) s
    else displace g (commit (.groupFree g) s)
  spareRecompute (endRack g (replaceMetas s))

/-- The resets of a group have ended with every FAILED tile substituted, or a die without an unused spare (R281). -/
def groupReset (g : Nat) (spared : Bool) (s : State) : State :=
  let s := countEvent 0x0031 9 { EvAttr.bare with origin := 2 } s
  if (groupAt s g).st = .metadata then (if spared then metaReset g s else retireMeta g 2 s)
  else checkSanitize (freeGroup g spared s)

/-- After a group's resets: the next unused spare of the first quad with a FAILED tile is reset and checked, until none is left (R281). -/
def resetGoesOn (ds g prio : Nat) (check : Bool) (s : State) : State :=
  if isDegraded s ds then s
  else
    match failedQuad s g with
    | none => slotStart ds (groupReset g true (slotClear ds s))
    | some q =>
      if sparesLeft s ds q = 0 then slotStart ds (groupReset g false (slotClear ds s))
      else
        startQuad ds (setBusy ds { busyOf s ds with
          cur := some { prio := prio, kind := .spare g q check }, quad := q, run := false, failed := [], retry := false } s)

/-- TILE_RESET_DONE (R258 step 5, R280 to R282): the resets in the busy slot have ended. A tile that failed twice is marked TILE_FAILED
(cause 2); a spare is substituted or marked used; then the group is Free, Retired, or clean for its metadata area. -/
def execTileResetDone (ds : Fin 512) (s : State) : Res :=
  let b := busyOf s ds.val
  match b.cur with
  | some { prio, kind := .reset g check } =>
    if b.quad ≠ 9 ∨ journalFull s ∨ drainRunning s then .next s
    else .next (resetGoesOn ds.val g prio check (b.failed.foldl (fun s q => countFail 5 (failTile g q 2 s)) s))
  | some { prio, kind := .spare g q check } =>
    if b.quad ≠ 9 ∨ journalFull s ∨ drainRunning s then .next s
    else .next (resetGoesOn ds.val g prio check (spareDone g q (!b.failed.isEmpty) s))
  | _ => .next s

/-- The victim of R278: the Closed group with the fewest valid frames, the older first; one closed less than 60 s ago only at
priority 5. -/
def victim (s : State) (ds prio : Nat) : Option Nat :=
  let c := s.place.groups.filter fun p =>
    dieSetOf p.1 == ds && p.2.st == .closed && (rackOf s p.1).isNone &&
      (prio == 5 || decide (p.2.closedAt + 60000000000 ≤ s.time.mono))
  (c.foldl (fun (a : Option (Nat × Group)) p =>
    match a with
    | none => some p
    | some q =>
      if p.2.valid < q.2.valid ∨ (p.2.valid = q.2.valid ∧ p.2.vintage < q.2.vintage) then some p else some q) none).map (·.1)

/-- Queued jobs of a die set, the first of the least priority number (R275: oldest first). -/
def queuedRack (s : State) (ds : Nat) : Option Rack :=
  let rs := s.place.racks.filter fun r => dieSetOf r.group == ds && r.step == 0 && (groupAt s r.group).st == .closed
  match (rs.map (·.prio)).min? with
  | none => none
  | some p => rs.find? fun r => r.prio == p

/-- A frame that is copied out of one of some groups (R278). -/
def copyFrom (gs : List Nat) (a : Asm) : Bool :=
  match a.kind with
  | .copy old _ => gs.contains (groupOf old)
  | _ => false

/-- The racking jobs of a choice go on at priority 5, with their copies and resets that wait for a busy slot (R277, R321). -/
def urge (mine : Rack → Bool) (s : State) : State :=
  let gs := (s.place.racks.filter mine).map (·.group)
  let ids := (s.front.asms.filter fun p => copyFrom gs p.2).map (·.1)
  let urge := fun (w : Work) => match w.kind with
    | .frame id => if ids.contains id then { w with prio := min 5 w.prio } else w
    | .reset g _ => if gs.contains g then { w with prio := min 5 w.prio } else w
    | _ => w
  { s with
    place := { s.place with racks := s.place.racks.map fun r => if mine r then { r with prio := min 5 r.prio } else r,
                            busy := tmap s.place.busy fun _ b => { b with waiting := b.waiting.map urge } },
    front := { s.front with asms := tmap s.front.asms fun _ a => if copyFrom gs a then { a with prio := min 5 a.prio } else a } }

/-- Racking of a die set that falls to its urgent threshold goes on at priority 5 (R277): the job, its copies and its reset. -/
def urgeRacks (ds : Nat) (s : State) : State :=
  urge (fun r => dieSetOf r.group == ds && r.step != 0 && r.origin == 1 && !r.wear) s

/-- RACKING_START (R277, R278): a queued job of the die set begins; otherwise a die set below its start threshold selects a
victim, at priority 5 at or below its urgent threshold, and goes on until it passes the start threshold by 2. -/
def execRackingStart (ds : Fin 512) (s : State) : Res :=
  let d := ds.val
  let active := s.place.racks.any fun r => dieSetOf r.group == d && r.step != 0
  if !racksRun s ∨ drainRunning s ∨ !s.map.loaded ∨ journalFull s then .next s
  else if active then .next (if decide (freeIn s d ≤ rackThreshold s s.place.rackUrgent) && !isDegraded s d then urgeRacks d s else s)
  else
    match queuedRack s d with
    | some r => .next (beginRack r.group s)
    | none =>
      if isDegraded s d then .next s
      else
        let free := freeIn s d
        let start := rackThreshold s s.place.rackStart
        let urgent := decide (free ≤ rackThreshold s s.place.rackUrgent)
        let others := s.place.racking.filter (· != d)
        let on := decide (free < start) || urgent || (s.place.racking.contains d && decide (free < start + 2))
        let s := { s with place := { s.place with racking := if on then d :: others else others } }
        if !on then .next s
        else
          let prio := if urgent then 5 else 6
          match victim s d prio with
          | none => .next s
          | some g => .next (beginRack g (addRack g 1 prio none false false s))

/-- RACKING_COPY_DONE (R258 steps 1 to 3, R259): a copy's nine segment programs have succeeded. -/
def execRackingCopyDone (asm : Nat) (s : State) : Res :=
  match tfind s.front.asms asm, slotOfAsm s asm with
  | some a, some ds =>
    match a.kind with
    | .copy .. =>
      if !asmDone s asm then .next s
      else if journalFull s then .next (if drainRunning s then abandonSlot ds asm s else s)
      else .next (slotStart ds (copyDone asm (slotClear ds s)))
    | _ => .next s
  | _, _ => .next s

/-- WEAR_LEVEL_RACKING (R279): the Closed group with the fewest cycles is racked when the spread passes WEAR_SPREAD and no
other wear-level racking is in progress. -/
def execWearLevelRacking (s : State) : Res :=
  let all := s.place.groups.filter fun p => p.2.st == .closed || p.2.st == .free
  let closed := all.filter fun p => p.2.st == .closed
  let most := (all.map fun p => p.2.cycles).foldl max 0
  match (closed.map fun p => p.2.cycles).min? with
  | none => .next s
  | some least =>
    if !racksRun s ∨ drainRunning s ∨ (s.place.racks.any fun r => r.wear) ∨ most ≤ least + s.place.wearSpread then .next s
    else
      match closed.find? fun p => p.2.cycles == least && (rackOf s p.1).isNone with
      | none => .next s
      | some p => .next (addRack p.1 1 6 none true false s)

/-! ### Recovery reads (R280) -/

/-- RECOVERY_READ (Table 8-5): the recovery read of a reported frame starts; once every codeword has been through the slow path, the
frame is moved. -/
def execRecoveryRead (lfa : Nat) (s : State) : Res :=
  match s.place.reported.find? fun p => p.1 == lfa with
  | none => .next s
  | some (_, pfa) =>
    if !racksRun s ∨ drainRunning s ∨ journalFull s then .next s
    else if !(readsOf s (.recovery lfa)).isEmpty then .next (recoveryEnd lfa s)
    else if (mapEntry s lfa).bind (entPfa s) ≠ some pfa then
      .next { s with place := { s.place with reported := s.place.reported.erase (lfa, pfa) } }
    else .next (recoveryStart lfa pfa s)

/-! ### Capacity pressure (R289 to R291) -/

/-- Map entries of an extent in MEDIA or BACK (R289). -/
def extentEntries (s : State) (e : Nat) : Nat :=
  (s.map.copyA.ents.filter fun p => extentOfLfa p.1 == e && (p.2.st == .media || p.2.st == .back)).length

/-- Put an extent into a list ordered by entries, then number. -/
def insertFewest (s : State) (e : Nat) : List Nat → List Nat
  | [] => [e]
  | x :: xs =>
    if extentEntries s e < extentEntries s x ∨ (extentEntries s e = extentEntries s x ∧ e < x) then e :: x :: xs
    else x :: insertFewest s e xs

/-- Unassigned extents below E that are not withheld, highest first (R289). -/
def withholdable (s : State) : List Nat :=
  ((List.range s.map.extents).filter fun e => (extOf s e).st == .unassigned && !s.ten.withheld.contains e).reverse

/-- Extents added to a local head whose release has not been asked for (R289). -/
def askable (s : State) : List Nat :=
  (s.ten.extA.filter fun p => p.2.st == .added && p.2.accessDev == 0xFFF && !s.ten.releaseAsked.contains p.1).map (·.1)

/-- Ask the host of a head to release an extent (R79, R289). -/
def askRelease (e : Nat) (s : State) : State :=
  let x := extOf s e
  dcRecord x.head 1 e x.tenant { s with ten := { s.ten with releaseAsked := s.ten.releaseAsked ++ [e] } }

/-- How far H_now falls short of 4 % of H_fmt (R289). -/
def withholdGap (s : State) : Int := (ceilDiv (4 * s.map.hFmt) 100 : Nat) - headroom s

/-- Unassigned extents are withheld until H_now reaches 4 % of H_fmt (R289). -/
def withholdNow (s : State) : State :=
  ((withholdable s).take ((withholdGap s + 1) / 2).toNat).foldl (fun s e => commit (.extentWithhold e true) s) s

/-- Release requests are posted for what is still missing (R289). -/
def askNow (s : State) : State :=
  let short := withholdGap s - 2 * (s.ten.releaseAsked.length : Int)
  (((askable s).foldr (insertFewest s) []).take ((short + 1) / 2).toNat).foldl (fun s e => askRelease e s) s

/-- CRITICAL_WITHHOLD (R289): at the entry to Critical and every 60 s in it. -/
def execCriticalWithhold (s : State) : Res :=
  let due := s.place.withholdAt = 0 ∨ s.place.withholdAt + 60000000000 ≤ s.time.mono
  if s.place.cap ≠ .critical ∨ ¬due ∨ journalFull s then .next s
  else
    let s := askNow (withholdNow s)
    .next (spareRecompute { s with place := { s.place with withholdAt := s.time.mono } })

/-- A write has waited 50 µs (R163, R290). -/
def waited50 (s : State) : Bool := s.front.stalls.any fun p => decide (p.2 + 50000 ≤ s.time.mono)

/-- The writes that wait for the front cache are discarded, each with its MAP_POISON record (R291); one waits on while the journal takes
no record (R250). -/
def discardStalls (s : State) : State :=
  let isW := fun (p : Nat × Nat) => match tfind s.ten.reqs p.1 with
    | some r => r.op == .wr || r.op == .wrPtl
    | none => false
  let ws := s.front.stalls.filter isW
  (ws.foldl (fun s p => match tfind s.ten.reqs p.1 with
    | some r => if journalFull s then s
      else lockedDiscard p.1 r { s with front := { s.front with stalls := s.front.stalls.filter (·.1 != p.1) } }
    | none => s) s)

/-- WRITE_LOCKED_ENTRY (R290, R291, Table 1-7): with no place for a host frame and writes held up, or with the media supervisor
halted and the ready queue exhausted, the waiting writes are discarded. -/
def execWriteLockedEntry (s : State) : Res :=
  let blocked := (chooseSet s 1).isNone && (waited50 s || decide (budgetLines s ≤ dirtyLines s))
  let halted := s.mgmt.media.mode == .halted && s.place.ready.all fun p => p.2.isEmpty
  if s.place.cap = .writeLocked ∨ !s.map.loaded ∨ s.map.root.isNone ∨ !(blocked || halted) ∨ journalFull s then .next s
  else
    .next (discardStalls (setCap .writeLocked s))

/-! ### Health (R292) -/

/-- Write the health counts of the last minute to their spread counters (R292, Table 18-7). -/
def flushHealth (s : State) : State :=
  let s := ((List.range 6).zip s.place.counts).foldl (fun s p => spreadAdd (2 + p.1) p.2 s) s
  { s with place := { s.place with counts := List.replicate 6 0 } }

/-- HEALTH_COUNTER_UPDATE (R292): the counts go to the spread counters, and the hour of WA_X100 moves on. -/
def execHealthCounterUpdate (s : State) : Res :=
  let s := flushHealth s
  let old := s.place.waSamples.filter fun p => decide (s.time.mono ≤ p.1 + 3600000000000)
  .next { s with place := { s.place with
    waSamples := (s.time.mono, s.place.progFrames, s.place.hostFrames) :: old } }

/-- A lifetime count of Table 8-8: kept and not yet written. -/
def healthCount (s : State) (i : Nat) : Nat := spreadRead s (2 + i) + s.place.counts.getD i 0

/-- Listed groups of live die sets that are neither Spare nor Retired. -/
def wornGroups (s : State) : List (Nat × Group) :=
  let live := liveSets s
  s.place.groups.filter fun p => live.contains (dieSetOf p.1) && p.2.st != .retired && p.2.st != .spare

/-- Retired groups. -/
def retiredGroups (s : State) : Nat := (s.place.groups.filter fun p => p.2.st == .retired).length

/-- Groups of live die sets that are neither Spare nor Retired. -/
def wornCount (s : State) : Nat := countLive s * 1004 - ((listedGroups s).filter fun p => p.2.st == .retired).length

/-- CYCLES_AVG, CYCLES_MAX and CYCLES_MIN. -/
def cyclesStat (s : State) : Nat × Nat × Nat :=
  let cs := (wornGroups s).map fun p => p.2.cycles
  (cs.sum / max 1 (wornCount s), cs.foldl max 0, if cs.length < wornCount s then 0 else cs.min?.getD 0)

/-- LIFE_USED (Table 8-8). -/
def lifeUsed (s : State) : Nat := min 100 (max ((cyclesStat s).1 / 1000) ((10000 - spareNow s) / 100))

/-- Unused spares by live die. -/
def spareList (s : State) : List Nat := (liveSets s).flatMap fun ds => (List.range 9).map (sparesLeft s ds)

/-- WA_X100 over the samples of the last hour; without a host frame the manual states no value, so it is free. -/
def waX100 (s : State) : Nat × State :=
  let old : Nat × Nat × Nat := (s.place.waSamples.getLast?).getD (0, 0, 0)
  let p := s.place.progFrames - old.2.1
  let h := s.place.hostFrames - old.2.2
  if h = 0 then
    let r := drawBits 16 s
    (r.1.toNat, r.2)
  else (min 65535 (100 * p / h), s)

/-- GET_MEDIA_HEALTH (C300h, Table 8-8). -/
def execGetMediaHealth (cci : Fin 10) (inp : List Byte) (s : State) : Res :=
  vendor cci 0xC300 inp 0 []
    (fun s =>
      let c := cyclesStat s
      let sp := spareList s
      let w := waX100 s
      let out := leBytes 4 (s.place.cap.code * 2 ^ 30 + spareNow s * 2 ^ 16 + lifeUsed s * 2 ^ 8) ++
        leBytes 4 (unsignedOf 32 (headroom s)) ++ leBytes 4 s.map.hFmt ++ leBytes 4 (retiredGroups s) ++
        leBytes 4 s.ten.withheld.length ++ leBytes 4 ((s.place.degraded.map (·.1)).eraseDups.length * 65536 + w.1) ++
        leBytes 4 sp.sum ++ leBytes 4 (sp.min?.getD 0 * 2 ^ 24) ++ leBytes 4 c.1 ++ leBytes 4 c.2.1 ++ leBytes 4 c.2.2 ++ zeros 4 ++
        leBytes 8 (healthCount s 0) ++ leBytes 8 (healthCount s 1) ++ leBytes 8 (healthCount s 2) ++ leBytes 8 (healthCount s 3) ++
        leBytes 4 (healthCount s 4) ++ leBytes 4 (healthCount s 5) ++ leBytes 4 s.map.extents ++ leBytes 4 s.map.pendingE
      .done (.bytes out) w.2) s

/-! ### Commands (R296) -/

/-- Code of a group state (Table 8-1). -/
def GState.code : GState → Nat
  | .free => 0 | .open_ => 1 | .closed => 2 | .pendingReset => 3 | .resetting => 4 | .resetSuspect => 5 | .retired => 6
  | .metadata => 7 | .spare => 8

/-- The 32 bytes of a group table entry (Table 8-2). -/
def groupBytes (x : Group) : List Byte :=
  let sub := (((List.range 9).zip x.sub).map fun p => p.2 * 2 ^ (5 * p.1)).sum
  let trim := unsignedOf 5 x.trim0 + unsignedOf 5 x.trim1 * 32 + unsignedOf 5 x.trim2 * 1024
  leBytes 32 (x.st.code * 2 ^ 252 + x.role * 2 ^ 249 + x.failed.toNat * 2 ^ 240 + x.valid * 2 ^ 222 + x.cycles * 2 ^ 205 +
    sub * 2 ^ 160 + x.vintage % 2 ^ 40 * 2 ^ 120 + weathering x * 2 ^ 88 + x.reads * 2 ^ 63 + trim * 2 ^ 48 + x.wptr * 2 ^ 30)

/-- GET_GROUP_INFO (C301h). -/
def execGetGroupInfo (cci : Fin 10) (inp : List Byte) (s : State) : Res :=
  vendor cci 0xC301 inp 5 []
    (fun s =>
      let g := le inp 0 4
      let n := byteAt inp 4
      let ds := dieSetOf g
      if n = 0 ∨ 64 < n ∨ 2 ^ 19 < g + n ∨ !(dieSets s).contains ds ∨ !(dieSets s).contains (dieSetOf (g + n - 1)) then
        .fail .invalidInput
      else
        answer s (leBytes 4 (freeIn s ds) ++ leBytes 4 (rackThreshold s s.place.rackStart) ++
          leBytes 4 (rackThreshold s s.place.rackUrgent) ++ zeros 4 ++
          (List.range n).flatMap fun i => groupBytes (groupAt s (g + i)))) s

/-- The limits of R286 for an extent count. -/
def overProvisionOk (s : State) (e : Nat) : Bool :=
  let n := countS s
  let c := ckptGroups e
  decide (472 * n ≤ 2 * e) && decide (e ≤ 241664) && decide (2 * e + ceilDiv (3072 * n) 100 ≤ 996 * n) &&
    decide (8 * c + 20 * c ≤ 60 * n) && dramMeets s s.map.mirror e

/-- The record of an E that the device can take (R286). -/
def overProvisionRec (inp : List Byte) (s : State) : Option (List Byte) :=
  if overProvisionOk s (le inp 0 4) then some (leBytes 4 (le inp 0 4)) else none

/-- SET_OVER_PROVISIONING (C302h, R286): E for the next Format Media, kept in the cellar book. -/
def execSetOverProvisioning (cci : Fin 10) (inp : List Byte) (s : State) : Res :=
  vendor cci 0xC302 inp 4 []
    (fun s => if s.place.format.isSome then .fail .busy else storeSetting 0x08 (overProvisionRec inp s) s) s

/-- FORMAT_MEDIA (C303h, R287). -/
def execFormatMedia (cci : Fin 10) (inp : List Byte) (s : State) : Res :=
  vendorBg cci 0xC303 inp 4 []
    (fun s =>
      if le inp 0 4 ≠ 0x544D5246 then .fail .invalidInput
      else if (s.ten.extA.any fun p => p.2.st != .unassigned) ∨ pendingImages s ≠ 0 then .fail .invalidState
      else if s.place.format.isSome then .fail .busy
      else if drainRunning s then .stall
      else
        let s := formatMedia s
        .background { s with place := { s.place with format := some cci.val } }) s

/-- The record of a relocation policy within its ranges (R276, Table 8-4). -/
def relocationRec (inp : List Byte) : Option (List Byte) :=
  let v := le inp 0 4
  let sp := le inp 6 2
  if bits v 24 8 < 10 ∨ 90 < bits v 24 8 ∨ bits v 16 8 < 5 ∨ bits v 24 8 < bits v 16 8 + 5 ∨ bits v 12 4 = 0 ∨
      bits v 8 4 = 0 ∨ bits v 4 4 = 0 ∨ sp < 500 ∨ 20000 < sp then none
  else some (leBytes 4 (v / 16 * 16) ++ leBytes 4 (sp * 65536))

/-- SET_RELOCATION_POLICY (C304h, R276, Table 8-4); reserved bits of the register are ignored (R24). -/
def execSetRelocationPolicy (cci : Fin 10) (inp : List Byte) (s : State) : Res :=
  vendor cci 0xC304 inp 8 []
    (fun s => storeSetting 0x11 (relocationRec inp) s) s

/-- RACK_GROUP (C305h): one Closed group is racked at priority 5. -/
def execRackGroup (cci : Fin 10) (inp : List Byte) (s : State) : Res :=
  vendorBg cci 0xC305 inp 4 []
    (fun s =>
      let g := le inp 0 4
      if 2 ^ 19 ≤ g ∨ !(dieSets s).contains (dieSetOf g) then .fail .invalidInput
      else if (groupAt s g).st ≠ .closed then .fail .invalidState
      else .background (addRack g 1 5 (some cci.val) false false s)) s

end Sys2Proof.Machine
end

