-- ==== Sys2Proof/Machine/Thermal.lean ====
section
/-!
DEFINITION. Meanings of the thermal commands (16_thermal.md R497 to R511). A reading is in 1/16 °C; none stands for an open or
short circuit or a missing response.
-/
namespace Sys2Proof.Machine

/-! ### Samples (R498, R500) -/

/-- Largest change between consecutive samples, in 1/16 °C (R498). -/
def slopeLimit (i : Nat) : Nat := if 24 ≤ i ∧ i < 312 then 160 else 80

/-- A sample that shows a condition of R498. -/
def badSample (i : Nat) (x : Sensor) (raw : Option Int) : Bool :=
  match raw with
  | none => true
  | some t =>
    let range := i < 24 && (decide (t < -800) || decide (2400 < t))
    let slope := match x.last with
      | some l => decide (slopeLimit i < (t - l).natAbs)
      | none => false
    range || slope

/-- Put back a sensor. -/
def setSensor (i : Nat) (x : Sensor) (s : State) : State :=
  { s with therm := { s.therm with sensors := tput s.therm.sensors i x } }

/-- Add to a pending thermal counter (R508). -/
def thermCount (c n : Nat) (s : State) : State :=
  { s with therm := { s.therm with counts := tmod s.therm.counts c 0 (· + n) } }

/-- The highest level whose threshold a reading reaches (R500). -/
def levelOf (s : State) (z : Nat) (v : Int) : Nat :=
  if (16 * zoneThr s z 3 : Int) ≤ v then 3 else if (16 * zoneThr s z 2 : Int) ≤ v then 2
  else if (16 * zoneThr s z 1 : Int) ≤ v then 1 else 0

/-- Put a zone's level; a change of the device level posts 1001h and enters the applied level (R500, R501). While the platform
supervisor restarts or is halted, the levels are held, but for Critical, which acts in hardware (Table 1-7, Table 16-4). -/
def setLevel (z lvl : Nat) (s : State) : State :=
  if (s.mgmt.platform.mode = .restarting ∨ s.mgmt.platform.mode = .halted) ∧ lvl < 3 then s
  else
  let old := deviceLevel s
  let s := { s with therm := { s.therm with levels := s.therm.levels.set z lvl, belowSince := s.therm.belowSince.set z none } }
  let new := deviceLevel s
  if new = old then s
  else
    let s := thermCount (78 + 2 * new) 1 (raise 0x062 0x1001 z old new s)
    { s with therm := { s.therm with applied := new } }

/-- Whether every sensor of a zone reads below its level's threshold minus HYST (R500). -/
def zoneBelow (s : State) (z : Nat) : Bool :=
  let thr : Int := 16 * ((zoneThr s z (zoneLevel s z) : Int) - s.therm.policy.hyst)
  (zoneReads s z).all fun v => decide (v < thr)

/-- Keep since when a zone has read below (R500); a zone at Critical does not fall. -/
def noteBelow (z : Nat) (s : State) : State :=
  let b := if 1 ≤ zoneLevel s z ∧ zoneLevel s z < 3 ∧ zoneBelow s z then
      (match s.therm.belowSince.getD z none with
       | some t => some t
       | none => some s.time.mono)
    else none
  { s with therm := { s.therm with belowSince := s.therm.belowSince.set z b } }

/-- A Critical stop or a trip is counted, and bars power-up until the conditions of R506 hold. -/
def barRestart (s : State) : State :=
  { s with therm := { s.therm with stops := s.time.mono :: s.therm.stops, barred := true, coolSince := none,
                                   wakeHeld := false } }

/-- A zone has become Critical (R504): a drain with TRIGGERS bit 6, or safe-off during power-up (Table 16-4), or
power-down while the drain sequencer is not armed (Table 20-5, log entry 110). -/
def criticalStop (z i : Nat) (v : Int) (s : State) : State :=
  let s := barRestart (thermCount 94 1 (raise 0x062 0x1003 z i (unsignedOf 32 v) s))
  match s.power.seq with
  | some q => if q.up then safeOff 3 s else s
  | none =>
    if devUp s ∧ s.power.hold.isNone then (if drainArmed s then drainStart 6 [] s else beginPowerDown 3 s) else s

/-- The restart conditions of R506 hold now. -/
def coolNow (s : State) : Bool :=
  let low := fun (i : Nat) (z : Nat) =>
    let x := sensorOf s i
    !x.broken && x.bad == 0 &&
      (match x.good with
       | some t => decide (t < 16 * ((zoneThr s z 1 : Int) - s.therm.policy.restartMargin))
       | none => false)
  low 22 0 && ((List.range 8).all fun n => bits s.therm.policy.ntcMask n 1 == 0 || low (328 + n) 3)

/-- Keep since when the restart conditions have held (R506). -/
def noteCool (s : State) : State :=
  let c := if coolNow s then (match s.therm.coolSince with
      | some t => some t
      | none => some s.time.mono)
    else none
  { s with therm := { s.therm with coolSince := c } }

/-- A sensor with a sample taken in (R498): broken after three bad samples in a row. With diodes 20 and 21 both broken the ADC
reference is uncompensated (R480, 0006h). -/
def takeSample (i : Nat) (raw : Option Int) (s : State) : Sensor × State :=
  let x := sensorOf s i
  let bad := badSample i x raw
  let n := if bad then x.bad + 1 else 0
  let brk := x.broken || decide (3 ≤ n)
  let y := { x with
    good := if bad then x.good else raw, last := raw, bad := n, broken := brk,
    goodSince := if !brk || bad then none else some (x.goodSince.getD s.time.mono) }
  let s := if brk && !x.broken then thermCount 96 1 (raise 0x062 0x1002 i 1 0 s) else s
  let s := if brk && !x.broken && (i == 20 || i == 21) && (sensorOf s (41 - i)).broken then raise 0x064 0x0006 0 0 0 s else s
  (y, s)

/-- A sample of a sensor (R498, R500, R504 to R506): its zone's level rises to what the sensor has reached on two consecutive
samples, and Critical starts the orderly stop. Levels are kept only while the device rails are up or coming up. -/
def sampleSensor (i : Nat) (raw : Option Int) (s : State) : State :=
  let z := zoneOfSensor i
  let r := takeSample i raw s
  let s := setSensor i r.1 r.2
  let s := if i = 22 ∨ 328 ≤ i then noteCool s else s
  let s := if i = 22 ∧ s.therm.trip ∧ s.power.mode = .standby ∧ sensorRead s 22 < 1600 then
      { s with therm := { s.therm with trip := false } } else s
  if !(devUp s || s.power.seq.isSome) || !sensorUsed s i then s
  else
    let v := sensorRead s i
    let lv := levelOf s z v
    let rise := min lv r.1.reached
    let old := zoneLevel s z
    let s := setSensor i { r.1 with reached := lv } s
    let h := s.therm.highest.getD z (0, 0)
    let s := if h.1 < v ∨ h = (0, 0) then { s with therm := { s.therm with highest := s.therm.highest.set z (v, s.time.tbNow) } } else s
    let s := if old < rise then setLevel z rise s else s
    let s := noteBelow z s
    if old < 3 ∧ rise = 3 then criticalStop z i v s else s

/-- DIODE_SAMPLE (R496, R500). -/
def execDiodeSample (diode : Fin 24) (reading : Option Int) (s : State) : Res := .next (sampleSensor diode reading s)

/-- The reading of an NTC pin: none above 1.5 V or below 20 mV, an open or short circuit (R497, R498). -/
def ntcReading (s : State) (mv : Nat) : Option Int :=
  if 1500 < mv ∨ mv < 20 then none else some (Config.ntcTemp s.therm.policy.ntcBeta mv)

/-- NTC_SAMPLE (R497, R500): in Standby and Dormant a reading above NTC_WAKE is a wake (R46, Table 15-9). -/
def execNtcSample (ntc : Fin 8) (mv : Nat) (s : State) : Res :=
  if bits s.therm.policy.ntcMask ntc 1 = 0 then .next s
  else
    let reading := ntcReading s mv
    let s := sampleSensor (328 + ntc) reading s
    let hot := match reading with
      | some t => decide (0 < s.therm.policy.ntcWake) && decide ((16 * s.therm.policy.ntcWake : Int) < t)
      | none => false
    if (s.power.mode = .standby ∨ s.power.mode = .dormant) ∧ hot = true then .next (wake 4 s) else .next s

/-- SENSOR_RECOVERED (R498): 60 s of good samples end a sensor's broken status. -/
def execSensorRecovered (sensor : Fin 336) (s : State) : Res :=
  let x := sensorOf s sensor
  match x.goodSince with
  | some t =>
    if x.broken ∧ t + 60000000000 ≤ s.time.mono then
      .next (raise 0x062 0x1002 sensor 0 0 (setSensor sensor { x with broken := false, bad := 0, goodSince := none } s))
    else .next s
  | none => .next s

/-- ZONE_FALL_HOLD_EXPIRY (R500): 10 s below, and the zone falls by one level. -/
def execZoneFallHoldExpiry (zone : Fin 4) (s : State) : Res :=
  match s.therm.belowSince.getD zone none with
  | some t =>
    if t + 10000000000 ≤ s.time.mono ∧ 1 ≤ zoneLevel s zone ∧ zoneLevel s zone < 3 then
      .next (noteBelow zone (setLevel zone (zoneLevel s zone - 1) s))
    else .next s
  | none => .next s

/-- PROGRAM_PAUSE_END (R502, R503): the pause of a die set ends and its next program may start. -/
def execProgramPauseEnd (ds : Fin 512) (s : State) : Res :=
  let b := busyOf s ds
  match b.pause with
  | some t =>
    if t ≤ s.time.mono then .next (slotStart ds (startQuad ds (setBusy ds { b with pause := none } s))) else .next s
  | none => .next s

/-! ### Trip and restart (R505, R506) -/

/-- A trip is counted and logged, bars power-up, and drives THERMTRIP_N (R505, R506). -/
def tripNoted (diode : Nat) (s : State) : State :=
  let s := barRestart (thermCount 95 1 (raise 0x062 0x1004 diode 0 0 s))
  { s with therm := { s.therm with trip := true } }

/-- THERMTRIP (R505): THERMTRIP_N asserts and safe-off starts; a drain in progress writes DRAIN_ABORTED with bit 5. -/
def execThermtrip (diode : Fin 24) (s : State) : Res :=
  if s.power.mode = .off then .next s
  else
    let s := tripNoted diode s
    .next (safeOff 3 (if drainRunning s then abortDrain 5 s else s))

/-- Stops and trips of the last 24 h (R506). -/
def recentStops (s : State) : Nat := (s.therm.stops.filter fun t => decide (s.time.mono ≤ t + 86400000000000)).length

/-- THERMAL_RESTART (R506): the conditions have held for 60 s; power-up starts for a held wake or by AUTO_ON, otherwise a wake
event starts it. -/
def execThermalRestart (s : State) : Res :=
  match s.therm.coolSince with
  | some t =>
    if s.therm.barred ∧ s.power.mode = .standby ∧ t + 60000000000 ≤ s.time.mono then
      let held := s.therm.wakeHeld
      let s := { s with therm := { s.therm with barred := false, wakeHeld := false },
                        power := { s.power with retryAt := none } }
      if held then .next (startPowerUp 5 s)
      else if s.power.policy.autoOn ∧ recentStops s < s.therm.policy.autoRestarts then .next (startPowerUp 3 s)
      else .next s
    else .next s
  | none => .next s

/-! ### History and commands (R507, R508, R511) -/

/-- Temperature bin of a reading in 1/16 °C (R508). -/
def tempBin (v : Int) : Nat := if v < 0 then 0 else if 1792 ≤ v then 15 else (v / 128).toNat + 1

/-- A second of temperature history: each zone's bin and the device level (R508). -/
def thermSecond (s : State) : State :=
  let one := fun (s : State) (z : Nat) =>
    match zoneTemp s z with
    | some v => thermCount (14 + 16 * z + tempBin v) 1 s
    | none => s
  thermCount (79 + 2 * deviceLevel s) 1 ((List.range 4).foldl one s)

/-- Write the pending counts to the spread counters (R508). -/
def flushTherm (s : State) : State :=
  s.therm.counts.foldl (fun s p => spreadAdd p.1 p.2 s) { s with therm := { s.therm with counts := [] } }

/-- TEMP_HISTORY_UPDATE (R508): every 60 s. -/
def execTempHistoryUpdate (s : State) : Res := .next (flushTherm s)

/-- One word of Get Thermal State for a sensor. -/
def sensorWord (s : State) (i : Nat) : Nat :=
  b2n (sensorOf s i).broken * 2 ^ 31 + b2n (!sensorUsed s i) * 2 ^ 30 + unsignedOf 16 (sensorRead s i)

/-- GET_THERMAL_STATE (C730h). -/
def execGetThermalState (cci : Fin 10) (inp : List Byte) (s : State) : Res :=
  vendor cci 0xC730 inp 0 []
    (fun s =>
      let a := if drainRunning s then 0 else appliedLevel s
      answer s (leBytes 1 (deviceLevel s) ++ ((List.range 4).flatMap fun z => leBytes 1 (zoneLevel s z)) ++
        leBytes 1 (b2n s.therm.trip) ++ leBytes 1 (recentStops s) ++ leBytes 1 (b2n (a == 1) + 2 * b2n (decide (2 ≤ a))) ++
        (List.range 336).flatMap fun i => leBytes 4 (sensorWord s i))) s

/-- The record of a thermal policy within its ranges (R507). -/
def thermPolicyRec (inp : List Byte) : Option (List Byte) :=
  if thermPolicyOk (thermPolicyOf inp) then some (thermPolicyBytes (thermPolicyOf inp)) else none

/-- SET_THERMAL_POLICY (C731h, R507): kept in the cellar book, in force from the next sample. -/
def execSetThermalPolicy (cci : Fin 10) (inp : List Byte) (s : State) : Res :=
  vendor cci 0xC731 inp 28 []
    (fun s => storeSetting 0x18 (thermPolicyRec inp) s) s

/-- A thermal counter: the spread counter and what is not yet written. -/
def thermValue (s : State) (c : Nat) : Nat := spreadRead s c + tget s.therm.counts c 0

/-- GET_TEMPERATURE_HISTORY (C732h, R508). -/
def execGetTemperatureHistory (cci : Fin 10) (inp : List Byte) (s : State) : Res :=
  vendor cci 0xC732 inp 0 []
    (fun s =>
      let zone := fun z =>
        let h := s.therm.highest.getD z (0, 0)
        ((List.range 16).flatMap fun b => leBytes 8 (thermValue s (14 + 16 * z + b))) ++ leBytes 2 (unsignedOf 16 h.1) ++
          zeros 6 ++ leBytes 8 h.2
      answer s ((List.range 4).flatMap zone ++
        ((List.range 4).flatMap fun l => leBytes 8 (thermValue s (78 + 2 * l)) ++ leBytes 8 (thermValue s (79 + 2 * l))) ++
        leBytes 4 (thermValue s 94) ++ leBytes 4 (thermValue s 95) ++ leBytes 4 (thermValue s 96))) s

end Sys2Proof.Machine
end

