-- ==== Sys2Proof/Machine/Persist.lean ====
section
/-!
DEFINITION. The commands of persistence and hold-up (05_persistence_and_holdup.md): drain triggers and the end of a drain
(R185 to R194), the measurement of the hold-up bank (R198, R199), usable energy (R200) and the hold-up commands (Table 5-9).
-/
namespace Sys2Proof.Machine

/-! ### Triggers (R185, R488) -/

/-- The power-fail condition is latched: a drain starts, or joins the one that runs, with a storm warning (R185, R436, R488).
While the power-up sequence runs, and until the drain sequencer is armed at the end of phase 10, power-down follows with no drain
(Table 20-5). -/
def powerFail (bit : Nat) (s : State) : State :=
  if s.persist.pwrFail then s
  else
    let s := { s with persist := { s.persist with pwrFail := true } }
    match s.power.seq with
    | some q => if q.up then runPowerDown { s with power := { s.power with cause := 2 } } else s
    | none =>
      if !devUp s || s.power.hold.isSome then s
      else if drainRunning s then drainStart bit [] s
      else if drainArmed s then sendStorm (drainStart bit [] s)
      else beginPowerDown 2 s

/-- PWR_FAIL_N_ASSERT (R488): the first assertion latches the condition; further ones are ignored. -/
def execPwrFailNAssert (s : State) : Res :=
  .next (powerFail 0 { s with persist := { s.persist with pwrFailPin := true } })

/-- SUPPLY_MONITOR_TRIP (R185): a sample of SUPPLY_CHANNEL in mV at the pin. The second in a row below SUPPLY_TRIP trips the monitor;
SUPPLY_TRIP 0 disables it. -/
def execSupplyMonitorTrip (sample : Nat) (s : State) : Res :=
  let trip := s.persist.policy.supplyTrip
  if trip = 0 ∨ s.power.mode = .off then .next s
  else
    let n := if sample < trip then min 2 (s.persist.lowSamples + 1) else 0
    let s := { s with persist := { s.persist with lowSamples := n } }
    .next (if n = 2 then powerFail 1 s else s)

/-! ### The end of a drain (R187, R193) -/

/-- What a drain writes before its run record: the health and temperature counts, the copies of Critical repeats and
EVENT_MARK (R292, R508, R549, R550). -/
def drainBooks (s : State) : State := writeEventMark (copyAllCritical (flushTherm (flushHealth s)))

/-- TILE_FAILED commits from DRAIN_FAULTS, and the key is cleared (R295). -/
def commitFaults (s : State) : State :=
  if s.persist.faults.isEmpty then s
  else
    let s := s.persist.faults.foldl (fun s f => failTile f.1 f.2 1 s) s
    cellarWrite 5 2 0x25 [] none { s with persist := { s.persist with faults := [] } }

/-- Cause of the power-down that follows a drain (C700h): power fail, thermal, or a rail fault as safe-off. -/
def drainCause (t : Nat) : Nat :=
  if bits t 0 2 ≠ 0 then 2 else if bits t 6 1 = 1 ∨ bits t 5 1 = 1 then 3 else if bits t 3 1 = 1 then 4 else 2

/-- The handover to power-down (R187 step 6, R188): what the front cache had not accepted is dropped without a response, and
a Phase 2 response that is owed goes to each head whose link is up (R89). -/
def handOver (t : Nat) (s : State) : State :=
  let s := { s with ten := { s.ten with
    reqs := tfilter s.ten.reqs fun _ r => r.loc != ReqAt.queue, queues := tmap s.ten.queues fun _ q => { q with reqs := [] } } }
  let s := answerPhase2 s
  beginPowerDown (drainCause t) (releaseStops s)

/-- Every die set with a free busy slot takes up its waiting work again. -/
def kickSlots (s : State) : State := (liveSets s).foldl (fun s ds => slotStart ds s) s

/-- Admission resumes after a drain that GPF alone started (R88, R187, R194): work and assemblies that it stopped go on. -/
def resumeDrain (s : State) : State :=
  let s := match s.persist.run with
    | some r => cellarCommitNow 2 0x23 (runBytes r) { s with persist := { s.persist with drainLast := some r } }
    | none => s
  let s := commitFaults (openRun s)
  let s := answerPhase2 s
  let s := repeatMeasure (checkRunClosed (armDrain (resumeAdmission (releaseStops s))))
  let s := resumeRacks (placeWaiting (startMerges (kickSlots s)))
  if s.power.mode = .dormant then ([7, 11, 8, 9] ++ (List.range 9).map (20 + ·)).foldl (fun s d => stopDom d s) s else s

/-- The drain's last step (R187): power-down for any trigger but GPF. -/
def afterDrain (t : Nat) (s : State) : State := if t = 4 then resumeDrain s else handOver t s

/-- DRAIN_COMPLETE (R187): once every image frame that can be written is on the medium, DRAIN_DONE is written; with frames that do not fit
below frame index 131,072, the drain ends as DRAIN_ABORTED (R190). -/
def execDrainComplete (vEnd : Nat) (s : State) : Res :=
  let s := drainKick s
  match s.persist.drain with
  | none => .next s
  | some d =>
    if !imageWritten d s then .next s
    else .next (afterDrain d.triggers (endDrain (if imageWhole d then 3 else 4) vEnd d (drainBooks s)))

/-- BANK_AT_V_CUTOFF (R193, Table 5-8): no further frame is issued; DRAIN_ABORTED is written with the frames that are on the medium, and
power-down follows. -/
def execBankAtVCutoff (s : State) : Res :=
  match s.persist.drain with
  | none => .next s
  | some d =>
    let t := if bits d.triggers 4 1 = 1 then d.triggers else d.triggers + 16
    .next (handOver t (endDrain 4 s.persist.vNow { d with triggers := t } (drainBooks s)))

/-! ### The measurement of the bank (R198, R199) -/

/-- The platform supervisor runs (Table 1-7). -/
def platformUp (s : State) : Bool := s.mgmt.platform.mode == .running

/-- The lowest bank voltage that a test is predicted to reach, in µV (R198). -/
def lowestTest (s : State) : Nat :=
  let p := s.persist
  10000 * p.vNow - (p.policy.iTest * 50000000 / max 1 p.cUf + p.policy.iTest * p.esr / 10)

/-- The test budget in MiB: 0 when there is no earlier measurement (R198). -/
def testBudget (s : State) : Nat :=
  let p := s.persist
  if p.measured then budgetFor s (energyAt p.policy p.cUf p.esr (lowestTest s)) else 0

/-- A measurement may start: none runs, no drain runs and the device is not braced (R437). -/
def mayMeasure (s : State) : Bool :=
  (s.persist.phase == .idle || s.persist.phase == .retry) && !drainRunning s && s.epoch.braceEnd.isNone && platformUp s

/-- A measurement starts: the dirty budget falls to the test budget (R198). -/
def startMeasure (cci : Option Nat) (s : State) : State :=
  budgetUpdate { s with persist := { s.persist with
    phase := .lowering, phaseAt := s.time.mono, testCap := some (testBudget s), retryAt := none, measureCci := cci } }

/-- HOLDUP_MEASURE_SCHEDULE (R198): every MEASURE_PERIOD hours. -/
def execHoldupMeasureSchedule (s : State) : Res :=
  if mayMeasure s && s.persist.phase == .idle && s.start.phases.contains 13 &&
      decide (s.persist.phaseAt + s.persist.policy.measurePeriod * 3600000000000 ≤ s.time.mono) then
    .next (startMeasure none s)
  else .next s

/-- HOLDUP_LULL_WAIT_EXPIRY (R198): after LULL_WAIT minutes the lowered budget forces cleaning. -/
def execHoldupLullWaitExpiry (s : State) : Res :=
  if s.persist.phase = .lowering ∧ s.persist.phaseAt + s.persist.policy.lullWait * 60000000000 ≤ s.time.mono then
    .next (urgentAll { s with persist := { s.persist with phase := .forced, phaseAt := s.time.mono } })
  else .next s

/-- HOLD_TEST_ASSERT (R198): dirty occupancy is within the test budget; `v0` is the mean over 1 ms in µV. -/
def execHoldTestAssert (v0 : Nat) (s : State) : Res :=
  if (s.persist.phase = .lowering ∨ s.persist.phase = .forced) ∧ dirtyLines s ≤ 4096 * s.persist.testCap.getD 0 then
    .next { s with persist := { s.persist with phase := .test, phaseAt := s.time.mono, holdTest := true, v0New := v0 } }
  else .next s

/-- Samples of the fit, with their times in steps of 100 µs: 2 ms to 50 ms after the assertion (R198). -/
def fitPoints (samples : List Nat) : List (Nat × Nat) :=
  ((List.range samples.length).zip samples).filter fun p => decide (20 ≤ p.1) && decide (p.1 ≤ 500)

/-- Sums of the fit: number of points, Σt, Σt², Σv and Σtv. -/
def fitSums (ps : List (Nat × Nat)) : Int × Int × Int × Int × Int :=
  (ps.length, (ps.foldl (fun a p => a + p.1) 0 : Nat), (ps.foldl (fun a p => a + p.1 * p.1) 0 : Nat),
    (ps.foldl (fun a p => a + p.2) 0 : Nat), (ps.foldl (fun a p => a + p.1 * p.2) 0 : Nat))

/-- What a test finds (R198, R199): the failing check (1 drop, 2 ESR, 3 C, 4 v0), or ESR in 0.1 mΩ and C in µF. The line is
the least-squares line; its gradient is `a / b` µV a step, and `e / (n b)` µV is v0 − v1. -/
def fitBank (p : HoldPolicy) (v0 : Nat) (samples : List Nat) : Nat × Nat × Nat :=
  let last := samples.getLast?.getD 0
  let (n, st, stt, sv, stv) := fitSums (fitPoints samples)
  let a : Int := n * stv - st * sv
  let b : Int := n * stt - st * st
  let e : Int := (v0 : Int) * n * b - (b * sv - a * st)
  let i : Int := p.iTest
  if 100 * ((v0 : Int) - last) < v0 ∨ 15 * v0 < 100 * ((v0 : Int) - last) then (1, 0, 0)
  else if e < 0 ∨ n * b ≤ 0 ∨ 10000 * (n * b * i) < 10 * e then (2, 0, 0)
  else if 0 ≤ a ∨ i * b * 100000 < 1000 * (-a) ∨ 10000000 * (-a) < i * b * 100000 then (3, 0, 0)
  else if v0 ≤ 1000 * p.vCutoff then (4, 0, 0)
  else (0, (10 * e / (n * b * i)).toNat, (i * b * 100000 / (-a)).toNat)

/-- HOLD_TEST_END (R198, R199): HOLD_TEST falls after 50 ms; `samples` are the bank voltages in µV, one every 100 µs from the
assertion on. A failed measurement leaves no usable energy and repeats after 60 s. -/
def execHoldTestEnd (samples : List Nat) (s : State) : Res :=
  if s.persist.phase ≠ .test then .next s
  else
    let r := fitBank s.persist.policy s.persist.v0New samples
    if r.1 = 0 then
      .next (energyUpdate { s with persist := { s.persist with
        phase := .recovering, phaseAt := s.time.mono, holdTest := false, holdState := 1, measured := true,
        esr := r.2.1, cUf := r.2.2, v0 := s.persist.v0New / 10000, lastMeasure := s.time.tbNow } })
    else
      let c := s.persist.measureCci
      let s := energyUpdate { s with persist := { s.persist with
        phase := .retry, phaseAt := s.time.mono, holdTest := false, holdState := 3, measured := false, testCap := none,
        retryAt := some (s.time.mono + 60000000000), measureCci := none } }
      let s := raise 0x065 0x5003 r.1 0 0 s
      .next (match c with
        | some k => endBgOn k 0xC722 .success s
        | none => s)

/-- The bank voltage is within 1% of v0 (R198). -/
def bankBack (s : State) : Bool :=
  let v := 10000 * s.persist.vNow
  let w := s.persist.v0New
  decide (100 * (if v ≤ w then w - v else v - w) ≤ w)

/-- HOLDUP_RECOVERY_DONE (R198): the bank is back, or 10 s have passed; the budget follows the new C and ESR, and the first
measurement of a start ends phase 13. -/
def execHoldupRecoveryDone (s : State) : Res :=
  if s.persist.phase = .recovering ∧ (bankBack s = true ∨ s.persist.phaseAt + 10000000000 ≤ s.time.mono) then
    let c := s.persist.measureCci
    let s := energyUpdate { s with persist := { s.persist with
      phase := .idle, phaseAt := s.time.mono, testCap := none, measureCci := none } }
    let s := if s.start.phases.contains 13 then s else markPhase 13 s
    .next (match c with
      | some k => endBgOn k 0xC722 .success s
      | none => s)
  else .next s

/-- HOLDUP_RETRY (R199): the measurement repeats. -/
def execHoldupRetry (s : State) : Res :=
  match s.persist.retryAt with
  | some t => if t ≤ s.time.mono ∧ mayMeasure s then .next (startMeasure none s) else .next s
  | none => .next s

/-! ### Usable energy (R200) -/

/-- ENERGY_RECOMPUTE (R200): `v` is the bank voltage averaged over 1 ms, in 10 mV. -/
def execEnergyRecompute (v : Nat) (s : State) : Res :=
  let s := { s with persist := { s.persist with vNow := v % 65536 } }
  if devUp s && s.start.phases.contains 6 then .next (energyUpdate s) else .next s

/-! ### Commands (Table 5-9) -/

/-- HOLD_STATE (Table 5-7). -/
def holdStateCode (s : State) : Nat :=
  if s.persist.phase = .test then 4
  else if s.persist.holdState = 1 ∧ s.front.budget < 1 then 2
  else s.persist.holdState

/-- HOLD_POWER × T_model(0) ÷ 0.6 in mJ (Table 5-7 E_TAIL). -/
def eTail (s : State) : Nat := s.persist.policy.holdPower * modelTime s 0 / 600

/-- GET_HOLD_UP_STATUS (C720h, Table 5-7). -/
def execGetHoldUpStatus (cci : Fin 10) (inp : List Byte) (s : State) : Res :=
  vendor cci 0xC720 inp 0 []
    (fun s =>
      let p := s.persist
      answer s (leBytes 4 (holdStateCode s * 2 ^ 29 + b2n p.spill * 2 ^ 28 + min 3 (pendingImages s) * 2 ^ 26 +
            s.front.budget * 2 ^ 16 + p.vNow) ++ leBytes 4 (p.v0 * 65536 + p.esr) ++ leBytes 4 p.cUf ++
          leBytes 4 (min 0xFFFFFFFF (p.energy / 1000)) ++ leBytes 8 p.lastMeasure ++ leBytes 4 (p.nextDrain - 1) ++
          leBytes 4 (min 0xFFFFFFFF (eTail s)))) s

/-- The hold-up parameters that an image gives (Table 5-5). -/
def holdPolicyOf (b : List Byte) : HoldPolicy :=
  { vCutoff := le b 0 2, holdPower := le b 2 2, senseRatio := le b 4 2, iTest := le b 6 2, supplyTrip := le b 8 2,
    supplyChannel := byteAt b 11 / 8, lullWait := byteAt b 14, measurePeriod := byteAt b 15 }

/-- Bytes of the hold-up parameters (Table 5-5). -/
def holdPolicyBytes (p : HoldPolicy) : List Byte :=
  leBytes 2 p.vCutoff ++ leBytes 2 p.holdPower ++ leBytes 2 p.senseRatio ++ leBytes 2 p.iTest ++ leBytes 2 p.supplyTrip ++
    zeros 1 ++ leBytes 1 (p.supplyChannel * 8) ++ zeros 2 ++ leBytes 1 p.lullWait ++ leBytes 1 p.measurePeriod

/-- The ranges of Table 5-5. -/
def holdPolicyOk (p : HoldPolicy) : Bool :=
  decide (10 ≤ p.holdPower) && decide (p.holdPower ≤ 1000) && decide (1000 ≤ p.vCutoff) && decide (p.vCutoff ≤ 60000) &&
    decide (50 ≤ p.iTest) && decide (p.iTest ≤ 5000) && decide (1000 ≤ p.senseRatio) && decide (p.senseRatio ≤ 60000) &&
    decide (1 ≤ p.measurePeriod) && decide (p.measurePeriod ≤ 168) && decide (1 ≤ p.lullWait) && decide (p.lullWait ≤ 240)

/-- The record of hold-up parameters within their ranges (R197). -/
def holdPolicyRec (inp : List Byte) : Option (List Byte) :=
  if holdPolicyOk (holdPolicyOf inp) then some (holdPolicyBytes (holdPolicyOf inp)) else none

/-- SET_HOLD_UP_PARAMETERS (C721h, R197): in effect at the next energy computation. -/
def execSetHoldUpParameters (cci : Fin 10) (inp : List Byte) (s : State) : Res :=
  vendor cci 0xC721 inp 16 []
    (fun s => storeSetting 0x10 (holdPolicyRec inp) s) s

/-- MEASURE_HOLD_UP (C722h, R198): in the background; Busy while a measurement or drain runs. No measurement starts while the
device is braced (R437), which is answered with Busy. -/
def execMeasureHoldUp (cci : Fin 10) (inp : List Byte) (s : State) : Res :=
  vendorBg cci 0xC722 inp 0 []
    (fun s => if mayMeasure s then .background (startMeasure (some cci.val) s) else .fail .busy) s

/-- GET_DRAIN_RECORD (C723h, R194). -/
def execGetDrainRecord (cci : Fin 10) (inp : List Byte) (s : State) : Res :=
  vendor cci 0xC723 inp 0 []
    (fun s =>
      let b := fun (r : Option RunRec) => match r with
        | some x => runBytes x
        | none => zeros 32
      answer s (b s.persist.run ++ b s.persist.drainLast)) s

end Sys2Proof.Machine
end

