-- ==== Sys2Proof/Machine/Power.lean ====
section
/-!
DEFINITION. Meanings of the supply, sequencer and power-state commands (15_supplies_and_sequencing.md).
-/
namespace Sys2Proof.Machine

/-! ### The always-on domain (R453, R474, R490) -/

/-- The time base that the always-on domain starts with after a loss of VDD_AON: the later of the newest DRIFT_CLOCK second and
the newest TIME record (R453). -/
def storedTime (s : State) : Nat :=
  let dc := match cellarRead s 2 0x06 with
    | some b => le b 0 8 * 1000000000
    | none => 0
  let tr := match cellarRead s 2 0x05 with
    | some b => le b 0 8
    | none => 0
  max dc tr

/-- Refusal timers after a loss of VDD_AON: the remainder that LOCKOUT holds (R543). -/
def storedLocks (s : State) : Tbl RegionLock :=
  match cellarRead s 2 0x21 with
  | none => s.cellar.locks
  | some b =>
    [(0, 2), (1, 6), (2, 7)].foldl (fun t p =>
      let l := tget t p.2 { readVer := none, writeVer := none, fails := 0, refusal := 0 }
      tput t p.2 { l with fails := le b (6 * p.1) 2, refusal := s.time.mono + le b (6 * p.1 + 2) 4 * 1000000 }) s.cellar.locks

/-- First page of the record log of a region (Table 18-3). -/
def logPage (region : Nat) : Nat := if region = 2 then 12288 else if region = 6 then 15715 else 15744

/-- The scan of one record log: its tail is placed, and a record that is not valid is reported, with its page number in the cellar
book (R537, C002h). -/
def scanLog (region : Nat) (s : State) : State :=
  match regionLog s.cellar region with
  | none => s
  | some l =>
    let s := { s with cellar := setRegionLog s.cellar region (rescan l l.recs.length) }
    match l.torn with
    | some p => raise 0x063 0xC002 region (logPage region + p) 0 s
    | none => s

/-- The index of the cellar book is built (R537). -/
def buildIndex (s : State) : State :=
  [2, 6, 7].foldl (fun s r => scanLog r s) { s with cellar := { s.cellar with indexed := true } }

/-- The cellar book controller loses power: the run in progress leaves a torn record, and the runs that wait are gone (R536,
R553). -/
def tearRun (s : State) : State :=
  match nextWrite s.cellar.writes with
  | none => s
  | some w =>
    let s := { s with cellar := { s.cellar with writes := [] } }
    match regionLog s.cellar w.region with
    | none => s
    | some l => { s with cellar := setRegionLog s.cellar w.region { l with torn := some (writePage l) } }

/-- Policies that the always-on domain uses, from the cellar book. -/
def loadAonPolicies (s : State) : State :=
  let s := match cellarRead s 2 0x17 with
    | some b => { s with power := { s.power with policy := powerPolicyOf b } }
    | none => s
  let s := match cellarRead s 2 0x18 with
    | some b => { s with therm := { s.therm with policy := thermPolicyOf b } }
    | none => s
  match cellarRead s 2 0x16 with
  | some b => { s with time := { s.time with policy := timePolicyOf b } }
  | none => s

/-- The always-on domain after a loss of VDD_AON takes its time and its refusal timers from the cellar book (R453, R543). -/
def coldAon (s : State) : State :=
  { s with time := { s.time with tbNow := storedTime s, timeSet := false, secMark := storedTime s / 1000000000 },
           cellar := { s.cellar with locks := storedLocks s }, drift := { s.drift with aonKept := false } }

/-- The always-on domain starts (R474, R59, R453, R578 phases 1 to 3): the straps are sampled, the time base starts, the index of the
cellar book is built and the sequence counter resumes. -/
def startAon (hbif0 hbif1 : Bool) (sbaddr : Fin 16) (strapTest : Bool) (s : State) : State :=
  let cold := !s.power.aon
  let s := loadAonPolicies (if cold then coldAon s else s)
  let present := fun h => decide (h = 0 ∨ h = 2) || (if h = 1 then hbif0 else hbif1)
  let head := fun (t : Tbl HeadSt) (h : Nat) =>
    tput t h { HeadSt.fresh with present := present h, perst := (tget t h HeadSt.fresh).perst }
  let s := { s with
    time := { s.time with tbRunning := true, domains := standbyDomains },
    heads := (List.range 4).foldl head s.heads,
    start := { s.start with warm := !cold, phases := [1, 2, 3], hbif0 := hbif0, hbif1 := hbif1, sbaddr := sbaddr,
                            strapTest := strapTest },
    power := { s.power with vaux := true, aon := true, vauxLow := false, aonAt := s.time.mono,
                            stored := cellarRead s 2 0x0A } }
  resumeSequence (setMode .standby 1 (buildIndex s))

/-- ALWAYS_ON_RESET_RELEASE (R474): VAUX_IO and VDD_AON have been good for 2 ms. Power-up starts when AUTO_ON allows it. The time of
the index is not modelled. -/
def execAlwaysOnResetRelease (hbif0 hbif1 : Bool) (sbaddr : Fin 16) (strapTest : Bool) (s : State) : Res :=
  if s.power.mode ≠ .off then .next s
  else
    let s := startAon hbif0 hbif1 sbaddr strapTest s
    if s.power.policy.autoOn then .next (startPowerUp 1 s) else .next s

/-- VAUX_IO or VDD_AON has gone: the device is Off (R490). -/
def supplyGone (vaux : Bool) (s : State) : State :=
  let s := tearRun (losePower s)
  let s := setMode .off s.power.cause s
  { s with
    recorder := { s.recorder with seqReady := false, input := [], units := [] },
    cellar := { s.cellar with indexed := false },
    start := { s.start with phases := [] },
    power := { s.power with vaux := vaux, rails := [], seq := none, hold := none, entering := none, retryAt := none,
                            wakeDue := false, goodCount := 0 } }

/-- VDD_AON has gone: the time base stops and the always-on state is lost (R24). -/
def aonGone (vaux : Bool) (s : State) : State :=
  let r := State.reset
  { s with
    recorder := { s.recorder with held := [], copyTime := [], written := 0, folded := 0, overflows := 0 },
    time := { r.time with mono := s.time.mono, policy := s.time.policy, bins := s.time.bins },
    persist := { s.persist with pwrFail := false, pwrFailPin := false, lowSamples := 0 },
    drift := { s.drift with aonKept := false },
    epoch := { s.epoch with ring := { r.epoch.ring with framesTx := 0 } },
    power := { r.power with mode := .off, policy := s.power.policy, vaux := vaux },
    therm := { r.therm with policy := s.therm.policy, highest := s.therm.highest } }

/-- SUPPLY_REMOVED (R490, R24): VAUX_IO or VDD_AON is removed, the operands saying which is still present, and the device is
Off. DESIGN CHOICE (log entry 198): what the always-on domain keeps when VAUX_IO alone is lost. -/
def execSupplyRemoved (vaux aon : Bool) (s : State) : Res :=
  if vaux && aon then .next s
  else if aon && s.power.aon then .next (supplyGone vaux s)
  else .next (aonGone vaux (supplyGone vaux s))

/-! ### Step mode (R481, R482) -/

/-- The step that runs next, when step mode runs a sequence, waits for nothing and has not run away: the sequence and the
word. -/
def stepReady (s : State) (op : Nat) : Option (SeqRun × Nat) :=
  match s.power.seq with
  | none => none
  | some q =>
    let w := stepWord (blobOf s) q.pc
    if stepMode (blobOf s) && q.wait == .none && decide (q.steps < 4096) && bits w 28 4 == op then some (q, w) else none

/-- The sequence goes on at a step. -/
def goTo (q : SeqRun) (pc : Nat) (s : State) : State :=
  { s with power := { s.power with seq := some { q with pc := pc % 256, steps := q.steps + 1 } } }

/-- Enable a rail (R481 to R483): PG_EARLY and RAIL_ORDER are faults, an enable too early is held back by the order guard. A
rail that is already on stays on, and is not waited for if it is good. -/
def enableRail (r : Nat) (s : State) : State :=
  if (railOf s r).enabled then
    match s.power.seq with
    | some q =>
      if (railOf s r).good then
        { s with power := { s.power with seq := some { q with
          timers := q.timers.filter fun t => t.1 != r, wait := if q.wait = .good r then .none else q.wait } } }
      else s
    | none => s
  else if pgEarly s r then faultAct r 8 s
  else if !orderOk s r then faultAct r 3 s
  else if s.time.mono < orderTime s r then setRail r { railOf s r with held := true } s
  else checkGood r (driveOn r s)

/-- SEQ_ENABLE (R481): the step's wait and timeout begin, in the background with NOWAIT; an enable that the order guard holds back
counts its timeout from the end of the gap. -/
def execSeqEnable (s : State) : Res :=
  match stepReady s 1 with
  | none => .next s
  | some (q, w) =>
    let r := bits w 22 6
    let until_ := max s.time.mono (orderTime s r) + bits w 0 16 * 100000
    let q := if bits w 21 1 = 1 then { q with timers := q.timers ++ [(r, until_)] }
             else { q with wait := .good r, deadline := until_ }
    .next (enableRail r (goTo q (q.pc + 1) s))

/-- SEQ_DISABLE (R481): MRESET_N of a VCCQ_M rail's channels falls first, and the disable of VCC_M is held until its VCCQ_M is
off (R482). -/
def execSeqDisable (s : State) : Res :=
  match stepReady s 2 with
  | none => .next s
  | some (q, w) =>
    let r := bits w 22 6
    let until_ := s.time.mono + bits w 0 16 * 100000
    let q := if bits w 21 1 = 1 then { q with falling := q.falling ++ [(r, until_)] }
             else { q with wait := .off r, deadline := until_ }
    .next (checkFallen r (dropRail r (goTo q (q.pc + 1) s)))

/-- SEQ_WAIT (R481): DURATION in µs. -/
def execSeqWait (s : State) : Res :=
  match stepReady s 3 with
  | none => .next s
  | some (q, w) => .next (goTo { q with wait := .until_ (s.time.mono + bits w 0 28 * 1000) } (q.pc + 1) s)

/-- SEQ_WAIT_EXPIRY (R481). -/
def execSeqWaitExpiry (s : State) : Res :=
  match s.power.seq with
  | none => .next s
  | some q =>
    match q.wait with
    | .until_ t =>
      if t ≤ s.time.mono then .next { s with power := { s.power with seq := some { q with wait := .none } } } else .next s
    | _ => .next s

/-- The condition of CHECK (Table 15-6). -/
def checkCond (s : State) (r cond : Nat) : Bool :=
  if cond = 0 then (railOf s r).good
  else if cond = 1 then railOff s r
  else if cond = 2 then withinWarn (blobOf s) r (railOf s r).mv
  else (railOf s r).pg

/-- SEQ_CHECK (R481). -/
def execSeqCheck (s : State) : Res :=
  match stepReady s 4 with
  | none => .next s
  | some (q, w) => .next (goTo { q with flag := checkCond s (bits w 22 6) (bits w 20 2) } (q.pc + 1) s)

/-- SEQ_JUMP (R481). -/
def execSeqJump (s : State) : Res :=
  match stepReady s 5 with
  | none => .next s
  | some (q, w) => .next (goTo q (bits w 0 8) s)

/-- SEQ_JUMPIF (R481). -/
def execSeqJumpif (s : State) : Res :=
  match stepReady s 6 with
  | none => .next s
  | some (q, w) => .next (goTo q (if q.flag == (bits w 27 1 == 1) then bits w 0 8 else q.pc + 1) s)

/-- SEQ_SETOUT (R481): the pin must have role 11; another pin is not driven. -/
def execSeqSetout (s : State) : Res :=
  match stepReady s 7 with
  | none => .next s
  | some (q, w) =>
    let p := bits w 22 6
    let s := goTo q (q.pc + 1) s
    if railRole (blobOf s) p = 11 then .next (setRail p { railOf s p with enabled := bits w 21 1 == 1 } s) else .next s

/-- SEQ_END (R481, R484): RESULT 0 ends the sequence; any other value is the SEQ_END fault, with RESULT logged. -/
def execSeqEnd (s : State) : Res :=
  match stepReady s 15 with
  | none => .next s
  | some (q, w) =>
    if bits w 0 16 = 0 then (if q.up then .next (endPowerUp s) else .next (endPowerDown s))
    else
      let s := raise 0x061 0x0002 7 (bits w 0 16) q.pc s
      if q.up then .next (safeOff 4 s) else .next (endPowerDown s)

/-- A sequence that cannot go on ends in safe-off (R484). -/
def seqFault (code : Nat) (q : SeqRun) (s : State) : State := safeOff 4 (raise 0x061 0x0002 code 0 q.pc s)

/-- SEQ_INVALID (R481): opcodes 0h and 8h to Eh. -/
def execSeqInvalid (s : State) : Res :=
  match s.power.seq with
  | none => .next s
  | some q =>
    let op := bits (stepWord (blobOf s) q.pc) 28 4
    if stepMode (blobOf s) && q.wait == .none && decide (q.steps < 4096) && (op == 0 || (decide (8 ≤ op) && decide (op ≤ 14)))
    then .next (seqFault 9 q s) else .next s

/-- SEQ_RUNAWAY (R482): more than 4,096 steps. -/
def execSeqRunaway (s : State) : Res :=
  match s.power.seq with
  | none => .next s
  | some q => if stepMode (blobOf s) && decide (4096 ≤ q.steps) then .next (seqFault 6 q s) else .next s

/-! ### Dependency mode and the order guard (R482, R483) -/

/-- UP_DELAY has passed since every rail of PRED became good (R483). -/
def predsGood (s : State) (r : Nat) : Bool :=
  (predOf (blobOf s) r).all fun p => (railOf s p).good && decide ((railOf s p).goodAt + depField (blobOf s) r 0 ≤ s.time.mono)

/-- DEPENDENCY_ENABLE (R483): UP_DELAY after every rail of PRED has become good. -/
def execDependencyEnable (rail : Fin 64) (s : State) : Res :=
  match s.power.seq with
  | none => .next s
  | some q =>
    let x := railOf s rail
    if q.up && !stepMode (blobOf s) && (supplyRails (blobOf s)).contains rail.val && !x.enabled && !x.held && !x.lost &&
        predsGood s rail then .next (enableRail rail s)
    else .next s

/-- DOWN_DELAY has passed since every rail whose PRED contains a rail was off (R483). -/
def usersOff (s : State) (q : SeqRun) (r : Nat) : Bool :=
  ((supplyRails (blobOf s)).filter fun x => (predOf (blobOf s) x).contains r).all fun x =>
    !(railOf s x).enabled && !(q.falling.any fun t => t.1 == x) &&
      decide ((railOf s x).offAt + depField (blobOf s) r 2 ≤ s.time.mono)

/-- DEPENDENCY_DISABLE (R483): DOWN_DELAY after every rail whose PRED contains it is off. -/
def execDependencyDisable (rail : Fin 64) (s : State) : Res :=
  match s.power.seq with
  | none => .next s
  | some q =>
    if !q.up && !stepMode (blobOf s) && (railOf s rail).enabled && usersOff s q rail && !offHeld s rail then
      let q := { q with falling := q.falling ++ [(rail.val, s.time.mono + depField (blobOf s) rail 3)] }
      .next (checkFallen rail (driveOff rail { s with power := { s.power with seq := some q } }))
    else .next s

/-- ORDER_GUARD_RELEASE (R482): the minimum gap has passed and the enable proceeds. -/
def execOrderGuardRelease (rail : Fin 64) (s : State) : Res :=
  if s.power.seq.isSome ∧ (railOf s rail).held ∧ (railOf s rail).enabled = false ∧ orderTime s rail ≤ s.time.mono then
    .next (checkGood rail (driveOn rail s))
  else .next s

/-! ### Good, warning and fault (R477 to R479) -/

/-- A rail after an edge of its PG pin, counted for chatter while it is enabled (R477, R478). -/
def pgEdge (s : State) (r : Nat) (high : Bool) : Rail :=
  let x := railOf s r
  let near := x.edges.filter fun t => decide (s.time.mono < t + qualWindow (blobOf s) r)
  { x with pg := high, pgSince := if high then some s.time.mono else none,
           edges := if x.enabled then s.time.mono :: near else [] }

/-- RAIL_PG_EDGE (R477, R478): an edge is counted for chatter from the enable on, a fall after good is a fault, and a fall of a
disabled rail may be the one waited for. -/
def execRailPgEdge (rail : Fin 64) (high : Bool) (s : State) : Res :=
  let b := blobOf s
  if (railOf s rail).pg = high ∨ s.power.mode = .off then .next s
  else
    let x := pgEdge s rail high
    let s := setRail rail x s
    if railRole b rail = 0 ∨ railRole b rail = 11 then .next s
    else if x.enabled && decide (chatterMax b rail < x.edges.length) then .next (faultAct rail 2 s)
    else if x.enabled && x.good && !high then .next (faultAct rail 5 s)
    else if !x.enabled then .next (checkFallen rail s)
    else .next s

/-- RAIL_SETTLE_EXPIRY (R477): PG has been high without a break for T_SETTLE, or T_SETTLE has passed since the enable
(PG_MODE 11b). -/
def execRailSettleExpiry (rail : Fin 64) (s : State) : Res := .next (checkGood rail s)

/-- The timeout of a rail that is to become good has passed (R481, R483). -/
def goodDue (s : State) (q : SeqRun) (r : Nat) : Bool :=
  if stepMode (blobOf s) then
    (q.wait == .good r && decide (q.deadline ≤ s.time.mono)) || (q.timers.any fun t => t.1 == r && decide (t.2 ≤ s.time.mono))
  else decide ((railOf s r).enabledAt + depField (blobOf s) r 1 ≤ s.time.mono)

/-- RAIL_TIMEOUT (R481, R483): a rail is not good within its timeout. -/
def execRailTimeout (rail : Fin 64) (s : State) : Res :=
  match s.power.seq with
  | none => .next s
  | some q =>
    if q.up && (railOf s rail).enabled && !(railOf s rail).good && goodDue s q rail then .next (faultAct rail 1 s) else .next s

/-- The timeout of a rail that is to fall has passed (R481, R483). -/
def fallDue (s : State) (q : SeqRun) (r : Nat) : Bool :=
  (q.wait == .off r && decide (q.deadline ≤ s.time.mono)) || (q.falling.any fun t => t.1 == r && decide (t.2 ≤ s.time.mono))

/-- DOWN_TIMEOUT (R481, R483): a rail has not fallen in time; it is logged and the power-down continues. -/
def execDownTimeout (rail : Fin 64) (s : State) : Res :=
  match s.power.seq with
  | none => .next s
  | some q =>
    if fallDue s q rail then
      let s := raise 0x061 0x0005 rail 0 0 (setRail rail { railOf s rail with fault := 10 } s)
      .next (stopFalling rail s)
    else .next s

/-- A rail's reading in mV from an ADC code (R476, R480): LSB 0.390625 mV, times SCALE ÷ 1,000. -/
def railMv (b : List Byte) (r code : Nat) : Nat := code * 390625 * bits (railWord b r 8) 16 16 / 1000000000

/-- ALERT_N is low (R592): the thermal level is Warm or higher, or a rail warning or fault is latched. -/
def alertLow (s : State) : Bool :=
  decide (1 ≤ deviceLevel s) || s.power.rails.any fun p => p.2.ovWarn || p.2.uvWarn || p.2.fault != 0

/-- WAKE_N of a head is low (R592). The manual says when neither: a free value of the device (log entry 221); the pin of a head that is not
present is ignored (R59). -/
def wakeLow (s : State) (h : Nat) : Bool := (headOf s h).present && Config.wakeDriven h

/-- A rail takes a sample: consecutive samples beyond its levels are counted, and an eighth late one is a warning (R478,
0001h). -/
def sampleRail (r code : Nat) (s : State) : State :=
  let b := blobOf s
  let x := railOf s r
  let mv := railMv b r code
  let n := nominal b r
  let high := fun (l : Nat) => decide (n * (400 + l) < 400 * mv)
  let under := fun (l : Nat) => decide (400 * mv < n * (400 - l))
  let count := fun (c : Bool) (k : Nat) => if c && x.enabled then k + 1 else 0
  let y := { x with mv := mv, ovBad := count (high (railLevel b r 24)) x.ovBad,
                    uvBad := count (x.good && under (railLevel b r 0)) x.uvBad,
                    ovLate := count (high (railLevel b r 16)) x.ovLate,
                    uvLate := count (x.good && under (railLevel b r 8)) x.uvLate }
  let s := setRail r { y with ovWarn := x.ovWarn || decide (8 ≤ y.ovLate), uvWarn := x.uvWarn || decide (8 ≤ y.uvLate) } s
  let s := if y.ovLate = 8 then raise 0x064 0x0001 r mv 0 s else s
  if y.uvLate = 8 then raise 0x064 0x0001 r mv 1 s else s

/-- Fault of a rail's samples: the second consecutive one beyond a fault level (R478). -/
def sampleFault (s : State) (r : Nat) : Nat :=
  let x := railOf s r
  if x.ovBad = 2 then 4 else if x.uvBad = 2 then 5 else 0

/-- Strength of a rail's fault action: log 0, package group 1, drain 2, safe-off 3 (R479). -/
def faultRank (b : List Byte) (r : Nat) : Nat :=
  let role := railRole b r
  if drainRole role then 3
  else if role = 9 ∨ role = 10 then 1
  else if role = 12 then (if faultAction b r = 2 then 3 else if faultAction b r = 1 then 2 else 0)
  else 2

/-- The rails that a round of ADC codes samples, with their codes (R480). -/
def adcHits (b : List Byte) (codes : List (Fin 32 × Fin 4096)) : List (Nat × Nat) :=
  (supplyRails b).filterMap fun r => (codes.find? fun c => c.1.val == adcCh b r).map fun c => (r, c.2.val)

/-- The readings of a round of ADC codes are kept, and each rail takes its sample (R478, R480). -/
def takeAdc (codes : List (Fin 32 × Fin 4096)) (s : State) : State :=
  (adcHits (blobOf s) codes).foldl (fun s p => sampleRail p.1 p.2 s)
    { s with power := { s.power with adc := codes.foldl (fun t c => tput t c.1.val c.2.val) s.power.adc } }

/-- RAIL_ADC_SAMPLE (R478 to R480): one round of ADC codes. Every fault is logged, and the strongest action applies. -/
def execRailAdcSample (codes : List (Fin 32 × Fin 4096)) (s : State) : Res :=
  let b := blobOf s
  let hit := adcHits b codes
  let s := takeAdc codes s
  let faults := (hit.map (·.1)).filter fun r => sampleFault s r != 0
  let top := (faults.map (faultRank b)).foldl max 0
  match faults.find? fun r => faultRank b r == top with
  | some r =>
    let s := (faults.filter (· != r)).foldl (fun s x => railFault x (sampleFault s x) s) s
    .next (faultAct r (sampleFault s r) s)
  | none => .next (hit.foldl (fun s p => checkFallen p.1 (checkGood p.1 s)) s)

/-! ### Retry, hold and power-fail (R485, R488, R489) -/

/-- SAFE_OFF_RETRY (R485): RETRY_DELAY has passed. A Critical stop or trip bars it (R506). -/
def execSafeOffRetry (s : State) : Res :=
  match s.power.retryAt with
  | none => .next s
  | some t =>
    if s.power.mode = .standby ∧ t ≤ s.time.mono ∧ s.persist.pwrFail = false ∧ s.therm.barred = false then
      .next (startPowerUp 4 { s with power := { s.power with retries := s.power.retries + 1 } })
    else .next s

/-- FABRIC_HOLD_EXPIRY (R488, R491): the 50 ms of R410 have passed: the fabric ports stop, and the device rails go down unless
the device is in Dormant. -/
def execFabricHoldExpiry (s : State) : Res :=
  match s.power.hold with
  | none => .next s
  | some t =>
    if s.time.mono < t then .next s
    else
      let s := stopFabric { s with power := { s.power with hold := none } }
      if s.power.entering = some 3 then .next (runPowerDown s) else .next s

/-- POWER_FAIL_CLEAR (R488): PWR_FAIL_N has been high and the monitor above its trip level for 100 ms since the drain ended. -/
def execPowerFailClear (s : State) : Res :=
  if s.persist.pwrFail = false ∨ drainRunning s then .next s
  else
    let s := { s with persist := { s.persist with pwrFail := false, pwrFailPin := false, lowSamples := 0 } }
    if !s.power.policy.autoOn then .next s
    else if s.power.mode = .standby ∧ s.power.seq.isNone then .next (startPowerUp 1 s)
    else if (devUp s ∧ s.power.hold.isNone ∧ s.power.entering.isNone) ∨ s.therm.barred then .next s
    else .next { s with power := { s.power with wakeDue := true } }

/-- VAUX_LOW_DETECT (R489): no further cellar book write starts; a drain that has not written DRAIN_DONE writes DRAIN_ABORTED
as the one last record. -/
def execVauxLowDetect (s : State) : Res :=
  let s := { s with cellar := { s.cellar with writes := [] } }
  let s := match s.persist.drain with
    | some d => endDrain 4 s.persist.vNow { d with faults := [] } s
    | none => s
  .next { s with power := { s.power with vauxLow := true } }

/-! ### Idle, Dormant and wakes (R46, R490 to R492) -/

/-- IDLE_ENTRY (R490): IDLE_DELAY with no request. -/
def execIdleEntry (s : State) : Res :=
  if s.power.mode = .active ∧ s.power.seq.isNone ∧ s.power.entering.isNone ∧
      s.power.lastReq + s.power.policy.idleDelay * 1000 ≤ s.time.mono then .next (setMode .idle 1 s)
  else .next s

/-- IDLE_EXIT (R490): a request arrives in Idle. -/
def execIdleExit (s : State) : Res :=
  if s.power.mode = .idle then
    .next (setMode .active 1 (idleResume { s with power := { s.power with lastReq := s.time.mono } }))
  else .next s

/-- A head is quiet for R491: absent, in PERST_N, or in L1.2, which stops its clock domain's PLL (Table 14-4). -/
def headQuiet (s : State) (h : Nat) : Bool :=
  !(headOf s h).present || (headOf s h).perst || domOf s (3 + h) == .stopped

/-- DORMANT_AUTO_ENTRY (R491): every present head quiet and no fabric request for DORMANT_DELAY. -/
def execDormantAutoEntry (s : State) : Res :=
  if (s.power.mode = .active ∨ s.power.mode = .idle) ∧ s.power.policy.autoDormant ∧ s.power.entering.isNone ∧
      drainRunning s = false ∧ (List.range 4).all (headQuiet s) ∧
      s.power.quietSince + s.power.policy.dormantDelay * 1000000000 ≤ s.time.mono then .next (beginEntry 2 1 s)
  else .next s

/-- DORMANT_EXIT (R491): a wake or request in Dormant. -/
def execDormantExit (s : State) : Res := if s.power.mode = .dormant then .next (exitDormant 5 s) else .next s

/-- WAKE_EVENT (R46): a wake source: 0 PERST_N, 1 sideband, 2 ring, 3 time-base alarm, 4 NTC. -/
def execWakeEvent (source : Fin 5) (s : State) : Res := .next (wake source s)

/-! ### Commands (R495) -/

/-- GET_POWER_STATE (C700h). -/
def execGetPowerState (cci : Fin 10) (inp : List Byte) (s : State) : Res :=
  vendor cci 0xC700 inp 0 []
    (fun s => answer s (leBytes 1 s.power.mode.code ++ leBytes 1 s.power.cause ++ leBytes 1 (b2n s.persist.pwrFail) ++
      leBytes 1 s.power.retries ++ leBytes 8 s.power.transAt)) s

/-- Set Power State (C701h): target 0 Active, 2 Dormant, 3 Standby. Busy during a drain or a sequence (Table 15-11). -/
def setPowerState (target : Nat) (s : State) : Reply :=
  if target ≠ 0 ∧ target ≠ 2 ∧ target ≠ 3 then .fail .invalidInput
  else if drainRunning s || s.power.seq.isSome || s.power.entering.isSome || s.power.hold.isSome || s.power.exiting then .fail .busy
  else if target = 0 then
    match s.power.mode with
    | .dormant => .done .none (exitDormant 0 s)
    | .idle => .done .none (setMode .active 0 s)
    | _ => .done .none s
  else if target = 2 ∧ s.power.mode = .dormant then .done .none s
  else .done .none (beginEntry target 0 s)

/-- SET_POWER_STATE_ACTIVE (C701h, R491): the payload's target decides. -/
def execSetPowerStateActive (cci : Fin 10) (inp : List Byte) (s : State) : Res :=
  vendor cci 0xC701 inp 1 [] (fun s => setPowerState (byteAt inp 0) s) s

/-- SET_POWER_STATE_DORMANT (C701h, R491): the payload's target decides. -/
def execSetPowerStateDormant (cci : Fin 10) (inp : List Byte) (s : State) : Res :=
  vendor cci 0xC701 inp 1 [] (fun s => setPowerState (byteAt inp 0) s) s

/-- SET_POWER_STATE_STANDBY (C701h, R492): the payload's target decides; Success comes before admission stops. -/
def execSetPowerStateStandby (cci : Fin 10) (inp : List Byte) (s : State) : Res :=
  vendor cci 0xC701 inp 1 [] (fun s => setPowerState (byteAt inp 0) s) s

/-- The record of a power policy within its ranges (R493). -/
def powerPolicyRec (inp : List Byte) : Option (List Byte) :=
  if powerPolicyOk (powerPolicyOf inp) then some (powerPolicyBytes (powerPolicyOf inp)) else none

/-- SET_POWER_POLICY (C702h, R493): kept in the cellar book. -/
def execSetPowerPolicy (cci : Fin 10) (inp : List Byte) (s : State) : Res :=
  vendor cci 0xC702 inp 8 []
    (fun s => storeSetting 0x17 (powerPolicyRec inp) s) s

/-- The defined bits of the 32-bit word of a program blob at a byte offset (Tables 15-3 to 15-7). -/
def blobMask (off : Nat) : Nat :=
  if off = 0 then 0xFFFFFF00 else if off = 4 then 0xFFFF0000 else if off < 0x1C then 0xFFFFFFFF else if off < 0x40 then 0
  else if off < 0x440 then
    (if off % 16 = 0 then 0xFFFCFFFF else if off % 16 = 12 then 0xFFFFF000 else 0xFFFFFFFF)
  else if off < 0x4C0 then (if off % 8 = 0 then 0xFFFFFFFF else 0xFFF0001F)
  else 0xFFFFFFFF

/-- A program blob as a read shows it: reserved fields read as 0 (R25). -/
def blobRead (b : List Byte) : List Byte :=
  (List.range (b.length / 4)).flatMap fun i => leBytes 4 (le b (4 * i) 4 &&& blobMask (4 * i))

/-- GET_SEQUENCER_PROGRAM (C710h): the stored blob, or the one in use; the built-in program where none is stored. -/
def execGetSequencerProgram (cci : Fin 10) (inp : List Byte) (s : State) : Res :=
  vendor cci 0xC710 inp 1 []
    (fun s =>
      if 1 < byteAt inp 0 then .fail .invalidInput
      else answer s (blobRead (if byteAt inp 0 = 0 then s.power.stored.getD builtinBlob else blobOf s))) s

/-- The predecessors that Table 15-2 and R350 require of a rail. -/
def requiredPreds (b : List Byte) (r : Nat) : List Nat :=
  if railRole b r = 10 then vccOf b r else (roleAbove (railRole b r)).flatMap (railsOfRole b)

/-- Rails that a rail's PRED names directly or through others. -/
def allPreds (b : List Byte) (r : Nat) : List Nat :=
  let grow := fun (l : List Nat) => (List.range 64).filter fun m => l.contains m || l.any fun x => (predOf b x).contains m
  (List.range 64).foldl (fun l _ => grow l) (predOf b r)

/-- The checks of R487. -/
def blobOk (b : List Byte) : Bool :=
  let crc := le b 0x18 4 == crc32c (b.take 0x18 ++ zeros 4 ++ b.drop 0x1C)
  let roles := (List.range 8).all fun i => (railsOfRole b (i + 1)).length == 1
  let pgs := (List.range 64).all fun r => !(decide (1 ≤ railRole b r) && decide (railRole b r ≤ 8) && pgMode b r == 3)
  let levels := (List.range 64).all fun r => !railUsed b r ||
    (decide (railLevel b r 16 < railLevel b r 24) && decide (railLevel b r 8 < railLevel b r 0))
  let mask := !stepMode b || le b 8 8 < 65536
  let gs := ((List.range 16).map (groupEntry b)).filter fun g => bits g 36 1 == 1
  let names := gs.all fun g => railRole b (bits g 58 6) == 9 && railRole b (bits g 52 6) == 10
  let share := (List.range 36).all fun c => decide ((gs.filter fun g => bits g c 1 == 1).length ≤ 1)
  let deps := stepMode b || (supplyRails b).all fun r =>
    !(allPreds b r).contains r && (requiredPreds b r).all (allPreds b r).contains
  crc && roles && pgs && levels && mask && names && share && deps

/-- The record of a sequencer program that passes the checks (R487). -/
def programRec (inp : List Byte) : Option (List Byte) :=
  if blobOk inp then some inp else none

/-- SET_SEQUENCER_PROGRAM (C711h, R487): checked, written to the cellar book, and run from the next power-up. -/
def execSetSequencerProgram (cci : Fin 10) (inp : List Byte) (s : State) : Res :=
  vendor cci 0xC711 inp 3264 []
    (fun s => storeSetting 0x0A (programRec inp) s) s

/-- GET_RAIL_STATUS (C712h). -/
def execGetRailStatus (cci : Fin 10) (inp : List Byte) (s : State) : Res :=
  vendor cci 0xC712 inp 0 []
    (fun s =>
      let one := fun r =>
        let x := railOf s r
        leBytes 1 (b2n x.enabled + 2 * b2n x.good + 4 * b2n x.pg + 8 * b2n x.ovWarn + 16 * b2n x.uvWarn) ++
          leBytes 1 x.fault ++ leBytes 2 x.mv ++ zeros 4
      answer s ((List.range 64).flatMap one ++ (List.range 32).flatMap fun c => leBytes 2 (tget s.power.adc c 0))) s

/-- CLEAR_RAIL_FAULTS (C713h): the latched faults and the retry count. -/
def execClearRailFaults (cci : Fin 10) (inp : List Byte) (s : State) : Res :=
  vendor cci 0xC713 inp 0 []
    (fun s => .done .none { s with power := { s.power with
      retries := 0, rails := tmap s.power.rails fun _ x => { x with fault := 0, ovWarn := false, uvWarn := false } } }) s

end Sys2Proof.Machine
end

