-- ==== Sys2Proof/Machine/MgmtOps.lean ====
section
/-!
DEFINITION. Operations of the management complex (17_management_and_mailbox.md, 01_architecture.md): firmware slots and the
checks of an image (R513 to R517), restarts of supervisors (R40 to R42), the abort of background operations (R527) and the
control nodes (R33, R34).
-/
namespace Sys2Proof.Machine

/-! ### Firmware slots (R513 to R517) -/

/-- The image of a slot, 0 A and 1 B. -/
def slotImage (s : State) (n : Nat) : Option (List Byte) := if n = 0 then s.mgmt.slotA else if n = 1 then s.mgmt.slotB else none

/-- Put the content of a slot. -/
def setSlotImage (n : Nat) (x : Option (List Byte)) (s : State) : State :=
  if n = 0 then { s with mgmt := { s.mgmt with slotA := x } }
  else if n = 1 then { s with mgmt := { s.mgmt with slotB := x } } else s

/-- The FW_SLOT record: ACTIVE, NEXT (FFh for none) and TRIES (R515, Table 18-5). -/
def fwSlotBytes (s : State) : List Byte :=
  leBytes 1 s.mgmt.active ++ leBytes 1 (s.mgmt.nextSlot.getD 0xFF) ++ leBytes 1 s.mgmt.tries

/-- Ask for the FW_SLOT record to be written. -/
def requestFwSlot (s : State) : State := cellarWrite 5 2 0x01 (fwSlotBytes s) none s

/-- Write the FW_SLOT record within the step, where the next step of the rule needs it written (R515, R519). -/
def writeFwSlot (s : State) : State := cellarCommitNow 2 0x01 (fwSlotBytes s) s

/-- FW_VERSION of an image (Table 17-1): build in bits [15:0], minor in [23:16], major in [31:24]. -/
def fwVersion (x : List Byte) : Nat := le x 12 4

/-- SVN of an image (Table 17-1). -/
def fwSvn (x : List Byte) : Nat := le x 16 4

/-- FLAGS of an image: ADVANCE_SVN, ONLINE_OK and REVOKE (Table 17-1). -/
def fwAdvance (x : List Byte) : Bool := bits (le x 20 4) 0 1 == 1
/-- ONLINE_OK. -/
def fwOnline (x : List Byte) : Bool := bits (le x 20 4) 1 1 == 1
/-- REVOKE, a bit for a key index. -/
def fwRevokes (x : List Byte) (k : Nat) : Bool := bits (le x 20 4) (4 + k) 1 == 1

/-- Bytes of an image as numbers. -/
def fwBytes (x : List Byte) (off len : Nat) : List Nat := ((x.drop off).take len).map fun b => b.toNat

/-- An entry of PARTS: KIND, offset, length and SHA-384 (Table 17-1). -/
structure FwPart where
  kind : Nat
  off : Nat
  len : Nat
  hash : Nat
deriving DecidableEq, Repr

/-- The six entries of PARTS (Table 17-1). -/
def fwParts (x : List Byte) : List FwPart :=
  (List.range 6).map fun i =>
    { kind := byteAt x (128 + 64 * i), off := le x (132 + 64 * i) 4, len := le x (136 + 64 * i) 4, hash := le x (144 + 64 * i) 48 }

/-- The hash that an image's header gives for a KIND; 0 where it has none. -/
def fwPartHash (x : List Byte) (kind : Nat) : Nat :=
  match (fwParts x).find? fun p => p.kind == kind with
  | some p => p.hash
  | none => 0

/-- Which of the four fused Kunor hashes an image's PUBKEY has (R513). -/
def fwKey (x : List Byte) : Option Nat :=
  (List.range 4).find? fun k => Config.sha384 (fwBytes x 640 96) == Config.kunorKeyHash k

/-- The rollback counter (R517). -/
def rollbackCounter (s : State) : Nat := spreadRead s 1

/-- The fused key that signed an image is known and not revoked (R513). -/
def keyOk (s : State) (x : List Byte) : Bool :=
  match fwKey x with
  | some k => !s.mgmt.revoked.getLsbD k
  | none => false

/-- MAGIC, FORMAT and IMAGE_LEN are good, and each KIND from 1 to 6 appears exactly once (R513). -/
def headerOk (x : List Byte) : Bool :=
  x.take 4 == [0x41, 0x4D, 0x52, 0x58] && le x 4 2 == 1 && decide (le x 8 4 ≤ 1572864) &&
    (List.range 6).all fun k => ((fwParts x).filter fun p => p.kind == k + 1).length == 1

/-- The checks of R513. -/
def imageValid (s : State) (x : List Byte) : Bool :=
  headerOk x && keyOk s x &&
    Config.verify (fwBytes x 640 96) (Config.sha384 (fwBytes x 0 928)) (fwBytes x 928 96) &&
    ((fwParts x).all fun p => Config.sha384 (fwBytes x p.off p.len) == p.hash) && decide (rollbackCounter s ≤ fwSvn x)

/-- Whether a slot holds a valid image. -/
def slotValid (s : State) (n : Nat) : Bool :=
  match slotImage s n with
  | some x => imageValid s x
  | none => false

/-- A firmware slot change is logged (B004h). The codes of its cause are the model's: 0 boot-good or activation, 1 failed
verification, 2 TRIES, 3 the other slot took over. -/
def logSlot (n cause : Nat) (s : State) : State :=
  let v := match slotImage s n with
    | some x => fwVersion x
    | none => 0
  raise 0x000 0xB004 n v cause s

/-- The image that the device runs. -/
def runImage (s : State) : Option (List Byte) := s.mgmt.runSlot.bind (slotImage s)

/-! ### Supervisors (R40 to R42) -/

/-- The microcode partition hash of an image: the PARTS entry of KIND 6 (R519, Table 17-1). -/
def microcodeHash (x : List Byte) : Nat := fwPartHash x 6

/-- The supervisor of a unit sequencer, numbered as in `MgmtSt.ucode` (Tables 1-3 and 1-4); 0 for any other node. -/
def seqSupervisor (node : Nat) : Nat :=
  if node < 5 then 0 else if node < 49 then 2 else if node < 57 then 3 else if node < 61 then 1 else 0

/-- A supervisor loads the microcode of its unit sequencers (R33, R512). -/
def loadMicrocode (n : Nat) (x : List Byte) (s : State) : State :=
  let nodes := (List.range 61).filter fun d => seqSupervisor d == n && decide (5 ≤ d)
  { s with mgmt := { s.mgmt with ucode := nodes.foldl (fun t d => tput t d (microcodeHash x)) s.mgmt.ucode } }

/-- A supervisor that runs a partition of a slot, and its unit sequencers with its microcode (R33). -/
def startSup (n slot : Nat) (s : State) : State :=
  let v := match slotImage s slot with
    | some x => fwVersion x
    | none => 0
  let s := match slotImage s slot with
    | some x => loadMicrocode n x s
    | none => s
  match supOf s n with
  | some x =>
    let s := setSup n { x with mode := .running, slot := slot, version := v } s
    if n = 2 then resumeRacks s else s
  | none => s

/-- Event source of a supervisor (Table 1-6). -/
def supSource (n : Nat) : Nat := 0x00F + n

/-- Foreground commands in progress whose subject belongs to a supervisor complete with a code (R41). -/
def failWaiting (n : Nat) (rc : Rc) (s : State) : State :=
  (List.range 10).foldl (fun s c =>
    match (cciOf s c).wait with
    | some (op, _) => if ownerOf op = n then complete c op rc .none s else s
    | none => s) s

/-- A supervisor is held in reset, its partition reloaded and restarted (R40); its commands complete with Busy (R41), and the
count towards boot-good begins again (R515). -/
def restartSup (n : Nat) (x : SupSt) (s : State) : State :=
  let s := if n = 4 then { s with therm := { s.therm with applied := deviceLevel s } } else s
  let s := setSup n { x with mode := .restarting, restarts := x.restarts + 1 } s
  failWaiting n .busy { s with mgmt := { s.mgmt with goodSince := s.mgmt.goodSince.map fun _ => s.time.mono } }

/-! ### Aborts (R527) -/

/-- What an abort does to a background operation that can be aborted; none for any other (R527). -/
def abortOp (c op : Nat) (s : State) : Option State :=
  if 0xC203 ≤ op ∧ op ≤ 0xC206 then
    let stop := fun (m : Maint) =>
      if m.cci = some c ∧ m.status = 0 then { m with status := 2, doneAt := s.time.tbNow, awaits := [] } else m
    let s := releaseHeld { s with front := { s.front with maint := s.front.maint.map stop } }
    some (endBgOn c op .aborted s)
  else if op = 0xC305 then
    let gs := (s.place.racks.filter fun r => r.cci == some c).map (·.group)
    some (endBgOn c op .aborted (gs.foldl (fun s g => stopRack g s) s))
  else if op = 0xC342 then
    if s.map.passCci = some c ∧ s.map.pass.isSome then some (abandonPass .aborted s)
    else some (endBgOn c op .aborted { s with map := { s.map with passCci := none } })
  else if op = 0xC722 then some (endBgOn c op .aborted (abandonMeasure s))
  else none

/-! ### Nodes (R33, R34) -/

/-- Owner of each row of Table 1-4: 0 management complex, 1 host, 2 media, 3 fabric, 4 platform supervisor. -/
def rowOwner (row : Nat) : Nat :=
  if row < 7 then 1 else if row < 13 then 2 else if row < 15 then 3 else if row < 20 then 4 else 0

/-- The unit sequencers through which a row's owner acts (Table 1-4). -/
def rowThrough (row node : Nat) : Bool :=
  (row == 0 && decide (57 ≤ node) && decide (node < 61)) || (row == 11 && decide (5 ≤ node) && decide (node < 41)) ||
    (row == 12 && decide (41 ≤ node) && decide (node < 49)) || (row == 13 && decide (49 ≤ node) && decide (node < 57))

/-- A node can take a request: it runs (R33, R41). -/
def nodeRuns (s : State) (n : Nat) : Bool :=
  if n = 0 then s.mgmt.running && !s.mgmt.restarting
  else
    match supOf s n with
    | some x => x.mode == .running
    | none => false

end Sys2Proof.Machine
end

