-- ==== Sys2Proof/Machine/Firmware.lean ====
section
/-!
DEFINITION. Boot, firmware transfer and activation, supervisor and management restarts, the mailbox hub and the diagnostic
commands of the management complex (17_management_and_mailbox.md R512 to R519, 01_architecture.md R34 to R43).
-/
namespace Sys2Proof.Machine

/-! ### Boot (R512 to R517) -/

/-- The boot of ACTIVE, or of the other slot when ACTIVE does not verify; recovery mode when none does (R515, R516). -/
def bootActive (s : State) : Option Nat × State :=
  let a := s.mgmt.active
  if slotValid s a then (some a, s)
  else if slotValid s (1 - a) then
    (some (1 - a), logSlot (1 - a) 3 (writeFwSlot { s with mgmt := { s.mgmt with active := 1 - a } }))
  else (none, s)

/-- The slot that the boot ROM boots (R515), with what the selection writes and logs. -/
def bootSelect (s : State) : Option Nat × State :=
  match s.mgmt.nextSlot with
  | none => bootActive s
  | some n =>
    if 3 ≤ s.mgmt.tries then
      bootActive (logSlot n 2 (writeFwSlot { s with mgmt := { s.mgmt with nextSlot := none } }))
    else
      let s := writeFwSlot { s with mgmt := { s.mgmt with tries := s.mgmt.tries + 1 } }
      if slotValid s n then (some n, s)
      else bootActive (logSlot n 1 (writeFwSlot { s with mgmt := { s.mgmt with nextSlot := none } }))

/-- The device rails are good (R512): the roles of groups 2 to 5 of Table 15-2, during the power-up sequence or after it. -/
def railsGood (s : State) : Bool :=
  devUp s || ((match s.power.seq with
    | some q => q.up
    | none => false) && rolesGood s [1, 2, 3, 4, 5, 6, 7, 8])

/-- BOOT_ROM (R467, R512, R515, R516, R578 phase 5): once MGMT's PLL has locked, core 0 selects and verifies a slot, loads the partitions and starts the
supervisors; without a valid slot it enters recovery mode and starts none. -/
def execBootRom (s : State) : Res :=
  if s.mgmt.running ∨ !railsGood s ∨ domOf s 10 ≠ .running ∨ !s.start.phases.contains 3 ∨ s.start.phases.contains 5 then .next s
  else
    let r := bootSelect { s with mgmt := { s.mgmt with running := true } }
    match r.1 with
    | none => .next (markPhase 5 { r.2 with mgmt := { r.2.mgmt with recovery := true } })
    | some n =>
      let s := [1, 2, 3, 4].foldl (fun s k => startSup k n s) r.2
      .next (markPhase 5 { s with mgmt := { s.mgmt with recovery := false, runSlot := some n, goodSince := some s.time.mono } })

/-- The revocation fuses that an image blows at boot-good, never its own key's (R514). -/
def blowFuses (x : List Byte) (s : State) : State :=
  (List.range 4).foldl (fun s k =>
    if fwRevokes x k && !s.mgmt.revoked.getLsbD k && fwKey x != some k then
      raise 0x001 0xC003 k 0 0 { s with mgmt := { s.mgmt with revoked := s.mgmt.revoked ||| BitVec.ofNat 4 (2 ^ k) } }
    else s) s

/-- BOOT_GOOD (R514, R515, R517): every supervisor has run for 60 s without an expiry. A NEXT image becomes ACTIVE, the
rollback counter takes SVN, and the keys that REVOKE names are revoked. -/
def execBootGood (s : State) : Res :=
  match s.mgmt.goodSince, s.mgmt.runSlot, runImage s with
  | some t, some n, some x =>
    if s.time.mono < t + 60000000000 ∨ ([1, 2, 3, 4].all fun k => nodeRuns s k) = false ∨ s.mgmt.running = false then .next s
    else
      let s := { s with mgmt := { s.mgmt with goodSince := none } }
      let s := if s.mgmt.nextSlot = some n ∧ 0 < s.mgmt.tries then
          logSlot n 0 (requestFwSlot { s with mgmt := { s.mgmt with active := n, nextSlot := none, tries := 0 } })
        else s
      let s := if fwAdvance x && decide (rollbackCounter s < fwSvn x) then spreadAdd 1 (fwSvn x - rollbackCounter s) s else s
      .next (blowFuses x s)
  | _, _, _ => .next s

/-! ### Transfer (R518) -/

/-- A transfer ends without an image; its slot is empty already (R518). -/
def dropTransfer (s : State) : State := { s with mgmt := { s.mgmt with transfer := none } }

/-- A slot number of CXL's commands: 1 is A and 2 is B. -/
def slotNo (slot : Nat) : Option Nat := if slot = 1 then some 0 else if slot = 2 then some 1 else none

/-- The first part enters a slot: what it held is overwritten, and a slot that NEXT names is NEXT no longer (R518). -/
def openSlot (n : Nat) (s : State) : State :=
  let s := setSlotImage n none s
  if s.mgmt.nextSlot = some n then requestFwSlot { s with mgmt := { s.mgmt with nextSlot := none } } else s

/-- The last part has arrived: the image is verified, and one that fails leaves the slot empty (R513, R518). -/
def closeSlot (n : Nat) (x : List Byte) (s : State) : Reply :=
  let s := dropTransfer s
  if imageValid s x then .done .none (setSlotImage n (some x) s) else .failWith .fwVerificationFailed s

/-- A transfer may open a slot: not ACTIVE, none in progress, no activation of it (R518). -/
def mayOpenSlot (slot : Nat) (s : State) : Rc ⊕ Nat :=
  match slotNo slot with
  | none => .inl .invalidSlot
  | some n =>
    if n = s.mgmt.active then .inl .invalidSlot
    else if s.mgmt.transfer.isSome then .inl .fwInProgress
    else if s.mgmt.activation.isSome then .inl .busy
    else .inr n

/-- Bytes that a slot holds (R515). -/
def slotBytes : Nat := 1572864

/-- Transfer FW: a part is at most the interface's payload (R522), and what does not fit in a slot is Invalid Input (log entry 225). -/
def transferFw (cci : Fin 10) (data : List Byte) (body : State → Reply) (s : State) : Res :=
  mailbox cci 0x0201 false (decide (data.length ≤ if cci.val < 8 then 65536 else 4096)) true body s

/-- TRANSFER_FW_FULL (0201h, R518): a whole image, with its verification. -/
def execTransferFwFull (cci : Fin 10) (slot : Nat) (data : List Byte) (s : State) : Res :=
  transferFw cci data
    (fun s =>
      match mayOpenSlot slot s with
      | .inl rc => .fail rc
      | .inr n => closeSlot n data (openSlot n s)) s

/-- TRANSFER_FW_INITIATE (0201h, R518): the first part, at offset 0. -/
def execTransferFwInitiate (cci : Fin 10) (slot : Nat) (data : List Byte) (s : State) : Res :=
  transferFw cci data
    (fun s =>
      match mayOpenSlot slot s with
      | .inl rc => .fail rc
      | .inr n =>
        let s := openSlot n s
        .done .none { s with mgmt := { s.mgmt with
          transfer := some { cci := cci, slot := n, data := data, lastTime := s.time.mono } } }) s

/-- A part of the transfer of an interface, at an offset in units of 128 B: another interface's transfer is in progress, and a part
that does not continue the one before is out of order (R518). -/
def partOf_ (cci off : Nat) (data : List Byte) (s : State) : Rc ⊕ FwTransfer :=
  match s.mgmt.transfer with
  | none => .inl .fwOutOfOrder
  | some t =>
    if t.cci ≠ cci then .inl .fwInProgress
    else if t.data.length ≠ 128 * off then .inl .fwOutOfOrder
    else if slotBytes < t.data.length + data.length then .inl .invalidInput
    else .inr t

/-- TRANSFER_FW_CONTINUE (0201h, R518): the next part, at `off`. -/
def execTransferFwContinue (cci : Fin 10) (off : Nat) (data : List Byte) (s : State) : Res :=
  transferFw cci data
    (fun s =>
      match partOf_ cci off data s with
      | .inl rc => .fail rc
      | .inr t =>
        .done .none { s with mgmt := { s.mgmt with
          transfer := some { t with data := t.data ++ data, lastTime := s.time.mono } } }) s

/-- TRANSFER_FW_END (0201h, R518): the last part, at `off`; the image is verified. -/
def execTransferFwEnd (cci : Fin 10) (off : Nat) (data : List Byte) (s : State) : Res :=
  transferFw cci data
    (fun s =>
      match partOf_ cci off data s with
      | .inl rc => .fail rc
      | .inr t => closeSlot t.slot (t.data ++ data) s) s

/-- TRANSFER_FW_ABORT (0201h, R518): the transfer is abandoned and the slot is empty; with no transfer nothing changes. -/
def execTransferFwAbort (cci : Fin 10) (s : State) : Res :=
  standard cci 0x0201
    (fun s =>
      match s.mgmt.transfer with
      | none => .done .none s
      | some t => if t.cci ≠ cci then .fail .fwInProgress else .done .none (dropTransfer s)) s

/-- FW_TRANSFER_IDLE_TIMEOUT (R518): no part for 60 s. -/
def execFwTransferIdleTimeout (s : State) : Res :=
  match s.mgmt.transfer with
  | none => .next s
  | some t => if t.lastTime + 60000000000 ≤ s.time.mono then .next (dropTransfer s) else .next s

/-! ### Activation (R519) -/

/-- ACTIVATE_FW_COLD (0202h, R519): NEXT is the slot and TRIES 0. -/
def execActivateFwCold (cci : Fin 10) (slot : Nat) (s : State) : Res :=
  standard cci 0x0202
    (fun s =>
      match slotNo slot with
      | none => .fail .invalidSlot
      | some n =>
        if (slotImage s n).isNone then .fail .invalidSlot
        else
          let s := { s with mgmt := { s.mgmt with nextSlot := some n, tries := 0 } }
          .commit .none (requestFwSlot s)) s

/-- The next supervisor of an online activation restarts on its new partition. -/
def activateNext (s : State) : State :=
  match s.mgmt.activation with
  | some a =>
    match a.todo with
    | n :: _ =>
      match supOf s n with
      | some x => if x.mode = .running then restartSup n x s else s
      | none => s
    | [] => s
  | none => s

/-- ACTIVATE_FW_ONLINE (0202h, R519): the supervisors restart one at a time, platform, fabric, host, media. While one of them
does not run, the command answers Busy. -/
def execActivateFwOnline (cci : Fin 10) (slot : Nat) (s : State) : Res :=
  mailbox cci 0x0202 true true true
    (fun s =>
      match slotNo slot with
      | none => .fail .invalidSlot
      | some n =>
        match slotImage s n, runImage s with
        | some x, some y =>
          if !fwOnline x || byteAt x 15 != byteAt y 15 || microcodeHash x != microcodeHash y then .fail .activationColdRequired
          else if s.mgmt.activation.isSome ∨ ([1, 2, 3, 4].all fun k => nodeRuns s k) = false then .fail .busy
          else
            .background (activateNext { s with mgmt := { s.mgmt with
              activation := some { cci := cci, slot := n, todo := [4, 3, 1, 2], prev := [] } } })
        | none, _ => .fail .invalidSlot
        | some _, none => if s.mgmt.recovery then .fail .mediaDisabled else .fail .activationColdRequired) s

/-- An activation fails: every restarted supervisor returns to its previous partition (R519). -/
def rollBackFw (rc : Rc) (s : State) : State :=
  match s.mgmt.activation with
  | none => s
  | some a =>
    let back := a.prev ++ a.todo.take 1
    let s := endBgOn a.cci 0x0202 rc { s with mgmt := { s.mgmt with activation := none } }
    back.foldl (fun s n =>
      match supOf s n with
      | some x => if x.mode = .running ∧ some x.slot ≠ s.mgmt.runSlot then restartSup n x s else s
      | none => s) s

/-- The last supervisor runs on its new partition: the management cores restart, ACTIVE takes the slot, and the FW_SLOT record
is written before the operation ends (R519). -/
def activationDone (a : FwActivation) (s : State) : State :=
  let s := writeFwSlot { s with mgmt := { s.mgmt with
    active := a.slot, runSlot := some a.slot, goodSince := some s.time.mono, activation := none } }
  endBgOn a.cci 0x0202 .success (logSlot a.slot 0 s)

/-- ONLINE_ACTIVATION_WATCHDOG_FAIL (R519): a restarted supervisor does not service its watchdog within 1 s. -/
def execOnlineActivationWatchdogFail (s : State) : Res := .next (rollBackFw .activationRolledBack s)

/-- SUPERVISOR_RESTART_DONE (R40, R519, Table 17-9): the supervisor resumes on the running slot, or on the new one in an
online activation, which then goes on; a drain ends the activation. DEDUCED (log entry 194): the active slot of R40 is the
slot that the device runs. -/
def execSupervisorRestartDone (sup : Fin 4) (s : State) : Res :=
  let n := sup.val + 1
  match supOf s n with
  | none => .next s
  | some x =>
    if x.mode ≠ .restarting then .next s
    else
      match s.mgmt.activation with
      | some a =>
        if a.todo.head? = some n then
          let a := { a with todo := a.todo.tail, prev := a.prev ++ [n] }
          let s := startSup n a.slot { s with mgmt := { s.mgmt with activation := some a } }
          if drainRunning s then .next (rollBackFw .activationRolledBack s)
          else if a.todo.isEmpty then .next (activationDone a s)
          else .next (activateNext s)
        else .next (startSup n (if a.prev.contains n then a.slot else s.mgmt.runSlot.getD s.mgmt.active) s)
      | none => .next (startSup n (s.mgmt.runSlot.getD s.mgmt.active) s)

/-- Decimal digits in ASCII. -/
def decimal (n : Nat) : List Nat := (Nat.toDigits 10 n).map fun c => c.toNat

/-- A slot's revision: ASCII major.minor.build padded with zeros to the 16 bytes of CXL's field (R519). -/
def slotRevision (s : State) (n : Nat) : List Nat :=
  let t := match slotImage s n with
    | some x => decimal (byteAt x 15) ++ [46] ++ decimal (byteAt x 14) ++ [46] ++ decimal (le x 12 2)
    | none => []
  (t ++ List.replicate 16 0).take 16

/-- GET_FW_INFO (0200h, R519): the number of slots, the active and the staged slot (0 none), and the revisions of both slots. -/
def execGetFwInfo (cci : Fin 10) (s : State) : Res :=
  standard cci 0x0200
    (fun s =>
      let st := match s.mgmt.nextSlot with
        | some n => n + 1
        | none => 0
      .done (.nums ([2, s.mgmt.active + 1, st] ++ slotRevision s 0 ++ slotRevision s 1)) s) s

/-! ### Watchdogs (R40 to R43) -/

/-- SUPERVISOR_WATCHDOG_EXPIRY (R40, R42): the supervisor restarts from the active slot; a third expiry within 600 s halts it
until the next reset. DESIGN CHOICE (log entry 195): B002h and B003h number the supervisors 0 host, 1 media, 2 fabric, 3
platform. -/
def execSupervisorWatchdogExpiry (sup : Fin 4) (s : State) : Res :=
  let n := sup.val + 1
  match supOf s n with
  | none => .next s
  | some x =>
    if x.mode ≠ .running then .next s
    else
      let es := (x.expiries.filter fun t => decide (s.time.mono < t + 600000000000)) ++ [s.time.mono]
      let s := raise 0x001 0xB002 sup.val es.length 0 s
      let x := { x with expiries := es }
      if 3 ≤ es.length then
        let s := if n = 4 then { s with therm := { s.therm with applied := deviceLevel s } } else s
        let s := { s with mgmt := { s.mgmt with goodSince := s.mgmt.goodSince.map fun _ => s.time.mono } }
        .next (raise 0x001 0xB003 sup.val 0 0 (failWaiting n .internalError (setSup n { x with mode := .halted } s)))
      else .next (restartSup n x s)

/-- RESTART_SUPERVISOR (CF03h): as R40, and not counted under R42. -/
def execRestartSupervisor (cci : Fin 10) (inp : List Byte) (s : State) : Res :=
  vendor cci 0xCF03 inp 1 []
    (fun s =>
      let n := byteAt inp 0 + 1
      match supOf s n with
      | none => .fail .invalidInput
      | some x =>
        match x.mode with
        | .running => if s.mgmt.activation.isSome then .fail .busy else .done .none (restartSup n x s)
        | .restarting => .fail .busy
        | _ => .fail .invalidState) s

/-- Abort whatever background operation an interface runs, as a restart of the management cores does (R43): what R527 cannot
stop goes on in its unit. -/
def abortBg (s : State) (c : Nat) : State :=
  match (cciOf s c).bg with
  | some b =>
    if b.rc.isSome then s
    else
      match abortOp c b.op s with
      | some s' => s'
      | none => endBgOn c b.op .aborted s
  | none => s

/-- MGMT_WATCHDOG_EXPIRY (R43, Table 17-9): the management cores restart. Background operations are aborted, a transfer is
abandoned, an online activation ends, and SPDM sessions are lost. -/
def execMgmtWatchdogExpiry (s : State) : Res :=
  if s.mgmt.running ∧ !s.mgmt.restarting then
    let s := rollBackFw .aborted s
    let s := (List.range 10).foldl abortBg s
    .next { s with mgmt := { s.mgmt with restarting := true, transfer := none, spdm := [] } }
  else .next s

/-- MGMT_RESTART_DONE (R43): the firmware runs again, and a foreground command that was in progress completes with Internal
Error. -/
def execMgmtRestartDone (s : State) : Res :=
  if s.mgmt.restarting then
    let s := { s with mgmt := { s.mgmt with restarting := false } }
    .next ((List.range 10).foldl (fun s c =>
      match (cciOf s c).wait with
      | some (op, _) => complete c op .internalError .none s
      | none => s) s)
  else .next s

/-! ### The hub (R34, R36, R37) -/

/-- OWNERSHIP_VIOLATION (R34): a node writes a register of an item it does not own. The hardware blocks the write and B001h names
both nodes; the owner itself, or a unit sequencer through which the owner acts (Table 1-4), is not blocked. DESIGN CHOICE (log
entry 189): B001h numbers the nodes 0 management complex, 1 host, 2 media, 3 fabric, 4 platform supervisor, then 5 to 60 the unit
sequencers in the order of Table 1-3. -/
def execOwnershipViolation (node : Fin 61) (row : Fin 21) (s : State) : Res :=
  if rowOwner row = node.val ∨ rowThrough row node then .next s
  else .next (raise 0x000 0xB001 node.val (rowOwner row) 0 s)

/-! ### Diagnostics -/

/-- GET_SUPERVISOR_STATE (CF02h): 16 B per supervisor. -/
def execGetSupervisorState (cci : Fin 10) (inp : List Byte) (s : State) : Res :=
  vendor cci 0xCF02 inp 0 []
    (fun s =>
      let one := fun (x : SupSt) =>
        let m := match x.mode with
          | .running => 0 | .restarting => 1 | .halted => 2 | .off => 2
        let es := (x.expiries.filter fun t => decide (s.time.mono < t + 600000000000)).length
        leBytes 4 m ++ leBytes 4 es ++ leBytes 4 x.restarts ++ leBytes 4 x.version
      answer s (one s.mgmt.host ++ one s.mgmt.media ++ one s.mgmt.fabric ++ one s.mgmt.platform)) s

/-- SET_DEBUG_ACCESS (CF04h): refused when the debug lock fuse is blown; the DEBUG clock domain follows (Table 14-4). -/
def execSetDebugAccess (cci : Fin 10) (inp : List Byte) (s : State) : Res :=
  vendor cci 0xCF04 inp 1 []
    (fun s =>
      if s.mgmt.debugLock then .fail .invalidState
      else
        let on := byteAt inp 0 % 2 == 1
        let s := { s with mgmt := { s.mgmt with debugAccess := on } }
        .done .none (if on then startDom 40 s else stopDom 40 s)) s

/-- GET_DEVICE_IDENTITY (CF05h). -/
def execGetDeviceIdentity (cci : Fin 10) (inp : List Byte) (s : State) : Res :=
  vendor cci 0xCF05 inp 0 []
    (fun s =>
      answer s (leBytes 8 s.mgmt.serial ++ leBytes 1 (b2n s.mgmt.gradeFX) ++ leBytes 1 s.mgmt.revoked.toNat ++
        leBytes 1 (b2n s.mgmt.debugLock) ++ zeros 1 ++ leBytes 4 s.mgmt.romVersion)) s

/-- TRST_N_ASSERT (R584): the TAP state only. -/
def execTrstNAssert (s : State) : Res := .next { s with start := { s.start with tap := 0 } }

end Sys2Proof.Machine
end

