-- ==== Sys2Proof/Machine/Attest.lean ====
section
/-!
DEFINITION. The SPDM 1.2 responder of each head's DOE mailbox and of MCTP (R520). Its messages are SPDM's; a response is kept as
its SPDM code and the fields that this manual names. Endpoints: 0 to 3 the heads, 4 SMBus, 5 I3C.
-/
namespace Sys2Proof.Machine

/-- A responder that has received nothing. -/
def SpdmSt.fresh : SpdmSt := { versionDone := false, capsDone := false, algsDone := false, sessions := [], nextId := 1, resp := [] }

/-- Responder of an endpoint. -/
def spdmOf (s : State) (e : Nat) : SpdmSt := tget s.mgmt.spdm e SpdmSt.fresh

/-- Put back a responder. -/
def setSpdm (e : Nat) (x : SpdmSt) (s : State) : State := { s with mgmt := { s.mgmt with spdm := tput s.mgmt.spdm e x } }

/-- An endpoint answers: the management firmware runs, phase 6 has ended or recovery mode is on, and a head's link carries
configuration requests (R520, R578). -/
def spdmOpen (s : State) (e : Nat) : Bool :=
  s.mgmt.running && !s.mgmt.restarting && (s.mgmt.recovery || s.start.phases.contains 6) &&
    (if e < 4 then (headOf s e).present && !(headOf s e).perst && (headOf s e).linkUp else true)

/-- Run a message on an open endpoint: `ready` is the part of SPDM's message order that it needs, and out of order it gets the
error UnexpectedRequest (ERROR 7Fh, code 04h). -/
def spdm (e : Nat) (ready : SpdmSt → Bool) (body : SpdmSt → State → SpdmSt × State) (s : State) : Res :=
  if spdmOpen s e then
    let x := spdmOf s e
    if ready x then
      let r := body x s
      .next (setSpdm e r.1 r.2)
    else .next (setSpdm e { x with resp := [0x7F, 0x04] } s)
  else .next s

/-- Measurements 1 to 11 (R520). -/
def measurement (s : State) (i : Nat) : List Nat :=
  let img := runImage s
  let hdr := match img with
    | some x => Config.sha384 (fwBytes x 0 1024)
    | none => 0
  let part := fun k => match img with
    | some x => fwPartHash x k
    | none => 0
  if i = 1 then [Config.romHash]
  else if i = 2 then [hdr]
  else if i ≤ 8 then [part (i - 2)]
  else if i = 9 then
    match img with
    | some x => [fwVersion x, fwSvn x, rollbackCounter s]
    | none => [0, 0, rollbackCounter s]
  else if i = 10 then [b2n s.mgmt.gradeFX, s.mgmt.revoked.toNat, b2n s.mgmt.debugLock]
  else s.mgmt.access ++ [b2n s.mgmt.debugAccess]

/-- The certificate chain of slot 0: root, device identity and alias certificate, the alias derived at each boot (R520). -/
def certChain (s : State) : List Nat :=
  [Config.rootCert, Config.deviceCert s.mgmt.serial, Config.aliasCert ((measurement s 2).headD 0)]

/-- A response with the signature of the alias key over it (R520). -/
def signed_ (r : List Nat) : List Nat := r ++ [Config.sign 1 (Config.sha384 r)]

/-- The session of a number. -/
def sessionOf (x : SpdmSt) (id : Nat) : Option SpdmSession := x.sessions.find? fun y => y.id == id

/-- A message within an established session; any other gets the error InvalidSession (02h). -/
def inSession (e id : Nat) (code : Nat) (f : SpdmSession → State → Option SpdmSession) (s : State) : Res :=
  spdm e (fun x => x.algsDone)
    (fun x s =>
      match sessionOf x id with
      | some y =>
        if y.established then
          match f y s with
          | some z => ({ x with sessions := x.sessions.map fun w => if w.id = id then z else w, resp := [code, id] }, s)
          | none => ({ x with sessions := x.sessions.filter fun w => w.id != id, resp := [code, id] }, s)
        else ({ x with resp := [0x7F, 0x02] }, s)
      | none => ({ x with resp := [0x7F, 0x02] }, s)) s

/-- SPDM_GET_VERSION: 1.2; the message order begins again. -/
def execSpdmGetVersion (ep : Fin 6) (s : State) : Res :=
  spdm ep (fun _ => true)
    (fun x s => ({ x with versionDone := true, capsDone := false, algsDone := false, resp := [0x04, 0x12] }, s)) s

/-- SPDM_GET_CAPABILITIES. -/
def execSpdmGetCapabilities (ep : Fin 6) (s : State) : Res :=
  spdm ep (fun x => x.versionDone) (fun x s => ({ x with capsDone := true, resp := [0x61] }, s)) s

/-- SPDM_NEGOTIATE_ALGORITHMS: `offered` says that the requester offers ECDSA P-384, SHA-384, secp384r1 and AES-256-GCM, which is
all that the responder uses. -/
def execSpdmNegotiateAlgorithms (ep : Fin 6) (offered : Bool) (s : State) : Res :=
  spdm ep (fun x => x.capsDone)
    (fun x s => ({ x with algsDone := offered, resp := if offered then [0x63] else [0x7F, 0x01] }, s)) s

/-- SPDM_GET_DIGESTS: the digest of the chain in slot 0. -/
def execSpdmGetDigests (ep : Fin 6) (s : State) : Res :=
  spdm ep (fun x => x.algsDone) (fun x s => ({ x with resp := [0x01, Config.sha384 (certChain s)] }, s)) s

/-- SPDM_GET_CERTIFICATE: the chain of slot 0; no other slot holds one. -/
def execSpdmGetCertificate (ep : Fin 6) (slot : Nat) (s : State) : Res :=
  spdm ep (fun x => x.algsDone)
    (fun x s => ({ x with resp := if slot = 0 then 0x02 :: certChain s else [0x7F, 0x01] }, s)) s

/-- SPDM_CHALLENGE: signed with the alias key. -/
def execSpdmChallenge (ep : Fin 6) (slot nonce : Nat) (s : State) : Res :=
  spdm ep (fun x => x.algsDone)
    (fun x s =>
      ({ x with resp := if slot = 0 then signed_ [0x03, Config.sha384 (certChain s), nonce] else [0x7F, 0x01] }, s)) s

/-- SPDM_GET_MEASUREMENTS: the number of measurements (0), one of them, or all (FFh), signed with the alias key. -/
def execSpdmGetMeasurements (ep : Fin 6) (index nonce : Nat) (s : State) : Res :=
  spdm ep (fun x => x.algsDone)
    (fun x s =>
      let r := if index = 0 then signed_ [0x60, 11, nonce]
        else if index ≤ 11 then signed_ (0x60 :: measurement s index ++ [nonce])
        else if index = 0xFF then signed_ (0x60 :: (List.range 11).flatMap (fun i => measurement s (i + 1)) ++ [nonce])
        else [0x7F, 0x01]
      ({ x with resp := r }, s)) s

/-- SPDM_KEY_EXCHANGE: a session begins; the responder's ephemeral public key is a free value (log entry 1). -/
def execSpdmKeyExchange (ep : Fin 6) (slot pub : Nat) (s : State) : Res :=
  spdm ep (fun x => x.algsDone)
    (fun x s =>
      if slot ≠ 0 then ({ x with resp := [0x7F, 0x01] }, s)
      else
        let r : Nat × State := drawNat s
        ({ x with
            sessions := x.sessions ++ [{ id := x.nextId, established := false, keyGen := 0, heartbeat := s.time.mono }],
            nextId := x.nextId + 1, resp := signed_ [0x64, x.nextId, pub, r.1] }, r.2)) s

/-- SPDM_FINISH: the session is established when the requester's HMAC is good; otherwise it ends with DecryptError (06h). -/
def execSpdmFinish (ep : Fin 6) (session : Nat) (good : Bool) (s : State) : Res :=
  spdm ep (fun x => x.algsDone)
    (fun x s =>
      match sessionOf x session with
      | some y =>
        if y.established then ({ x with resp := [0x7F, 0x04] }, s)
        else if good then
          ({ x with sessions := x.sessions.map fun w => if w.id = session then { w with established := true } else w,
                    resp := [0x65, session] }, s)
        else ({ x with sessions := x.sessions.filter fun w => w.id != session, resp := [0x7F, 0x06] }, s)
      | none => ({ x with resp := [0x7F, 0x02] }, s)) s

/-- SPDM_END_SESSION. -/
def execSpdmEndSession (ep : Fin 6) (session : Nat) (s : State) : Res := inSession ep session 0x6C (fun _ _ => none) s

/-- SPDM_KEY_UPDATE: the session's keys are the next generation. -/
def execSpdmKeyUpdate (ep : Fin 6) (session : Nat) (s : State) : Res :=
  inSession ep session 0x69 (fun y _ => some { y with keyGen := y.keyGen + 1 }) s

/-- SPDM_HEARTBEAT: the session is kept alive. -/
def execSpdmHeartbeat (ep : Fin 6) (session : Nat) (s : State) : Res :=
  inSession ep session 0x68 (fun y s => some { y with heartbeat := s.time.mono }) s

end Sys2Proof.Machine
end

