-- ==== Sys2Proof/Machine/HostOps.lean ====
section
/-!
DEFINITION. What the request commands of heads, fabric ports and bulk engines share: tags (R29, R66), the sequential detector
(R156), the classifier (R119), flow queues and dispatch (R123 to R127), and requests to a remote owner (R419 to R422).
-/
namespace Sys2Proof.Machine

/-! ### Tags (R29, R66) -/

/-- Who a tag counts for: head 0 to 3, 4 the fabric ingress ports, 5 the bulk engines. -/
def tagHolder : Src → Nat
  | .head h => h
  | .fabric _ => 4
  | .engine _ => 5

/-- Tags in use by a holder. -/
def tagsUsed (s : State) (c : Nat) : Nat := (s.ten.reqs.filter fun p => tagHolder p.2.src == c).length

/-- Tags that a holder is guaranteed (R66). -/
def tagsGuaranteed (s : State) (c : Nat) : Nat :=
  if c < 4 then (if (headOf s c).linkUp then 4096 else 0) else if c = 4 then 8192 else 0

/-- Tags in use beyond the guarantees. -/
def sharedUsed (s : State) : Nat := ((List.range 6).map fun c => tagsUsed s c - tagsGuaranteed s c).sum

/-- Tags that are shared. -/
def sharedTags (s : State) : Nat := 65536 - ((List.range 6).map (tagsGuaranteed s)).sum

/-- The first number from `n` on that a table with rising keys does not list. -/
def firstGap {α : Type} : Nat → Tbl α → Nat
  | n, [] => n
  | n, (k, _) :: t => if k = n then firstGap (n + 1) t else n

/-- The tag that a request of a source gets, if one is free for it: the lowest (the choice is the model's). -/
def tagFor (s : State) (src : Src) : Option Nat :=
  let c := tagHolder src
  if s.ten.reqs.length < 65536 ∧ (tagsUsed s c < tagsGuaranteed s c ∨ sharedUsed s < sharedTags s) then
    some (firstGap 0 s.ten.reqs)
  else none

/-! ### Sequential detector (R156) -/

/-- A tracker matches a request. -/
def trackMatches (src : Src) (t line : Nat) (x : SeqTrack) : Bool :=
  x.src == src && x.tenant == t && (x.line == line || x.line + 1 == line)

/-- The detector sees a request: whether it is streaming (R156). DESIGN CHOICE (log entry 203): of several trackers that
match, the one matched most recently. -/
def detect (src : Src) (t line : Nat) (s : State) : Bool × State :=
  match s.ten.trackers.find? (trackMatches src t line) with
  | some x =>
    let y := if x.line = line then x else { x with line := line, count := min 15 (x.count + 1) }
    (decide (4 ≤ y.count), { s with ten := { s.ten with trackers := y :: s.ten.trackers.erase x } })
  | none =>
    (false, { s with ten := { s.ten with
      trackers := { src := src, tenant := t, line := line, count := 0 } :: s.ten.trackers.take 255 } })

/-! ### Classifier (R119, R572) -/

/-- An outcome of the classifier (Table 3-5). -/
inductive Verdict where
  /-- steps 1 to 5; `twice` is step 5 -/
  | notAdded (twice : Bool)
  | mismatch
  | egress (dev addr : Nat)
  | locked
  | queue
deriving DecidableEq, Repr

/-- Ring of an engine. -/
def engineRing (s : State) (e : Nat) : Option DescRing :=
  match tfind s.eng.engines e with
  | some x => x.ring.bind fun r => tfind s.eng.rings r
  | none => none

/-- Step 2 of Table 3-5 holds, in the form of R572 for an engine. -/
def wrongAccessor (s : State) (src : Src) (x : ExtentEnt) : Bool :=
  match src with
  | .head h => x.accessDev != 0xFFF || x.head != h
  | .fabric d => x.accessDev != d
  | .engine e => match engineRing s e with
    | some r => x.tenant != r.tenant
    | none => true

/-- A request came from fabric ingress. -/
def Src.isFabric : Src → Bool
  | .fabric _ => true
  | _ => false

/-- The classifier (Table 3-5); `eng` is a request of a bulk engine, here or at the requester (R572). -/
def classify (s : State) (src : Src) (eng : Bool) (addr : Nat) : Verdict :=
  let e := extentOf addr
  let x := extOf s e
  let added := x.st == .added || (eng && x.st == .assigned)
  let remote := x.ownerDev != 0xFFF
  if 241664 ≤ e then .notAdded false
  else if wrongAccessor s src x then .notAdded false
  else if added = false then .notAdded false
  else if slotOf s x.keySlot = .erased then .notAdded false
  else if remote && src.isFabric then .notAdded true
  else if (remote || src.isFabric) && (tenantOf s x.tenant).mismatch then .mismatch
  else if remote then .egress x.ownerDev (x.ownerExtent * 2 ^ 30 + addr % 2 ^ 30)
  else if (slotOf s x.keySlot).isLoaded then .queue
  else .locked

/-- Class of a request (R117). -/
def classOf (eng stream : Bool) (op : ReqOp) (profile : Nat) : Nat :=
  if eng then 3
  else
    match op with
    | .wr => 2
    | .wrPtl => 2
    | .specRd => 1
    | _ => if bits profile 7 1 = 1 ∨ (bits profile 6 1 = 1 ∧ stream = true) then 1 else 0

/-- Front-cache partition of a request (Table 3-4). -/
def partOf (op : ReqOp) (profile : Nat) : Nat := if op.isWrite then bits profile 0 3 else bits profile 3 3

/-- The head that a request names in an event: its own, or that of the engine's ring. -/
def eventHead (s : State) (src : Src) : Nat :=
  match src with
  | .head h => h
  | .engine e => match engineRing s e with
    | some r => r.head
    | none => 0
  | .fabric _ => 0

/-! ### Flow queues (R123 to R125) -/

/-- A classified request arrives at its flow queue: within reservation when the conformance bucket holds its cost (R125). -/
def joinQueue (tag : Nat) (r : Req) (s : State) : State :=
  let q := 4 * r.tenant + r.cls
  let x := credited s q
  let within := x.conf.holds r.cost
  let x := { x with reqs := x.reqs ++ [tag], conf := if within then x.conf.debit r.cost else x.conf }
  let s := setQueue q x (modReq tag (fun r => { r with within := within }) s)
  if within then s
  else meterLive r.tenant (fun m => { m with exceeded := m.exceeded + 1 }) (countReq 0x000B 1 r s)

/-! ### Requests to a remote owner (R419 to R421) -/

/-- Message kind of a request (R419). -/
def kindOf : ReqOp → MsgKind
  | .rd => .rd
  | .rdData => .rd
  | .specRd => .specRd
  | .wr => .wr
  | .wrPtl => .wrPtl

/-- The oldest request that waits for a host line (R421). -/
def nextRemote (s : State) (line : Nat) : Option Nat :=
  let ws := s.fabric.remote.filter fun p => p.2.line == line && p.2.waits != 0
  ((ws.map fun p => p.2.waits).min?).bind fun n => (ws.find? fun p => p.2.waits == n).map (·.1)

/-- Take a remote request off the table, with its record. -/
def dropRemote (tag : Nat) (s : State) : State :=
  { s with fabric := { s.fabric with remote := tdel s.fabric.remote tag } }

/-- Send a remote request for the first time (R419, R422). A MEM_SPEC_RD holds its tag no longer (R68). -/
def sendRemote (tag : Nat) (s : State) : State :=
  match tfind s.fabric.remote tag with
  | none => s
  | some x =>
    let x := { x with waits := 0, at_ := s.time.mono, msg := { x.msg with epoch := epochTag s } }
    let s := originate x.msg { s with fabric := { s.fabric with remote := tput s.fabric.remote tag x } }
    if x.msg.kind = .specRd then finish tag 0 false 0 6 (dropRemote tag s) else s

/-- Requests that waited for a host line go on, until one is outstanding. -/
def wakeRemote (line : Nat) : Nat → State → State
  | 0, s => s
  | n + 1, s =>
    if s.fabric.remote.any fun p => p.2.line == line && p.2.waits == 0 then s
    else
      match nextRemote s line with
      | none => s
      | some tag => wakeRemote line n (sendRemote tag s)

/-- A remote request is over: it leaves the table, its requester is answered, and the next request to its host line goes
(R403, R421). -/
def endRemote (tag : Nat) (data : HostLine) (poison : Bool) (status outcome : Nat) (s : State) : State :=
  match tfind s.fabric.remote tag with
  | none => s
  | some x => wakeRemote x.line s.fabric.remote.length (finish tag data poison status outcome (dropRemote tag s))

/-- Send a request to a remote owner, or let it wait for an earlier one to its host line (R419, R421). -/
def toRemote (tag dev addr : Nat) (eng pri : Bool) (s : State) : State :=
  match tfind s.ten.reqs tag with
  | none => s
  | some r =>
    let s := countReq 0x000E 1 r (modReq tag (fun r => { r with loc := .remote dev }) s)
    let n := tget s.fabric.gens tag 0
    let line := r.addr / 64
    let busy := s.fabric.remote.any fun p => p.2.line == line
    let last := ((s.fabric.remote.map fun p => p.2.waits).max?).getD 0
    let m : FabMsg :=
      { kind := kindOf r.op, vc := 0, dst := dev, src := s.fabric.devId, tag := tag, gen := n % 16, status := 0,
        poison := r.poison, devload := 0, eng := eng, resend := false, pri := pri, epoch := epochTag s, addr := addr,
        be := if r.op = .wrPtl then r.be else 0, data := r.data }
    let x : Remote := { tag := tag, line := line, at_ := s.time.mono, expired := 0, waits := last + 1, msg := m }
    let s := { s with fabric := { s.fabric with gens := tput s.fabric.gens tag ((n + 1) % 16),
                                                remote := tput s.fabric.remote tag x } }
    if busy then s else sendRemote tag s

/-! ### Receiving a request (R68 to R71, R84, R119) -/

/-- A request as it arrives. -/
def newReq (src : Src) (op : ReqOp) (addr rtag : Nat) (data : HostLine) (be : W64) (poison bad : Bool) (now : Nat) : Req :=
  { src := src, op := op, addr := addr, rtag := rtag, data := data, be := be, poison := poison, badData := bad, tenant := 0,
    cls := 0, within := false, stream := false, level := 0, devload := 0, loc := .queue, at_ := now, part := 0, quiet := false,
    outcome := 0 }

/-- Refuse a request: a read returns poison over data that the manual leaves open, a write is discarded after Cmp. -/
def deny (tag status : Nat) (metered : Bool) (s : State) : State :=
  let s := modReq tag (fun r => { r with devload := plainLoad s, loc := if metered then r.loc else .denied }) s
  match tfind s.ten.reqs tag with
  | none => s
  | some r =>
    if r.op.isWrite then finish tag 0 false status 8 s
    else
      let d := drawBits 512 s
      finish tag d.1 true status 9 d.2

/-- The class, partition, detector and count of a request that is classified (R117, R156). -/
def enterClass (tag : Nat) (eng : Bool) (r : Req) (s : State) : Req × State :=
  let e := extentOf r.addr
  let x := extOf s e
  let prof := profOf s.ten.profA x.prof
  let d : Bool × State := match r.src with
    | .engine _ => (false, s)
    | _ => if e < 241664 then detect r.src x.tenant (r.addr / 256) s else (false, s)
  let r := { r with tenant := x.tenant, stream := d.1, cls := classOf eng d.1 r.op prof, part := partOf r.op prof }
  (r, countReq 0x0001 1 r { d.2 with ten := { d.2.ten with reqs := tput d.2.ten.reqs tag r } })

/-- Send a classified request on (R119). -/
def sendOn (tag : Nat) (eng : Bool) (r : Req) (v : Verdict) (s : State) : State :=
  let x := extOf s (extentOf r.addr)
  match v with
  | .notAdded twice =>
    let s := if r.src.isFabric then
        (if twice then raise 0x031 0x6004 0xFF 4 x.ownerDev s else s)
      else raiseDpa 0x031 0x9002 r.addr (eventHead s r.src) s
    deny tag 1 false s
  | .mismatch =>
    let s := if r.src.isFabric ∨ r.op.isWrite = false then s else raise 0x031 0x7003 x.tenant x.ownerDev (epochTag s) s
    deny tag 3 false s
  | .egress dev addr => toRemote tag dev addr eng (r.cls == 0 || r.cls == 2) s
  | .locked => deny tag 2 true (raise 0x031 0xA001 x.tenant (extentOf r.addr) 0 s)
  | .queue => joinQueue tag r s

/-- The local address of a fabric address that carries the device's own ID (R55). -/
def ownAddr (s : State) : Verdict → Option Nat
  | .egress dev addr => if dev = s.fabric.devId then some addr else none
  | _ => none

/-- Classify a request that holds a tag, and send it on (R119). A fabric address with the device's own ID is handled as a local
access (R55): the request is classified again at the local address it carries, and not a third time. -/
def classifyReq (tag : Nat) (eng : Bool) (r : Req) (s : State) : State :=
  match ownAddr s (classify s r.src eng r.addr) with
  | none =>
    let p := enterClass tag eng r s
    sendOn tag eng p.1 (classify s r.src eng r.addr) p.2
  | some a =>
    let p := enterClass tag eng { r with addr := a } s
    let v := classify s r.src eng a
    sendOn tag eng p.1 (if (ownAddr s v).isSome then .notAdded true else v) p.2

/-- A request takes a tag and is classified; a write that reaches a head in viral is discarded (R84). None while no tag is
free for it (R29). -/
def receive (eng : Bool) (r : Req) (s : State) : Option State :=
  match tagFor s r.src with
  | none => none
  | some tag =>
    let s := { s with ten := { s.ten with reqs := tput s.ten.reqs tag r } }
    let viral := match r.src with
      | .head h => (headOf s h).viral
      | _ => false
    some (if viral && r.op.isWrite then deny tag 0 false s else classifyReq tag eng r s)

/-! ### Dispatch (R126, R127, R131, R503) -/

/-- Request at the head of a queue, with its tag. -/
def queueHead (s : State) (q : Nat) : Option (Nat × Req) :=
  match (queueOf s q).reqs with
  | [] => none
  | tag :: _ => (tfind s.ten.reqs tag).map fun r => (tag, r)

/-- Whether the front cache accepts a request at a level (R153, R162). -/
def accepts (s : State) (level : Nat) (r : Req) : Bool :=
  if r.op.isWrite then level == 1 || writeAccepted s r else readAccepted s r

/-- Cost in bytes of the request at the head of a queue (R124). -/
def headCost (s : State) (q : Nat) : Nat :=
  match queueHead s q with
  | some (_, r) => r.cost
  | none => 64

/-- A queue whose head request may go at level 1 (R126). -/
def levelOne (s : State) (q : Nat) : Bool :=
  match queueHead s q with
  | none => false
  | some (_, r) => (queueOf s q).serv.holds r.cost && accepts s 1 r

/-- A queue whose head request may go at level 2 (R126, R131). -/
def levelTwo (s : State) (q : Nat) : Bool :=
  match queueHead s q with
  | none => false
  | some (_, r) =>
    weightOf (queueQos s q) (q % 4) != 0 && ceilHolds s q (queueOf s q) r.cost && accepts s 2 r &&
      (q % 4 != 2 || s.place.cap == .normal)

/-- The member that comes next after a position in a circle: the least not below it, otherwise the least. -/
def nextFrom (pos : Nat) (l : List Nat) : Option Nat :=
  match (l.filter fun q => decide (pos ≤ q)).min? with
  | some q => some q
  | none => l.min?

/-- The first class of R126's order with an eligible queue, and its queue in round-robin. -/
def pickOne (s : State) (qs : List Nat) : Option Nat :=
  [0, 2, 1, 3].findSome? fun c => nextFrom (s.ten.rr.getD c 0) (qs.filter fun q => q % 4 == c)

/-- DevLoad of a dispatched request (Table 2-3, R127): judged on its queue after the debit. -/
def loadOf (s : State) (q level : Nat) : Nat :=
  let x := queueOf s q
  let depth := depthOf (queueQos s q) (q % 4)
  if deviceSevere s || !ceilHolds s q x 64 || decide (depth ≤ x.reqs.length) then 3
  else if level = 2 then 2
  else if 4 * x.reqs.length < depth then 0 else 1

/-- Dispatch the request at the head of a queue (R126, R127). -/
def dispatch (q level : Nat) (s : State) : State :=
  match queueHead s q with
  | none => s
  | some (tag, r) =>
    let x := queueOf s q
    let rest := x.reqs.drop 1
    let deficit := if rest.isEmpty then 0 else if level = 2 then x.deficit - r.cost else x.deficit
    let x := { x with reqs := rest, ceil := x.ceil.debit r.cost, serv := if level = 1 then x.serv.debit r.cost else x.serv,
                      deficit := deficit, lvl1 := x.lvl1 + (if level = 1 then 1 else 0),
                      lvl2 := x.lvl2 + (if level = 2 then 1 else 0) }
    let s := setQueue q x { s with therm := { s.therm with lastDispatch := s.time.mono } }
    let s := if level = 2 then countReq 0x000D 1 r s else s
    let r := { r with level := level, devload := loadOf s q level }
    let s := { s with ten := { s.ten with reqs := tput s.ten.reqs tag r } }
    if r.op.isWrite then frontWrite tag r s else frontRead tag r s

/-- One dispatch slot of the arbiter (R126). -/
def dispatchSlot (s : State) : State :=
  let s := creditAll s
  let qs := (s.ten.queues.filter fun p => !p.2.reqs.isEmpty).map (·.1)
  match pickOne s (qs.filter (levelOne s)) with
  | some q =>
    dispatch q 1 { s with ten := { s.ten with rr := s.ten.rr.set (q % 4) (q + 4) } }
  | none =>
    let ok := qs.filter (levelTwo s)
    -- the queue that the round-robin is at goes on while its deficit covers its request
    if ok.contains s.ten.drr && decide (headCost s s.ten.drr ≤ (queueOf s s.ten.drr).deficit) then dispatch s.ten.drr 2 s
    else
      match nextFrom (s.ten.drr + 1) ok with
      | none => s
      | some q =>
        let x := queueOf s q
        let s := setQueue q { x with deficit := x.deficit + 64 * weightOf (queueQos s q) (q % 4) } s
        dispatch q 2 { s with ten := { s.ten with drr := q } }

/-- In Hot the arbiter leaves HOT_GAP between dispatches (R503), but not during a drain. -/
def gapHolds (s : State) : Bool :=
  decide (2 ≤ appliedLevel s) && decide (s.time.mono < s.therm.lastDispatch + s.therm.policy.hotGap)

end Sys2Proof.Machine
end

