-- ==== Sys2Proof/Machine/Counters.lean ====
section
/-!
DEFINITION. Counters, sampling and tenant metering (19_counters_metering_and_engines.md, R554 to R564).
-/
namespace Sys2Proof.Machine

/-! ### Descriptors (R555, R556) -/

/-- The descriptor that 16 bytes give (Table 19-1). -/
def ctrDescOf (b : List Byte) (off : Nat) : CtrDesc :=
  let v := le b off 16
  { event := bits v 112 16, mode := bits v 110 2, enable := bits v 109 1 == 1, readable := bits v 108 1 == 1,
    sample := bits v 107 1 == 1, origin := bits v 104 3, cls := bits v 100 4, masterSel := bits v 98 2,
    master := bits v 86 12, tenantEn := bits v 85 1 == 1, tenant := bits v 69 16, addrEn := bits v 68 1 == 1,
    first := bits v 50 18, last := bits v 32 18, window := bits v 12 20 }

/-- The 16 bytes of a descriptor (Table 19-1). -/
def ctrDescBytes (d : CtrDesc) : List Byte :=
  leBytes 16 (d.event * 2 ^ 112 + d.mode * 2 ^ 110 + b2n d.enable * 2 ^ 109 + b2n d.readable * 2 ^ 108 +
    b2n d.sample * 2 ^ 107 + d.origin * 2 ^ 104 + d.cls * 2 ^ 100 + d.masterSel * 2 ^ 98 + d.master * 2 ^ 86 +
    b2n d.tenantEn * 2 ^ 85 + d.tenant * 2 ^ 69 + b2n d.addrEn * 2 ^ 68 + d.first * 2 ^ 50 + d.last * 2 ^ 32 +
    d.window * 2 ^ 12)

/-- What Table 19-2 says of an event: its modes (bit 0 edge, 1 level, 2 window) and its filters (bit 0 O, 1 M, 2 A, 3 C, 4 T). -/
def eventInfo (code : Nat) : Option (Nat × Nat) :=
  if code = 0 then none
  else if code ≤ 0x0A then some (if code = 2 ∨ code = 3 then 5 else 1, 31)
  else if code = 0x0B then some (1, 30)
  else if code = 0x0C then some (1, 22)
  else if code = 0x0D then some (1, 26)
  else if code = 0x0E then some (1, 30)
  else if code = 0x20 then some (2, 2)
  else if code = 0x21 then some (2, 24)
  else if code = 0x22 then some (2, 16)
  else if code = 0x23 then some (2, 0)
  else if code = 0x30 then some (1, 17)
  else if code = 0x31 then some (1, 0)
  else if 0x40 ≤ code ∧ code ≤ 0x4F then some (5, 2)
  else if code = 0x50 ∨ code = 0x51 then some (5, 0)
  else if code = 0x52 ∨ code = 0x53 then some (1, 0)
  else none

/-- A descriptor that Set Counter Configuration takes (R555), with the ranges of Table 19-1. -/
def ctrDescOk (d : CtrDesc) : Bool :=
  match eventInfo d.event with
  | none => false
  | some (modes, f) =>
    d.mode != 3 && bits modes d.mode 1 == 1 && (d.origin == 0 || bits f 0 1 == 1) && (d.masterSel == 0 || bits f 1 1 == 1) &&
      (!d.addrEn || bits f 2 1 == 1) && (d.cls == 0 || bits f 3 1 == 1) && (!d.tenantEn || bits f 4 1 == 1) &&
      !(d.sample && d.mode == 2) && (!d.readable || (d.tenantEn && bits f 4 1 == 1)) && d.masterSel != 3 &&
      (!d.addrEn || decide (d.first ≤ d.last)) && (d.mode != 2 || (decide (1 ≤ d.window) && decide (d.window ≤ 1000000)))

/-- Put back a counter. -/
def setCtr (set n : Nat) (c : Ctr) (s : State) : State :=
  { s with count := { s.count with ctrs := tput s.count.ctrs (64 * set + n) c } }

/-- A counter that a tenant's page may show (R564). -/
def ctrShown (d : CtrDesc) (t : Nat) : Bool := !d.enable || (d.readable && d.tenantEn && d.tenant == t)

/-- Group g may be mapped into a tenant's page: each of its eight counters may be shown (R564). -/
def groupShown (s : State) (t g : Nat) : Bool :=
  (List.range 8).all fun i => ctrShown (ctrOf s (g / 8) (8 * (g % 8) + i)).desc t

/-- Groups that no longer meet the condition are unmapped from every page (R564). -/
def unmapBroken (s : State) : State :=
  { s with count := { s.count with
    meters := tmap s.count.meters fun t m => { m with groups := m.groups.filter fun g => groupShown s t g } } }

/-- GET_COUNTER_CONFIGURATION (CA00h). -/
def execGetCounterConfiguration (cci : Fin 10) (inp : List Byte) (s : State) : Res :=
  vendor cci 0xCA00 inp 1 []
    (fun s =>
      if 4 < byteAt inp 0 then .fail .invalidInput
      else answer s ((List.range 64).flatMap fun n => ctrDescBytes (ctrOf s (byteAt inp 0) n).desc)) s

/-- SET_COUNTER_CONFIGURATION (CA01h, R555): the count restarts at 0, with the overflow bit clear and no sample held. -/
def execSetCounterConfiguration (cci : Fin 10) (inp : List Byte) (s : State) : Res :=
  vendor cci 0xCA01 inp 20 [(2, 2)]
    (fun s =>
      let d := ctrDescOf inp 4
      if 4 < byteAt inp 0 ∨ 63 < byteAt inp 1 ∨ ctrDescOk d = false then .fail .invalidInput
      else .done .none (unmapBroken (setCtr (byteAt inp 0) (byteAt inp 1)
        { Ctr.reset with desc := d, winNo := windowOf { Ctr.reset with desc := d } s.time.tbNow } s))) s

/-- READ_COUNTERS (CA02h, R558). -/
def execReadCounters (cci : Fin 10) (inp : List Byte) (s : State) : Res :=
  vendor cci 0xCA02 inp 1 []
    (fun s =>
      let set := byteAt inp 0
      if 4 < set then .fail .invalidInput
      else
        let ovf := (List.range 64).foldl (fun a n => a + b2n (ctrOf s set n).ovf * 2 ^ n) 0
        answer s (((List.range 64).flatMap fun n => leBytes 8 (ctrOf s set n).count) ++ leBytes 8 ovf)) s

/-! ### Counts that time brings (R557) -/

/-- The level of a level event in a set, under a descriptor's filters (Table 19-2). -/
def counterLevel (s : State) (set : Nat) (d : CtrDesc) : Nat :=
  let mine := fun (r : Req) => passes d (reqAttr r) && (set == 4 || r.src == .head set)
  if d.event = 0x20 then (s.ten.reqs.filter fun p => mine p.2).length
  else if d.event = 0x21 then (s.ten.reqs.filter fun p => p.2.loc == ReqAt.queue && mine p.2).length
  else if set ≠ 4 then 0
  else if d.event = 0x22 then
    (s.front.lines.filter fun p => countsDirty p.2 && passes d { EvAttr.bare with tenant := some p.2.tenant }).length
  else if d.event = 0x23 then s.front.miss.length
  else 0

/-- One ns of level counting: the level is added once per CORE cycle, two a ns, while CORE runs (R557). -/
def levelTick (s : State) : State :=
  if domOf s 7 = .running then
    let add := fun (k : Nat) (c : Ctr) =>
      if (c.desc.enable && c.desc.mode == 1 && (k / 64 == 4 || (headOf s (k / 64)).present)) = true then
        ctrAdd c (2 * counterLevel s (k / 64) c.desc)
      else c
    { s with count := { s.count with ctrs := tmap s.count.ctrs add } }
  else s

/-- A window counter whose window has ended: its total waits for the count to take it, and the next window starts at 0 (R557). -/
def turnWindow (tb : Nat) (c : Ctr) : Ctr :=
  if c.desc.enable && c.desc.mode == 2 && windowOf c tb != c.winNo then
    { c with winNo := windowOf c tb, ended := some c.win, win := 0 }
  else c

/-- One ns of the window counters. -/
def windowTick (s : State) : State :=
  { s with count := { s.count with ctrs := tmap s.count.ctrs fun _ c => turnWindow s.time.tbNow c } }

/-- COUNTER_WINDOW_END (R557): the count takes the total of the window that has ended. -/
def execCounterWindowEnd (set : Fin 5) (counter : Fin 64) (s : State) : Res :=
  let c := turnWindow s.time.tbNow (ctrOf s set counter)
  match c.ended with
  | none => .next s
  | some n => .next (setCtr set counter { c with count := n % 2 ^ 64, ended := none } s)

/-! ### Head window (R558) -/

/-- HEAD_COUNT_WRITE (R558): a host presets a count of its head. -/
def execHeadCountWrite (head : Fin 4) (counter : Fin 64) (part : RegPart) (value : W64) (s : State) : Res :=
  let c := ctrOf s head counter
  if (headOf s head).present && (headOf s head).linkUp then
    .next (setCtr head counter { c with count := writePart c.count part value.toNat } s)
  else .next s

/-- COUNTER_OVERFLOW_CLEAR (R558): RW1C, one bit per counter of the head. -/
def execCounterOverflowClear (head : Fin 4) (mask : W64) (s : State) : Res :=
  if (headOf s head).present && (headOf s head).linkUp then
    let ctrs := tmap s.count.ctrs fun k c =>
      if k / 64 = head.val ∧ mask.getLsbD (k % 64) = true then { c with ovf := false } else c
    .next { s with count := { s.count with ctrs := ctrs } }
  else .next s

/-! ### Sampling (R559) -/

/-- Attributes of a completion. -/
def completionAttr (x : Completion) : EvAttr :=
  { origin := x.origin, head := if x.origin = 0 ∧ x.opcode < 4 then some x.source else none,
    dev := if x.origin = 1 then some (x.source % 4096) else none, cls := some x.cls, tenant := some x.tenant,
    addr := some x.addr }

/-- A watching sampler examines a completion: it captures the first that passes, and gives up after 32 (R559). -/
def sampleStep (x : Completion) (c : Ctr) : Ctr :=
  match c.armed with
  | none => c
  | some k =>
    let y : CtrSample :=
      { addr := x.addr, tenant := x.tenant, tag := x.tag, opcode := x.opcode, clsOrigin := x.cls + x.origin * 4,
        source := x.source, outcome := x.outcome, skid := k, latency := x.latency, time := x.time, valid := true,
        lost := c.sample.isSome }
    if passes c.desc (completionAttr x) then { c with armed := none, sample := some y }
    else if 31 ≤ k then
      { c with armed := none,
               sample := some { addr := 0, tenant := 0, tag := 0, opcode := 0, clsOrigin := 0, source := 0, outcome := 0,
                                skid := 32, latency := 0, time := 0, valid := false, lost := c.sample.isSome } }
    else { c with armed := some (k + 1) }

/-- SAMPLE_CAPTURE (R559): the oldest completion shown is examined by the samplers of its set that watch. -/
def execSampleCapture (s : State) : Res :=
  match s.count.completions with
  | [] => .next s
  | x :: rest =>
    let ctrs := tmap s.count.ctrs fun k c => if k / 64 = x.set then sampleStep x c else c
    .next { s with count := { s.count with ctrs := ctrs, completions := rest } }

/-- The 32 bytes of a sample (Table 19-3); CLASS_ORIGIN gives the origin as a bit of ORIGIN. -/
def sampleBytes (y : CtrSample) : List Byte :=
  leBytes 6 y.addr ++ leBytes 2 y.tenant ++ leBytes 2 y.tag ++ leBytes 1 y.opcode ++
    leBytes 1 (if y.valid then y.clsOrigin % 4 + 4 * 2 ^ (y.clsOrigin / 4) else 0) ++ leBytes 2 y.source ++
    leBytes 1 y.outcome ++ leBytes 1 y.skid ++ leBytes 4 y.latency ++ leBytes 8 y.time ++
    leBytes 1 (b2n y.valid + b2n y.lost * 2) ++ zeros 3

/-- GET_COUNTER_SAMPLE (CA05h, R559): the held sample is read and released. -/
def execGetCounterSample (cci : Fin 10) (inp : List Byte) (s : State) : Res :=
  vendor cci 0xCA05 inp 2 []
    (fun s =>
      let set := byteAt inp 0
      let n := byteAt inp 1
      if 4 < set ∨ 63 < n then .fail .invalidInput
      else
        let c := ctrOf s set n
        match c.sample with
        | none => answer s (zeros 32)
        | some y => .done (.bytes (sampleBytes y)) (setCtr set n { c with sample := none } s)) s

/-! ### Tenant metering (R560 to R564) -/

/-- METER_OCCUPANCY_TICK (R561). -/
def execMeterOccupancyTick (s : State) : Res := if devUp s then .next (meterMs s) else .next s

/-- SET_TENANT_METERING (CA03h, R564). -/
def execSetTenantMetering (cci : Fin 10) (inp : List Byte) (s : State) : Res :=
  vendor cci 0xCA03 inp 12 [(3, 1)]
    (fun s =>
      let t := le inp 0 2
      let g := le inp 4 8
      let gs := (List.range 40).filter fun i => bits g i 1 == 1
      if (tenantOf s t).st = .free then .fail .invalidState
      else if 2 ^ 40 ≤ g ∨ (gs.all (groupShown s t)) = false then .fail .invalidInput
      else
        journaled s
          (let s := { s with count := { s.count with meters := tput s.count.meters t { meterOf s t with groups := gs } } }
           .done .none (journalTenant t (setTenant t { tenantOf s t with meterEn := bits (byteAt inp 2) 0 1 == 1 } s)))) s

/-- A metering block (Table 19-4). -/
def meterBytes (minute seq buf : Nat) (m : MeterBlock) : List Byte :=
  leBytes 8 minute ++ leBytes 4 (seq % 2 ^ 31 * 2 + buf) ++ zeros 4 ++ leBytes 8 m.bytesRead ++ leBytes 8 m.bytesWritten ++
    leBytes 8 m.frames ++ leBytes 8 (m.fcByteMs / 1000) ++ leBytes 8 m.remote ++ leBytes 8 m.exceeded ++ leBytes 8 m.start ++
    zeros 56

/-- A tenant's metering page (Table 19-5). -/
def meterPage (s : State) (t : Nat) : List Byte :=
  let m := meterOf s t
  let ctrs := (List.range 40).flatMap fun g =>
    if m.groups.contains g then
      (List.range 8).flatMap fun i => leBytes 8 (ctrOf s (g / 8) (8 * (g % 8) + i)).count
    else zeros 64
  meterBytes s.count.snap0.1 s.count.snap0.2 0 m.buf0 ++ meterBytes s.count.snap1.1 s.count.snap1.2 1 m.buf1 ++
    meterBytes 0 0 0 m.live ++ zeros 640 ++ ctrs ++ zeros 512

/-- GET_TENANT_METER (CA04h, R562): the metering page. -/
def execGetTenantMeter (cci : Fin 10) (inp : List Byte) (s : State) : Res :=
  vendor cci 0xCA04 inp 3 []
    (fun s =>
      let t := le inp 0 2
      if (tenantOf s t).st = .free then .fail .invalidState
      else if 1 < byteAt inp 2 then .fail .invalidInput
      else answer s (meterPage s t)) s

end Sys2Proof.Machine
end

