-- ==== Sys2Proof/Machine/Drift.lean ====
section
/-!
DEFINITION. Meanings of the drift, weathering and topping commands (09_drift_vintage_and_topping.md).
-/
namespace Sys2Proof.Machine

/-! ### Weathering (R299 to R302) -/

/-- Die-set temperature in °C; a broken package sensor counts as the MEDIA zone's Hot threshold + 1 °C (R299). -/
def dieSetTemp (s : State) (ds : Nat) : Int :=
  let temps := tfilter s.drift.temps fun k _ => !(sensorOf s (24 + k)).broken
  setTemp { s with drift := { s.drift with temps := temps } } ((zoneThr s 1 2 : Int) + 1) ds

/-- A second of weathering of a die set; a gain of 65,536 equivalent seconds, or the first second after a recovery's
Memory_Active, sweeps it (R301 to R303). -/
def weatherOne (all : Bool) (s : State) (ds : Nat) : State :=
  let s := weatherSet ds (setAf s ds (dieSetTemp s ds)) s
  if (all || decide (65536 * 65536 ≤ tget s.drift.residual ds 0)) && mediaUp s && !journalFull s then sweepSet ds s else s

/-- WEATHERING_TICK (R301): each second of the time base. -/
def execWeatheringTick (s : State) : Res :=
  if !s.map.loaded || !devUp s then .next s
  else
    let all := s.drift.sweepDue && s.drift.activeAt.isSome && mediaUp s
    let s := (dieSets s).foldl (weatherOne all) s
    .next (if all then { s with drift := { s.drift with sweepDue := false } } else s)

/-- DRIFT_CLOCK_WRITE (R302): every 60 s. -/
def execDriftClockWrite (s : State) : Res := if s.map.loaded && devUp s && s.mgmt.media.mode == .running then .next (writeDriftClock s) else .next s

/-- A package's reading: kept for weathering, given to the thermal monitor, and compared with the temperature of its last
training (R299, R347, R353, R498). -/
def packageTemp (ch p : Nat) (t : Option Int) (s : State) : State :=
  let k := 8 * ch + p
  if !packagePresent s k then s
  else
    let d := dieId ch p 0
    let s := sampleSensor (24 + k) t s
    match t with
    | none => s
    | some v =>
      let s := setDie d { dieOf s d with temp := v, tempDone := true } s
      let s := (pkgDies ch p).foldl (fun s d =>
        let x := dieOf s d
        if x.present then setDie d { x with hot := decide ((16 * tempHot x : Int) < v) } s else s) s
      let s := { s with drift := { s.drift with temps := tput s.drift.temps k (v, s.time.mono) } }
      let c := chanOf s ch
      match tfind c.pkgs p with
      | some x => if 160 ≤ (v - x.temp).natAbs then setChan ch { c with wantRetrain := true } s else s
      | none => s

/-- PACKAGE_TEMP_READ (R299): once per second, TEMP READ of every package of a channel. -/
def execPackageTempRead (ch : Fin 36) (temps : List (Option Int)) (s : State) : Res :=
  if (chanOf s ch).mode = .down ∨ (chanOf s ch).mreset then .next s
  else .next ((List.range 8).foldl (fun s p => packageTemp ch p (temps.getD p none) s) s)

/-! ### Trim and read counts (R309, R312) -/

/-- How a threshold moves at the end of a window (R309). -/
def trimStep (up dn : Nat) : Int :=
  if 32 ≤ up ∧ 2 * dn ≤ up then 1 else if 32 ≤ dn ∧ 2 * up ≤ dn then -1 else 0

/-- TRIM_WINDOW_END (R309): TRIM_WINDOW × 256 decodes of a group; its counts start again. -/
def execTrimWindowEnd (g : Nat) (s : State) : Res :=
  match s.drift.windows.find? fun w => w.group == g with
  | none => .next s
  | some w =>
    if w.decodes < s.drift.trimWindow * 256 ∨ journalFull s then .next s
    else
      let m := fun i => trimStep (w.up.getD i 0) (w.dn.getD i 0)
      let s := stepTrims g (m 0) (m 1) (m 2) s
      .next { s with drift := { s.drift with windows := s.drift.windows.filter fun x => x.group != g } }

/-- GROUP_READS_RECORD (R312): groups whose READ_COUNT has crossed a multiple of 2^18. -/
def execGroupReadsRecord (s : State) : Res :=
  if s.drift.readDue.isEmpty ∨ journalFull s then .next s
  else
    let xs := s.drift.readDue.map fun g => (g, (groupAt s g).reads)
    let s := commitAll ((inSixes xs.length xs).map .groupReads) s
    .next { s with drift := { s.drift with readDue := [] } }

/-! ### Topping (R313 to R316) -/

/-- A group meets a due condition (R313). -/
def topDue (s : State) (g : Nat) (x : Group) : Bool :=
  decide (groupMargin s g < s.drift.topMargin) || decide (s.drift.topReads * 1000000 < x.reads) ||
    decide (s.drift.topAge * 86400 < weathering x)

/-- A group meets an overdue condition (R313). -/
def topOverdue (s : State) (g : Nat) (x : Group) : Bool :=
  decide (groupMargin s g ≤ s.drift.topUrgent) || decide (3 * s.drift.topReads * 1000000 ≤ 2 * x.reads) ||
    decide (3 * s.drift.topAge * 86400 ≤ 2 * weathering x) || x.trimSat

/-- Put a topping state; Overdue is logged, and a group leaves it only when its racking starts (R314, 3009h). -/
def setTop (g : Nat) (t : TopState) (s : State) : State :=
  let old := tget s.drift.top g .none
  if old = t ∨ old = .inProgress ∨ old = .overdue then s
  else
    let s := { s with drift := { s.drift with top := tput s.drift.top g t } }
    if t = .overdue then raise 0x011 0x3009 g 0 0 s else s

/-- Evaluate a group (R313, R315): an Open group that meets a condition is closed first, and work of an
overdue group moves to priority 5 (R321). -/
def evalTop (s : State) (p : Nat × Group) : State :=
  let g := p.1
  let x := groupAt s g
  let due := topDue s g x
  let late := topOverdue s g x
  if x.valid = 0 ∨ (due = false ∧ late = false) then s
  else
    let st := if late then TopState.overdue else .due
    match x.st with
    | .closed =>
      let s := setTop g st s
      if late then urge (fun r => r.group == g && r.step != 0) s else s
    | .open_ =>
      if (x.role = 1 ∨ x.role = 2) ∧ journalFull s = false then
        let s := commit (.groupClose g x.wptr) s
        let s := { s with place := { s.place with open1 := tfilter s.place.open1 fun _ v => v != g,
                                                  open2 := tfilter s.place.open2 fun _ v => v != g } }
        setTop g st s
      else s
    | _ => s

/-- TOPPING_EVALUATE (R313). -/
def execToppingEvaluate (s : State) : Res :=
  if s.map.loaded && mediaUp s then .next ((listedGroups s).foldl evalTop s) else .next s

/-- The group of a topping state that goes first: the lowest margin, then the largest weathering (R315), of die sets without
racking in progress. -/
def topFirst (s : State) (t : TopState) : Option Nat :=
  let busySet := fun g => s.place.racks.any fun r => dieSetOf r.group == dieSetOf g && r.step != 0
  let gs := (s.drift.top.filter fun p => p.2 == t && !busySet p.1 && !isDegraded s (dieSetOf p.1) &&
    (groupAt s p.1).st == .closed && (groupAt s p.1).valid != 0).map (·.1)
  let better := fun (a b : Nat) => decide (groupMargin s a < groupMargin s b) ||
    (groupMargin s a == groupMargin s b && decide (weathering (groupAt s b) < weathering (groupAt s a)))
  gs.foldl (fun acc g => match acc with
    | none => some g
    | some h => if better g h then some g else some h) none

/-- TOPPING_START (R315, Table 8-3): the first Overdue group at priority 5, else the first Due one at priority 6. -/
def execToppingStart (s : State) : Res :=
  if !racksRun s ∨ drainRunning s ∨ !s.map.loaded ∨ journalFull s then .next s
  else
    match topFirst s .overdue with
    | some g => .next (beginRack g (addRack g 2 5 none false false s))
    | none =>
      match topFirst s .due with
      | some g => .next (beginRack g (addRack g 2 6 none false false s))
      | none => .next s

/-- A group holds a frame of an image. -/
def holdsImage (s : State) (seq g : Nat) : Bool := s.persist.image.any fun p => groupOf p.1 == g && p.2.seq == seq

/-- A pending image of which a drain-set group is due (R316). -/
def imageDue (s : State) : Option RunRec :=
  s.persist.imageList.find? fun r => imagePending s r &&
    (drainGroups s r.set).any fun g => holdsImage s r.seq g && topDue s g (groupAt s g)

/-- Copy an image's frames unchanged into a drain set from frame index w on, dealt to the die sets as in a drain (R190, R316). -/
def copyImage (fs : List ImgFrame) (set w : Nat) (parts : List Nat) (s : State) : State :=
  fs.foldl (fun s f =>
    match (parts[f.no % max 1 parts.length]?).bind (drainGroup s set) with
    | none => s
    | some g =>
      let q := takeWseq s
      let i := w + f.no / max 1 parts.length
      modGroup g (fun x => { x with wptr := max x.wptr (i + 1) })
        { q.2 with persist := { q.2.persist with image := tput q.2.persist.image (pfaOf g i) { f with wseq := q.1 } } }) s

/-- A relocation without room is logged once a day (R316; 3009h is the model's choice of code). -/
def logRelocation (g : Nat) (s : State) : State :=
  let due := match s.persist.relocAt with
    | none => true
    | some t => decide (t + 86400000000000 ≤ s.time.mono)
  if due then raise 0x011 0x3009 g 0 0 { s with persist := { s.persist with relocAt := some s.time.mono } } else s

/-- IMAGE_RELOCATE (R316): the image's frames are copied unchanged into the other drain set, whose place IMAGE_LIST names before
IMAGE_RELOCATED commits (R194). -/
def execImageRelocate (s : State) : Res :=
  if drainRunning s ∨ journalFull s ∨ !s.map.loaded then .next s
  else
    match imageDue s with
    | none => .next s
    | some r =>
      let other := 1 - r.set
      let w := setW s other
      let parts := drainParts s
      let fs := imageOn s r
      let rounds := (fs.map fun f => f.no / max 1 parts.length + 1).foldl max 0
      if parts.isEmpty ∨ s.persist.setReset.contains other ∨ 131072 < w + rounds then
        .next (logRelocation ((drainGroups s r.set).headD 0) s)
      else
        let s := putW other (w + rounds) (copyImage fs other w parts s)
        let move := fun (x : RunRec) => if x.seq = r.seq then { x with set := other, startW := w, rounds := rounds } else x
        let s := writeImageList (s.persist.imageList.map move) { s with persist := { s.persist with relocAt := none } }
        .next (armDrain (commit (.imageRelocated r.seq other w rounds) s))

/-! ### Commands (R322) -/

/-- Groups in a topping state. -/
def topCount (s : State) (t : TopState) : Nat := (s.drift.top.filter fun p => p.2 == t).length

/-- GET_DRIFT_STATE (C310h). -/
def execGetDriftState (cci : Fin 10) (inp : List Byte) (s : State) : Res :=
  vendor cci 0xC310 inp 4 []
    (fun s =>
      let first := le inp 0 2
      let n := le inp 2 2
      if n = 0 ∨ 64 < n ∨ 512 < first + n then .fail .invalidInput
      else
        let hour := (s.drift.topTimes.filter fun t => decide (s.time.mono ≤ t + 3600000000000)).length
        let one := fun i =>
          let ds := first + i
          let t := dieSetTemp s ds
          leBytes 2 (unsignedOf 16 t) ++ zeros 2 ++ leBytes 4 (setAf s ds t) ++
            leBytes 4 (tget s.drift.residual ds 0 / 65536) ++ zeros 4
        answer s (leBytes 4 (topCount s .due) ++ leBytes 4 (topCount s .overdue) ++ leBytes 4 (topCount s .inProgress) ++
          leBytes 4 hour ++ leBytes 8 s.drift.interval ++ leBytes 1 (b2n s.drift.provisional) ++ zeros 3 ++
          leBytes 4 s.drift.windows.length ++ (List.range n).flatMap one)) s

/-- The record of a drift policy within its ranges (R318). -/
def driftPolicyRec (inp : List Byte) (s : State) : Option (List Byte) :=
  if driftPolicyOk (driftPolicyOf inp s.drift) then some (inp.take 8) else none

/-- SET_DRIFT_POLICY (C311h, R318): kept in the cellar book. -/
def execSetDriftPolicy (cci : Fin 10) (inp : List Byte) (s : State) : Res :=
  vendor cci 0xC311 inp 8 []
    (fun s => storeSetting 0x12 (driftPolicyRec inp s) s) s

/-- GET_DRIFT_TABLE (C312h, R306, R308). -/
def execGetDriftTable (cci : Fin 10) (inp : List Byte) (s : State) : Res :=
  vendor cci 0xC312 inp 3 []
    (fun s =>
      let d := dieId (byteAt inp 0) (byteAt inp 1) (byteAt inp 2)
      if 36 ≤ byteAt inp 0 ∨ 8 ≤ byteAt inp 1 ∨ 16 ≤ byteAt inp 2 ∨ (dieOf s d).present = false then .fail .invalidInput
      else
        let t := tableOf s d
        answer s (leBytes 1 t.source ++ zeros 3 ++ leBytes 1 1 ++ leBytes 2 t.ea ++ leBytes 2 t.retention ++
          (List.range 24).flatMap fun i =>
            let e := t.ents.getD i (0, 0, 0, 0)
            leBytes 1 (unsignedOf 8 e.1) ++ leBytes 1 (unsignedOf 8 e.2.1) ++ leBytes 1 (unsignedOf 8 e.2.2.1) ++
              leBytes 1 e.2.2.2)) s

end Sys2Proof.Machine
end

