-- ==== Sys2Proof/Machine/MediaChan.lean ====
section
/-!
DEFINITION. The media channel controller (10_media_channel.md R344 to R357): parameter pages, bring-up, training, loss of a
package group, status polls of busy dies, and the commands of the chapter.
-/
namespace Sys2Proof.Machine

/-! ### Parameter pages (R344 to R346) -/

/-- T_PROG_MAX and T_RST_MAX of a die in ns (Tables 10-10 and 10-11). -/
def dieMax (x : DieSt) : Nat × Nat :=
  match goodPage x with
  | some b => (le b 42 2 * 10, le b 44 2 * 1000)
  | none => (6000, 3000000)

/-- The drift table of a page (Table 10-11 bytes 64 to 164). -/
def pageDrift (b : List Byte) (source : Nat) : DriftTable :=
  { ea := le b 65 2, retention := le b 67 2, source := source,
    ents := (List.range 24).map fun i =>
      let o := 69 + 4 * i
      (signed 8 (byteAt b o), signed 8 (byteAt b (o + 1)), signed 8 (byteAt b (o + 2)), byteAt b (o + 3)) }

/-- A die's page does not conform (R346); `found` is the number of dies of its package. -/
def pageOdd (x : DieSt) (found : Nat) : Bool :=
  match goodPage x with
  | none => false
  | some b =>
    le b 32 2 != 1024 || byteAt b 34 != 17 || byteAt b 35 != 4 || le b 36 2 != 592 || byteAt b 61 != found ||
      decide (240 < le b 38 2) || decide (600 < le b 40 2) || decide (600 < le b 42 2) || decide (3000 < le b 44 2)

/-! ### Failures and stopped work (R355, R356, Table 8-5) -/

/-- Dies that bring-up has found on a channel. -/
def chanDies (s : State) (c : Nat) : List Nat :=
  (List.range 8).flatMap fun p => (List.range ((chanOf s c).found.getD p 0)).map fun d => dieId c p d

/-- A channel fails (Table 8-5): as a die failure for every die on it. Before the map is loaded the die sets are Degraded at the
end of recovery. -/
def failChannel (c : Nat) (s : State) : State :=
  let s := setChan c { chanOf s c with mode := .failed, trainCci := none, wantRetrain := false } s
  let s := syncMq (raise 0x011 0x300A c 0 0 s)
  if s.map.loaded then
    limitsRecompute (((dieSets s).filter fun ds => dsK ds == c % 4).foldl (fun s ds => degradeSet ds (c / 4) s) s)
  else s

/-- MRESET_N_ASSERT (R349, R356). -/
def execMresetNAssert (ch : Fin 36) (s : State) : Res := .next (assertMreset ch (stopWork ch s))

/-! ### Population (R9 to R12, R351) -/

/-- Dies of a package, those that MAP_ROOT names included (R351). -/
def diesOf (s : State) (c p : Nat) : Nat :=
  let named := match s.map.root with
    | some r => if c % 4 < r.popCh / 9 ∧ p < r.popPk then r.popDies else 0
    | none => 0
  max named ((chanOf s c).found.getD p 0)

/-- A channel is populated. -/
def chanPop (s : State) (c : Nat) : Bool := (List.range 8).any fun p => diesOf s c p != 0

/-- Channels in the order of R9 and R12. -/
def chanOrder : List Nat := (List.range 4).flatMap fun k => (List.range 9).map fun q => 4 * q + k

/-- The conforming number of channels per quad: the largest of 4, 2 and 1 whose channels are all populated (R12). -/
def conformK (s : State) : Nat :=
  let full := fun k => (List.range 36).all fun c => decide (k ≤ c % 4) || chanPop s c
  if full 4 then 4 else if full 2 then 2 else 1

/-- The conforming number of packages (R12). -/
def conformP (s : State) (chans : List Nat) : Nat :=
  let full := fun n => chans.all fun c => (List.range n).all fun p => diesOf s c p != 0
  if full 8 then 8 else if full 4 then 4 else if full 2 then 2 else 1

/-- A package that breaks R11, or holds a die that does not conform under R346. -/
def pkgOdd (s : State) (want c p : Nat) : Bool :=
  let n := diesOf s c p
  !(n == 4 || n == 8 || n == 16) || n != want ||
    (List.range ((chanOf s c).found.getD p 0)).any fun d => pageOdd (dieOf s (dieId c p d)) n

/-- The first channel and package that do not conform, in the order of R12, or the population. -/
def population (s : State) : (Nat × Nat) ⊕ (Nat × Nat × Nat) :=
  let k := conformK s
  match chanOrder.find? fun c => decide (c % 4 < k) != chanPop s c with
  | some c => .inl (c, 0)
  | none =>
    let chans := chanOrder.filter fun c => decide (c % 4 < k)
    let n := conformP s chans
    let pairs := chans.flatMap fun c => (List.range 8).map fun p => (c, p)
    match pairs.find? fun x => decide (x.2 < n) != (diesOf s x.1 x.2 != 0) with
    | some x => .inl x
    | none =>
      let want := diesOf s 0 0
      match (pairs.filter fun x => decide (x.2 < n)).find? fun x => pkgOdd s want x.1 x.2 with
      | some x => .inl x
      | none => .inr (9 * k, n, want)

/-- Host-visible extents of this start: of the newest checkpoint under a MAP_ROOT of this population, else what a format gives
(R244, R286). -/
def startExtents (s : State) : Nat :=
  let fmt := if s.map.pendingE ≠ 0 then s.map.pendingE else 472 * countS s
  match s.map.root, newestCkpt s with
  | some r, some (_, k) =>
    if s.start.phases.contains 7 ∧ (r.popCh ≠ s.media.popCh ∨ r.popPk ≠ s.media.popPk ∨ r.popDies ≠ s.media.popDies) then fmt
    else k.extents
  | _, _ => fmt

/-- Required DRAM in GiB, rounded up (R15). -/
def requiredGib (s : State) : Nat := ceilDiv ((if s.map.mirrorNext then 2 else 1) * (2 * startExtents s) + 65536) 1024

/-- Hold the start with event 2005h (R17, R360, R582). -/
def holdDram (c dimm cause : Nat) (s : State) : State :=
  raise 0x011 0x2005 (c + dimm * 256 + cause * 65536) (requiredGib s) (installedGib s)
    { s with start := { s.start with held := true, mediaError := true } }

/-- Once the population and the DIMMs are known, installed DRAM is held against R15 (R17). -/
def checkCapacity (s : State) : State :=
  if s.start.phases.contains 7 ∧ s.start.phases.contains 8 ∧ !s.start.held ∧ !s.map.loaded ∧
      installedGib s * 1024 < (if s.map.mirrorNext then 2 else 1) * (2 * startExtents s) + 65536 then holdDram 0xFF 0xFF 1 s
  else s

/-- Phase 7 ends when every channel has been brought up: the population is checked, and one that does not conform holds the start
(R12, R578, R582). -/
def checkPopulation (s : State) : State :=
  let ended := (List.range 36).all fun c =>
    let x := chanOf s c
    x.mode == ChanMode.failed || (x.probed && x.mode != ChanMode.training)
  if !ended ∨ s.start.phases.contains 7 ∨ s.start.held then s
  else
    match population s with
    | .inl (c, p) =>
      raise 0x011 0x3001 c p 0 { s with start := { s.start with held := true, mediaError := true } }
    | .inr (c, p, d) => checkCapacity (markPhase 7 { s with media := { s.media with popCh := c, popPk := p, popDies := d } })

/-! ### Training (R352, R353) -/

/-- Packages of a channel that bring-up has found. -/
def chanPkgs (s : State) (c : Nat) : List Nat := (List.range 8).filter fun p => (chanOf s c).found.getD p 0 != 0

/-- Length of the run of passing steps that starts at a step. -/
def runAt (m : BitVec 128) : Nat → Nat → Nat
  | 0, _ => 0
  | n + 1, i => if m.getLsbD i then runAt m n (i + 1) + 1 else 0

/-- The widest run of passing steps, the lowest when equal: start and length (R352). -/
def widestRun (m : BitVec 128) : Nat × Nat :=
  (List.range 128).foldl (fun (b : Nat × Nat) i =>
    let n := runAt m (128 - i) i
    if b.2 < n then (i, n) else b) (0, 0)

/-- Centre of a run, rounded down (the rounding is the model's). -/
def runCentre (r : Nat × Nat) : Nat := (2 * r.1 + r.2 - 1) / 2

/-- A sweep of a package that names nothing. -/
def TrainSweep.none : TrainSweep := { rd0 := 0, rd1 := 0, wr0 := 0, wr1 := 0, mca := 0, vref := 0 }

/-- Sweep of a package. -/
def sweepOf (l : List TrainSweep) (p : Nat) : TrainSweep := l.getD p TrainSweep.none

/-- Results of a package's four lanes; none when a run is shorter than 24 steps (R352). -/
def lanesOf (x : TrainSweep) (vref : Nat) (temp : Int) : Option PkgTrain :=
  let a := widestRun x.rd0
  let b := widestRun x.rd1
  let c := widestRun x.wr0
  let d := widestRun x.wr1
  let n := min (min a.2 b.2) (min c.2 d.2)
  if n < 24 then Option.none
  else some { rd0 := runCentre a, rd1 := runCentre b, wr0 := runCentre c, wr1 := runCentre d, vref := vref, run := n, temp := temp }

/-- A full training of a channel: the MCA delay, centred across all packages, and each package's lanes; none when a lane fails
(R352). -/
def trainAll (s : State) (c : Nat) (l : List TrainSweep) : Option (Nat × Tbl PkgTrain) :=
  let ps := chanPkgs s c
  let m := widestRun (ps.foldl (fun (m : BitVec 128) p => m &&& (sweepOf l p).mca) (BitVec.allOnes 128))
  let lanes := ps.map fun p => (p, lanesOf (sweepOf l p) (sweepOf l p).vref.val (dieOf s (dieId c p 0)).temp)
  if m.2 < 24 ∨ (lanes.any fun x => x.2.isNone) = true then Option.none
  else some (runCentre m, lanes.filterMap fun x => x.2.map fun v => (x.1, v))

/-- Another channel of the same channel-within-quad index is in training or out of service (R353, CF00h). -/
def otherTrains (s : State) (c : Nat) : Bool :=
  (List.range 9).any fun q =>
    let o := 4 * q + c % 4
    let x := chanOf s o
    o != c && (x.mode == ChanMode.training || x.mode == ChanMode.outOfService || x.trainCci.isSome)

/-- A die set with a die on the channel has a busy die (R353). -/
def chanBusy (s : State) (c : Nat) : Bool :=
  s.place.busy.any fun p => dsK p.1 == c % 4 && p.2.cur.isSome && p.2.run

/-- A training follows the invalid statuses of dies; three more fail one (R355). -/
def noteRetrain (x : ChanSt) : ChanSt :=
  let ds := (x.invalid.filter fun p => decide (3 ≤ p.2)).map (·.1)
  { x with retrained := x.retrained ++ ds.filter (fun i => !x.retrained.contains i), invalid := [] }

/-- A lull of a channel (R353): no read waits at or runs on its dies, and no die set with a die on it has a busy die. -/
def lull (s : State) (c : Nat) : Bool :=
  !chanBusy s c && s.front.dieReads.all fun p => chanOfDie p.1 != c || p.2.isEmpty

/-- Step 1 of a full training: MRESET_N resets the channel's dies, and MCK runs at 1.6 GHz (R349, R352). -/
def beginTraining (c : Nat) (s : State) : State :=
  let s := assertMreset c s
  setChan c { chanOf s c with mreset := false, mck := 1600 } s

/-- A channel takes its training results and enters service; the delays replace the old ones. -/
def trainDone (c runs : Nat) (mca : Nat) (pk : Tbl PkgTrain) (s : State) : State :=
  let x := chanOf s c
  let s := setChan c { (noteRetrain x) with
    mode := .inService, trainings := x.trainings + runs, mca := mca, pkgs := pk, wantRetrain := false, reenabled := false,
    trainCci := none, checkTimes := [] } s
  let s := pk.foldl (fun s p => setDie (dieId c p.1 0) { dieOf s (dieId c p.1 0) with vrefDq := p.2.vref } s) s
  match x.trainCci with
  | some k => endBgOn k 0xC351 .success s
  | none => s

/-- MEDIA_FULL_TRAINING (R352): a channel in training, or one that waits for a Retrain Media Channel, is trained; `first` and
`second` are the sweeps of its packages, the second of the one repeat. A second failure fails the channel. -/
def execMediaFullTraining (ch : Fin 36) (first second : List TrainSweep) (s : State) : Res :=
  let c := ch.val
  let x := chanOf s c
  let starts := x.mode == ChanMode.training || (x.mode == ChanMode.inService && x.trainCci.isSome && lull s c && !drainRunning s)
  if !starts then .next s
  else
    let s := beginTraining c s
    match trainAll s c first with
    | some r => .next (checkPopulation (trainDone c 1 r.1 r.2 s))
    | none =>
      match trainAll s c second with
      | some r => .next (checkPopulation (trainDone c 2 r.1 r.2 s))
      | none =>
        let s := failChannel c (setChan c { chanOf s c with trainings := x.trainings + 2 } s)
        let s := match x.trainCci with
          | some k => endBgOn k 0xC351 .internalError s
          | none => s
        .next (checkPopulation s)

/-- The steps within ±16 of a centre (R353). -/
def nearMask (m : BitVec 128) (c : Nat) : BitVec 128 :=
  BitVec.ofNat 128 (((List.range 128).map fun i => if m.getLsbD i && decide (i ≤ c + 16) && decide (c ≤ i + 16) then 2 ^ i else 0).sum)

/-- A retrain of one package: the new results, and whether a full training follows (R353). -/
def retrainPkg (s : State) (c p : Nat) (o : PkgTrain) (x : TrainSweep) : Option PkgTrain :=
  let y := { x with rd0 := nearMask x.rd0 o.rd0, rd1 := nearMask x.rd1 o.rd1,
                    wr0 := nearMask x.wr0 o.wr0, wr1 := nearMask x.wr1 o.wr1 }
  match lanesOf y o.vref (dieOf s (dieId c p 0)).temp with
  | some n =>
    let far := fun (a b : Nat) => decide (12 < ((a : Int) - b).natAbs)
    if far n.rd0 o.rd0 || far n.rd1 o.rd1 || far n.wr0 o.wr0 || far n.wr1 o.wr1 then Option.none else some n
  | none => Option.none

/-- A retrain is called for: a wanted one, or CMD_CHECK 16 times within 1 s (R353). -/
def retrainDue (s : State) (c : Nat) : Bool :=
  let x := chanOf s c
  x.wantRetrain || decide (16 ≤ (x.checkTimes.filter fun t => decide (s.time.mono ≤ t + 1000000000)).length)

/-- MEDIA_RETRAIN (R353): a channel for which it is called retrains in a lull; a centre that moved by more than 12 steps, or a run
shorter than 24, is followed by a full training. -/
def execMediaRetrain (ch : Fin 36) (sweep : List TrainSweep) (s : State) : Res :=
  let c := ch.val
  let x := chanOf s c
  if x.mode ≠ .inService ∨ !retrainDue s c ∨ !lull s c ∨ otherTrains s c ∨ drainRunning s then .next s
  else
    let x := { (noteRetrain x) with retrains := x.retrains + 1, wantRetrain := false, checkTimes := [] }
    let news := x.pkgs.map fun p => (p.1, retrainPkg s c p.1 p.2 (sweepOf sweep p.1))
    if news.any fun p => p.2.isNone then .next (setChan c { x with mode := .training } s)
    else .next (setChan c { x with pkgs := news.filterMap fun p => p.2.map fun v => (p.1, v) } s)

/-! ### Bring-up (R351) -/

/-- A die as bring-up finds it: its pages loaded, its features at their reset values. -/
def foundDie (s : State) (d : Nat) (pages : List Byte × List Byte) : DieSt :=
  let x := dieOf s d
  { DieSt.absent with present := true, page0 := pages.1, page1 := pages.2, segs := x.segs, undefTiles := x.undefTiles,
                      temp := x.temp, tempDone := x.tempDone, hot := x.hot }

/-- A die's drift table is taken from its page, or the default one with an event (R306, R308, R345). -/
def loadDrift (d : Nat) (s : State) : State :=
  let x := dieOf s d
  let miss := fun (s : State) =>
    raise 0x011 0x3006 (chanOfDie d) (pkgOfDie d * 16 + idxOfDie d) 0
      { s with drift := { s.drift with tables := tdel s.drift.tables d } }
  match goodPage x with
  | none => miss s
  | some b =>
    if byteAt b 64 ≠ 1 then miss s
    else
      { s with drift := { s.drift with tables := tput s.drift.tables d (pageDrift b (b2n (!pageValid x.page0))) } }

/-- CHANNEL_BRING_UP (R351): `found` gives, per package, the dies that answer with their two page copies. The population is found,
the pages are loaded, the features set and MCK raised; the channel then trains. A channel with no package stays down. -/
def execChannelBringUp (ch : Fin 36) (found : List (List (List Byte × List Byte))) (s : State) : Res :=
  let c := ch.val
  let x := chanOf s c
  if x.mode ≠ .down ∨ x.mreset ∨ x.probed ∨ !s.start.phases.contains 6 then .next s
  else
    let pk := (found.take 8).map fun l => l.take 16
    let dies := (pk.zipIdx).flatMap fun a => (a.1.zipIdx).map fun b => (dieId c a.2 b.2, b.1)
    let s := dies.foldl (fun s p => loadDrift p.1 (setDie p.1 (foundDie s p.1 p.2) s)) s
    let x := { x with probed := true, found := pk.map (·.length), mck := 1600,
                      mode := if dies.isEmpty then .down else .training }
    .next (checkPopulation (syncMq (setChan c x s)))

/-! ### Package groups (R356) -/

/-- A channel stops issuing commands for want of its package group's supply (R356). -/
def loseChannel (c : Nat) (s : State) : State :=
  let s := assertMreset c (loseWork c s)
  let x := chanOf s c
  if x.mode = .failed then s
  else syncMq (setChan c { x with mode := .outOfService, pgLost := some (x.pgLost.getD s.time.mono) } s)

/-- PACKAGE_GROUP_PG_LOST (R356). -/
def execPackageGroupPgLost (chans : List (Fin 36)) (s : State) : Res :=
  .next (chans.foldl (fun s c => if (chanOf s c.val).probed then loseChannel c.val s else s) s)

/-- One channel of a re-enable: its rails are good again and it trains, or it fails (R356). -/
def reenable (good : Bool) (s : State) (c : Nat) : State :=
  let x := chanOf s c
  match x.pgLost with
  | none => s
  | some t =>
    if s.time.mono < t + 100000000 then s
    else if good ∧ x.reenabled = false then
      let s := syncMq (setChan c { x with pgLost := none, reenabled := true, mreset := false, mck := 1600, mode := .training } s)
      (chanDies s c).foldl (fun s d => setDie d { dieOf s d with present := true } s) s
    else failChannel c (setChan c { x with pgLost := none } s)

/-- PACKAGE_GROUP_REENABLE (R356): 100 ms after the loss, one re-enable of the rails; `good` says whether they hold. -/
def execPackageGroupReenable (chans : List (Fin 36)) (good : Bool) (s : State) : Res :=
  let due := chans.filter fun c => match (chanOf s c.val).pgLost with
    | some t => decide (t + 100000000 ≤ s.time.mono)
    | none => false
  if due.isEmpty then .next s
  else
    let b := blobOf s
    let rails := (List.range 64).filter fun r =>
      (railRole b r == 9 || railRole b r == 10) && (railChannels b r).any fun c => due.any fun d => d.val == c
    let s := rails.foldl (fun s r => if good then becomeGood r (driveOn r s) else s) s
    .next (due.foldl (fun s c => reenable good s c.val) s)

/-! ### Ends of programs and resets (R336, R355) -/

/-- DIE_PROGRAM_END (R336). -/
def execDieProgramEnd (die : Nat) (good : Bool) (s : State) : Res := .next (endProgram die good s)

/-- The busy slot whose present operation runs on a die. -/
def slotOfDie (s : State) (die : Nat) : Option Nat :=
  (s.place.busy.find? fun p => p.2.cur.isSome && p.2.run && setDieOn p.1 p.2.quad == die).map (·.1)

/-- An invalid status of a die (R355): three in a row ask for a retrain, and three more after it fail the die. -/
def invalidStatus (die : Nat) (s : State) : State :=
  let c := chanOfDie die
  let i := 16 * pkgOfDie die + idxOfDie die
  let x := chanOf s c
  let n := tget x.invalid i 0 + 1
  let again := x.retrained.contains i
  let s := setChan c { x with invalid := tput x.invalid i n, wantRetrain := x.wantRetrain || (n == 3 && !again) } s
  if 3 ≤ n && again && !journalFull s then failDie die s else s

/-- A reset's outcome on one quad: the die reports a failure, or a blank check finds its first or last segment not blank (R256, R280,
R281). -/
def opFailed (x : DieSt) (blank : Bool) : WorkKind → Bool
  | .reset _ check => x.resetFail || (check && !blank)
  | .spare .. => x.resetFail || !blank
  | _ => x.progFail

/-- PROGRAM_STATUS_POLL (R355): STATUS of the die of a busy slot; `blank` says whether the first and last segment of a tile that has been
reset read blank. A valid one with ARRAY_BUSY clear ends the operation. -/
def execProgramStatusPoll (die : Nat) (valid blank : Bool) (s : State) : Res :=
  match slotOfDie s die with
  | none => .next s
  | some ds =>
    let c := chanOfDie die
    let i := 16 * pkgOfDie die + idxOfDie die
    if !valid then .next (invalidStatus die s)
    else
      let s := busDone c (.status die) s
      let x := chanOf s c
      let s := setChan c { x with invalid := tdel x.invalid i, retrained := x.retrained.filter (· != i) } s
      if (dieOf s die).array.isSome then .next (busAdd c [statusForm die] s)
      else
        match (busyOf s ds).cur with
        | some w => .next (continueEntry (quadEnded ds (opFailed (dieOf s die) blank w.kind || (busyOf s ds).failed.contains (busyOf s ds).quad) s))
        | none => .next s

/-- The program of the present quad counts as failed; its slot is free when ARRAY_BUSY clears (R355). -/
def overrun (ds : Nat) (s : State) : State :=
  let b := busyOf s ds
  if b.failed.contains b.quad then s else setBusy ds { b with failed := b.failed ++ [b.quad] } s

/-- PROGRAM_OVERRUN (R355): a program not finished after 2 × T_PROG_MAX is a program failure; a program or reset still busy after
10 × its maximum is a die failure. -/
def execProgramOverrun (die : Nat) (s : State) : Res :=
  match slotOfDie s die with
  | none => .next s
  | some ds =>
    let b := busyOf s ds
    let x := dieOf s die
    let t := s.time.mono - b.opAt
    match x.array, b.cur with
    | some _, some w =>
      let m := if w.kind.isReset then (dieMax x).2 else (dieMax x).1
      if 10 * m < t then .next (if journalFull s then s else failDie die s)
      else if 2 * m < t && !w.kind.isReset then .next (overrun ds s)
      else .next s
    | _, _ => .next s

/-! ### Commands (R357) -/

/-- State code of C350h. -/
def ChanMode.code : ChanMode → Nat
  | .inService => 0 | .training => 1 | .failed => 2 | .outOfService => 3 | .down => 3

/-- The 16 bytes of a package in C350h. -/
def pkgBytes (s : State) (c p : Nat) : List Byte :=
  let t := leBytes 2 (unsignedOf 16 (dieOf s (dieId c p 0)).temp)
  match tfind (chanOf s c).pkgs p with
  | some x => leBytes 1 x.rd0 ++ leBytes 1 x.rd1 ++ zeros 2 ++ leBytes 1 x.wr0 ++ leBytes 1 x.wr1 ++ zeros 2 ++ leBytes 1 x.vref ++
      leBytes 1 x.run ++ t ++ zeros 4
  | none => zeros 10 ++ t ++ zeros 4

/-- GET_MEDIA_CHANNEL_STATE (C350h). -/
def execGetMediaChannelState (cci : Fin 10) (inp : List Byte) (s : State) : Res :=
  vendor cci 0xC350 inp 1 []
    (fun s =>
      let c := byteAt inp 0
      if 36 ≤ c then .fail .invalidInput
      else
        let x := chanOf s c
        answer s (leBytes 1 x.mode.code ++ leBytes 1 (chanPkgs s c).length ++ leBytes 1 (x.found.getD 0 0) ++ zeros 1 ++
          leBytes 4 x.trainings ++ leBytes 4 x.retrains ++ leBytes 4 x.checks ++ leBytes 4 x.rejects ++ leBytes 2 x.mca ++ zeros 2 ++
          (chanPkgs s c).flatMap fun p => pkgBytes s c p)) s

/-- RETRAIN_MEDIA_CHANNEL (C351h): a full training of one channel; it begins at once in a lull (R353). -/
def execRetrainMediaChannel (cci : Fin 10) (inp : List Byte) (s : State) : Res :=
  vendorBg cci 0xC351 inp 1 []
    (fun s =>
      let c := byteAt inp 0
      let x := chanOf s c
      if 36 ≤ c then .fail .invalidInput
      else if otherTrains s c ∨ x.trainCci.isSome then .fail .busy
      else if x.mode ≠ .inService then .fail .invalidState
      else .background (setChan c { x with trainCci := some cci.val, mode := if lull s c then .training else .inService } s)) s

/-- GET_DIE_PARAMETER_PAGE (C352h, R345). -/
def execGetDieParameterPage (cci : Fin 10) (inp : List Byte) (s : State) : Res :=
  vendor cci 0xC352 inp 3 []
    (fun s =>
      let d := dieId (byteAt inp 0) (byteAt inp 1) (byteAt inp 2)
      let x := dieOf s d
      if 36 ≤ byteAt inp 0 ∨ 8 ≤ byteAt inp 1 ∨ 16 ≤ byteAt inp 2 ∨ x.present = false then .fail .invalidInput
      else
        answer s (leBytes 1 (b2n (pageValid x.page0) + 2 * b2n (pageValid x.page1)) ++ zeros 3 ++
          (x.page0 ++ zeros 512).take 512 ++ (x.page1 ++ zeros 512).take 512)) s

/-- SET_CHANNEL_SERVICE (CF00h): an out-of-service channel counts as training under R353, so it goes out of service only when no
die set of the channel has a busy die. -/
def execSetChannelService (cci : Fin 10) (inp : List Byte) (s : State) : Res :=
  vendor cci 0xCF00 inp 2 []
    (fun s =>
      let c := byteAt inp 0
      let x := chanOf s c
      if 36 ≤ c ∨ 1 < byteAt inp 1 then .fail .invalidInput
      else if x.mode = .failed ∨ x.mode = .down ∨ x.pgLost.isSome then .fail .invalidState
      else if byteAt inp 1 = 1 then
        if x.mode ≠ .outOfService then .done .none s
        else if s.power.mode = .dormant then .done .none (setChan c { x with dorm := true } s)
        else .done .none (syncMq (setChan c { x with mode := .inService } s))
      else if x.mode = .outOfService then .done .none (setChan c { x with dorm := false } s)
      else if otherTrains s c ∨ x.mode = .training ∨ x.trainCci.isSome then .fail .busy
      else if chanBusy s c then .stall
      else .done .none (syncMq (setChan c { x with mode := .outOfService } s))) s

/-- Commands whose response is one word (Table 10-4). -/
def wordCmd : DieCmd → Bool
  | .status | .getFeature _ | .tempRead => true
  | _ => false

/-- The output of CF01h: STATUS, GET FEATURE and TEMP READ give the response word, the READ SEG output form gives data (Table 10-4). A
response word that no die gives, or that a poll gives in two different beats, is a free value. -/
def mediaCommandOut (s : State) (k : Option (Nat × DieCmd)) (out : List Byte) : List Byte × State :=
  let f := drawBits 16 s
  let none_ := leBytes 2 f.1.toNat ++ zeros 2
  match k with
  | some (_, .output _ _ _ _) => (none_ ++ out, f.2)
  | some (_, k) => if wordCmd k ∧ out.length = 4 then (out.take 2 ++ zeros 2, s) else (none_, f.2)
  | none => (none_, f.2)

/-- ISSUE_MEDIA_COMMAND (CF01h): a command to the dies of a channel that is out of service. The payload names no package, so which
package is selected is a free value. -/
def execIssueMediaCommand (cci : Fin 10) (inp : List Byte) (s : State) : Res :=
  vendor cci 0xCF01 inp (14 + le inp 12 2) []
    (fun s =>
      let c := byteAt inp 0
      let n := byteAt inp 1
      let x := chanOf s c
      if 36 ≤ c ∨ !(n == 4 || n == 6 || n == 10) ∨ 1184 < le inp 12 2 then .fail .invalidInput
      else if x.mode ≠ .outOfService ∨ x.pgLost.isSome then .fail .invalidState
      else
        let r := drawNat s
        let p := r.1 % 8
        let body := (inp.drop 2).take (n - 1)
        let cmd := body ++ [BitVec.ofNat 8 (crc8 body)]
        let s := setChan c { x with resp := [] } r.2
        let s := match parseCmd cmd with
          | none => cmdCheckAll c p s
          | some (d, .data st len _) => dieRun (dieId c p d) (.data st len (inp.drop 14)) s
          | some (d, k) => dieRun (dieId c p d) k s
        let o := mediaCommandOut s (parseCmd cmd) (chanOf s c).resp
        .done (.bytes o.1) o.2) s

end Sys2Proof.Machine
end

