-- ==== Sys2Proof/Machine/Dram.lean ====
section
/-!
DEFINITION. Meanings of the DRAM subsystem rows (11_dram_subsystem.md): SPD and training, the initial fill, alerts, scrubbing,
refresh, retraining, the thaw, pinned slots, self-refresh and the commands of the chapter.
-/
namespace Sys2Proof.Machine

/-! ### Training (R368) -/

/-- The lowest widest run of passing settings of any width: start and length. -/
def widestIn {w : Nat} (m : BitVec w) : Nat × Nat :=
  let step := fun (a : (Nat × Nat) × (Nat × Nat)) (i : Nat) =>
    if m.getLsbD i then
      let cur : Nat × Nat := if a.2.2 = 0 then (i, 1) else (a.2.1, a.2.2 + 1)
      (if a.1.2 < cur.2 then cur else a.1, cur)
    else (a.1, (0, 0))
  ((List.range w).foldl step ((0, 0), (0, 0))).1

/-- Results of a lane; none when a run is shorter than 16 steps (R368). -/
def dramLane (x : DramLane) : Option LaneTrain :=
  let r := widestIn x.rd
  let w := widestIn x.wr
  let v := widestIn x.vref
  let n := min r.2 (min w.2 v.2)
  if n < 16 then none else some { rd := runCentre r, wr := runCentre w, vref := runCentre v, run := n }

/-- A whole training of the ten byte lanes (R358, R368). -/
def dramLanes (l : List DramLane) : Option (List LaneTrain) :=
  let rs := (List.range 10).map fun i => (l[i]?).bind dramLane
  if rs.any fun r => r.isNone then none else some (rs.filterMap id)

/-- A training with its one repeat. -/
def dramTrain (first second : List DramLane) : Option (List LaneTrain) :=
  match dramLanes first with
  | some r => some r
  | none => dramLanes second

/-! ### Configuration (R16, R17, R358 to R360) -/

/-- A DIMM meets R358 and R359 on a channel of `n` DIMMs. -/
def dimmOk (n : Nat) (d : Dimm) : Bool :=
  d.supported && (d.ranks == 1 || d.ranks == 2) && (d.gib == 16 || d.gib == 32 || d.gib == 64 || d.gib == 128) &&
    decide ((if n ≤ 1 then 6400 else 5600) ≤ d.rate)

/-- A channel breaks R16, against channel 0. -/
def chanUneven (s : State) (c : Nat) : Bool :=
  let x := (dramOf s c).dimms
  let y := (dramOf s 0).dimms
  !(x.length == 1 || x.length == 2) || x.length != y.length || x.any fun d => some d.gib != (y[0]?).map (·.gib)

/-- Fault of a channel: DIMM and cause of 2005h, causes in ascending order (R360). -/
def dramFault (s : State) (c : Nat) : Option (Nat × Nat) :=
  let x := dramOf s c
  match x.dimms.findIdx? fun d => !dimmOk x.dimms.length d with
  | some i => some (i, 2)
  | none => if chanUneven s c then some (0xFF, 3) else if 2 ≤ x.trainFails then some (0xFF, 4) else none

/-- Phase 8 ends when every channel's SPD has been read and its training has passed or failed (R360, R578). -/
def checkDram (s : State) : State :=
  let ended := (List.range 8).all fun c =>
    (dramOf s c).spd && ((dramOf s c).mode == DramMode.filling || decide (2 ≤ (dramOf s c).trainFails))
  if !ended ∨ s.start.phases.contains 8 ∨ s.start.held then s
  else
    match (List.range 8).findSome? fun c => (dramFault s c).map fun f => (c, f) with
    | some (c, d, k) => holdDram c d k s
    | none => checkCapacity (markPhase 8 s)

/-! ### Thaw (R378) -/

/-- A thaw may start: the channel is Frozen, no drain runs, and the device is Active or Idle (R378, Table 11-10). -/
def mayThaw (s : State) (c : Nat) : Bool :=
  (dramOf s c).mode == DramMode.frozen && !drainRunning s && (s.power.mode == PMode.active || s.power.mode == PMode.idle)

/-- Thaws within the last 24 h. -/
def within24h (s : State) (l : List Nat) : List Nat := l.filter fun t => decide (s.time.mono < t + 86400000000000)

/-- Start a thaw: the PLL starts and training follows (R378 step 1). -/
def startThaw (c : Nat) (auto : Bool) (s : State) : State :=
  let x := dramOf s c
  let x := { x with mode := .training, thaw := true, step := 1, thaws := s.time.mono :: within24h s x.thaws,
                    autoThaws := if auto then s.time.mono :: within24h s x.autoThaws else x.autoThaws }
  startDom (12 + c) (setDram c x s)

/-- A thaw ends with the channel Failed (Table 11-7). -/
def failThaw (c : Nat) (s : State) : State :=
  let x := dramOf s c
  let s := stopDom (12 + c) (setDram c { x with mode := .failed, thaw := false, step := 0, cci := none } s)
  let s := raise (0x040 + c) 0x2003 c 1 0 s
  match x.cci with
  | some k => endBgOn k 0xC363 .success s
  | none => s

/-- DRAM_TRAINING (R360, R368, R378): at a start the SPD of the channel's DIMMs is read and the channel trains; at a thaw it
trains. `first` and `second` give the sweeps of the training and of its one repeat. -/
def execDramTraining (ch : Fin 8) (dimms : List Dimm) (first second : List DramLane) (temp : Int) (s : State) : Res :=
  let c := ch.val
  let s := if (dramOf s c).cci.isSome ∧ mayThaw s c = true then startThaw c false s else s
  let x := dramOf s c
  if x.mode ≠ .training ∨ drainRunning s then .next s
  else if x.thaw then
    match dramTrain first second with
    | some l => .next (setDram c { x with mode := .thawing, step := 2, lanes := l, trainTemp := 16 * temp } s)
    | none => .next (failThaw c s)
  else if x.spd ∨ !s.start.phases.contains 6 then .next s
  else
    match (if dimms.isEmpty then none else dramTrain first second) with
    | some l =>
      .next (checkDram (setDram c { x with spd := true, dimms := dimms, mode := .filling, lanes := l, trainTemp := 16 * temp } s))
    | none => .next (checkDram (setDram c { x with spd := true, dimms := dimms, trainFails := 2 } s))

/-- DRAM_FILL_DONE (R367): every channel holds zeros; the grains of the policy are in force. -/
def execDramFillDone (s : State) : Res :=
  if !s.start.phases.contains 8 ∨ s.start.held ∨ s.dram.filled then .next s
  else
    let chans := tmap s.dram.chans fun _ x => if x.mode = .filling then { x with mode := .inService, lapStart := s.time.mono } else x
    .next (markPhase 9 { s with dram := { s.dram with
      chans := chans, filled := true, mapGrainNow := s.dram.mapGrain, backGrainNow := s.dram.backGrain } })

/-! ### Errors (R373, R374) -/

/-- WRITE_CRC_ALERT (R373): the write is resent, at most twice; the third alert freezes the channel. `resend` says whether the
alert meets the write that alerted before. -/
def execWriteCrcAlert (ch : Fin 8) (resend : Bool) (frost : FrostIn) (s : State) : Res :=
  let x := dramOf s ch
  if x.mode ≠ .inService ∧ x.mode ≠ .thawing then .next s
  else
    let n := if resend then x.crcAlerts + 1 else 1
    let s := setDram ch { x with crcAlerts := n } s
    .next (if 3 ≤ n then freeze ch 2 frost s else s)

/-- CA_PARITY_ALERT (R373). -/
def execCaParityAlert (ch : Fin 8) (frost : FrostIn) (s : State) : Res := .next (freeze ch 3 frost s)

/-- Bursts of 64 B of a channel. -/
def chanBursts (x : DramCh) : Nat := (x.dimms.map (·.gib)).sum * 2 ^ 24

/-- DRAM_SCRUB (R374): the next burst is read; the last one of a channel ends the lap, which is reported and warned of. -/
def execDramScrub (ch : Fin 8) (err : DramErr) (s : State) : Res :=
  let c := ch.val
  let x := dramOf s c
  if x.mode ≠ .inService ∨ !s.dram.scrubEn then .next s
  else
    let l := dramLoc x (64 * x.scrubPos)
    let s := openRow c l s
    let x := dramOf s c
    let s :=
      if x.scrubPos + 1 < chanBursts x then setDram c { x with scrubPos := x.scrubPos + 1 } s
      else
        let took := s.time.mono - x.lapStart
        let lap := took / 1000000000
        let s := setDram c { x with scrubPos := 0, lapStart := s.time.mono, lap := lap } s
        if s.dram.lapWarn * 3600000000000 < took then raise (0x040 + c) 0x2006 c lap 0 s else s
    match err with
    | .corrected _ _ _ => .next (correctable c l.rank l.row l.col s)
    | .uncorrectable f => .next (freeze c 1 (frostAt f l) s)
    | _ => .next s

/-! ### Refresh (R370, R372) -/

/-- NEIGHBOUR_REFRESH (R372): the oldest neighbour refresh that the random draw of an ACT has queued is issued; it changes no data. -/
def execNeighbourRefresh (ch : Fin 8) (s : State) : Res :=
  let x := dramOf s ch
  if x.mode ≠ .inService ∨ x.nbrQueue.isEmpty then .next s
  else .next (setDram ch { x with nbrQueue := x.nbrQueue.drop 1, nbrIssued := x.nbrIssued + 1 } s)

/-- A priority-1 read is queued for a bank of a channel (R370, Table 11-5): a map read, or a back-cache read, of a LAT or WR fill.
A slot that is spread over the channels counts for every bank. -/
def bankRead (s : State) (c bank : Nat) : Bool :=
  s.front.miss.any fun p =>
    let lfa := p.1 / 16
    match p.2.stage with
    | .mapRead => mapChan s p.2.copyB lfa == c && (entryLoc s p.2.copyB lfa).bank % 4 == bank
    | .back n _ =>
      p.2.latency && (slotChans s n).contains c && ((slotLoc s n (p.1 % 16 * 256)).all fun l => l.bank % 4 == bank)
    | _ => false

/-- SAME_BANK_REFRESH (R370): a bank is refreshed when no read of priority 1 is queued for it and its partner does not refresh the same
bank; how long it takes is a free value (log entry 223). -/
def execSameBankRefresh (ch : Fin 8) (bank : Fin 4) (s : State) : Res :=
  let x := dramOf s ch
  if x.mode ≠ .inService ∨ bankRead s ch bank = true ∨ refreshing s ((ch.val + 4) % 8) bank = true then .next s
  else
    let r := drawNat s
    .next (setDram ch { x with refreshed := x.refreshed + 1, refBank := bank, refEnd := s.time.mono + r.1 } r.2)

/-- REFRESH_RATE_POLL (R370). -/
def execRefreshRatePoll (ch : Fin 8) (rate : Nat) (s : State) : Res :=
  let x := dramOf s ch
  if x.mode ≠ .inService then .next s else .next (setDram ch { x with refRate := rate } s)

/-! ### Temperature and retraining (R369) -/

/-- Highest of a list of readings in 1/16 °C. -/
def hottest (l : List Int) : Option Int := l.max?

/-- The temperature has moved by 10 °C since the last training (R369). -/
def movedTen (x : DramCh) (t : Int) : Bool := decide (160 ≤ (t - x.trainTemp).natAbs)

/-- DIMM_TEMP_POLL (R369): the sensors also go to the thermal monitor (Table 16-1). -/
def execDimmTempPoll (ch : Fin 8) (temps : List (Option Int)) (s : State) : Res :=
  let c := ch.val
  let x := dramOf s c
  if !x.spd then .next s
  else
    let ts := temps.take x.dimms.length
    let x := { x with temps := ts.filterMap id }
    let x := match hottest x.temps with
      | some t => if movedTen x t ∧ x.mode = .inService then { x with retrain := true } else x
      | none => x
    let s := setDram c x s
    .next ((ts.zipIdx).foldl (fun s a => sampleSensor (312 + 2 * c + a.2) a.1 s) s)

/-- The settings within ±16 of a centre. -/
def nearIn {w : Nat} (m : BitVec w) (c : Nat) : BitVec w :=
  BitVec.ofNat w (((List.range w).map fun i => if m.getLsbD i && decide (i ≤ c + 16) && decide (c ≤ i + 16) then 2 ^ i else 0).sum)

/-- One lane of a background retrain, with its run (R369). -/
def retrainLane (o : LaneTrain) (x : DramLane) : LaneTrain :=
  let r := widestIn (nearIn x.rd o.rd)
  let w := widestIn (nearIn x.wr o.wr)
  let v := widestIn (nearIn x.vref o.vref)
  { rd := runCentre r, wr := runCentre w, vref := runCentre v, run := min r.2 (min w.2 v.2) }

/-- DRAM_RETRAIN_DONE (R369): the delays are re-centred; a run shorter than 16 steps keeps them and logs 2006h, and the retrain
repeats at the next 10 °C change. -/
def execDramRetrainDone (ch : Fin 8) (lanes : List DramLane) (s : State) : Res :=
  let c := ch.val
  let x := dramOf s c
  if x.mode ≠ .inService ∨ !x.retrain then .next s
  else
    let t := match hottest x.temps with
      | some t => t
      | none => x.trainTemp
    let new := (x.lanes.zip lanes).map fun p => retrainLane p.1 p.2
    let least := (new.map (·.run)).foldl min 128
    if new.length < x.lanes.length ∨ least < 16 then
      .next (raise (0x040 + c) 0x2006 c (if new.length < x.lanes.length then 0 else least) 0
        (setDram c { x with retrain := false, trainTemp := t } s))
    else .next (setDram c { x with retrain := false, trainTemp := t, lanes := new } s)

/-! ### The thaw (R378 to R380) -/

/-- When a channel's automatic thaw is due: FROST_HOLD after its freeze (R378). -/
def thawDue (s : State) (x : DramCh) : Nat := x.frozenAt + s.dram.frostHold * 100000000

/-- AUTO_THAWS is spent for a frozen channel: so many automatic thaws in the 24 h before its thaw is due (R378). -/
def thawsSpent (s : State) (x : DramCh) : Bool :=
  decide (s.dram.autoThaws ≤ (x.autoThaws.filter fun t => decide (thawDue s x < t + 86400000000000)).length)

/-- FROST_HOLD_EXPIRY (R378): an automatic thaw, unless AUTO_THAWS is spent when it is due. -/
def execFrostHoldExpiry (ch : Fin 8) (s : State) : Res :=
  let x := dramOf s ch
  if s.dram.frostHold = 0 ∨ s.time.mono < thawDue s x ∨ thawsSpent s x ∨ !mayThaw s ch then .next s
  else .next (startThaw ch true s)

/-- The deferred work of a pinned slot is applied and the slot unpinned (R378 step 2). -/
def unpin (n : Nat) (s : State) : State :=
  match tfind s.back.slots n with
  | none => s
  | some x =>
    let s := { s with back := { s.back with slots := tput s.back.slots n { x with pinned := false, deferred := false } } }
    if x.deferred then releaseSlot n s else s

/-- Pinned slots whose directory entry lies on a channel. -/
def pinnedOn (s : State) (c : Nat) : List Nat := (s.back.slots.filter fun p => p.2.pinned && dirChan s p.1 == c).map (·.1)

/-- THAW_SALVAGE_DONE (R378 step 2): `bad` names slots whose directory entry is uncorrectable; they stay pinned. -/
def execThawSalvageDone (ch : Fin 8) (bad : List Nat) (s : State) : Res :=
  let x := dramOf s ch
  if x.mode ≠ .thawing ∨ x.step ≠ 2 ∨ drainRunning s then .next s
  else
    let s := setDram ch { x with step := 3 } s
    .next (((pinnedOn s ch).filter fun n => !bad.contains n).foldl (fun s n => unpin n s) s)

/-- THAW_REFILL_DONE (R378 step 3). -/
def execThawRefillDone (ch : Fin 8) (s : State) : Res :=
  let x := dramOf s ch
  if x.mode ≠ .thawing ∨ x.step ≠ 3 ∨ drainRunning s then .next s else .next (setDram ch { x with step := 4 } s)

/-- Entries of a copy that lie on a channel take the other copy's value (R378 step 4). -/
def resyncCopy (s : State) (copyB : Bool) (c : Nat) : MapCopy :=
  let src := if copyB then s.map.copyA else s.map.copyB
  let dst := if copyB then s.map.copyB else s.map.copyA
  let on := fun (l : Nat) => mapChan s copyB l == c
  let keep := tfilter dst.ents fun l _ => !on l
  { dst with ents := (src.ents.filter fun p => on p.1).foldl (fun t p => tput t p.1 p.2) keep,
             trimmed := src.trimmed, bad := dst.bad.filter fun l => !on l }

/-- THAW_RESYNC_DONE (R378 steps 4 and 5): with mirroring on and the partner in service the channel's map share is copied; the
channel enters In service and its frost record is dropped (R381). -/
def execThawResyncDone (ch : Fin 8) (s : State) : Res :=
  let c := ch.val
  let x := dramOf s c
  if x.mode ≠ .thawing ∨ x.step ≠ 4 ∨ drainRunning s then .next s
  else
    let before := mapExposed s
    let s := if s.map.mirror ∧ dramOut s ((c + 4) % 8) = false then
        let m := resyncCopy s (decide (4 ≤ c)) c
        if 4 ≤ c then { s with map := { s.map with copyB := m } } else { s with map := { s.map with copyA := m } }
      else s
    let s := setDram c { x with mode := .inService, thaw := false, step := 0, frost := none, cci := none } s
    let s := exposedEvent before c (raise (0x040 + c) 0x2003 c 0 0 s)
    match x.cci with
    | some k => .next (endBgOn k 0xC363 .success s)
    | none => .next s

/-- FROZEN_FAIL_TIMEOUT (Table 11-7): a thaw is due, AUTO_THAWS is spent, and none has been commanded within 24 h. -/
def execFrozenFailTimeout (ch : Fin 8) (s : State) : Res :=
  let x := dramOf s ch
  if x.mode ≠ .frozen ∨ x.cci.isSome ∨ s.dram.frostHold = 0 ∨ s.time.mono < thawDue s x + 86400000000000 ∨
      thawsSpent s x = false then .next s
  else .next (setDram ch { x with mode := .failed } s)

/-- PINNED_SLOT_RESOLVE (R380): a slot that stays pinned is resolved from the checkpoint and the journal: its deferred work is
applied and it is evicted. -/
def execPinnedSlotResolve (slot : Nat) (s : State) : Res :=
  match tfind s.back.slots slot with
  | none => .next s
  | some x =>
    let d := dramOf s (dirChan s slot)
    if !x.pinned ∨ drainRunning s ∨ !(d.mode == DramMode.failed || d.mode == DramMode.inService || (d.mode == DramMode.thawing && decide (3 ≤ d.step))) then
      .next s
    else
      let s := unpin slot s
      .next (if x.deferred then s else evictSlot slot s)

/-! ### Self-refresh (R382, R383) -/

/-- SELF_REFRESH_ENTRY (R382): in Dormant, or in the last step of an entry to Standby, a channel in service enters
self-refresh and stops its PLL. -/
def execSelfRefreshEntry (ch : Fin 8) (s : State) : Res :=
  let x := dramOf s ch
  let wants := s.power.mode == PMode.dormant || (s.power.entering == some 3 && s.power.hold.isSome)
  if x.mode ≠ .inService ∨ wants = false then .next s
  else .next (stopDom (12 + ch) (setDram ch { x with mode := .selfRefresh } s))

/-- SELF_REFRESH_EXIT (R382): back in Active, the channel restarts its PLL; a temperature that has moved by 10 °C since the last
training is followed by a full training. A training that fails twice keeps the old results and logs 2006h. -/
def execSelfRefreshExit (ch : Fin 8) (temp : Int) (first second : List DramLane) (s : State) : Res :=
  let c := ch.val
  let x := dramOf s c
  if x.mode ≠ .selfRefresh ∨ (s.power.mode ≠ .active ∧ s.power.mode ≠ .idle) then .next s
  else
    let s := startDom (12 + c) s
    let x := { x with mode := .inService }
    if movedTen x (16 * temp) = false then .next (setDram c x s)
    else
      match dramTrain first second with
      | some l => .next (setDram c { x with lanes := l, trainTemp := 16 * temp } s)
      | none => .next (raise (0x040 + c) 0x2006 c 0 0 (setDram c x s))

/-! ### Commands (R385) -/

/-- State code of C360h: the row of Table 11-7. -/
def DramMode.code : DramMode → Nat
  | .training => 0 | .filling => 1 | .inService => 2 | .selfRefresh => 3 | .frozen => 4 | .thawing => 5 | .failed => 6

/-- GET_DRAM_STATE (C360h). -/
def execGetDramState (cci : Fin 10) (inp : List Byte) (s : State) : Res :=
  vendor cci 0xC360 inp 1 []
    (fun s =>
      let c := byteAt inp 0
      let x := dramOf s c
      if 8 ≤ c then .fail .invalidInput
      else
        let lane := fun (i : Nat) => match x.lanes[i]? with
          | some l => leBytes 1 l.rd ++ leBytes 1 l.wr ++ leBytes 1 l.vref ++ leBytes 1 l.run ++ zeros 4
          | none => zeros 8
        let dimm := fun (i : Nat) => match x.dimms[i]? with
          | some d => leBytes 2 d.rate ++ leBytes 1 d.ranks ++ zeros 1 ++ leBytes 4 d.gib
          | none => zeros 8
        answer s (leBytes 1 x.mode.code ++ leBytes 1 x.dimms.length ++ leBytes 1 ((x.dimms[0]?).map (·.ranks) |>.getD 0) ++
          leBytes 1 (if x.dimms.length = 2 then 1 else 0) ++ leBytes 4 (x.dimms.map (·.gib)).sum ++
          leBytes 1 (unsignedOf 8 (x.trainTemp / 16)) ++ leBytes 1 (within24h s x.thaws).length ++ leBytes 1 (b2n (mapExposed s)) ++ zeros 1 ++
          leBytes 4 x.lap ++ leBytes 4 (pinnedOn s c).length ++ leBytes 4 s.ten.affected.length ++
          ((List.range 4).flatMap fun r => leBytes 8 (x.correctable.getD r 0)) ++ (List.range 10).flatMap lane ++
          dimm 0 ++ dimm 1)) s

/-- Bytes of the DRAM policy register (Table 11-3). -/
def dramPolicyBytes (d : DramSt) : List Byte :=
  leBytes 4 (d.nbrN * 2 ^ 28 + d.mapGrain * 2 ^ 24 + d.backGrain * 2 ^ 20 + d.frostHold * 2 ^ 12 + b2n d.scrubEn * 2 ^ 11 +
    d.autoThaws * 2 ^ 8 + d.lapWarn)

/-- The policy that an image gives (Table 11-3). -/
def dramPolicyOf (b : List Byte) (d : DramSt) : DramSt :=
  let v := le b 0 4
  { d with nbrN := bits v 28 4, mapGrain := bits v 24 4, backGrain := bits v 20 4, frostHold := bits v 12 8,
           scrubEn := bits v 11 1 == 1, autoThaws := bits v 8 3, lapWarn := bits v 0 8 }

/-- The ranges of Table 11-3. -/
def dramPolicyOk (d : DramSt) : Bool :=
  decide (6 ≤ d.nbrN) && decide (d.nbrN ≤ 12) && decide (d.mapGrain ≤ 12) && decide (d.backGrain ≤ 12) && decide (1 ≤ d.lapWarn)

/-- The record of a DRAM policy within its ranges (R366). -/
def dramPolicyRec (inp : List Byte) (s : State) : Option (List Byte) :=
  if dramPolicyOk (dramPolicyOf inp s.dram) then some (dramPolicyBytes (dramPolicyOf inp s.dram)) else none

/-- SET_DRAM_POLICY (C361h, R366): kept in the cellar book; the grains take effect at the next start. -/
def execSetDramPolicy (cci : Fin 10) (inp : List Byte) (s : State) : Res :=
  vendor cci 0xC361 inp 4 []
    (fun s => storeSetting 0x13 (dramPolicyRec inp s) s) s

/-- The bytes of a frost record (Table 11-9). -/
def frostBytes (c : Nat) (f : Frost) : List Byte :=
  leBytes 4 (f.cause * 2 ^ 28 + c * 2 ^ 25 + f.subch * 2 ^ 24 + f.rank * 2 ^ 22 + f.bank * 2 ^ 17) ++ leBytes 4 f.row ++
    leBytes 4 f.column ++ leBytes 4 f.syndrome ++ leBytes 8 f.time ++ leBytes 4 f.temp ++ zeros 4 ++ (f.tail ++ zeros 12288).take 12288

/-- GET_FROST_RECORD (C362h): bytes of the record from an offset. -/
def execGetFrostRecord (cci : Fin 10) (inp : List Byte) (s : State) : Res :=
  vendor cci 0xC362 inp 12 [(1, 3)]
    (fun s =>
      let c := byteAt inp 0
      let o := le inp 4 4
      let n := le inp 8 4
      if 8 ≤ c ∨ 4096 < n ∨ 12320 < o + n then .fail .invalidInput
      else
        match (dramOf s c).frost with
        | none => .fail .invalidState
        | some f => answer s (((frostBytes c f).drop o).take n)) s

/-- THAW_DRAM_CHANNEL (C363h, R378): completes when the channel is In service or Failed; a thaw asked for outside Active waits for
the return to it (Table 11-10). -/
def execThawDramChannel (cci : Fin 10) (inp : List Byte) (s : State) : Res :=
  vendorBg cci 0xC363 inp 1 []
    (fun s =>
      let c := byteAt inp 0
      let x := dramOf s c
      if 8 ≤ c then .fail .invalidInput
      else if x.mode = .failed then .done .none s
      else if x.mode ≠ .frozen ∨ x.cci.isSome then .fail .invalidState
      else
        let s := setDram c { x with cci := some cci.val } s
        .background (if mayThaw s c then startThaw c false s else s)) s

end Sys2Proof.Machine
end

