-- ==== Sys2Proof/Machine/Engines.lean ====
section
/-!
DEFINITION. Check-value units and bulk engines (19_counters_metering_and_engines.md, R565 to R575). The model's engine has one
step outstanding, of one host line (log entry 52).
-/
namespace Sys2Proof.Machine

/-! ### Check-value algorithms (R566, R567) -/

/-- An algorithm of Table 19-6. -/
structure CvAlg where
  width : Nat
  poly : Nat
  init : Nat
  reflected : Bool
  final : Nat
deriving DecidableEq, Repr

/-- Table 19-6 by POLY. -/
def cvAlg (p : Nat) : CvAlg :=
  if p = 0 then { width := 32, poly := 0x04C11DB7, init := 0xFFFFFFFF, reflected := true, final := 0xFFFFFFFF }
  else if p = 1 then { width := 32, poly := 0x1EDC6F41, init := 0xFFFFFFFF, reflected := true, final := 0xFFFFFFFF }
  else if p = 2 then { width := 64, poly := 0x42F0E1EBA9EA3693, init := 0, reflected := false, final := 0 }
  else { width := 16, poly := 0x1021, init := 0xFFFF, reflected := false, final := 0 }

/-- The low `w` bits in reverse order. -/
def reverseBits (w v : Nat) : Nat := (List.range w).foldl (fun a i => 2 * a + v / 2 ^ i % 2) 0

/-- One bit into the register of an algorithm, most significant first. -/
def cvBit (a : CvAlg) (r b : Nat) : Nat :=
  let next := r * 2 % 2 ^ a.width
  if (r / 2 ^ (a.width - 1) + b) % 2 = 1 then next ^^^ a.poly else next

/-- One byte into the register of an algorithm. -/
def cvByte (a : CvAlg) (r : Nat) (x : Byte) : Nat :=
  let v := if a.reflected then reverseBits 8 x.toNat else x.toNat
  [7, 6, 5, 4, 3, 2, 1, 0].foldl (fun r i => cvBit a r (v / 2 ^ i % 2)) r

/-- The check value that a register gives. -/
def cvValue (a : CvAlg) (r : Nat) : Nat := (if a.reflected then reverseBits a.width r else r) ^^^ a.final

/-- The register that a check value leaves (R567 CV_SEED). -/
def cvRegister (a : CvAlg) (v : Nat) : Nat :=
  let x := v % 2 ^ a.width ^^^ a.final
  if a.reflected then reverseBits a.width x else x

/-- CV_RESULT of a unit. -/
def cvResult (x : CvUnit) : Nat := cvValue (cvAlg x.poly) x.crc

/-- Restart a unit (R567). -/
def cvRestart (x : CvUnit) : CvUnit :=
  let a := cvAlg x.poly
  { x with crc := if x.useSeed then cvRegister a x.seed else a.init, count := 0, feeds := [], spent := 0 }

/-- Feed bytes into a unit, in order. -/
def cvFeed (x : CvUnit) (b : List Byte) : CvUnit :=
  { x with crc := b.foldl (cvByte (cvAlg x.poly)) x.crc, count := (x.count + b.length) % 2 ^ 64 }

/-- Process every buffered feed. -/
def cvDrain (x : CvUnit) : CvUnit := { x.feeds.foldl cvFeed x with feeds := [], spent := 0 }

/-- Process feeds for a number of CORE cycles: one for each byte (R568). -/
def cvCycles : List (List Byte) → Nat → CvUnit → CvUnit
  | [], _, x => { x with feeds := [], spent := 0 }
  | f :: rest, n, x =>
    if f.length ≤ n then cvCycles rest (n - f.length) (cvFeed x f) else { x with feeds := f :: rest, spent := n }

/-- One ns of the check-value units: two CORE cycles each, while CORE runs. -/
def cvTick (s : State) : State :=
  if domOf s 7 = .running then
    { s with eng := { s.eng with units := tmap s.eng.units fun _ x => cvCycles x.feeds (x.spent + 2) x } }
  else s

/-! ### Check-value units (R565, R567, R568) -/

/-- A unit that a head sees (R565). -/
def cvVisible (s : State) (head u : Nat) : Bool := (cvOf s u).head == some head && (headOf s head).linkUp

/-- An ignored write to a unit's register, with its Host port event (R567, R568). -/
def cvIgnored (head u off : Nat) (s : State) : State := raise 0x039 0x9003 head (0x10000 + 0x1000 * u + off) 0 s

/-- CV_CONFIG_WRITE (R567): the unit restarts. A reserved POLY is ignored, and so is any write while an engine holds the
unit. -/
def execCvConfigWrite (head : Fin 4) (unit : Fin 8) (value : W32) (s : State) : Res :=
  let x := cvOf s unit
  let p := value.toNat % 8
  if cvVisible s head unit = false then .next s
  else if x.held.isSome ∨ 3 < p then .next (cvIgnored head unit 0 s)
  else .next (setCv unit (cvRestart { x with poly := p, useSeed := value.getLsbD 8 }) s)

/-- CV_RESTART_WRITE (R567). -/
def execCvRestartWrite (head : Fin 4) (unit : Fin 8) (s : State) : Res :=
  let x := cvOf s unit
  if cvVisible s head unit = false then .next s
  else if x.held.isSome then .next (cvIgnored head unit 0x28 s)
  else .next (setCv unit (cvRestart x) s)

/-- CV_FEED_WRITE (R568): a naturally aligned write of 1, 2 or 4 bytes is buffered; while 64 feeds are buffered the head has no
credit for it. -/
def execCvFeedWrite (head : Fin 4) (unit : Fin 8) (off : Fin 4) (bytes : List Byte) (s : State) : Res :=
  let x := cvOf s unit
  let n := bytes.length
  if cvVisible s head unit = false then .next s
  else if x.held.isSome ∨ (n ≠ 1 ∧ n ≠ 2 ∧ n ≠ 4) ∨ off.val % n ≠ 0 then .next (cvIgnored head unit (0x100 + off) s)
  else if 64 ≤ x.feeds.length then .next s
  else .next (setCv unit { x with feeds := x.feeds ++ [bytes] } s)

/-- CV_RESULT_READ (R568): a read of CV_RESULT, or of CV_COUNT, is answered when every earlier feed has been processed. A unit
that the head does not see reads zeros (R105). -/
def execCvResultRead (head : Fin 4) (unit : Fin 8) (count : Bool) (s : State) : Res :=
  let send := fun (v : Nat) (s : State) => { s with eng := { s.eng with reads := s.eng.reads ++ [(head.val, v)] } }
  if cvVisible s head unit = false then .next (send 0 s)
  else
    let x := cvDrain (cvOf s unit)
    .next (send (if count then x.count else cvResult x) (setCv unit x s))

/-- ASSIGN_CHECK_VALUE_UNIT (CB03h, R565): the unit restarts. -/
def execAssignCheckValueUnit (cci : Fin 10) (inp : List Byte) (s : State) : Res :=
  vendor cci 0xCB03 inp 2 []
    (fun s =>
      let u := byteAt inp 0
      let h := byteAt inp 1
      if 7 < u ∨ (h ≠ 0xFF ∧ (3 < h ∨ (headOf s h).present = false)) then .fail .invalidInput
      else .done .none (setCv u (cvRestart { cvOf s u with head := if h = 0xFF then none else some h }) s)) s

/-! ### Descriptor rings (R569) -/

/-- Put back a ring. -/
def setDescRing (r : Nat) (x : DescRing) (s : State) : State :=
  { s with eng := { s.eng with rings := tput s.eng.rings r x } }

/-- An engine serves a ring. -/
def ringServed (s : State) (r : Nat) : Bool := s.eng.engines.any fun p => p.2.ring == some r

/-- A ring whose doorbell page a head sees. -/
def ringSeen (s : State) (head r : Nat) : Option DescRing :=
  match tfind s.eng.rings r with
  | some x => if x.head = head ∧ (headOf s head).linkUp then some x else none
  | none => none

/-- An ignored write to a doorbell page, with its event. -/
def ringIgnored (head r off : Nat) (s : State) : State := raise 0x038 0x9003 head (0x11000000 + 0x1000 * r + off) 0 s

/-- GET_ENGINE_STATE (CB00h): for each engine 0 its state (0 idle, 1 a descriptor, 2 an erasure), 2–3 the ring served, FFFFh
for none, and 8–15 the descriptors done. -/
def execGetEngineState (cci : Fin 10) (inp : List Byte) (s : State) : Res :=
  vendor cci 0xCB00 inp 0 []
    (fun s => answer s ((List.range 16).flatMap fun e =>
      let x := engineOf s e
      leBytes 1 (if x.erase.isSome then 2 else if x.phase = .idle then 0 else 1) ++ zeros 1 ++
        leBytes 2 (x.ring.getD 0xFFFF) ++ zeros 4 ++ leBytes 8 x.done)) s

/-- CREATE_DESCRIPTOR_RING (CB01h, R569). -/
def execCreateDescriptorRing (cci : Fin 10) (inp : List Byte) (s : State) : Res :=
  vendor cci 0xCB01 inp 8 [(3, 1)]
    (fun s =>
      let r := le inp 0 2
      let h := byteAt inp 2
      let t := le inp 4 2
      let n := le inp 6 2
      if 4095 < r ∨ 3 < h ∨ (headOf s h).present = false ∨
          [16, 32, 64, 128, 256, 512, 1024, 2048, 4096, 8192, 16384, 32768].contains n = false then .fail .invalidInput
      else if (tfind s.eng.rings r).isSome ∨ (tenantOf s t).st ≠ .active then .fail .invalidState
      else
        .done .none (setDescRing r
          { head := h, tenant := t, entries := n, base := 0, tailP := 0, headP := 0, st := 0, lastError := 0,
            stopping := false } s)) s

/-- DELETE_DESCRIPTOR_RING (CB02h, Table 19-13). -/
def execDeleteDescriptorRing (cci : Fin 10) (inp : List Byte) (s : State) : Res :=
  vendor cci 0xCB02 inp 2 []
    (fun s =>
      let r := le inp 0 2
      if 4095 < r then .fail .invalidInput
      else if (tfind s.eng.rings r).isNone then .fail .invalidState
      else if ringServed s r then .fail .busy
      else .done .none { s with eng := { s.eng with rings := tdel s.eng.rings r } }) s

/-- GET_RING_STATE_DESCRIPTOR (CB04h): 0–1 RING_HEAD, 2–3 RING_TAIL, 4–7 bits [31:0] of the register at 018h. -/
def execGetRingStateDescriptor (cci : Fin 10) (inp : List Byte) (s : State) : Res :=
  vendor cci 0xCB04 inp 2 []
    (fun s =>
      let r := le inp 0 2
      if 4095 < r then .fail .invalidInput
      else
        match tfind s.eng.rings r with
        | none => .fail .invalidState
        | some x => answer s (leBytes 2 x.headP ++ leBytes 2 x.tailP ++ leBytes 4 (x.st * 2 ^ 30 + x.lastError * 256))) s

/-- RING_BASE_WRITE (Table 19-8): only while Stopped. -/
def execRingBaseWrite (head : Fin 4) (ring : Fin 4096) (part : RegPart) (value : W64) (s : State) : Res :=
  match ringSeen s head ring with
  | none => .next s
  | some x =>
    if x.st = 0 then .next (setDescRing ring { x with base := writePart x.base part value.toNat % 2 ^ 48 / 64 * 64 } s)
    else .next (ringIgnored head ring 0 s)

/-- RING_TAIL_DOORBELL (Table 19-8): a value at or above ENTRIES is ignored. -/
def execRingTailDoorbell (head : Fin 4) (ring : Fin 4096) (value : W64) (s : State) : Res :=
  match ringSeen s head ring with
  | none => .next s
  | some x =>
    let v := value.toNat % 65536
    if v < x.entries then .next (setDescRing ring { x with tailP := v } s) else .next (ringIgnored head ring 8 s)

/-- The slots of a ring lie wholly in one extent of its tenant (Table 19-9). -/
def ringInExtent (s : State) (x : DescRing) : Bool :=
  let e := extentOf x.base
  decide (e = extentOf (x.base + 64 * x.entries - 1)) && decide (e < 241664) && (extOf s e).tenant == x.tenant &&
    (extOf s e).st != .unassigned

/-- RING_START (Table 19-9): a Stopped ring runs, or halts with NOT_OWNED. -/
def execRingStart (head : Fin 4) (ring : Fin 4096) (s : State) : Res :=
  match ringSeen s head ring with
  | none => .next s
  | some x =>
    if x.st ≠ 0 then .next s
    else if ringInExtent s x then .next (setDescRing ring { x with st := 1 } s)
    else .next (setDescRing ring { x with st := 2, lastError := 1 } s)

/-- RING_STOP (Table 19-9): after the descriptor in progress. -/
def execRingStop (head : Fin 4) (ring : Fin 4096) (s : State) : Res :=
  match ringSeen s head ring with
  | none => .next s
  | some x =>
    if x.st = 1 ∧ ringServed s ring then .next (setDescRing ring { x with stopping := true } s)
    else .next (setDescRing ring { x with st := 0 } s)

/-- RING_RESUME (Table 19-9): a Halted ring runs from RING_HEAD. -/
def execRingResume (head : Fin 4) (ring : Fin 4096) (s : State) : Res :=
  match ringSeen s head ring with
  | none => .next s
  | some x => if x.st = 2 then .next (setDescRing ring { x with st := 1 } s) else .next s

/-! ### Descriptors (R570, Tables 19-10 to 19-12) -/

/-- OP of a descriptor. -/
def descOp (d : List Byte) : Nat := byteAt d 0

/-- SRC, DST, LENGTH and PATTERN of a descriptor. -/
def descSrc (d : List Byte) : Nat := le d 8 8
def descDst (d : List Byte) : Nat := le d 16 8
def descLen (d : List Byte) : Nat := le d 24 8
def descPattern (d : List Byte) : Nat := le d 32 8

/-- A descriptor without a reserved OP, a broken alignment, an overlap or a non-zero reserved byte (Table 19-12 BAD_DESC). -/
def descOk (d : List Byte) : Bool :=
  let src := descSrc d
  let dst := descDst d
  let n := descLen d
  let apart := decide (src + n ≤ dst) || decide (dst + n ≤ src)
  let common := le d 4 4 == 0 && le d 56 4 == 0 && decide (1 ≤ n) && decide (n ≤ 2 ^ 40)
  let by64 := src % 64 == 0 && dst % 64 == 0 && n % 64 == 0
  common &&
    (match descOp d with
     | 1 => by64 && apart
     | 2 => dst % 64 == 0 && n % 64 == 0
     | 3 => by64
     | 4 => decide (byteAt d 1 < 8)
     | 5 => src % 2 ^ 30 == 0 && dst % 2 ^ 30 == 0 && n % 2 ^ 30 == 0 && decide (le d 2 2 < 4096)
     | _ => false)

/-- The bytes of a host line, lowest address first. -/
def hostBytes (d : HostLine) : List Byte := (List.range 64).map fun i => d.extractLsb' (8 * i) 8

/-- The eight-byte pattern repeated over a host line. -/
def patternLine (p : Nat) : HostLine :=
  BitVec.ofNat 512 ((List.range 8).foldl (fun a i => a + p % 2 ^ 64 * 2 ^ (64 * i)) 0)

/-- The code that the status of a step gives (Table 19-12); a destroyed key gives ERASED. A write discarded in Write-Locked
(4h) has no code of its own, and counts as done. -/
def stepCode (s : State) (tenant status : Nat) : Nat :=
  if slotErased s tenant then 4
  else match status with
    | 0 => 0
    | 2 => 7
    | 3 => 8
    | 4 => 0
    | 5 => 5
    | _ => 1

/-- Issue a request of an engine as an ENG request of its ring's tenant, at the cost of its step's bytes (R124, R570, R572). None while
no tag is free. -/
def issueStep (e : Nat) (x : Engine) (op : ReqOp) (addr : Nat) (data : HostLine) (be : W64) (poison : Bool) (bytes : Nat)
    (s : State) : Option State :=
  let s := setEngine e x s
  receive true { newReq (.engine e) op addr 0 data be poison false s.time.mono with cost := bytes } s

/-- A step of a whole host line. -/
def issue (e : Nat) (x : Engine) (op : ReqOp) (addr : Nat) (data : HostLine) (be : W64) (poison : Bool) (s : State) :
    Option State :=
  issueStep e x op addr data be poison 64 s

/-- Send a line of MIGRATE straight to DEST_DEV (R573). None while no tag is free. -/
def sendMigrate (e : Nat) (x : Engine) (r : DescRing) (data : HostLine) (poison : Bool) (s : State) : Option State :=
  let s := setEngine e x s
  match tagFor s (.engine e) with
  | none => none
  | some tag =>
    let q := newReq (.engine e) .wr (descDst x.desc + x.pos) 0 data (BitVec.allOnes 64) poison false s.time.mono
    let s := { s with ten := { s.ten with reqs := tput s.ten.reqs tag { q with tenant := r.tenant, cls := 3 } } }
    some (toRemote tag (le x.desc 2 2) q.addr true false s)

/-- The bytes 40 to 63 that an engine writes back, in their host line (Table 19-10). -/
def backLine (x : Engine) : HostLine :=
  BitVec.ofNat 512 ((x.result % 2 ^ 64 + x.pos * 2 ^ 64 + (2 ^ 31 + x.code) * 2 ^ 160) * 2 ^ 320)

/-- Release the unit that an engine holds (R575). -/
def releaseUnit (e : Nat) (s : State) : State :=
  { s with eng := { s.eng with
    units := tmap s.eng.units fun _ u => if u.held = some e then { u with held := none } else u } }

/-- The descriptor ends: bytes 40 to 63 are written in one partial write (R570). -/
def writeBack (e : Nat) (x : Engine) (r : DescRing) (s : State) : Option State :=
  issueStep e { x with phase := .writeBack } .wrPtl (r.base + 64 * r.headP) (backLine x) (BitVec.ofNat 64 (2 ^ 64 - 2 ^ 40)) false 24
    (releaseUnit e s)

/-- Bytes of a CHECKSUM that the host line at the engine's position gives. -/
def sumBytes (x : Engine) : Nat :=
  let a := descSrc x.desc + x.pos
  min (64 - a % 64) (descLen x.desc - x.pos)

/-- Go on with a descriptor: the next step, or the write-back after the last one or a failure. -/
def goOn (e : Nat) (x : Engine) (r : DescRing) (s : State) : Option State :=
  let src := descSrc x.desc + x.pos
  if x.code ≠ 0 ∨ descLen x.desc ≤ x.pos then writeBack e x r s
  else if descOp x.desc = 2 then
    issue e { x with phase := .write } .wr (descDst x.desc + x.pos) (patternLine (descPattern x.desc)) (BitVec.allOnes 64)
      false s
  else if descOp x.desc = 5 ∧ (extOf s (extentOf src)).ownerDev ≠ 0xFFF then writeBack e { x with code := 1 } r s
  else
    issueStep e { x with phase := .readSrc } .rd (src / 64 * 64) 0 0 false (if descOp x.desc = 4 then sumBytes x else 64) s

/-- An engine begins to read the descriptor at the head of a ring (R570). None while no tag is free. -/
def fetchDesc (e k : Nat) (r : DescRing) (s : State) : Option State :=
  issue e { Engine.fresh with phase := .fetch, ring := some k, done := (engineOf s e).done } .rd (r.base + 64 * r.headP) 0 0 false
    { s with eng := { s.eng with rr := k + 1 } }

/-- ENGINE_TAKE_DESCRIPTOR (R570, R574): a free engine takes the next Running ring that holds work, in round-robin, and reads
its descriptor. -/
def execEngineTakeDescriptor (engine : Fin 16) (s : State) : Res :=
  let e := engine.val
  let s := takeSweeps s
  if engineFree s e = false ∨ drainRunning s then .next s
  else
    let able := s.eng.rings.filter fun p => p.2.st == 1 && p.2.headP != p.2.tailP && !p.2.stopping && !ringServed s p.1
    match nextFrom s.eng.rr (able.map (·.1)) with
    | none => .next s
    | some k =>
      match tfind s.eng.rings k with
      | none => .next s
      | some r => .next ((fetchDesc e k r s).getD s)

/-- Start a descriptor that has been read, of an operation (R570). -/
def startDesc (engine : Fin 16) (op : Nat) (s : State) : Res :=
  let x := engineOf s engine
  match engineRing s engine with
  | none => .next s
  | some r =>
    if x.phase = .decoded ∧ descOk x.desc = true ∧ descOp x.desc = op then .next ((goOn engine x r s).getD s) else .next s

/-- DESC_COPY (R570, R571). -/
def execDescCopy (engine : Fin 16) (s : State) : Res := startDesc engine 1 s

/-- DESC_FILL (R570). -/
def execDescFill (engine : Fin 16) (s : State) : Res := startDesc engine 2 s

/-- DESC_COMPARE (R570): RESULT is FFFF_FFFF_FFFF_FFFFh until a difference is found. -/
def execDescCompare (engine : Fin 16) (s : State) : Res :=
  let x := engineOf s engine
  match engineRing s engine with
  | none => .next s
  | some r =>
    if x.phase = .decoded ∧ descOk x.desc = true ∧ descOp x.desc = 3 then
      .next ((goOn engine { x with result := 2 ^ 64 - 1 } r s).getD s)
    else .next s

/-- DESC_CHECKSUM (R575): the unit is held and restarts with its configuration; UNIT_BUSY when it is assigned to another head
or held. -/
def execDescChecksum (engine : Fin 16) (s : State) : Res :=
  let x := engineOf s engine
  let u := byteAt x.desc 1
  match engineRing s engine with
  | none => .next s
  | some r =>
    if x.phase ≠ .decoded ∨ descOk x.desc = false ∨ descOp x.desc ≠ 4 then .next s
    else
      let c := cvOf s u
      if (c.head.isSome ∧ c.head ≠ some r.head) ∨ c.held.isSome then
        .next ((goOn engine { x with code := 3 } r s).getD s)
      else .next ((goOn engine x r (setCv u { cvRestart c with held := some engine.val } s)).getD s)

/-- DESC_MIGRATE (R573). -/
def execDescMigrate (engine : Fin 16) (s : State) : Res := startDesc engine 5 s

/-- DESC_INVALID (R570, Table 19-12): BAD_DESC, and no step is made. -/
def execDescInvalid (engine : Fin 16) (s : State) : Res :=
  let x := engineOf s engine
  match engineRing s engine with
  | none => .next s
  | some r =>
    if x.phase = .decoded ∧ descOk x.desc = false then .next ((writeBack engine { x with code := 2 } r s).getD s) else .next s

/-- The write-back is done: RING_HEAD advances, and the ring halts after a descriptor that is not OK or stops as asked
(Table 19-9). -/
def endDesc (e : Nat) (x : Engine) (r : DescRing) (s : State) : State :=
  let k := x.ring.getD 0
  let st := if r.stopping then 0 else if x.code = 0 then r.st else 2
  let s := setDescRing k { r with headP := (r.headP + 1) % max 1 r.entries, st := st, stopping := false,
                                  lastError := if x.code = 0 then r.lastError else x.code } s
  takeSweeps (setEngine e { Engine.fresh with done := x.done + 1 } s)

/-- A step's response, for a step that did not fail: what the engine does next. -/
def afterStep (e : Nat) (x : Engine) (r : DescRing) (resp : S2M) (s : State) : Option State :=
  let op := descOp x.desc
  match x.phase with
  | .fetch =>
    if resp.poison then writeBack e { x with code := 2 } r s
    else some (setEngine e { x with phase := .decoded, desc := hostBytes resp.data } s)
  | .readSrc =>
    if op = 1 then
      issue e { x with phase := .write, poison := resp.poison } .wr (descDst x.desc + x.pos) resp.data (BitVec.allOnes 64)
        resp.poison s
    else if op = 5 then
      let a := descSrc x.desc + x.pos
      match mapEntry s (lfaOf a) with
      | some ent =>
        if ent.st = .unmapped ∨ ent.st = .trimmed then goOn e { x with pos := x.pos + (4096 - a % 4096) } r s
        else sendMigrate e { x with phase := .write, poison := resp.poison } r resp.data resp.poison s
      | none => sendMigrate e { x with phase := .write, poison := resp.poison } r resp.data resp.poison s
    else if resp.poison then goOn e { x with code := 6 } r s
    else if op = 3 then
      issue e { x with phase := .readDst, data := resp.data } .rd (descDst x.desc + x.pos) 0 0 false s
    else
      let n := sumBytes x
      let u := byteAt x.desc 1
      let c := cvFeed (cvOf s u) (((hostBytes resp.data).drop ((descSrc x.desc + x.pos) % 64)).take n)
      goOn e { x with pos := x.pos + n, result := cvResult c } r (setCv u c s)
  | .readDst =>
    if resp.poison then goOn e { x with code := 6 } r s
    else
      let diff := (List.range 64).find? fun i => (hostBytes x.data).getD i 0 != (hostBytes resp.data).getD i 0
      let res := match diff with
        | some i => if x.result = 2 ^ 64 - 1 then x.pos + i else x.result
        | none => x.result
      goOn e { x with pos := x.pos + 64, result := res } r s
  | .write =>
    goOn e { x with pos := x.pos + 64, result := x.result + (if x.poison then 1 else 0), poison := false } r s
  | .writeBack => some (endDesc e x r s)
  | .idle => some s
  | .decoded => some s

/-- ENGINE_STEP_DONE (R570): the response to an engine's step is taken in, and the next step, the write-back or the next
descriptor follows. While no tag is free for the next step the response waits. -/
def execEngineStepDone (engine : Fin 16) (s : State) : Res :=
  let e := engine.val
  match s.eng.resp.find? fun p => p.1 == e with
  | none => .next s
  | some p =>
    let x := engineOf s e
    let t := { s with eng := { s.eng with resp := s.eng.resp.erase p } }
    match engineRing s e with
    | none => .next t
    | some r =>
      let code := stepCode s r.tenant p.2.1
      if x.phase = .writeBack then
        .next (endDesc e (if x.code = 0 then { x with code := code } else x) r t)
      else if code ≠ 0 then .next ((writeBack e { x with code := code } r t).getD s)
      else .next ((afterStep e x r p.2.2 t).getD s)

end Sys2Proof.Machine
end

