-- ==== Sys2Proof/Machine/FabWire.lean ====
section
/-!
DEFINITION. Bytes on a fabric link (12_fabric.md R392 to R394, R401, R402, R408, R410): message headers and bodies, slots and flits.
-/
namespace Sys2Proof.Machine

/-- One bit of CRC-64/ECMA-182: polynomial 42F0E1EBA9EA3693h, no reflection (R393). -/
def crc64Bit (c : Nat) : Nat := if 2 ^ 63 ≤ c then (c * 2 % 2 ^ 64) ^^^ 0x42F0E1EBA9EA3693 else c * 2

/-- One byte of CRC-64/ECMA-182. -/
def crc64Byte (c : Nat) (b : Byte) : Nat := (List.range 8).foldl (fun c _ => crc64Bit c) (c ^^^ (b.toNat * 2 ^ 56))

/-- CRC-64/ECMA-182 (R393). -/
def crc64 (bs : List Byte) : Nat := bs.foldl crc64Byte 0

/-- MSG_TYPE of a routed message (Table 12-4). -/
def msgType : MsgKind → Nat
  | .rd => 1 | .specRd => 2 | .wr => 3 | .wrPtl => 4 | .data => 5 | .cmp => 6

/-- The header of a routed message (Table 12-3). -/
def msgHeader (m : FabMsg) : Nat :=
  msgType m.kind * 2 ^ 124 + m.vc * 2 ^ 120 + m.dst * 2 ^ 108 + m.src * 2 ^ 96 + m.tag * 2 ^ 80 + m.gen * 2 ^ 76 + m.status * 2 ^ 72 +
    b2n m.poison * 2 ^ 71 + m.devload * 2 ^ 69 + b2n m.eng * 2 ^ 68 + b2n m.resend * 2 ^ 67 + b2n m.pri * 2 ^ 66 +
    m.epoch % 256 * 2 ^ 56 + m.addr % 2 ^ 48 / 64 * 64

/-- The header of a link-local message: VC Ch, DST_DEV FFFh and ADDR 0 (Table 12-3). -/
def localHeader (typ src epoch : Nat) : Nat := typ * 2 ^ 124 + 0xC * 2 ^ 120 + 0xFFF * 2 ^ 108 + src * 2 ^ 96 + epoch % 256 * 2 ^ 56

/-- The 64 B of a host line. -/
def lineBytes64 (d : HostLine) : List Byte := leBytes 64 d.toNat

/-- The slots of a routed message beyond its header (Table 12-4). -/
def msgBody (m : FabMsg) : List Byte :=
  match m.kind with
  | .rd | .specRd | .cmp => []
  | .wr | .data => lineBytes64 m.data
  | .wrPtl => leBytes 8 m.be.toNat ++ zeros 8 ++ lineBytes64 m.data

/-- The body of a HELLO (Table 12-6). -/
def helloBody (h : HelloMsg) : List Byte :=
  leBytes 8 h.serial ++ leBytes 8 h.epoch ++ leBytes 16 h.digest ++ leBytes 1 h.port ++
    leBytes 1 (b2n h.relayOk + 2 * b2n h.long + 4 * b2n h.narrow + 8 * b2n h.degraded) ++ leBytes 2 h.seen ++ leBytes 4 h.lsaSeq ++
    leBytes 2 h.helloMs ++ zeros 6

/-- The 4 bytes of a link (Table 12-7). -/
def linkWord (k : FabLink) : Nat :=
  k.nbr * 2 ^ 20 + k.nbrPort * 2 ^ 17 + k.localPort * 2 ^ 14 + b2n k.long * 2 ^ 13 + b2n k.degraded * 2 ^ 12 + b2n k.narrow * 2 ^ 11

/-- The 64 bytes of an LSA body (Table 12-7). -/
def lsaBytes (l : Lsa) : List Byte :=
  leBytes 2 l.origin ++ leBytes 2 l.age ++ leBytes 4 l.seq ++ leBytes 8 l.serial ++ leBytes 1 (b2n l.relayOk + 2 * b2n l.withdrawn) ++
    leBytes 1 l.links.length ++ zeros 2 ++
    ((List.range 8).flatMap fun i => leBytes 4 (((l.links[i]?).map linkWord).getD 0)) ++ zeros 12

/-- The slots of a message, header first, that a device of an ID and an active epoch sends (R394, R401, R402). -/
def msgBytes (dev epoch : Nat) : WireMsg → List Byte
  | .routed m => leBytes 16 (msgHeader m) ++ msgBody m
  | .hello h => leBytes 16 (localHeader 7 h.src h.epoch) ++ helloBody h
  | .lsa l => leBytes 16 (localHeader 8 dev epoch) ++ lsaBytes l
  | .ack o q n => leBytes 16 (localHeader 9 dev epoch) ++ leBytes 2 o ++ zeros 2 ++ leBytes 4 q ++ leBytes 8 n

/-- The header of a flit (Table 12-2). -/
def flitHeader (f : Flit) : Nat :=
  let cr := fun (i : Nat) => f.credits.getD i (0, 0)
  b2n (!f.payload) * 2 ^ 62 + f.seq * 2 ^ 50 + f.ackSeq * 2 ^ 38 + b2n f.nak * 2 ^ 37 + (cr 0).1 * 2 ^ 28 + (cr 0).2 * 2 ^ 16 +
    (cr 1).1 * 2 ^ 12 + (cr 1).2

/-- The 256 bytes of a flit: header, 15 slots, empty ones zero, and FLIT_CRC over bytes 0 to 247 (R392 to R394). -/
def flitBytes (dev epoch : Nat) (f : Flit) : List Byte :=
  let b := leBytes 8 (flitHeader f) ++ (f.msgs.flatMap (msgBytes dev epoch) ++ zeros 240).take 240
  b ++ leBytes 8 (crc64 b)

/-- The flits that a port has sent, as bytes. -/
def wireBytes (s : State) (p : Nat) : List (List Byte) := (portOf s p).wire.map (flitBytes s.fabric.devId s.ten.epochA)

end Sys2Proof.Machine
end

