-- ==== Sys2Proof/Machine/Fabric.lean ====
section
/-!
DEFINITION. Meanings of the fabric commands and events (12_fabric.md): ports (R391), flits and retry (R392 to R399), Hellos
and LSAs (R404 to R412), routes (R413, R414), relaying and ingress (R417, R418), and remote requests (R403, R422).
-/
namespace Sys2Proof.Machine

/-! ### Ports (R387 to R391) -/

/-- Enter Retraining; the third entry within 60 s disables the port (Table 12-1). -/
def toRetraining (p : Nat) (s : State) : State :=
  let s := leaveLink p s
  let x := portOf s p
  let times := s.time.mono :: x.retrains.filter fun t => decide (s.time.mono < t + 60000000000)
  if 3 ≤ times.length then syncFab (enterPort p .disabled (setPort p { x with retrains := [], byRetrain := true } s))
  else enterPort p .retraining (setPort p { x with retrains := times } s)

/-- The flit layer at entry to Linked (R393, R395, R399): sequence numbers and counts start anew, slots are granted, and seven
idle flits report every class. -/
def linkStart (drain : Bool) (x : FabPort) : FabPort :=
  let z := List.replicate 13 0
  let x := grantSlots drain { x with txSeq := 0, retry := [], rxNext := 0, nakAt := none, replays := 0, replayTimes := [],
                                     sent := z, credit := z, granted := z, recvd := z, hello := none, sentSeen := 0xFFF }
  (List.range 7).foldl (fun x _ => x.emit 0 none false) x

/-- FABRIC_PMD_TRAINING_DONE (R387, R389, R391, R408): width and propagation are known, the port is Linked and sends a
Hello. -/
def execFabricPmdTrainingDone (port : Fin 8) (width : Fin 5) (prop : Nat) (s : State) : Res :=
  let x := portOf s port
  if (x.st = .training ∨ x.st = .retraining) ∧ (width.val = 4 ∨ width.val = 2 ∨ width.val = 1) then
    let s := { s with time := { s.time with frefGood := true } }
    let s := setPort port { linkStart (drainRunning s) x with width := width, prop := prop } s
    .next (sendHello port (enterPort port .linked s))
  else .next s

/-- FABRIC_LOSS_OF_LOCK (R391, R415). -/
def execFabricLossOfLock (port : Fin 8) (s : State) : Res :=
  if (portOf s port).st.flits then .next (toRetraining port s) else .next s

/-- FABRIC_RETRAIN_TIMEOUT (R391): 100 ms without lock. -/
def execFabricRetrainTimeout (port : Fin 8) (s : State) : Res :=
  let x := portOf s port
  if x.st = .retraining ∧ x.since + 100000000 ≤ s.time.mono then .next (enterPort port .training s) else .next s

/-- FABRIC_DISABLED_EXPIRY (R391): 60 s after an entry that retraining caused. -/
def execFabricDisabledExpiry (port : Fin 8) (s : State) : Res :=
  let x := portOf s port
  if x.st = .disabled ∧ x.byRetrain = true ∧ x.since + 60000000000 ≤ s.time.mono then
    .next (syncFab (enterPort port .training (setPort port { x with byRetrain := false } s)))
  else .next s

/-! ### Flits (R392 to R399) -/

/-- Replay every unacknowledged flit in order (R395); it escalates after 8 replays without advance, or above 64 in 1 ms
(R396). -/
def replay (p : Nat) (s : State) : State :=
  let x := portOf s p
  let now := s.time.mono
  if x.retry.isEmpty then s
  else
    let n := x.retry.length
    let y := x.retry.foldl (fun (y : FabPort) f => y.emit f.seq (some f.msg) false) x
    let times := now :: x.replayTimes.filter fun t => decide (now < t + 1000000)
    let y := { y with retry := x.retry.map fun (f : RetryFlit) => { f with at_ := now }, replays := x.replays + 1, replayTimes := times }
    let s := countEvent 0x0052 n EvAttr.bare (setPort p (y.bump 2 1) s)
    if 8 ≤ x.replays + 1 ∨ 64 < times.length then toRetraining p s else s

/-- Take an ACK_SEQ: the flits it covers leave the retry buffer (R395). -/
def takeAck (ack : Nat) (x : FabPort) : FabPort :=
  match x.retry with
  | [] => x
  | f :: _ =>
    let n := (ack + 1 + 4096 - f.seq) % 4096
    if n = 0 ∨ x.retry.length < n then x else { x with retry := x.retry.drop n, replays := 0 }

/-- Send NAK in the next flit (R395). -/
def sendNak (now : Nat) (x : FabPort) : FabPort := ({ x with nakAt := some now }.bump 3 1).emit 0 none true

/-- A flit is bad, or not the one expected: it is discarded, and NAK is sent once per error (R395). -/
def rejectFlit (now : Nat) (x : FabPort) : FabPort := if x.nakAt.isSome then x else sendNak now x

/-- Accept the payload flit expected: its messages enter the buffer, slots are granted, and an idle flit acknowledges it. -/
def acceptFlit (drain : Bool) (f : Flit) (x : FabPort) : FabPort :=
  let recvd := f.msgs.foldl (fun r m => r.set (wireCls m) ((r.getD (wireCls m) 0 + wireSlots m) % 4096)) x.recvd
  let x := { x with rxNext := (x.rxNext + 1) % 4096, nakAt := none, inbox := x.inbox ++ f.msgs, recvd := recvd }
  (grantSlots drain x).emit 0 none false

/-- The counts of a flit that arrives: flits, and what FEC corrected or could not in its codewords, kept for a second (R390). -/
def noteFlit (now symbols uncorrectable : Nat) (x : FabPort) : FabPort :=
  let fec := (x.fec.filter fun e => decide (now < e.1 + 1000000000)) ++
    (if symbols + uncorrectable = 0 then [] else [(now, symbols, uncorrectable)])
  (({ x with fec := fec }.bump 1 1).bump 5 symbols).bump 6 uncorrectable

/-- The acknowledgement and the credit reports of a good flit (R395, R399). -/
def readFlit (f : Flit) (x : FabPort) : FabPort :=
  let x := takeAck f.ackSeq x
  { x with credit := f.credits.foldl (fun c r => c.set r.1 (r.2 % 4096)) x.credit }

/-- FLIT_RECEIVE (R390, R393 to R395, R399): with the FEC counts of the codewords it came in. -/
def execFlitReceive (port : Fin 8) (flit : Flit) (symbols uncorrectable : Nat) (s : State) : Res :=
  let now := s.time.mono
  if (portOf s port).st.flits then
    let x := noteFlit now symbols uncorrectable (portOf s port)
    if flit.crcOk = false then .next (setPort port (rejectFlit now (x.bump 4 1)) s)
    else
      let x := readFlit flit x
      let good := flit.payload && flit.seq == x.rxNext
      let x := if !flit.payload then x else if good then acceptFlit (drainRunning s) flit x else rejectFlit now x
      let s := setPort port x s
      let s := if good then flit.msgs.foldl (fun s m => countPortData (0x40 + port) m s) s else s
      let s := if flit.nak then replay port s else s
      .next (pumpPort port s)
  else .next s

/-- REPLAY_TIMER (R395): the oldest unacknowledged flit is 2 µs old. -/
def execReplayTimer (port : Fin 8) (s : State) : Res :=
  match (portOf s port).retry with
  | [] => .next s
  | f :: _ => if f.at_ + 2000 ≤ s.time.mono then .next (replay port s) else .next s

/-- NAK_REPEAT_TIMER (R395): no replay has begun 1 µs after the NAK. -/
def execNakRepeatTimer (port : Fin 8) (s : State) : Res :=
  let x := portOf s port
  match x.nakAt with
  | some t => if x.st.flits ∧ t + 1000 ≤ s.time.mono then .next (setPort port (sendNak s.time.mono x) s) else .next s
  | none => .next s

/-- The oldest received message of a port that satisfies a test, and the state with its slots granted again. -/
def takeMsg (p : Nat) (f : WireMsg → Bool) (s : State) : Option (WireMsg × State) :=
  let x := portOf s p
  match x.inbox.find? f with
  | none => none
  | some m =>
    let x := { x with inbox := x.inbox.erase m }
    let x := if x.st.flits then (grantSlots (drainRunning s) x).emit 0 none false else x
    some (m, setPort p x s)

/-! ### Hellos (R407 to R409) -/

/-- A Linked port whose link is two-way is Up (R409). -/
def checkUp (p : Nat) (s : State) : State :=
  let x := portOf s p
  match x.hello with
  | some (h, _) =>
    if x.st = .linked ∧ s.fabric.devId ≠ 0xFFF ∧ h.src ≠ 0xFFF ∧ h.src ≠ s.fabric.devId ∧ h.seen = s.fabric.devId ∧
        x.sentSeen = h.src then
      pumpPort p (enterPort p .up s)
    else s
  | none => s

/-- HELLO_SEND (R408). -/
def execHelloSend (port : Fin 8) (s : State) : Res :=
  let x := portOf s port
  if x.st.flits ∧ x.helloAt + x.helloMs * 1000000 ≤ s.time.mono then .next (checkUp port (sendHello port s))
  else .next s

/-- Whether a wire message is a Hello. -/
def WireMsg.isHello : WireMsg → Bool
  | .hello _ => true
  | _ => false

/-- HELLO (R407, R409, R445): the neighbour's Hello is kept, a loop to itself logged (6005h), a lower serial given way to, and
the peer heard. -/
def execHello (port : Fin 8) (s : State) : Res :=
  match takeMsg port WireMsg.isHello s with
  | some (.hello h, s) =>
    let s := setPort port { portOf s port with hello := some (h, s.time.mono) } s
    if h.src = s.fabric.devId ∧ h.serial = s.mgmt.serial ∧ h.src ≠ 0xFFF then .next (raise (0x050 + port) 0x6005 port 0 0 s)
    else .next (checkUp port (hearPeer h.src h.epoch h.digest 0 (claimId h.src h.serial s)))
  | _ => .next s

/-- HELLO_DEAD_INTERVAL (R391): no Hello for DEAD_MULT × HELLO_MS. -/
def execHelloDeadInterval (port : Fin 8) (s : State) : Res :=
  let x := portOf s port
  let last := match x.hello with
    | some (_, t) => t
    | none => x.since
  let dead := x.deadMult * x.helloMs * 1000000
  if x.st.flits ∧ last + dead ≤ s.time.mono then .next (toRetraining port s) else .next s

/-! ### Link-state database (R407, R410 to R412) -/

/-- Acknowledge an LSA on its port. -/
def ackLsa (p : Nat) (l : Lsa) (s : State) : State := enqueue p (.ack l.origin l.seq l.serial) s

/-- Store and flood a newer LSA (R411), or with AGE 1,800 remove the stored copy of its origin and serial and flood it
(R412). -/
def takeLsa (p : Nat) (l : Lsa) (s : State) : State :=
  if 1800 ≤ l.age then
    match tfind s.fabric.db l.origin with
    | some k =>
      if k.serial = l.serial then
        floodLsa (some p) l { s with fabric := { s.fabric with db := tdel s.fabric.db l.origin, dbAt := s.time.mono, dirty := true } }
      else s
    | none => s
  else floodLsa (some p) { l with age := min 1800 (l.age + 1) } (storeLsa l s)

/-- An LSA received on a port (R407, R411, R412). -/
def receiveLsa (p : Nat) (l : Lsa) (s : State) : State :=
  if l.origin = s.fabric.devId ∧ l.serial = s.mgmt.serial then
    -- the device's own LSA
    if s.fabric.lsaSeq < l.seq then originateLsa false (ackLsa p l { s with fabric := { s.fabric with lsaSeq := l.seq } })
    else if l.seq = s.fabric.lsaSeq then ackLsa p l s
    else match tfind s.fabric.db l.origin with
      | some k => sendLsa p k s
      | none => ackLsa p l s
  else if l.origin = s.fabric.devId ∧ s.mgmt.serial < l.serial then
    -- this device's serial is lower and keeps the ID
    ackLsa p l (idConflict l.origin s.mgmt.serial s)
  else
    let s := claimId l.origin l.serial s
    match tfind s.fabric.db l.origin with
    | none => if 1800 ≤ l.age then ackLsa p l s else takeLsa p l (ackLsa p l s)
    | some k =>
      if k.serial ≠ l.serial then
        let s := idConflict l.origin (min k.serial l.serial) s
        if l.serial < k.serial then takeLsa p l (ackLsa p l s) else ackLsa p l s
      else if k.seq < l.seq ∨ 1800 ≤ l.age then takeLsa p l (ackLsa p l s)
      else if k.seq = l.seq then ackLsa p l s
      else sendLsa p k s

/-- Whether a wire message is an LSA. -/
def WireMsg.isLsa : WireMsg → Bool
  | .lsa _ => true
  | _ => false

/-- Whether a wire message acknowledges an LSA. -/
def WireMsg.isAck : WireMsg → Bool
  | .ack .. => true
  | _ => false

/-- LSA (R407, R411, R412). -/
def execLsa (port : Fin 8) (s : State) : Res :=
  match takeMsg port WireMsg.isLsa s with
  | some (.lsa l, s) => .next (receiveLsa port l s)
  | _ => .next s

/-- LSA_ACK (R411). -/
def execLsaAck (port : Fin 8) (s : State) : Res :=
  match takeMsg port WireMsg.isAck s with
  | some (.ack o q n, s) =>
    let mine := fun (u : Nat × Lsa × Nat) => u.1 == port.val && u.2.1.origin == o && u.2.1.seq == q && u.2.1.serial == n
    .next { s with fabric := { s.fabric with unacked := s.fabric.unacked.filter fun u => !mine u } }
  | _ => .next s

/-- LSA_RESEND (R411): LSAs that a port has not acknowledged for 100 ms. -/
def execLsaResend (port : Fin 8) (s : State) : Res :=
  let due := s.fabric.unacked.filter fun u => u.1 == port.val && decide (u.2.2 + 100000000 ≤ s.time.mono)
  .next (due.foldl (fun s u => sendLsa port u.2.1 s) s)

/-- LSA_AGE_TICK (R412): each second. -/
def execLsaAgeTick (s : State) : Res :=
  let aged := tmap s.fabric.db fun _ l => { l with age := l.age + 1 }
  let kept := tfilter aged fun _ l => decide (l.age < 1800)
  if kept.length = aged.length then .next { s with fabric := { s.fabric with db := kept } }
  else .next { s with fabric := { s.fabric with db := kept, dbAt := s.time.mono, dirty := true } }

/-- LSA_ORIGINATE (R410): the Up ports or a link flag have changed, RELAY_EN has, or 600 s have passed. -/
def execLsaOriginate (s : State) : Res :=
  let changed := match tfind s.fabric.db s.fabric.devId with
    | some l => l.links != ownLinks s || l.relayOk != s.fabric.policy.relayEn
    | none => true
  if s.fabric.devId ≠ 0xFFF ∧ (changed = true ∨ s.fabric.lsaAt + 600000000000 ≤ s.time.mono) then .next (originateLsa false s)
  else .next s

/-- Originate the own LSA under a new ID, taking over the counter. -/
def assignId (id : Nat) (s : State) : State :=
  originateLsa false (writeFabricId { s with fabric := { s.fabric with devId := id } })

/-- AUTO_ID_ASSIGN (R406): the first ID from the serial's CRC on that the database does not hold. -/
def execAutoIdAssign (s : State) : Res :=
  let f := s.fabric
  if s.mgmt.fabric.mode = .running ∧ f.policy.autoId ∧ f.devId = 0xFFF ∧ ((List.range 8).any fun p => (portOf s p).st.flits) ∧ f.dbAt + 2000000000 ≤ s.time.mono then
    let start := crc16 (leBytes 8 s.mgmt.serial) % 4095
    match (List.range 4095).find? fun i => (tfind f.db ((start + i) % 4095)).isNone with
    | some i => .next (assignId ((start + i) % 4095) s)
    | none => .next s
  else .next s

/-! ### Routes (R413, R414) -/

/-- Links of a device that both ends list (R413). -/
def linksOf (db : Tbl Lsa) (a : Nat) : List FabLink :=
  match tfind db a with
  | none => []
  | some l => l.links.filter fun k => match tfind db k.nbr with
    | some m => m.links.any fun j => j.nbr == a && j.localPort == k.nbrPort && j.nbrPort == k.localPort
    | none => false

/-- A device that may be an intermediate (R413). -/
def mayRelay (db : Tbl Lsa) (d : Nat) : Bool :=
  match tfind db d with
  | some l => l.relayOk && !l.withdrawn
  | none => false

/-- Breadth-first hop counts: `n` levels from a frontier at hop count `h - 1`. -/
def bfs (db : Tbl Lsa) : Nat → Nat → List Nat → Tbl Nat → Tbl Nat
  | 0, _, _, t => t
  | n + 1, h, fr, t =>
    let next := ((fr.flatMap fun a => (linksOf db a).map fun k => k.nbr).eraseDups).filter fun d => (tfind t d).isNone
    bfs db n (h + 1) (next.filter (mayRelay db)) (next.foldl (fun t d => tput t d h) t)

/-- Hop counts from this device, up to 7. -/
def distSelf (db : Tbl Lsa) (d : Nat) : Tbl Nat := bfs db 7 1 [d] [(d, 0)]

/-- Hop counts from a neighbour, which is itself an intermediate on the way. -/
def distVia (db : Tbl Lsa) (n : Nat) : Tbl Nat := bfs db 7 1 (if mayRelay db n then [n] else []) [(n, 0)]

/-- The order of candidate links: clean links first, then lower neighbour, then lower port (R413). -/
def linkKey (k : FabLink) : Nat := (if k.long || k.narrow || k.degraded then 32768 else 0) + 8 * k.nbr + k.localPort

/-- Put a link into a list ordered by `linkKey`. -/
def insertLink (k : FabLink) : List FabLink → List FabLink
  | [] => [k]
  | j :: l => if linkKey k ≤ linkKey j then k :: j :: l else j :: insertLink k l

/-- The route entry of a destination (R413). -/
def routeEntry (ups : List (FabLink × Tbl Nat)) (self : Tbl Nat) (d : Nat) : RouteEnt :=
  match tfind self d with
  | none => RouteEnt.none
  | some h =>
    if 6 < h then RouteEnt.none
    else
      let at_ := fun (n : Nat) => (ups.filter fun u => tfind u.2 d == some n).map fun u => u.1
      match at_ (h - 1) with
      | [] => RouteEnt.none
      | p :: rest =>
        let base := { RouteEnt.none with valid := true, primary := p.localPort, hops := h }
        match rest with
        | a :: _ => { base with alternate := a.localPort, altValid := true }
        | [] =>
          match at_ h with
          | a :: _ => if h + 1 ≤ 6 then { base with alternate := a.localPort, altValid := true, altLonger := true } else base
          | [] => base

/-- The route table that the database gives (R413). -/
def computeRoutes (s : State) : Tbl RouteEnt :=
  let db := s.fabric.db
  let me := s.fabric.devId
  let links := ((linksOf db me).filter fun k => (portOf s k.localPort).st == .up).foldl (fun l k => insertLink k l) []
  let ups := links.map fun k => (k, distVia db k.nbr)
  let self := distSelf db me
  (db.filter fun p => p.1 != me).foldl (fun t p => tset t p.1 (routeEntry ups self p.1) RouteEnt.none) []

/-- ROUTE_RECOMPUTE (R413, Table 1-7): 5 ms after the last change, by a fabric supervisor that runs. -/
def execRouteRecompute (s : State) : Res :=
  let f := s.fabric
  if f.dirty ∧ f.dbAt + 5000000 ≤ s.time.mono ∧ s.mgmt.fabric.mode = .running ∧ f.devId ≠ 0xFFF then
    .next { s with fabric := { f with standby := some (computeRoutes s), dirty := false } }
  else .next s

/-- ROUTE_TABLE_SWAP (R413): the halves swap; messages held for a route go. -/
def execRouteTableSwap (s : State) : Res :=
  match s.fabric.standby with
  | some t =>
    if s.mgmt.fabric.mode = .running then
      .next (retryEgress { s with fabric := { s.fabric with routes := t, standby := none, swapAt := s.time.tbNow } })
    else .next s
  | none => .next s

/-! ### Relaying and ingress (R417, R418) -/

/-- Whether a wire message is routed, for this device or not, of a kind. -/
def WireMsg.isFor (dev : Nat) (k : MsgKind) : WireMsg → Bool
  | .routed m => m.dst == dev && m.kind == k
  | _ => false

/-- Messages for this device that stand first in the local-ingress queue of their VC, given the VCs already met (R398). -/
def queueHeads (dev : Nat) : List Nat → List WireMsg → List WireMsg
  | _, [] => []
  | met, .routed m :: l =>
    if m.dst = dev ∧ met.contains m.vc = false then .routed m :: queueHeads dev (m.vc :: met) l else queueHeads dev met l
  | met, _ :: l => queueHeads dev met l

/-- Take a message of a kind for this device from the head of its queue (R398, R418). -/
def takeLocal (p : Nat) (k : MsgKind) (s : State) : Option (WireMsg × State) :=
  let heads := if s.fabric.devId = 0xFFF then [] else queueHeads s.fabric.devId [] (portOf s p).inbox
  match heads.find? (WireMsg.isFor s.fabric.devId k) with
  | none => none
  | some m => takeMsg p (fun x => x == m) s

/-- A message that this device relays; while it drains, no request (R400). -/
def relayable (dev : Nat) (drain : Bool) : WireMsg → Bool
  | .routed m => (m.dst != dev || m.dst == 0xFFF) && (!drain || m.kind == .data || m.kind == .cmp)
  | _ => false

/-- A message whose fabric address carries device ID FFFh (R55): a read is completed with poison, a write is discarded with 6004h. -/
def refuseRoute (port : Nat) (m : FabMsg) (s : State) : State :=
  if m.kind = .rd then
    let d := drawBits 512 s
    originate { m with kind := .data, dst := m.src, src := s.fabric.devId, status := 0, poison := true, be := 0, data := d.1 } d.2
  else if m.kind = .wr ∨ m.kind = .wrPtl then dropMsg port 1 m.dst s
  else s

/-- MESSAGE_RELAY (R55, R398, R404, R416, R417): on the next VC, or dropped. Its slots stay taken until it leaves on the egress port. -/
def execMessageRelay (port : Fin 8) (s : State) : Res :=
  let ok := s.fabric.devId != 0xFFF && s.fabric.policy.relayEn
  match (portOf s port).inbox.find? (relayable s.fabric.devId (drainRunning s)) with
  | some (.routed m) =>
    if m.dst ≠ 0xFFF ∧ ok = true then
      let x := portOf s port
      let n := { m with vc := m.vc + 1 }
      .next (forward port n (setPort port { x with inbox := x.inbox.erase (.routed m), relaying := x.relaying ++ [n] } s))
    else
      match takeMsg port (fun w => w == .routed m) s with
      | some (_, s) => .next (if m.dst = 0xFFF then refuseRoute port m s else dropMsg port 2 m.dst s)
      | none => .next s
  | _ => .next s

/-- The request that a message for this device makes: bytes with a parity error are not stored (R31, R32, R418). -/
def ingressReq (k : MsgKind) (op : ReqOp) (bad : W64) (m : FabMsg) (now : Nat) : Req :=
  let be := if k = .wr then BitVec.allOnes 64 else m.be
  newReq (.fabric m.src) op m.addr (packTag m.tag m.gen m.pri) m.data (be &&& ~~~bad) m.poison (bad != 0) now

/-- What a message for this device leaves before its classification: activity, the tag check of its extent's tenant, and a
parity error's event (R32, R418, R444). -/
def noteIngress (op : ReqOp) (bad : W64) (m : FabMsg) (s : State) : State :=
  let s := noteRequest { s with power := { s.power with quietSince := s.time.mono } }
  let x := extOf s (extentOf m.addr)
  let named := decide (extentOf m.addr < 241664) && x.st != .unassigned
  let s := if named then (checkTag x.tenant m.src m.epoch s).2 else s
  if bad ≠ 0 ∧ op.isWrite = true then raiseParity 0x033 2 m.addr s else s

/-- A request for this device: the tag check, then a tag and the classifier (R418, R444). It stays in its buffer while no tag
is free (R400). -/
def ingress (port : Nat) (k : MsgKind) (op : ReqOp) (bad : W64) (s : State) : State :=
  match takeLocal port k s with
  | some (.routed m, u) => (receive m.eng (ingressReq k op bad m s.time.mono) (noteIngress op bad m u)).getD s
  | _ => s

/-- MEM_RD_MESSAGE (R418). -/
def execMemRdMessage (port : Fin 8) (bad : Bool) (s : State) : Res := .next (ingress port .rd .rd (if bad then 1 else 0) s)

/-- MEM_SPEC_RD_MESSAGE (R402): BULK, and no response. -/
def execMemSpecRdMessage (port : Fin 8) (s : State) : Res := .next (ingress port .specRd .specRd 0 s)

/-- MEM_WR_MESSAGE (R418). -/
def execMemWrMessage (port : Fin 8) (bad : W64) (s : State) : Res := .next (ingress port .wr .wr bad s)

/-- MEM_WR_PTL_MESSAGE (R402). -/
def execMemWrPtlMessage (port : Fin 8) (bad : W64) (s : State) : Res := .next (ingress port .wrPtl .wrPtl bad s)

/-! ### Responses and expiries (R403, R422) -/

/-- The events that a response's STATUS gives at the requester (R403, R77, R119). -/
def statusEvents (port : Nat) (m : FabMsg) (r : Req) (s : State) : State :=
  let e := extentOf r.addr
  if m.status = 0 ∨ m.status = 4 then s
  else if m.status = 2 then raise 0x031 0xA001 r.tenant e 0 s
  else if m.status = 3 then (if r.op.isWrite then raise 0x031 0x7003 r.tenant m.src m.epoch s else s)
  else
    let s := raiseDpa 0x031 0x9002 r.addr (eventHead s r.src) s
    if m.status = 1 then s else raise (0x050 + port) 0x6004 port 3 m.dst s

/-- A response is matched to its tag and completes the request by its STATUS (R403, R418, R444). -/
def response (port : Nat) (k : MsgKind) (s : State) : State :=
  match takeLocal port k s with
  | some (.routed m, s) =>
    match tfind s.fabric.remote m.tag, tfind s.ten.reqs m.tag with
    | some x, some r =>
      if x.waits ≠ 0 ∨ x.msg.gen ≠ m.gen then dropMsg port 1 m.dst s
      else
        let c := checkTag r.tenant m.src m.epoch (modReq m.tag (fun r => { r with devload := m.devload }) s)
        if c.1 = false then endRemote m.tag m.data true 0 6 c.2
        else
          let bad := m.status != 0 || m.poison
          endRemote m.tag m.data bad m.status (if r.op.isWrite && m.status != 0 then 8 else 6) (statusEvents port m r c.2)
    | _, _ => dropMsg port 1 m.dst s
  | _ => s

/-- DATA_MESSAGE (R403). -/
def execDataMessage (port : Fin 8) (s : State) : Res := .next (response port .data s)

/-- CMP_MESSAGE (R403). -/
def execCmpMessage (port : Fin 8) (s : State) : Res := .next (response port .cmp s)

/-- The first remote request that has expired `n` times and is due again (R422). -/
def expiredReq (s : State) (n : Nat) : Option (Nat × Remote) :=
  s.fabric.remote.find? fun p =>
    p.2.waits == 0 && p.2.expired == n && decide (p.2.at_ + (n + 1) * s.fabric.policy.timeout * 1000000 ≤ s.time.mono)

/-- Drop the copies of a request that still wait for a route. -/
def dropHeld (m : FabMsg) (s : State) : State :=
  { s with fabric := { s.fabric with egress := s.fabric.egress.filter fun y => !(y.kind == m.kind && y.tag == m.tag && y.src == m.src) } }

/-- FAB_TIMEOUT_FIRST (R422): the request is sent once more with RESEND and the same TAG and TAG_GEN. -/
def execFabTimeoutFirst (s : State) : Res :=
  match expiredReq s 0 with
  | none => .next s
  | some (tag, x) =>
    let m := { x.msg with resend := true, epoch := epochTag s }
    let f := s.fabric
    let s := { s with fabric := { f with remote := tput f.remote tag { x with expired := 1, msg := m },
                                         timeouts := f.timeouts + 1, resends := f.resends + 1 } }
    .next (originate m (countEvent 0x0053 1 EvAttr.bare (dropHeld m s)))

/-- FAB_TIMEOUT_SECOND (R422, R571): a read completes with poison, a write with Cmp and its head enters viral first; the
events carry the DPA. -/
def execFabTimeoutSecond (s : State) : Res :=
  match expiredReq s 1, (expiredReq s 1).bind fun p => tfind s.ten.reqs p.1 with
  | some (tag, x), some r =>
    let s := dropHeld x.msg { s with fabric := { s.fabric with timeouts := s.fabric.timeouts + 1 } }
    let h := eventHead s r.src
    let s := modReq tag (fun r => { r with devload := plainLoad s }) s
    if r.op.isWrite then
      let s := match r.src with
        | .head h => enterViral 6 h { s with fabric := { s.fabric with virals := s.fabric.virals + 1 } }
        | _ => s
      .next (endRemote tag 0 false 5 8 (raiseDpa 0x030 0x6003 r.addr h s))
    else
      let d := drawBits 512 (raiseDpa 0x030 0x6003 r.addr h (raiseDpa 0x030 0x3002 r.addr h s))
      .next (endRemote tag d.1 true 5 9 d.2)
  | _, _ => .next s

/-! ### Commands (R426) -/

/-- The 8 bytes of the fabric policy register (Table 12-10). -/
def fabPolicyBytes (p : FabPolicy) : List Byte :=
  leBytes 4 (p.helloMs * 2 ^ 24 + p.deadMult * 2 ^ 16 + p.timeout) ++
    leBytes 4 (p.adaptLow * 2 ^ 20 + p.portEn.toNat * 2 ^ 12 + b2n p.autoId * 2 ^ 11 + b2n p.relayEn * 2 ^ 10)

/-- The register that 8 bytes give (Table 12-10). -/
def fabPolicyOf (b : List Byte) : FabPolicy :=
  let v := le b 4 4
  { helloMs := byteAt b 3, deadMult := byteAt b 2, timeout := le b 0 2, adaptLow := bits v 20 12,
    portEn := BitVec.ofNat 8 (bits v 12 8), autoId := bits v 11 1 == 1, relayEn := bits v 10 1 == 1 }

/-- The ranges of Table 12-10. -/
def fabPolicyOk (p : FabPolicy) : Bool :=
  decide (1 ≤ p.helloMs) && decide (p.helloMs ≤ 100) && decide (3 ≤ p.deadMult) && decide (p.deadMult ≤ 16) &&
    decide (1 ≤ p.timeout) && decide (p.timeout ≤ 1000)

/-- The 32 bytes of a port in Get Fabric State. -/
def portBytes (s : State) (p : Nat) : List Byte :=
  let x := portOf s p
  let h := match x.hello with
    | some (h, _) => (h.port, h.src, h.epoch, h.digest)
    | none => (0, 0xFFF, 0, 0)
  let flags := b2n x.long + 2 * b2n x.narrow + 4 * b2n (x.degraded s.time.mono)
  leBytes 1 x.st.code ++ leBytes 1 x.width ++ leBytes 1 flags ++ leBytes 1 h.1 ++ leBytes 2 h.2.1 ++ leBytes 2 x.prop ++
    leBytes 8 h.2.2.1 ++ leBytes 16 h.2.2.2

/-- GET_FABRIC_STATE (C400h, R426). -/
def execGetFabricState (cci : Fin 10) (inp : List Byte) (s : State) : Res :=
  vendor cci 0xC400 inp 0 [] (fun s =>
    answer s (leBytes 2 s.fabric.devId ++ zeros 2 ++ leBytes 8 s.mgmt.serial ++ fabPolicyBytes s.fabric.policy ++ zeros 4 ++
      (List.range 8).flatMap (portBytes s))) s

/-- SET_FABRIC_DEVICE_ID (C401h, R405): an ID that is replaced is first flooded with AGE 1,800. -/
def execSetFabricDeviceId (cci : Fin 10) (inp : List Byte) (s : State) : Res :=
  vendor cci 0xC401 inp 3 [] (fun s =>
    let id := le inp 0 2
    let old := s.fabric.devId
    let taken := match tfind s.fabric.db id with
      | some l => l.serial != s.mgmt.serial
      | none => false
    if 0xFFF < id then .fail .invalidInput
    else if old ≠ 0xFFF ∧ byteAt inp 2 % 2 = 0 then .fail .invalidState
    else if taken then .fail .invalidInput
    else
      let s := match tfind s.fabric.db old with
        | some l =>
          if old = 0xFFF then s
          else
            let s := floodLsa none { l with age := 1800 } s
            { s with fabric := { s.fabric with db := tdel s.fabric.db old, dbAt := s.time.mono, dirty := true } }
        | none => s
      .commit .none (if id = 0xFFF then writeFabricId { s with fabric := { s.fabric with devId := id } } else assignId id s)) s

/-- Ports follow PORT_EN (Table 12-1). -/
def applyPortEn (s : State) : State :=
  let s := (List.range 8).foldl (fun s p =>
    let on := s.fabric.policy.portEn.getLsbD p
    let x := portOf s p
    if !on then dropPort p .disabled (setPort p { x with byRetrain := false } s)
    else if x.st = .disabled ∧ x.byRetrain = false ∧ devUp s then enterPort p .training s
    else s) s
  syncFab s

/-- The record of a fabric policy within its ranges (R424). -/
def fabPolicyRec (inp : List Byte) : Option (List Byte) :=
  if fabPolicyOk (fabPolicyOf inp) then some (fabPolicyBytes (fabPolicyOf inp)) else none

/-- SET_FABRIC_POLICY (C402h, R424). -/
def execSetFabricPolicy (cci : Fin 10) (inp : List Byte) (s : State) : Res :=
  vendor cci 0xC402 inp 8 []
    (fun s => storeSetting 0x14 (fabPolicyRec inp) s) s

/-- A route entry as a word (Table 12-8). -/
def routeWord (r : RouteEnt) : Nat :=
  b2n r.valid * 2 ^ 31 + r.primary * 2 ^ 28 + r.alternate * 2 ^ 25 + b2n r.altValid * 2 ^ 24 + b2n r.altLonger * 2 ^ 23 +
    r.hops * 2 ^ 20 + b2n r.primaryDown * 2 ^ 19

/-- GET_ROUTE_TABLE (C403h, R426). -/
def execGetRouteTable (cci : Fin 10) (inp : List Byte) (s : State) : Res :=
  vendor cci 0xC403 inp 4 [] (fun s =>
    let first := le inp 0 2
    let n := le inp 2 2
    if n = 0 ∨ 256 < n ∨ 4096 < first + n then .fail .invalidInput
    else answer s (leBytes 8 s.fabric.swapAt ++
      (List.range n).flatMap fun i => leBytes 4 (if first + i = 0xFFF then 0 else routeWord (routeOf s (first + i))))) s

/-- GET_LINK_STATE_DATABASE (C404h, R426). -/
def execGetLinkStateDatabase (cci : Fin 10) (inp : List Byte) (s : State) : Res :=
  vendor cci 0xC404 inp 3 [] (fun s =>
    let n := byteAt inp 2
    if n = 0 ∨ 63 < n then .fail .invalidInput
    else
      let ls := s.fabric.db.filter fun p => decide (le inp 0 2 ≤ p.1)
      let next := match ls.drop n with
        | p :: _ => p.1
        | [] => 0xFFFF
      answer s (leBytes 2 (ls.take n).length ++ leBytes 2 next ++ (ls.take n).flatMap fun p => lsaBytes p.2)) s

/-- GET_FABRIC_PORT_COUNTERS (C405h, R426). -/
def execGetFabricPortCounters (cci : Fin 10) (inp : List Byte) (s : State) : Res :=
  vendor cci 0xC405 inp 1 [] (fun s =>
    let p := byteAt inp 0
    if p = 0xFF then answer s ([s.fabric.timeouts, s.fabric.resends, s.fabric.virals].flatMap (leBytes 8))
    else if p < 8 then answer s ((portOf s p).counts.flatMap (leBytes 8))
    else .fail .invalidInput) s

/-- RETRAIN_FABRIC_PORT (C406h, R391, R426): completes when the port reaches Up or Training; a Disabled port answers Invalid
State. -/
def execRetrainFabricPort (cci : Fin 10) (inp : List Byte) (s : State) : Res :=
  vendorBg cci 0xC406 inp 1 [] (fun s =>
    let p := byteAt inp 0
    if 8 ≤ p then .fail .invalidInput
    else
      let x := portOf s p
      match x.st with
      | .disabled => .fail .invalidState
      | .training => .done .none s
      | .retraining => .background (setPort p { x with cci := some cci } s)
      | _ => .background (toRetraining p (setPort p { x with cci := some cci } s))) s

end Sys2Proof.Machine
end

