-- ==== Sys2Proof/Machine/Fills.lean ====
section
/-!
DEFINITION. The steps that end a codeword's read and a fill (06_read_path_and_latency_bounds.md): back-cache reads, decodes, soft
decodes, and the completion of fills.
-/
namespace Sys2Proof.Machine

/-! ### Back-cache reads (R218) -/

/-- DRAM reads of priority 1 are queued at a channel: map reads, and back-cache reads of fills for LAT and WR queues (R213, R370). -/
def firstReads (s : State) (c : Nat) : Bool :=
  s.front.miss.any fun p =>
    (readChans s p).contains c &&
      (match p.2.stage with
       | .mapRead => true
       | _ => p.2.latency)

/-- A codeword's burst has come from a slot: D_REF is set, and a fill counts a hit (R218, R219). -/
def slotRead (rd : ReadId) (n : Nat) (f : Fetch) (s : State) : State :=
  let data := (tfind s.back.slots n).map fun x => x.data.getD (lineOfRead s rd % 16) 0
  let s := if isFill rd then { s with back := { s.back with hits := s.back.hits + 1 } } else s
  let s := match tfind s.back.slots n with
    | some x => { s with back := { s.back with slots := tput s.back.slots n { x with ref := true } } }
    | none => s
  fetchReady rd data f s

/-- A slot's codeword cannot be read: the medium is read at D_PFA, or the read waits when the directory is lost too (Table 11-8). -/
def slotLost (rd : ReadId) (n pfa : Nat) (f : Fetch) (s : State) : State :=
  if dramOut s (dirChan s n) then setFetch rd { f with stage := .blocked } s else issueMedia rd pfa f s

/-- BACK_CACHE_READ_DONE (R213, R218, R373, R377, R32): the codeword is decrypted; an uncorrectable burst or a parity error freezes the
channel and the medium is read. DEDUCED (log entry 209): a BULK, ENG or internal read is not served while a read of priority 1 is
queued at its channel. -/
def execBackCacheReadDone (rd : ReadId) (err : DramErr) (s : State) : Res :=
  match fetchOf s rd with
  | none => .next s
  | some f =>
    match f.stage with
    | .back n pfa =>
      if (slotChans s n).any (dramOut s) then .next (slotLost rd n pfa f s)
      else if f.latency = false ∧ ((slotChans s n).any (firstReads s) = true ∨
          (slotLoc s n (lineOfRead s rd % 16 * 256)).any (nbrFull s (slotHome s n)) = true) then .next s
      else
        let c := chunkChan s n (lineOfRead s rd % 16 * 256)
        let s := match slotLoc s n (lineOfRead s rd % 16 * 256) with
          | some l => openRow c l s
          | none => s
        match err with
        | .none => .next (slotRead rd n f s)
        | .check => .next (slotRead rd n f s)
        | .corrected r row col => .next (slotRead rd n f (correctable c r row col s))
        | .uncorrectable d => .next (slotLost rd n pfa f (freeze c 1 d s))
        | .parity d =>
          .next (slotLost rd n pfa f (freeze c 1 d (raiseParity 0x034 4 (lineOfRead s rd * 256) s)))
    | _ => .next s

/-! ### Decodes (R222 to R226) -/

/-- The recovery read of a frame has ended when no position is awaited any more (R280). -/
def settleRead (rd : ReadId) (s : State) : State :=
  match rd with
  | .fill _ => s
  | .internal n =>
    match tfind s.front.ireads n with
    | none => s
    | some r =>
      match r.use_ with
      | .copy a => copyRead a s
      | .recovery l => recoveryEnd l s
      | _ => s

/-- CODEWORD_DECODE_DONE (R222 to R226, R309): a codeword that a sense engine has given is hard-decoded. `up` and `dn` count the
corrected bits per threshold; every decode reports them. -/
def execCodewordDecodeDone (rd : ReadId) (pos : Nat) (good : Bool) (up dn : List Nat) (s : State) : Res :=
  match fetchOf s rd with
  | none => .next s
  | some f =>
    match stagePfa f.stage with
    | none => .next s
    | some pfa =>
      if !hardRead f.stage pos || !inEngine s rd pfa pos then .next s
      else
        let s := noteDecode (groupOf pfa) up dn (endRead rd pfa pos s)
        let s := if good ∧ 0 < (up ++ dn).sum then bumpHealth 0 s else s
        .next (settleRead rd (decodeDone rd pos good f s))

/-- SLOW_PATH_SOFT_READ_DONE (R225, R311): the soft read of a position is decoded. -/
def execSlowPathSoftReadDone (rd : ReadId) (pos : Nat) (good : Bool) (s : State) : Res :=
  match fetchOf s rd with
  | none => .next s
  | some f =>
    match f.stage with
    | .slow pfa _ soft _ _ =>
      match soft.find? fun p => p.1 == pos with
      | none => .next s
      | some (_, n) =>
        if !inEngine s rd pfa pos then .next s
        else .next (settleRead rd (softDone rd pos n good f (endRead rd pfa pos s)))
    | _ => .next s

/-! ### Completion of fills (R152) -/

/-- Answer a waiting read from a line's valid bytes laid over fetched data (R151, R152). -/
def answerRead (data : FrontLine) (poison : Bool) (outcome tag : Nat) (s : State) : State :=
  match tfind s.ten.reqs tag with
  | none => s
  | some r =>
    let code := match outcome with
      | 1 => 0x0005 | 2 => 0x0006 | 3 => 0x0007 | 4 => 0x0008 | 5 => 0x0009 | _ => 0
    let s := if code = 0 then s else countReq code 1 r s
    finish tag (getHostLine data (hostLineIn r.addr)) poison 0 outcome s

/-- What a fill gives: the fetched data, or what a commit has given the front line since (R72). -/
def fillData (m : Miss) : FrontLine × Bool := m.newer.getD (m.data, m.poison)

/-- A fill meets its front line (R152): a Fill-Pending line takes the bytes it lacks and becomes Clean or Dirty; any other present line
lays its valid bytes over the fill. The answer: data, poison and state. -/
def fillMerge (key : Nat) (m : Miss) (s : State) : FrontLine × Bool × State :=
  let f := fillData m
  match findLine s key with
  | none => (f.1, f.2, s)
  | some i =>
    let l := lineAt s i
    let d := blendLine f.1 l.data l.valid
    let p := l.poison || f.2
    if l.st = .fillPending then
      let l' : Line := { l with data := d, valid := BitVec.allOnes 256, poison := p, age := m.age,
                                st := if l.dirtyHl = 0 then .clean else .dirty }
      (d, p, noteDirty l.tag (putLine i l' s))
    else (d, p, s)

/-- FILL_COMPLETE (R152, R180, R32): the fill writes the invalid bytes of its line, sets VALID and POISON, and answers every
waiting read in order; an internal parity error returns them with poison. DESIGN CHOICE (log entry 196): 5006h on the data of
a fill carries source 033h. A fill from the medium counts towards promotion (R217). -/
def execFillComplete (line : Nat) (parity : Bool) (s : State) : Res :=
  match tfind s.front.miss line with
  | none => .next s
  | some m =>
    if m.stage != .ready then .next s
    else
      let s := { s with front := { s.front with miss := tdel s.front.miss line } }
      let s := if parity then raiseParity 0x033 1 (line * 256) s else s
      let r := fillMerge line m s
      let s := fillEnds line (m.waiters.foldl (fun s t => answerRead r.1 (r.2.1 || parity) m.outcome t s) r.2.2)
      match mapEntry s (line / 16) with
      | some e => .next (if 2 ≤ m.outcome ∧ m.outcome ≤ 5 ∧ e.st = .media then promote (line / 16) e.loc m.latency s else s)
      | none => .next s

end Sys2Proof.Machine
end

