-- ==== Sys2Proof/Machine/Host.lean ====
section
/-!
DEFINITION. Meanings of the host port commands and events (02_host_ports.md), of the arbiter and the stalled writes (R126,
R163), of ASPM L1 (R64, R467) and of a lost reference clock (R466).
-/
namespace Sys2Proof.Machine

/-! ### HDM decoders (R74) -/

/-- DPA at which a decoder's range begins: the ranges of the decoders before it, and the skips (CXL's rule; R74 names skip). -/
def decoderBase (ds : List Decoder) (n : Nat) : Nat :=
  ((ds.take n).map fun d => d.skip + d.size / max 1 d.ways).sum + (ds.getD n Decoder.off).skip

/-- The DPA a decoder gives for a host physical address: none outside its range, or at another interleave position (R74). -/
def decodeAt (ds : List Decoder) (n a : Nat) : Option Nat :=
  let d := ds.getD n Decoder.off
  if d.committed = false ∨ a < d.base ∨ d.base + d.size ≤ a then none
  else
    let off := a - d.base
    if off / d.gran % d.ways = d.pos then some (decoderBase ds n + off / (d.gran * d.ways) * d.gran + off % d.gran) else none

/-- The DPA of a request; none where no decoder of the head gives one, and the request is then not this device's. -/
def dpaOf (x : HeadSt) (a : HAddr) : Option Nat :=
  match a with
  | .dpa a => some a
  | .hpa a => (List.range 8).findSome? fun n => decodeAt x.decoders n a

/-! ### Links and L1 (R60 to R64) -/

/-- Start the DORMANT_DELAY count anew: a head has become quiet or has ceased to be (R491). -/
def touchQuiet (s : State) : State := { s with power := { s.power with quietSince := s.time.mono } }

/-- A head's link leaves L1 or L1.2 (R64, R467). -/
def leaveL1 (h : Nat) (s : State) : State :=
  let x := headOf s h
  if x.l1 then startDom (3 + h) (touchQuiet (setHead h { x with l1 := false } s)) else s

/-- A link enters L1, its clock gated, or L1.2, its PLL stopped (Table 14-4). -/
def enterL1 (h : Nat) (l12 : Bool) (s : State) : State :=
  let s := touchQuiet (setHead h { headOf s h with l1 := true } s)
  if l12 then stopDom (3 + h) s else gateDom (3 + h) s

/-- ASPM_L1_ENTRY (R64, R467): the head's clock domain is gated, and in L1.2 its PLL stops. -/
def execAspmL1Entry (head : Fin 4) (l12 : Bool) (s : State) : Res :=
  let x := headOf s head
  if x.linkUp then .next (enterL1 head l12 s) else .next s

/-- ASPM_L1_EXIT (R467, R491): the clock domain restarts, and a device in Dormant wakes. -/
def execAspmL1Exit (head : Fin 4) (s : State) : Res :=
  let x := headOf s head
  if x.linkUp && x.l1 then .next (wake 0 (leaveL1 head s)) else .next s

/-- Widths to which a head trains (R62). -/
def widthOk (s : State) (h w : Nat) : Bool :=
  let x8 := if h < 2 then s.start.hbif0 else s.start.hbif1
  w == 8 || w == 4 || w == 2 || w == 1 || (w == 16 && !x8)

/-- Rates and flit modes (R60, R61): 64, 32 and 16 GT/s, or a rate below 16 GT/s that carries CXL.io only. The flit mode is the best
form that the host supports: latency-optimised or standard 256-byte flits at every rate, and 68-byte flits, for a host that lacks
the 256-byte form, at 32 and 16 GT/s. -/
def rateOk (rate : Nat) (flit : FlitMode) : Bool :=
  (rate == 64 && flit != .flit68) || rate == 32 || rate == 16 || (decide (0 < rate) && decide (rate < 16))

/-- LINK_UP (R60 to R62, R100): the link trains; below 16 GT/s it carries CXL.io only. The Memory_Active timer of a head that
was reset while the data path ran starts here. -/
def execLinkUp (head : Fin 4) (rate : Fin 65) (width : Fin 17) (flit : FlitMode) (s : State) : Res :=
  let x := headOf s head
  if x.present && !x.perst && !x.linkUp && devUp s && widthOk s head width && rateOk rate flit then
    let s := setHead head { x with linkUp := true, rate := rate, width := width, flit := flit, l1 := false, resetRun := false,
                                   maRef := if x.resetRun then s.time.mono else x.maRef } (startDom (3 + head) (touchQuiet s))
    let s := { s with time := { s.time with hrefGood := s.time.hrefGood.set head true } }
    .next (if rate.val = 64 ∧ width.val = 16 then s else raise (0x020 + head) 0x9001 head rate width s)
  else .next s

/-! ### Resets (R99) -/

/-- The front cache is enabled: write-back or write-through (Table 4-6). -/
def frontEnabled (s : State) : Bool := s.front.mode == .writeBack || s.front.mode == .writeThrough

/-- Requests of a head that were received before its reset complete internally: no response is sent (R99). -/
def quietRequests (h : Nat) (s : State) : State :=
  { s with ten := { s.ten with reqs := tmap s.ten.reqs fun _ r => if r.src = .head h then { r with quiet := true } else r } }

/-- A drain owes a head no Phase 2 response any more (R91). -/
def forgetGpf (h : Nat) (s : State) : State :=
  { s with persist := { s.persist with drain := s.persist.drain.map fun d => { d with heads := d.heads.filter (· != h) } } }

/-- The mailbox registers of a head take their reset values (R99, R522). A foreground command in progress completes internally, its
output discarded; a background operation goes on, its status lost (Table 17-9). -/
def resetMailbox (c : Nat) (s : State) : State := { s with mgmt := { s.mgmt with ccis := tdel s.mgmt.ccis c } }

/-- PERST_N, hot reset or link down (Table 2-6): link, head and mailbox registers at their reset values; the capacity regions, the
event logs with their policy, and what the link has already sent stay. -/
def resetHead (h : Nat) (s : State) : State :=
  let x := headOf s h
  let y : HeadSt :=
    { HeadSt.fresh with present := x.present, perst := x.perst, maRef := x.maRef, regions := x.regions, extGen := x.extGen,
                        logs := x.logs, intPolicy := x.intPolicy, msix := x.msix, s2m := x.s2m, gpfSent := x.gpfSent,
                        resetRun := x.resetRun || (s.map.loaded && frontEnabled s) }
  resetMailbox (2 * h) (resetMailbox (2 * h + 1) (touchQuiet (forgetGpf h (quietRequests h (setHead h y s)))))

/-- PERST_N_ASSERT (R99, R91, Table 14-4); the pin of an absent head is ignored (R59). -/
def execPerstNAssert (head : Fin 4) (s : State) : Res :=
  let x := headOf s head
  if x.perst then .next s
  else if x.present then
    let s := resetHead head (setHead head { x with perst := true } s)
    .next (if domOf s (3 + head) = .unpowered then s else stopDom (3 + head) s)
  else .next s

/-- PERST_N_RELEASE (R46, R99, R100): the head's clock starts, the Memory_Active timer begins, and Standby or Dormant ends. -/
def execPerstNRelease (head : Fin 4) (s : State) : Res :=
  let x := headOf s head
  if x.present && x.perst then
    let s := touchQuiet (setHead head { x with perst := false, maRef := s.time.mono } s)
    .next (wake 0 (if devUp s then startDom (3 + head) s else s))
  else .next s

/-- HOT_RESET (R99). -/
def execHotReset (head : Fin 4) (s : State) : Res :=
  if (headOf s head).linkUp then .next (resetHead head s) else .next s

/-- LINK_DOWN (R99). -/
def execLinkDown (head : Fin 4) (s : State) : Res :=
  if (headOf s head).linkUp then .next (resetHead head s) else .next s

/-- CXL_RESET (R99, R100): CXL.mem state, decoder commits, viral, IDE and Memory_Active; the link stays up. -/
def execCxlReset (head : Fin 4) (s : State) : Res :=
  let x := headOf s head
  if x.linkUp then
    let y := { x with viral := false, viralInternal := false, ide := HeadSt.fresh.ide, memActive := false, withheld := true,
                      gpfWait := false, maRef := s.time.mono, decoders := x.decoders.map fun d => { d with committed := false } }
    .next (forgetGpf head (quietRequests head (setHead head y s)))
  else .next s

/-- FUNCTION_LEVEL_RESET (R99): CXL.io state only, which is the RW fields of the DVSEC (Table 2-7). -/
def execFunctionLevelReset (head : Fin 4) (s : State) : Res :=
  let x := headOf s head
  if x.linkUp then .next (setHead head { x with vendorEvtEn := true, devloadEn := true } s) else .next s

/-- REFCLK_LOSS (R466, Table 14-3, 8003h): a head's link goes down, every fabric port trains again, or the SYSCLK PLLs fall
back to the always-on oscillator. Inputs: HREFCLK0A to HREFCLK1B, FREFCLK, SYSCLK. -/
def execRefclkLoss (input : Fin 6) (s : State) : Res :=
  let s := raise 0x060 0x8003 input 0 0 s
  if input.val < 4 then
    let s := { s with time := { s.time with hrefGood := s.time.hrefGood.set input false } }
    .next (if (headOf s input).linkUp then resetHead input s else s)
  else if input.val = 4 then
    let s := { s with time := { s.time with frefGood := false } }
    .next ((List.range 8).foldl (fun s p =>
      if (portOf s p).st = .disabled ∨ (portOf s p).st = .training then s else dropPort p .training s) s)
  else .next { s with time := { s.time with sysGood := false, sysFallback := true } }

/-! ### CXL.mem requests (R68 to R72) -/

/-- A head can receive CXL.mem requests: its link carries them, and IDE is not insecure (R61, R93). -/
def headTakes (x : HeadSt) : Bool := x.present && x.linkUp && !x.perst && decide (16 ≤ x.rate) && !x.ide.insecure

/-- The viral outcomes of a parity error (Table 2-4). -/
def parityViral (h : Nat) (e : MemErr) (s : State) : State :=
  match e with
  | .path => enterViral 4 h s
  | .tag => viralAll 1 s
  | .key => viralAll 2 s
  | .ext => viralAll 3 s
  | _ => s

/-- An M2S message arrives at a head that can take one: the link leaves L1, Idle and Dormant end (R490, R491). None where the head
takes nothing; while its credits are still withheld after that, the message stays with the host (R29). -/
def arrives (h : Nat) (s : State) : Option State :=
  let x := headOf s h
  if headTakes x = false ∨ (x.withheld = true ∧ s.power.entering.isNone ∧ s.power.mode ≠ .dormant) then none
  else some (noteRequest (leaveL1 h s))

/-- A head receives a request: it takes a tag and is classified. While credits are withheld, or no tag is free, the request
stays with the host (R29); in Dormant its arrival wakes the device (R491). -/
def hostRequest (h : Nat) (op : ReqOp) (addr : HAddr) (rtag : Nat) (data : HostLine) (be : W64) (poison : Bool) (err : MemErr)
    (s : State) : State :=
  match arrives h s with
  | none => s
  | some s1 =>
    if (headOf s1 h).withheld then s1
    else
      match dpaOf (headOf s h) addr with
      | none => s
      | some a =>
        let bad : W64 := match err with
          | .data b => b
          | _ => 0
        let isBad := match err with
          | .data _ => true
          | _ => false
        let a := a / 64 * 64
        let s1 := parityViral h err s1
        let s1 := if op.isWrite then countEvent 0x0050 64 { EvAttr.bare with head := some h } s1 else s1
        let s1 := if isBad && op.isWrite then raiseParity 0x033 2 a s1 else s1
        let r := newReq (.head h) op a rtag data (be &&& ~~~bad) poison isBad s.time.mono
        match receive false r s1 with
        | some s2 => s2
        | none => s

/-- MEM_RD (R68): a read of one host line. -/
def execMemRd (head : Fin 4) (addr : HAddr) (tag : Fin 65536) (err : MemErr) (s : State) : Res :=
  .next (hostRequest head .rd addr tag 0 0 false err s)

/-- MEM_RD_DATA (R68): handled as a read of one host line. -/
def execMemRdData (head : Fin 4) (addr : HAddr) (tag : Fin 65536) (err : MemErr) (s : State) : Res :=
  .next (hostRequest head .rdData addr tag 0 0 false err s)

/-- MEM_SPEC_RD (R68): a BULK fetch without a response. -/
def execMemSpecRd (head : Fin 4) (addr : HAddr) (err : MemErr) (s : State) : Res :=
  .next (hostRequest head .specRd addr 0 0 0 false err s)

/-- MEM_WR (R71): a write of a whole host line. -/
def execMemWr (head : Fin 4) (addr : HAddr) (tag : Fin 65536) (data : HostLine) (poison : Bool) (err : MemErr) (s : State) :
    Res :=
  .next (hostRequest head .wr addr tag data (BitVec.allOnes 64) poison err s)

/-- MEM_WR_PTL (R70): only the enabled bytes are stored. -/
def execMemWrPtl (head : Fin 4) (addr : HAddr) (tag : Fin 65536) (data : HostLine) (be : W64) (poison : Bool) (err : MemErr)
    (s : State) : Res :=
  .next (hostRequest head .wrPtl addr tag data be poison err s)

/-- UNSUPPORTED_M2S_OPCODE (R69, 9003h): completed with poison over open data if it expects data, and otherwise discarded. -/
def execUnsupportedM2sOpcode (head : Fin 4) (opcode : Fin 256) (tag : Fin 65536) (expectsData : Bool) (s : State) : Res :=
  match arrives head s with
  | none => .next s
  | some s =>
    if (headOf s head).withheld then .next s
    else
      let s := raise (0x020 + head) 0x9003 head opcode 0 s
      if expectsData then
        let d := drawBits 512 s
        .next (reply (.head head) tag true d.1 true 0 (plainLoad s) 0 d.2)
      else .next s

/-- ARBITER_DISPATCH_SLOT (R126, R187, R503): `err` is what the lookup meets in the front cache SRAM. -/
def execArbiterDispatchSlot (err : FrontErr) (s : State) : Res :=
  if drainRunning s || gapHolds s || s.power.exiting then .next s else .next (dispatchSlot (frontError err s))

/-- A request that waits in the front cache can go on: what it waits for is free, or the mode or state no longer makes it wait
(R159, R161, R163). -/
def stallFree (s : State) (r : Req) : Bool :=
  let off := s.front.mode == .off || s.front.mode == .draining
  if r.op.isWrite then
    if s.place.cap == .writeLocked then !journalFull s || (tryStore r s).1 else off || slotErased s r.tenant || (tryStore r s).1
  else
    off || (findLine s (r.addr / 256)).isSome || (tfind s.front.miss (r.addr / 256)).isSome ||
      (victimSearch (setOfLine (r.addr / 256)) (partMask s r.part) s).1.isSome

/-- WRITE_STALL_RELEASE (R163): the first waiting request that can go on does, a write being stored and acknowledged. -/
def execWriteStallRelease (s : State) : Res :=
  match s.front.stalls.findSome? fun p => match tfind s.ten.reqs p.1 with
      | some r => if stallFree s r then some (p.1, r) else none
      | none => none with
  | some (tag, r) =>
    let s := { s with front := { s.front with stalls := s.front.stalls.filter (·.1 != tag) } }
    .next (if r.op.isWrite then frontWrite tag r s else frontRead tag r s)
  | none => .next s

/-! ### Viral, GPF, IDE (R84 to R93) -/

/-- HOST_VIRAL_SIGNAL (R85): only that head enters viral. -/
def execHostViralSignal (head : Fin 4) (s : State) : Res :=
  if (headOf s head).linkUp then .next (enterViral 0 head s) else .next s

/-- GPF_PHASE1 (R86): answered, with no other action. -/
def execGpfPhase1 (head : Fin 4) (s : State) : Res :=
  if (headOf s head).linkUp then .next (answerGpf 1 head s) else .next s

/-- GPF_PHASE2 (R87, R89): starts the drain, or joins the one that runs; the response is owed until the drain completes. Before the
drain sequencer is armed nothing is at risk: the request is answered with no action (Table 20-5). -/
def execGpfPhase2 (head : Fin 4) (s : State) : Res :=
  if !(headOf s head).linkUp then .next s
  else
    let s := leaveL1 head s
    if devUp s && drainArmed s then
      .next (drainStart 2 [head] (setHead head { headOf s head with gpfWait := true } s))
    else .next (answerGpf 2 head s)

/-- IDE_INTEGRITY_FAILURE (R93, 9005h): nothing of the failing MAC epoch has left containment, so nothing of it is committed or
answered; the head takes no CXL.mem traffic until IDE is re-established or the head is reset. -/
def execIdeIntegrityFailure (head : Fin 4) (s : State) : Res :=
  let x := headOf s head
  if x.linkUp && x.ide.on then
    .next (raise (0x020 + head) 0x9005 head 0 0 (setHead head { x with ide := { x.ide with insecure := true }, aer := true } s))
  else .next s

/-- IDE_START (R92, R93): the programmed key takes effect; IDE is (re-)established. -/
def execIdeStart (head : Fin 4) (s : State) : Res :=
  let x := headOf s head
  if x.linkUp then
    match x.ide.pend with
    | some k => .next (setHead head { x with ide := { on := true, insecure := false, cur := some k, pend := none } } s)
    | none => .next s
  else .next s

/-- CXL_IDE_KM (R92): programs the key of the CXL.cachemem stream, or of the PCIe link stream of CXL.io, over an established
SPDM session of the head's DOE mailbox. -/
def execCxlIdeKm (head : Fin 4) (io : Bool) (key : Nat) (s : State) : Res :=
  let x := headOf s head
  let session := match tfind s.mgmt.spdm head with
    | some p => p.sessions.any fun q => q.established
    | none => false
  if x.linkUp && session then
    .next (setHead head (if io then { x with ideIo := some key } else { x with ide := { x.ide with pend := some key } }) s)
  else .next s

/-! ### Registers (R24, R100, R102, R106) -/

/-- BAR2_BAD_ACCESS (R106, 9003h): reads return zeros, writes are ignored. -/
def execBar2BadAccess (head : Fin 4) (off : Fin 536870912) (s : State) : Res :=
  if (headOf s head).linkUp then .next (raise (0x020 + head) 0x9003 head off 0 s) else .next s

/-- Interleave ways and granularities of Table 2-2. -/
def decoderOk (size ways gran pos : Nat) : Bool :=
  [1, 2, 3, 4, 6, 8, 12, 16].contains ways && [256, 512, 1024, 2048, 4096, 8192, 16384].contains gran && decide (pos < ways) &&
    decide (0 < size)

/-- REGISTER_WRITE (R24, R74, R102): RW fields take the value written, RO fields do not. A committed decoder is set again only
with its commit bit clear. -/
def execRegisterWrite (head : Fin 4) (reg : RegWrite) (s : State) : Res :=
  let x := headOf s head
  if x.present && x.linkUp then
    match reg with
    | .dvsec off v =>
      if off.val = 0x34 then
        .next (setHead head { x with vendorEvtEn := v.getLsbD 1, devloadEn := v.getLsbD 0 } s)
      else .next s
    | .decoder n base size ways gran pos skip commit =>
      let d := x.decoders.getD n Decoder.off
      let e : Decoder := { committed := commit && decoderOk size ways gran pos, base := base, size := size, ways := ways,
                           gran := gran, pos := pos, skip := skip }
      if d.committed && commit then .next s else .next (setHead head { x with decoders := x.decoders.set n e } s)
    | .bar2 _ _ => .next s
    | .cvSeed u part v =>
      let c := cvOf s u
      if c.head = some head.val then .next (setCv u { c with seed := writePart c.seed part v.toNat } s) else .next s
  else .next s

/-- MEMORY_ACTIVE_SET (R100, R101, R304): once the map is loaded, the front cache enabled, every added extent served or Locked and
the link up; never with Media
Status Error, on a held start, or below 16 GT/s (R61). -/
def execMemoryActiveSet (head : Fin 4) (s : State) : Res :=
  let x := headOf s head
  let late := match s.epoch.arm with
    | some (_, _, t) => decide (t ≤ s.time.secMark) && s.drift.activeAt.isNone
    | none => false
  if headTakes x && !x.memActive && devUp s && s.map.loaded && frontEnabled s && extentsReady s head && !s.start.held && !s.start.mediaError &&
      !late then
    let ms := (s.time.mono - max x.maRef s.start.upEnd) / 1000000
    let y := { x with memActive := true, maTime := ms, withheld := drainRunning s || s.power.entering.isSome }
    let drift := if s.drift.activeAt.isNone then { s.drift with activeAt := some s.time.mono } else s.drift
    .next (markPhase 15 (setHead head y { s with drift := drift }))
  else .next s

end Sys2Proof.Machine
end

