-- ==== Sys2Proof/Machine/Ring.lean ====
section
/-!
DEFINITION. Meanings of the service ring and epoch commands and events (13_epochs_and_service_ring.md).
-/
namespace Sys2Proof.Machine

/-! ### Ring port (R428 to R431) -/

/-- Enter a ring port state, with its event (7001h). -/
def enterRing (m : RingMode) (s : State) : State :=
  let r := s.epoch.ring
  if r.mode = m then s
  else raise 0x058 0x7001 r.mode.code m.code (r.position.getD 0xFF) (setRing { r with mode := m } s)

/-- Enter Electing (R431): the position is given up, and CLAIM goes out with the own serial. -/
def startElection (s : State) : State :=
  let s := enterRing .electing s
  let r := s.epoch.ring
  let s := setRing { r with position := none, isHead := false, members := 0, lowest := s.mgmt.serial, beaconAt := s.time.mono,
                            table := [] } s
  sendRing 0x01 0xFF (leBytes 8 s.mgmt.serial) s

/-- Leave the ring for a state without a position; frames still queued are lost (R430). -/
def leaveRing (m : RingMode) (s : State) : State :=
  let s := enterRing m s
  let r := s.epoch.ring
  let begun := r.sent.filter fun x => decide (x.2 ≤ s.time.mono)
  setRing { r with position := none, isHead := false, members := 0, sent := begun } s

/-- RING_READY (R428): every condition holds, the receiver's lock and the self-test among them. -/
def execRingReady (s : State) : Res :=
  if s.epoch.ring.mode = .bypassed ∧ s.power.mode ≠ .off ∧ s.epoch.policy.ringEn = true then
    .next (startElection (setRing { s.epoch.ring with lock := true, selfTest := true } s))
  else .next s

/-- RING_CONDITION_FAIL (R428): the switch closes. -/
def execRingConditionFail (s : State) : Res :=
  .next (leaveRing .bypassed (setRing { s.epoch.ring with lock := false } s))

/-- RING_LOCK_LOST (R430, Table 13-1): 10 ms without lock. -/
def execRingLockLost (s : State) : Res :=
  let r := s.epoch.ring
  if r.mode = .formed ∨ r.mode = .electing then
    .next (leaveRing .broken (setRing { r with lock := false, breaks := r.breaks + 1 } s))
  else .next s

/-- RING_LOCK_REGAINED (Table 13-1): lock for 1 ms. -/
def execRingLockRegained (s : State) : Res :=
  if s.epoch.ring.mode = .broken then .next (startElection (setRing { s.epoch.ring with lock := true } s)) else .next s

/-! ### Frames received (R432, R433) -/

/-- Forward a frame, unless its TTL ends (R433, Table 13-2). -/
def passOn (f : RingFrame) (s : State) : State := if f.ttl ≤ 1 then s else putRing { f with ttl := f.ttl - 1 } s

/-- A received frame is counted; one whose CRC fails or that is not of the type is dropped, and in Bypassed and Broken nothing
is received (R432, Table 13-1). -/
def ringTake (typ : Nat) (f : RingFrame) (s : State) : Option State :=
  let r := s.epoch.ring
  if r.mode = .bypassed ∨ r.mode = .broken ∨ f.typ ≠ typ then none
  else if f.crcOk = false then none
  else some (setRing { r with framesRx := r.framesRx + 1 } s)

/-- What a frame that fails its CRC leaves: the counters (R432, C510h). -/
def ringBad (f : RingFrame) (s : State) : State :=
  let r := s.epoch.ring
  if r.mode = .bypassed ∨ r.mode = .broken ∨ f.crcOk = true then s
  else setRing { r with framesRx := r.framesRx + 1, crcFails := r.crcFails + 1 } s

/-- The frame is this position's own, come back (R433). -/
def ownFrame (s : State) (f : RingFrame) : Bool := s.epoch.ring.position == some f.src

/-- CLAIM (R431): a lower serial is kept and forwarded, a higher one dropped, and the own one makes this position head; so
in Formed as in Electing. -/
def execClaim (frame : RingFrame) (s : State) : Res :=
  match ringTake 0x01 frame s with
  | none => .next (ringBad frame s)
  | some s =>
    let r := s.epoch.ring
    let x := le frame.payload 0 8
    if x = s.mgmt.serial then
      let s := setRing { r with isHead := true, position := some 0, headSerial := x, beaconAt := s.time.mono } s
      .next (sendRing 0x02 0xFF (leBytes 1 1 ++ leBytes 8 x) (enterRing .formed s))
    else if x < r.lowest then .next (passOn frame (setRing { r with lowest := x } s))
    else .next s

/-- The ROLL is back at the head: the member count is known, and beacons begin (R431). -/
def rollBack (f : RingFrame) (s : State) : State :=
  let r := s.epoch.ring
  setRing { r with members := byteAt f.payload 0, beaconAt := s.time.mono } s

/-- ROLL (R431): assigns a position up to 63, or leaves the port Bypassed with an event. -/
def execRoll (frame : RingFrame) (s : State) : Res :=
  match ringTake 0x02 frame s with
  | none => .next (ringBad frame s)
  | some s =>
    let r := s.epoch.ring
    let n := byteAt frame.payload 0
    if r.isHead then .next (rollBack frame s)
    else if n ≤ 63 then
      let r := { r with position := some n, headSerial := le frame.payload 1 8, beaconAt := s.time.mono }
      let f := { frame with payload := leBytes 1 (n + 1) ++ frame.payload.drop 1 }
      .next (enterRing .formed (passOn f (setRing r s)))
    else .next (leaveRing .bypassed (passOn frame s))

/-- ROLL_RETURNED (R431). -/
def execRollReturned (frame : RingFrame) (s : State) : Res :=
  match ringTake 0x02 frame s with
  | none => .next (ringBad frame s)
  | some t => if t.epoch.ring.isHead then .next (rollBack frame t) else .next s

/-- BEACON_SEND (R431): the head, every 10 ms. -/
def execBeaconSend (s : State) : Res :=
  let r := s.epoch.ring
  if r.mode = .formed ∧ r.isHead = true ∧ r.members ≠ 0 ∧ r.beaconSent + 10000000 ≤ s.time.mono then
    let s := setRing { r with beacons := (r.beacons + 1) % 2 ^ 32, beaconSent := s.time.mono } s
    .next (sendRing 0x03 0xFF (leBytes 8 s.mgmt.serial ++ leBytes 1 r.members ++ leBytes 4 ((r.beacons + 1) % 2 ^ 32)) s)
  else .next s

/-- BEACON_TIMEOUT (R431): no beacon for 30 ms. -/
def execBeaconTimeout (s : State) : Res :=
  let r := s.epoch.ring
  if (r.mode = .formed ∨ r.mode = .electing) ∧ r.beaconAt + 30000000 ≤ s.time.mono then .next (startElection s) else .next s

/-- A beacon heard (R431). -/
def hearBeacon (f : RingFrame) (s : State) : State :=
  if f.typ = 3 then
    setRing { s.epoch.ring with beaconAt := s.time.mono, headSerial := le f.payload 0 8, members := byteAt f.payload 8 } s
  else s

/-- Types of Table 13-3. -/
def ringTypes : List Nat := [0x01, 0x02, 0x03, 0x10, 0x11, 0x12, 0x13, 0x20, 0x21]

/-- RING_FRAME_FORWARD (R433): a Formed position forwards a frame that it neither originated nor is addressed by; a beacon is
heard. ARM and DISARM are forwarded while SPREAD_ARM is 1 (Table 13-7), and a frame of a reserved type is dropped. -/
def execRingFrameForward (frame : RingFrame) (s : State) : Res :=
  match ringTake frame.typ frame s with
  | none => .next (ringBad frame s)
  | some t =>
    if t.epoch.ring.mode ≠ .formed then .next t
    else
      let t := hearBeacon frame t
      let held := (frame.typ == 0x12 || frame.typ == 0x13) && !t.epoch.policy.spreadArm
      if ownFrame t frame ∨ some frame.dst = t.epoch.ring.position ∨ held = true ∨ !ringTypes.contains frame.typ then .next t
      else .next (passOn frame t)

/-! ### Announce and gossip (R434, R445) -/

/-- ANNOUNCE_SEND (R432): every 1 s. -/
def execAnnounceSend (s : State) : Res :=
  let r := s.epoch.ring
  if r.mode = .formed ∧ r.announceAt + 1000000000 ≤ s.time.mono then
    let p := s.fabric.policy
    .next (sendRing 0x10 0xFF (leBytes 8 s.mgmt.serial ++ leBytes 2 s.fabric.devId ++ leBytes 1 (b2n p.autoId + 2 * b2n p.relayEn))
      (setRing { r with announceAt := s.time.mono } s))
  else .next s

/-- A frame of a type that a Formed position takes (R433): its own is removed; a broadcast is forwarded and acted on; a unicast is
acted on by its position, and forwarded by any other. -/
def broadcast (typ : Nat) (f : RingFrame) (act : State → State) (s : State) : State :=
  match ringTake typ f s with
  | none => ringBad f s
  | some s =>
    if s.epoch.ring.mode ≠ .formed ∨ ownFrame s f = true then s
    else if f.dst = 0xFF then act (passOn f s)
    else if some f.dst = s.epoch.ring.position then act s
    else passOn f s

/-- ANNOUNCE (R434, R407). -/
def execAnnounce (frame : RingFrame) (s : State) : Res :=
  .next (broadcast 0x10 frame (fun s =>
    let m : RingMember := { serial := le frame.payload 0 8, devId := le frame.payload 8 2 % 4096, flags := byteAt frame.payload 10,
                            at_ := s.time.mono }
    claimId m.devId m.serial (setRing { s.epoch.ring with table := tput s.epoch.ring.table frame.src m } s)) s)

/-- EPOCH_STATUS_SEND (R432): every 1 s; a change sends one at once. -/
def execEpochStatusSend (s : State) : Res :=
  if s.epoch.ring.statusAt + 1000000000 ≤ s.time.mono then .next (sendStatus s) else .next s

/-- EPOCH_STATUS (R445): hears the peer whose fabric ID its ANNOUNCE has shown. -/
def execEpochStatus (frame : RingFrame) (s : State) : Res :=
  .next (broadcast 0x11 frame (fun s =>
    match tfind s.epoch.ring.table frame.src with
    | some m => hearPeer m.devId (le frame.payload 0 8) (le frame.payload 8 16) (byteAt frame.payload 24 % 4) s
    | none => s) s)

/-! ### Arm and disarm over the ring (R435, R442) -/

/-- A warning or order not acted on before; it is remembered (R435). -/
def firstTime (k : Nat × Nat × Nat) (s : State) : Bool × State :=
  if s.epoch.ring.acted.contains k then (false, s)
  else (true, setRing { s.epoch.ring with acted := s.epoch.ring.acted ++ [k] } s)

/-- ARM (R442): the checks of R441 on the frame's E, D and T. -/
def execArm (frame : RingFrame) (s : State) : Res :=
  if s.epoch.policy.spreadArm = false then .next ((ringTake 0x12 frame s).getD (ringBad frame s))
  else .next (broadcast 0x12 frame (fun s =>
    let e := le frame.payload 0 8
    let d := le frame.payload 8 16
    let t := le frame.payload 24 8
    let k := firstTime (0x12, e, d) s
    if s.mgmt.fabric.mode ≠ .running then s
    else if k.1 = false then s
    else match armCheck k.2 e d t with
      | none => armEpoch e d t k.2
      | some (n, _) => raise 0x058 0x7005 (e % 2 ^ 32) n 0 k.2) s)

/-- Whether an epoch is the armed one, and T has not begun (R442). -/
def armedIs (s : State) (e d : Nat) : Option (Nat × Bool) :=
  match s.epoch.arm with
  | some (e', d', t) => if e' = e ∧ d' = d then some (t, decide (s.time.secMark < t)) else none
  | none => none

/-- DISARM (R442): cancels the armed epoch that it names, before T. While the fabric supervisor restarts or is halted, an
armed epoch stays armed (Table 1-7). -/
def execDisarm (frame : RingFrame) (s : State) : Res :=
  if s.epoch.policy.spreadArm = false then .next ((ringTake 0x13 frame s).getD (ringBad frame s))
  else .next (broadcast 0x13 frame (fun s =>
    let e := le frame.payload 0 8
    let d := le frame.payload 8 16
    let k := firstTime (0x13, e, d) s
    if s.mgmt.fabric.mode ≠ .running then s
    else if k.1 = false then s
    else match armedIs k.2 e d with
      | some (t, true) => disarmEpoch e d t k.2
      | _ => k.2) s)

/-- RING_FRAME_REPEAT (R435): the first repetition that is due. -/
def execRingFrameRepeat (s : State) : Res :=
  let r := s.epoch.ring
  match r.repeats.find? fun x => decide (x.2.2.1 ≤ s.time.mono) with
  | none => .next s
  | some x =>
    let rest := r.repeats.erase x
    let more := if x.2.1 ≤ 1 then rest else rest ++ [(x.1, x.2.1 - 1, s.time.mono + x.2.2.2, x.2.2.2)]
    let s := setRing { r with repeats := more } s
    .next (if r.mode = .formed then putRing x.1 s else s)

/-! ### Storm warnings and wake (R437, R46) -/

/-- Brace for STORM_HOLD (R437). -/
def brace (s : State) : State :=
  let p := s.epoch.policy
  let s := { s with epoch := { s.epoch with braceEnd := some (s.time.mono + p.stormHold * 1000000000) },
                    persist := { s.persist with braceCap := some p.stormBudget } }
  abandonMeasure (budgetUpdate s)

/-- STORM (R437, 7002h): obeyed in Active, and ignored while this device drains (Table 13-8). -/
def execStorm (frame : RingFrame) (s : State) : Res :=
  .next (broadcast 0x20 frame (fun s =>
    let k := firstTime (0x20, le frame.payload 0 8, le frame.payload 13 4) s
    if k.1 = false ∨ s.epoch.policy.stormObey = false ∨ s.power.mode ≠ .active ∨ drainRunning s = true then k.2
    else brace (raise 0x058 0x7002 (le frame.payload 0 4) (le frame.payload 8 2) (byteAt frame.payload 10) k.2)) s)

/-- BRACE_EXPIRY (R437); a measurement that bracing stopped is made 60 s later (R199). -/
def execBraceExpiry (s : State) : Res :=
  match s.epoch.braceEnd with
  | some t =>
    if t ≤ s.time.mono then
      .next (repeatMeasure (budgetUpdate { s with epoch := { s.epoch with braceEnd := none },
                                                  persist := { s.persist with braceCap := none } }))
    else .next s
  | none => .next s

/-- WAKE (R46, R433): taken by its position and not forwarded. -/
def execWake (frame : RingFrame) (s : State) : Res :=
  match ringTake 0x21 frame s with
  | none => .next (ringBad frame s)
  | some s =>
    if s.epoch.ring.mode ≠ .formed then .next s
    else if some frame.dst = s.epoch.ring.position then .next (wake 2 s)
    else if ownFrame s frame then .next s
    else .next (passOn frame s)

/-! ### Activation and adoption (R443, R446, R447) -/

/-- The data path runs (R443). -/
def pathRuns (s : State) : Bool := devUp s && s.map.loaded && s.power.mode != .dormant

/-- The data path can apply a swap: the map is loaded, and BANK_SWAP can be staged (R443, R184). -/
def canSwap (s : State) : Bool := pathRuns s && !journalFull s

/-- The tick that begins second T has come (R443, R455); after a step past T, the tick after the step (Table 13-8). -/
def armDue (t : Nat) (s : State) : Bool := decide (t ≤ s.time.secMark) && s.epoch.stepAt != some s.time.ticks

/-- EPOCH_ACTIVATE (R443): at the tick that begins second T; later, with a late-activation event (7004h), when the data path
was not running at T or the time was stepped past it (R446, Table 13-8). -/
def execEpochActivate (s : State) : Res :=
  match s.epoch.arm with
  | none => .next s
  | some (e, d, t) =>
    if armDue t s = true ∧ canSwap s = true then
      let late := s.epoch.late || s.epoch.stepAt.isSome || s.drift.activeAt.isNone || decide (t < s.time.secMark)
      .next (activate e d (if late then raise 0x012 0x7004 (e % 2 ^ 32) 0xFFF 0 s else s))
    else if armDue t s = true ∧ pathRuns s = false then .next { s with epoch := { s.epoch with late := true } }
    else .next s

/-- EPOCH_ADOPT (R446): the staged epoch is adopted once a second boundary of the time base has passed since the hearing, with
an event that names the peer. -/
def execEpochAdopt (s : State) : Res :=
  match s.epoch.heard with
  | none => .next s
  | some (dev, at_) =>
    let e := manEpoch s s.epoch.manS
    let d := manDigest s s.epoch.manS
    if (s.epoch.st = .lagging ∨ s.epoch.st = .divergent) ∧ adoptable s e d = true ∧ canSwap s = true ∧
        s.time.tbNow % 1000000000 ≤ s.time.mono - at_ then
      .next (activate e d (raise 0x012 0x7004 (e % 2 ^ 32) dev 0 s))
    else .next s

/-- MISMATCH_HOLD_EXPIRY (R447): tenants flagged by a tag, once the device has been Settled or Armed without a mismatched
message for MISMATCH_HOLD. -/
def execMismatchHoldExpiry (s : State) : Res :=
  if s.epoch.st = .lagging ∨ s.epoch.st = .divergent then .next s
  else
    let late := fun (at_ : Nat) => decide (max at_ s.epoch.actAt + s.epoch.policy.mismatchHold * 1000000 ≤ s.time.mono)
    let done := (s.epoch.tagFlags.filter fun p => late p.2).map (·.1)
    let s := { s with epoch := { s.epoch with tagFlags := tfilter s.epoch.tagFlags fun _ t => !late t } }
    .next (done.foldl (fun s t => setTenant t { tenantOf s t with mismatch := false } s) s)

/-! ### Commands (R451) -/

/-- GET_EPOCH_STATE (C500h). -/
def execGetEpochState (cci : Fin 10) (inp : List Byte) (s : State) : Res :=
  vendor cci 0xC500 inp 0 [] (fun s =>
    let m := s.epoch.manS
    let a := s.epoch.arm.getD (0, 0, 0)
    let flagged := (s.ten.tenants.filter fun p => p.2.mismatch).length
    let peers := fun k => (s.epoch.peers.filter fun p => p.2.2.2 == k).length
    answer s (leBytes 8 s.ten.epochA ++ leBytes 16 s.ten.digestA ++ leBytes 8 (manEpoch s m) ++
      leBytes 16 (if m.isSome then manDigest s m else 0) ++ leBytes 8 (manPrev s m) ++ leBytes 8 a.1 ++ leBytes 16 a.2.1 ++
      leBytes 8 a.2.2 ++ leBytes 1 s.epoch.st.code ++ zeros 3 ++ leBytes 4 flagged ++
      (List.range 4).flatMap fun k => leBytes 2 (peers k))) s

/-- The manifest slot that neither record names (R541). -/
def freeManSlot (s : State) : Nat := if s.epoch.manA ≠ some 0 ∧ s.epoch.manS ≠ some 0 then 0
  else if s.epoch.manA ≠ some 1 ∧ s.epoch.manS ≠ some 1 then 1 else 2

/-- How far the pieces written cover a manifest without a gap. -/
def coveredTo (ps : List (Nat × Nat)) : Nat → Nat → Nat
  | 0, pos => pos
  | n + 1, pos =>
    match ps.find? fun p => decide (p.1 ≤ pos) && decide (pos < p.1 + p.2) with
    | some p => coveredTo ps n (p.1 + p.2)
    | none => pos

/-- Write bytes into a slot. -/
def putBytes (off : Nat) : List Byte → Tbl Byte → Tbl Byte
  | [], t => t
  | b :: bs, t => putBytes (off + 1) bs (tset t off b 0)

/-- STAGE_MANIFEST (C501h, R440, R541): a piece at offset 0 starts a new manifest in the free slot, which becomes staged once
every byte has been written. -/
def execStageManifest (cci : Fin 10) (inp : List Byte) (s : State) : Res :=
  vendor cci 0xC501 inp inp.length [] (fun s =>
    let off := le inp 0 4
    let len := le inp 4 4
    let data := inp.drop 8
    if inp.length < 8 ∨ data.length ≠ len then .fail .invalidPayloadLength
    else if s.epoch.arm.isSome then .fail .busy
    else if off % 4096 ≠ 0 ∨ len = 0 ∨ 4096 < len ∨ manifestLen < off + len then .fail .invalidInput
    else
      match (if off = 0 then some (freeManSlot s, []) else s.epoch.load) with
      | none => .fail .invalidState
      | some (k, ps) =>
        let slot := putBytes off data (if off = 0 then [] else tget s.epoch.slots k [])
        let ps := ps ++ [(off, len)]
        let s := { s with epoch := { s.epoch with slots := tput s.epoch.slots k slot, load := some (k, ps) } }
        if manifestLen ≤ coveredTo ps ps.length 0 then
          let s := { s with epoch := { s.epoch with load := none } }
          let rec_ := leBytes 1 k ++ leBytes 8 (manEpoch s (some k)) ++ leBytes 16 (manDigest s (some k))
          .commit .none (cellarWrite 5 6 0x101 rec_ none s)
        else .done .none s) s

/-- GET_SLICE_DIGEST (C502h, R439). -/
def execGetSliceDigest (cci : Fin 10) (inp : List Byte) (s : State) : Res :=
  vendor cci 0xC502 inp 4 [] (fun s =>
    let n := le inp 2 2
    if 2040 < n then .fail .invalidInput
    else
      let ts := changedTenants s
      let out := (ts.filter fun t => decide (le inp 0 2 ≤ t)).take n
      answer s (leBytes 16 (sliceDigest s false) ++ leBytes 16 (sliceDigest s true) ++ leBytes 4 ts.length ++ zeros 4 ++
        out.flatMap (leBytes 2))) s

/-- ARM_EPOCH (C503h, R441, R435): with SPREAD, ARM goes out on a Formed ring. -/
def execArmEpoch (cci : Fin 10) (inp : List Byte) (s : State) : Res :=
  vendor cci 0xC503 inp 33 [] (fun s =>
    let e := le inp 0 8
    let d := le inp 8 16
    let t := le inp 24 8
    match armCheck s e d t with
    | some (_, rc) => .fail rc
    | none =>
      let s := armEpoch e d t s
      let spread := byteAt inp 32 % 2 == 1 && s.epoch.policy.spreadArm && s.epoch.ring.mode == .formed
      .commit .none (if spread then sendThrice 0x12 10000000 (inp.take 32) s else s)) s

/-- DISARM_EPOCH (C504h, R442): the cancellation is recorded, and spread as ARM is. -/
def execDisarmEpoch (cci : Fin 10) (inp : List Byte) (s : State) : Res :=
  vendor cci 0xC504 inp 24 [] (fun s =>
    let e := le inp 0 8
    let d := le inp 8 16
    match armedIs s e d with
    | none => .fail .invalidInput
    | some (_, false) => .fail .invalidState
    | some (t, true) =>
      let s := disarmEpoch e d t s
      let spread := s.epoch.policy.spreadArm && s.epoch.ring.mode == .formed
      .commit .none (if spread then sendThrice 0x13 10000000 inp s else s)) s

/-- GET_RING_STATE (C510h). -/
def execGetRingState (cci : Fin 10) (inp : List Byte) (s : State) : Res :=
  vendor cci 0xC510 inp 0 [] (fun s =>
    let r := s.epoch.ring
    let row := fun (p : Nat × RingMember) =>
      leBytes 1 p.1 ++ leBytes 1 p.2.flags ++ leBytes 2 p.2.devId ++ leBytes 8 p.2.serial ++
        leBytes 4 ((s.time.mono - p.2.at_) / 1000000)
    answer s (leBytes 1 r.mode.code ++ leBytes 1 (r.position.getD 0) ++ leBytes 1 r.members ++ zeros 1 ++ leBytes 8 r.headSerial ++
      ([r.framesTx, r.framesRx, r.crcFails, r.breaks].flatMap (leBytes 4)) ++ zeros 4 ++ r.table.flatMap row)) s

/-- The register that 8 bytes give (Table 13-7). -/
def ringPolicyOf (b : List Byte) : RingPolicy :=
  let v := le b 0 4
  { ringEn := bits v 31 1 == 1, spreadArm := bits v 30 1 == 1, stormSend := bits v 29 1 == 1, stormObey := bits v 28 1 == 1,
    stormBudget := bits v 21 7, stormHold := bits v 13 8, mismatchHold := le b 6 2, actGrace := byteAt b 5 }

/-- The 8 bytes of the register (Table 13-7). -/
def ringPolicyBytes (p : RingPolicy) : List Byte :=
  leBytes 4 (b2n p.ringEn * 2 ^ 31 + b2n p.spreadArm * 2 ^ 30 + b2n p.stormSend * 2 ^ 29 + b2n p.stormObey * 2 ^ 28 +
    p.stormBudget * 2 ^ 21 + p.stormHold * 2 ^ 13) ++ zeros 1 ++ leBytes 1 p.actGrace ++ leBytes 2 p.mismatchHold

/-- The ranges of Table 13-7. -/
def ringPolicyOk (p : RingPolicy) : Bool :=
  decide (p.stormBudget ≤ 96) && decide (1 ≤ p.stormHold) && decide (100 ≤ p.mismatchHold) && decide (p.mismatchHold ≤ 60000) &&
    decide (1 ≤ p.actGrace) && decide (p.actGrace ≤ 100)

/-- The record of a ring and epoch policy within its ranges (R449). -/
def ringPolicyRec (inp : List Byte) : Option (List Byte) :=
  if ringPolicyOk (ringPolicyOf inp) then some (ringPolicyBytes (ringPolicyOf inp)) else none

/-- SET_RING_AND_EPOCH_POLICY (C511h, R449). -/
def execSetRingAndEpochPolicy (cci : Fin 10) (inp : List Byte) (s : State) : Res :=
  vendor cci 0xC511 inp 8 []
    (fun s => storeSetting 0x15 (ringPolicyRec inp) s) s

/-- SEND_RING_WAKE (C512h). -/
def execSendRingWake (cci : Fin 10) (inp : List Byte) (s : State) : Res :=
  vendor cci 0xC512 inp 1 [] (fun s =>
    if s.epoch.ring.mode ≠ .formed then .fail .invalidState
    else if 63 < byteAt inp 0 then .fail .invalidInput
    else .done .none (sendRing 0x21 (byteAt inp 0) [] s)) s

end Sys2Proof.Machine
end

