-- ==== Sys2Proof/Machine/TimeBase.lean ====
section
/-!
DEFINITION. Meanings of the time base and clock commands (14_time_base_and_clocks.md).
-/
namespace Sys2Proof.Machine

/-! ### PPS qualification (R459 to R463) -/

/-- Half-width of the acceptance window in ns, widened by B in Holdover (R460, R461). -/
def halfWindow (t : TimeSt) : Nat := t.policy.ppsWindow * 1000 + (if t.pps = .holdover then t.bound else 0)

/-- The qualifier ignores the expected second: in Absent, and in Holdover past 250 ms (R461). -/
def ignoresSecond (t : TimeSt) : Bool := t.pps == .absent || (t.pps == .holdover && decide (250000000 < halfWindow t))

/-- The corrected capture of an edge now: TB_NOW less the input's internal delay, which is calibrated at manufacture, and
PPS_DELAY (R459). -/
def captureNow (s : State) : Int := (tbRead s : Int) - Config.ppsInputDelay s.mgmt.serial - s.time.policy.ppsDelay

/-- The expected second nearest to a capture (R460). -/
def nearestSecond (c : Int) : Int := (c + 500000000) / 1000000000

/-- Phase error of a capture: capture minus the expected second (R462). -/
def phaseOf (c : Int) : Int := c - nearestSecond c * 1000000000

/-- Whether a capture is in-window (R460). -/
def inWindow (t : TimeSt) (c : Int) : Bool := decide ((phaseOf c).natAbs ≤ halfWindow t)

/-- Count an out-of-window edge; more than 16 between two ticks enters Noisy (Table 14-2). -/
def countOut (s : State) : State :=
  let s := { s with time := { s.time with outWin := s.time.outWin + 1, outWinTotal := s.time.outWinTotal + 1 } }
  if 16 < s.time.outWin then setPps .noisy s else s

/-- Accept an edge in Locked: capture, phase error, rate, and the learned bin (R459, R462, R464). -/
def acceptEdge (c : Int) (s : State) : State :=
  let e := phaseOf c
  let r := Config.loopRate s.time.rate e
  let bins := if s.mgmt.platform.mode = .running then tput s.time.bins (oscBin s.time) (r, s.time.tbNow / 1000000000)
              else s.time.bins
  { s with time := { s.time with
      tbLastPps := c.toNat, lastAccept := some s.time.mono, phaseErr := e, rate := r, bins := bins, bound := 0,
      slewRem := if e.natAbs ≤ 1000000 then -e * 1000000000 else s.time.slewRem } }

/-- Remove the phase error at the end of acquisition: slew, forward step, or half-rate run (R462). -/
def alignPhase (e : Int) (s : State) : State :=
  if e.natAbs ≤ 1000000 then s
  else if e < 0 then stepTo (s.time.tbNow + e.natAbs) s
  else { s with time := { s.time with halfRem := e.natAbs * 1000000000, halfRun := true, slewRem := 0 } }

/-- The edge gives the tick of its second, once (R455, Table 14-5). -/
def edgeTick (c : Int) (s : State) : State :=
  if s.time.secMark < (nearestSecond c).toNat then tickAt (nearestSecond c).toNat true s
  else { s with time := { s.time with missing := 0 } }

/-- An acquisition edge (R463): three consecutive edges, each spaced 1 s on the oscillator within max(PPS_WINDOW, 25 µs). -/
def acquire (c : Int) (s : State) : State :=
  let now := s.time.mono
  let tol := max (s.time.policy.ppsWindow * 1000) 25000
  let good := match s.time.acq with
    | [] => false
    | a :: _ => decide (now - a ≤ 1000000000 + tol) && decide (1000000000 ≤ now - a + tol)
  let acq := if good then now :: s.time.acq else [now]
  if acq.length < 3 then
    { s with time := { s.time with acq := acq, lastAccept := some now, tbLastPps := c.toNat } }
  else
    let s := setPps .locked { s with time := { s.time with acq := acq } }
    alignPhase (phaseOf c) (edgeTick c (acceptEdge c s))

/-- PPS_EDGE (R459 to R463): an edge of the selected polarity whose level was stable for PPS_FILTER is captured and accepted,
used for acquisition, or counted out-of-window. -/
def execPpsEdge (rising : Bool) (stable : Nat) (s : State) : Res :=
  let t := s.time
  if !t.policy.ppsEn || t.policy.ppsEdge == rising || stable < 10 * t.policy.ppsFilter || !t.tbRunning then .next s
  else
    let c := captureNow s
    let held := match t.lastAccept with
      | some a => decide (t.mono < a + 500000000)
      | none => false
    if held then .next (countOut s)
    else
      match t.pps with
      | .locked => if inWindow t c then .next (edgeTick c (acceptEdge c s)) else .next (countOut s)
      | .noisy => if inWindow t c then .next s else .next (countOut s)
      | .absent =>
        let s1 := if inWindow t c then s else countOut s
        if s1.time.pps = .noisy then .next s1 else .next (acquire c s1)
      | .holdover =>
        if ignoresSecond t || inWindow t c then .next (acquire c s) else .next (countOut s)

/-- PPS_WINDOW_CLOSE (R455): in Locked, a window that closes without an accepted edge gives the tick. -/
def execPpsWindowClose (s : State) : Res :=
  if s.time.pps = .locked ∧ (s.time.secMark + 1) * 1000000000 + s.time.policy.ppsWindow * 1000 ≤ s.time.tbNow then
    .next (tickAt (s.time.secMark + 1) false s)
  else .next s

/-- SECOND_TICK (R455): in every other PPS state, the tick of a boundary that the time base has passed by counting or
slewing. -/
def execSecondTick (s : State) : Res :=
  if s.time.tbRunning ∧ s.time.pps ≠ .locked ∧ (s.time.secMark + 1) * 1000000000 ≤ s.time.tbNow then
    .next (tickAt (s.time.secMark + 1) false s)
  else .next s

/-- HALF_RATE_END (R462): the run ends once the time base is aligned. -/
def execHalfRateEnd (s : State) : Res :=
  if s.time.halfRun ∧ s.time.halfRem = 0 then
    .next { s with time := { s.time with halfRun := false, halfRuns := s.time.halfRuns + 1 } }
  else .next s

/-! ### Oscillator and reference clocks -/

/-- OSC_COMPENSATION (R464): every 10 ms, from the always-on diode; while it is broken the last value is held (R498). -/
def execOscCompensation (temp : Int) (s : State) : Res :=
  if diode22Broken s then .next s
  else .next { s with time := { s.time with oscTemp := temp, oscComp := Config.oscFuse temp } }

/-- The learned table as 83 words: [31] fresh, [30:0] signed ppb (C600h, Table 18-5). -/
def oscTableBytes (s : State) : List Byte :=
  (List.range 83).flatMap fun b =>
    leBytes 4 (b2n (binFresh s.time b) * 2 ^ 31 + unsignedOf 31 (tget s.time.bins b (0, 0)).1)

/-- OSC_TABLE_WRITE (R464): the platform supervisor writes the learned table every hour. -/
def execOscTableWrite (s : State) : Res :=
  if s.mgmt.platform.mode = .running then .next (cellarWrite 5 2 0x0B (oscTableBytes s) none s) else .next s

/-- SYSCLK_RETURN (R466): SYSCLK has been good for 100 ms and the PLLs return to it. -/
def execSysclkReturn (s : State) : Res := .next { s with time := { s.time with sysGood := true, sysFallback := false } }

/-- PLL_LOCK_DONE (R48): the domain gets its clock and the oldest waiting request begins to lock. -/
def execPllLockDone (dom : Nat) (s : State) : Res :=
  if s.time.locking.contains dom then
    let l := s.time.locking.filter fun d => pllOf d != pllOf dom
    let s := (s.time.locking.filter fun d => pllOf d == pllOf dom).foldl (fun s d => setDom d .running s) s
    let s := { s with time := { s.time with locking := l } }
    .next (fillLocks s.time.lockQueue.length s)
  else .next s

/-! ### Commands -/

/-- GET_TIME_BASE_STATE (C600h, R471). -/
def execGetTimeBaseState (cci : Fin 10) (inp : List Byte) (s : State) : Res :=
  vendor cci 0xC600 inp 0 []
    (fun s =>
      let t := s.time
      let p := match t.pps with
        | .absent => 0 | .locked => 1 | .holdover => 2 | .noisy => 3
      let clk := (List.range 4).map (fun i => b2n (t.hrefGood.getD i false) * 2 ^ i)
      let d : DomState → Nat := fun | .running => 0 | .gated => 1 | .stopped => 2 | .unpowered => 3
      answer s (leBytes 1 p ++ leBytes 1 (b2n (binFresh t (oscBin t))) ++ zeros 2 ++ leBytes 4 (unsignedOf 32 t.phaseErr) ++
        leBytes 4 (unsignedOf 32 t.rate) ++ leBytes 4 t.holdover ++ leBytes 4 t.bound ++ leBytes 4 t.outWinTotal ++
        leBytes 4 t.steps ++ leBytes 4 t.halfRuns ++
        leBytes 4 (clk.sum + 16 * b2n t.frefGood + 32 * b2n t.sysGood + 64 * b2n t.sysFallback) ++
        ((List.range 40).flatMap fun i => leBytes 1 (d (domOf s (i + 1)))) ++ oscTableBytes s)) s

/-- The record of a time base policy within its ranges (R459). -/
def timePolicyRec (inp : List Byte) : Option (List Byte) :=
  if timePolicyOk (timePolicyOf inp) then some (timePolicyBytes (timePolicyOf inp)) else none

/-- SET_TIME_BASE_POLICY (C601h, R459): kept in the cellar book; PPS_EN 0 enters Absent (Table 14-2). -/
def execSetTimeBasePolicy (cci : Fin 10) (inp : List Byte) (s : State) : Res :=
  vendor cci 0xC601 inp 8 []
    (fun s => storeSetting 0x16 (timePolicyRec inp) s) s

/-- SET_TIME_ALARM (C602h, R469): 0 disables it; a time already passed fires at once. -/
def execSetTimeAlarm (cci : Fin 10) (inp : List Byte) (s : State) : Res :=
  vendor cci 0xC602 inp 8 []
    (fun s => .done .none (alarmCheck { s with time := { s.time with alarm := le inp 0 8 } })) s

/-- TIME_ALARM_FIRE (R469): TB_NOW has reached the alarm. -/
def execTimeAlarmFire (s : State) : Res := .next (alarmCheck s)

/-- GET_TIMESTAMP (0300h, R457). -/
def execGetTimestamp (cci : Fin 10) (s : State) : Res :=
  standard cci 0x0300 (fun s => .done (.nums [tbRead s]) s) s

/-- The value Set Timestamp takes while Locked: the instant of the current PPS phase nearest to the value given, a half
second rounding up (R457, log entry 8). -/
def lockedTime (s : State) (v : Nat) : Nat :=
  let f := s.time.tbNow % 1000000000
  ((v : Int) - f + 500000000).toNat / 1000000000 * 1000000000 + f

/-- An armed T lies at or before a time (Table 13-8). -/
def armPassed (s : State) (now : Nat) : Bool :=
  match s.epoch.arm with
  | some (_, _, t) => decide (t ≤ now / 1000000000)
  | none => false

/-- SET_TIMESTAMP (0301h, R456 to R458): sets, slews or steps the time base, sets TIME_SET, and completes once the TIME record
is written; the first within 24 h of Memory_Active completes an unpowered interval (R304). -/
def execSetTimestamp (cci : Fin 10) (time : Nat) (s : State) : Res :=
  standard cci 0x0301
    (fun s =>
      let old := s.time.tbNow
      let v := time % 2 ^ 64
      let new := if s.time.pps = .locked then lockedTime s v else v
      let slewed := decide (s.time.pps ≠ .locked ∧ (if old ≤ new then new - old else old - new) ≤ 1000000)
      let s := if slewed then
          { s with time := { s.time with slewRem := ((new : Int) - old) * 1000000000, halfRem := 0 } }
        else stepTo new s
      let s := { s with time := { s.time with timeSet := true },
                        epoch := { s.epoch with
                          stepAt := if !slewed && armPassed s new && !armPassed s old then some s.time.ticks else s.epoch.stepAt } }
      let s := raise 0x060 0x8002 (old / 1000000000 % 2 ^ 32) (new / 1000000000 % 2 ^ 32)
        (unsignedOf 32 (((new : Int) - old) / 1000000)) s
      let s := completeUnpowered old new (alarmCheck s)
      .commit .none (cellarWrite 5 2 0x05 (leBytes 8 new) none s)) s

/-- SNAPSHOT_COPY_DONE (R563): the copy of the metering snapshot ends. -/
def execSnapshotCopyDone (s : State) : Res := .next (endSnapshot s)

end Sys2Proof.Machine
end

