-- ==== Sys2Proof/Machine/Settings.lean ====
section
/-!
DEFINITION. Settings kept in the cellar book: what a record puts in force (Table 18-5), at a start and when the COMMIT word of a
command's record is written (R539), and the completion of a write run (R534, R536, R538, R539).
-/
namespace Sys2Proof.Machine

/-- The registers that a SYSTEM record holds take its values (Table 18-5). -/
def loadSetting (key : Nat) (b : List Byte) (s : State) : State :=
  match key with
  | 0x07 => { s with mgmt := { s.mgmt with shutdownState := le b 0 4 } }
  | 0x08 => { s with map := { s.map with pendingE := le b 0 4 } }
  | 0x09 => { s with mgmt := { s.mgmt with access := (List.range 4).map (byteAt b) } }
  | 0x0A => { s with power := { s.power with stored := some b } }
  | 0x0E => { s with map := { s.map with mirrorNext := le b 0 1 == 1 } }
  | 0x10 => { s with persist := { s.persist with policy := holdPolicyOf b } }
  | 0x11 =>
    let v := le b 0 4
    { s with place := { s.place with rackStart := bits v 24 8, rackUrgent := bits v 16 8, wDrain := bits v 12 4,
                                     wRack := bits v 8 4, wTop := bits v 4 4, wearSpread := le b 6 2 } }
  | 0x12 => { s with drift := driftPolicyOf b s.drift }
  | 0x13 => { s with dram := dramPolicyOf b s.dram }
  | 0x14 => { s with fabric := { s.fabric with policy := fabPolicyOf b } }
  | 0x15 => { s with epoch := { s.epoch with policy := ringPolicyOf b } }
  | 0x16 => { s with time := { s.time with policy := timePolicyOf b } }
  | 0x17 => { s with power := { s.power with policy := powerPolicyOf b } }
  | 0x18 => { s with therm := { s.therm with policy := thermPolicyOf b } }
  | 0x19 =>
    let s := creditDrains s
    creditDrains { s with front := drainPolicyOf b s.front }
  | 0x1A => { s with back := backPolicyOf b s.back }
  | 0x1B => { s with front := { s.front with masks := partMasksOf b } }
  | 0x20 => putPasswords b s
  | _ => s

/-- A record that a command wrote is in force: its registers change, and with them what they enable (R407, R427, R434, R457). -/
def applySetting (region key : Nat) (b : List Byte) (s : State) : State :=
  if region = 6 then
    -- STAGED_MANIFEST names the slot (R541)
    if key = 0x101 then { s with epoch := { s.epoch with manS := some (byteAt b 0) } } else s
  else if region ≠ 2 then s
  else
    let s := loadSetting key b s
    if key = 0x14 then applyPortEn s
    else if key = 0x15 then
      let s := if s.epoch.policy.ringEn then s else leaveRing .bypassed s
      if s.epoch.braceEnd.isSome then
        budgetUpdate { s with persist := { s.persist with braceCap := some s.epoch.policy.stormBudget } }
      else s
    else if key = 0x16 then (if s.time.policy.ppsEn then s else setPps .absent s)
    else s

/-- The COMMIT word of a record: it becomes current and in force, or a region whose current records would pass half of it answers
Invalid State and nothing is written (R536, R538). -/
def commitRecord (w : CWrite) (s : State) : Rc × State :=
  match regionLog s.cellar w.region with
  | none => (.invalidState, s)
  | some l =>
    match logWrite l w.key w.data with
    | none => (.invalidState, s)
    | some l' => (.success, applySetting w.region w.key w.data { s with cellar := setRegionLog s.cellar w.region l' })

/-- CELLAR_WRITE_COMPLETE (R534, R536, R538, R539): the COMMIT word of the run in progress is written, and a command that waits
for it completes. No run is started once VAUX_IO is below 1.71 V (R489). -/
def execCellarWriteComplete (s : State) : Res :=
  if s.power.vauxLow then .next s
  else
    match nextWrite s.cellar.writes with
    | none => .next s
    | some w =>
      let r := commitRecord w { s with cellar := { s.cellar with writes := s.cellar.writes.erase w } }
      match w.cci with
      | none => .next r.2
      | some c =>
        match (cciOf r.2 c).wait with
        | none => .next r.2
        | some (op, out) => .next (complete c op r.1 (if r.1 = .success then out else .none) r.2)

end Sys2Proof.Machine
end

