-- ==== Sys2Proof/Machine/Tenants.lean ====
section
/-!
DEFINITION. Meanings of the tenant, extent, key, QoS and flow queue commands (03_tenants_and_flow_queues.md, Table 3-9).
-/
namespace Sys2Proof.Machine

/-! ### Extents -/

/-- GET_EXTENT_ENTRY (C000h, R143). -/
def execGetExtentEntry (cci : Fin 10) (inp : List Byte) (s : State) : Res :=
  vendor cci 0xC000 inp 6 []
    (fun s =>
      let first := le inp 0 4
      let n := le inp 4 2
      if n = 0 ∨ 256 < n ∨ 241664 < first + n then .fail .invalidInput
      else
        answer s (leBytes 4 first ++ leBytes 2 n ++
          (List.range n).flatMap fun i =>
            let e := first + i
            extBytes (extOf s e) ++ extBytes (extStg s e) ++ leBytes 1 (derivedState s e) ++
              leBytes 1 (b2n (s.ten.withheld.contains e) + 2 * b2n (s.ten.affected.contains e)) ++ zeros 6)) s

/-- The entry that an Assign Extent gives. -/
def assignEntry (inp : List Byte) (s : State) : ExtentEnt :=
  { st := .assigned, head := (extOf s (le inp 0 4)).head, accessDev := le inp 12 2, ownerDev := le inp 6 2,
    ownerExtent := le inp 8 4, tenant := le inp 4 2, keySlot := ((tenantOf s (le inp 4 2)).slot).getD 0,
    prof := le inp 15 1 }

/-- Input that Assign Extent refuses (R112, R114). -/
def assignBad (inp : List Byte) (s : State) : Bool :=
  let e := le inp 0 4
  let head := le inp 14 1
  decide (241664 ≤ e) || decide (0xFFF < le inp 6 2) || decide (0xFFF < le inp 12 2) || decide (262144 ≤ le inp 8 4) ||
    (tenantOf s (le inp 4 2)).st != .active || (le inp 6 2 == 0xFFF && decide (s.map.extents ≤ e)) ||
    (head != 0xFF && (decide (3 < head) || !(headOf s head).present || le inp 12 2 != 0xFFF))

/-- Record an assignment in the bank or banks of R121; E_STATE and HEAD are not banked. -/
def recordAssign (e : Nat) (x : ExtentEnt) (s : State) : State :=
  if x.crosses || (extOf s e).crosses || (extStg s e).crosses then
    setExt e true false { extOf s e with st := .assigned } (setExt e false true x s)
  else setExt e true true x s

/-- ASSIGN_EXTENT (C001h, R112, R114, R121): an entry that names another device in either bank goes to the staged bank. -/
def execAssignExtent (cci : Fin 10) (inp : List Byte) (s : State) : Res :=
  vendor cci 0xC001 inp 16 []
    (fun s =>
      let e := le inp 0 4
      let x := assignEntry inp s
      let st := (extOf s e).st
      if assignBad inp s then .fail .invalidInput
      else if st = .releasing ∨ st = .erasing then .fail .busy
      else if st = .pending ∨ st = .added ∨ s.ten.withheld.contains e then .fail .invalidState
      else if (x.crosses || (extOf s e).crosses || (extStg s e).crosses) && bankedBusy s then .fail .busy
      else
        journaled s
          (let s := journalExt e (recordAssign e x s)
           .done .none (if le inp 14 1 = 0xFF then s else initiateAdd e (le inp 14 1) s))) s

/-- UNASSIGN_EXTENT (C002h, Table 3-3). -/
def execUnassignExtent (cci : Fin 10) (inp : List Byte) (s : State) : Res :=
  vendor cci 0xC002 inp 4 []
    (fun s =>
      let e := le inp 0 4
      if 241664 ≤ e ∨ (extOf s e).st ≠ .assigned then .fail .invalidState
      else journaled s (.done .none (moveExt e .unassigned s))) s

/-- A transaction of an extent is in flight, or one of its frames is in assembly (R78). -/
def extentInFlight (s : State) (e : Nat) : Bool :=
  (s.ten.reqs.any fun p => extentOf p.2.addr == e) || s.front.asms.any fun p => extentOfLfa p.2.lfa == e

/-- Trim every frame of an extent (R78, R139): MAP_TRIM commits, the extent's lines go, and an affected extent has its entries
again. -/
def trimExtent (e tenant : Nat) (s : State) : State :=
  let s := dropLines (fun l => extentOfLfa l.tag == e) s
  commit (.mapTrim (e * 262144) 262144 tenant) s

/-- RELEASE_TRIM_DONE (R78, R113, R139 step 5, R289): a Releasing extent becomes Assigned, an Erasing one Unassigned; one
released at the device's request is withheld. -/
def execReleaseTrimDone (extent : Fin 241664) (s : State) : Res :=
  let e : Nat := extent
  let x := extOf s e
  if x.ownerDev ≠ 0xFFF ∨ extentInFlight s e ∨ journalFull s ∨ s.ten.affected.contains e then .next s
  else if x.st = .releasing then
    let s := moveExt e .assigned (trimExtent e x.tenant s)
    let asked := s.ten.releaseAsked.contains e
    let s := { s with ten := { s.ten with releaseAsked := s.ten.releaseAsked.filter (· != e) } }
    if asked then .next (spareRecompute (commit (.extentWithhold e true) s)) else .next (spareRecompute s)
  else if x.st = .erasing ∧ sweepHeld s x.tenant then
    .next (spareRecompute (moveExt e .unassigned (trimExtent e x.tenant s)))
  else .next s

/-! ### Tenants -/

/-- The lowest key slot that no tenant holds (R111). -/
def lowestSlot (s : State) : Nat :=
  let held := (s.ten.tenants.filter fun p => p.2.st != .free).filterMap fun p => p.2.slot
  ((List.range (held.length + 1)).find? fun k => !held.contains k).getD 0

/-- CREATE_TENANT (C010h, R110, R111): KEY_GEN is kept; the QoS reset values go to both banks; the metering page and the
queues start again (R124, R164, R560). -/
def execCreateTenant (cci : Fin 10) (inp : List Byte) (s : State) : Res :=
  vendor cci 0xC010 inp 2 []
    (fun s =>
      let t := le inp 0 2
      let x := tenantOf s t
      if x.st ≠ .free then .fail .invalidState
      else if bankedBusy s then .fail .busy
      else
        journaled s
          (let k := lowestSlot s
           let s := setTenant t { TenantSt.fresh with st := .active, slot := some k, keyGen := x.keyGen } (setSlot k .empty s)
           let s := journalTenant t s
           let s := [0x08, 0x10, 0x18, 0x20, 0x28].foldl (fun s o =>
             commit (.tenantWord t o true true ((TenantSt.fresh.qosA.word o).toNat)) s) s
           let s := freshQueues t s
           let s := { s with count := { s.count with meters := tput s.count.meters t (freshMeter t s) } }
           .done (.bytes (leBytes 2 k)) s)) s

/-- DELETE_TENANT (C011h, R111). -/
def execDeleteTenant (cci : Fin 10) (inp : List Byte) (s : State) : Res :=
  vendor cci 0xC011 inp 2 []
    (fun s =>
      let t := le inp 0 2
      let x := tenantOf s t
      if x.st ≠ .active ∨ extentCount s t ≠ 0 then .fail .invalidState
      else
        journaled s
          (let s := match x.slot with
             | some k => setSlot k .empty s
             | none => s
           let s := setTenant t { x with st := .free, slot := none, keyGen := (x.keyGen + 1) % 65536, keyCheck := 0 } s
           .done .none (commit (.tenantWord t 0x30 true true 0) (journalTenant t s)))) s

/-- A profile raises some reservation over another (R130). -/
def raisesRes (old new : Qos) : Bool :=
  (List.range 4).any fun c => decide (resOps old c < resOps new c) || decide (resBw old c < resBw new c)

/-- A profile sets a ceiling below its reservation (R129). -/
def ceilingLow (q : Qos) : Bool :=
  (List.range 4).any fun c => decide (ceilOps q c < resOps q c) || decide (ceilBw q c < resBw q c)

/-- SET_TENANT_PROFILE (C012h, R121, R129, R130). -/
def execSetTenantProfile (cci : Fin 10) (inp : List Byte) (s : State) : Res :=
  vendor cci 0xC012 inp 48 [(2, 6)]
    (fun s =>
      let t := le inp 0 2
      let x := tenantOf s t
      let q := qosOfBytes (inp.drop 8)
      if x.st = .free then .fail .invalidState
      else if bankedBusy s then .fail .busy
      else if ceilingLow q then .fail .invalidInput
      else if s.ten.overcommit && raisesRes x.qosS q then .fail .invalidInput
      else if !s.ten.overcommit && !withinLimits (setTenant t { x with qosS := q } s) false then .fail .invalidInput
      else
        journaled s
          (.done .none ([0x08, 0x10, 0x18, 0x20, 0x28].foldl (fun s o =>
            commit (.tenantWord t o false true ((q.word o).toNat)) s) s))) s

/-- A tenant has an extent added to a head (Table 17-2). -/
def tenantOnHead (s : State) (h t : Nat) : Bool :=
  s.ten.extA.any fun p => p.2.st == .added && p.2.accessDev == 0xFFF && p.2.head == h && p.2.tenant == t

/-- GET_TENANT (C013h, R143); at level 0 only for a tenant with an extent added to the head (R524). -/
def execGetTenant (cci : Fin 10) (inp : List Byte) (s : State) : Res :=
  vendor cci 0xC013 inp 2 []
    (fun s =>
      let t := le inp 0 2
      let x := tenantOf s t
      let barred := match headOfCci cci with
        | some h => accessOf s cci == 0 && !tenantOnHead s h t
        | none => false
      if barred then .fail .unsupportedMailbox
      else
        let sl := match x.slot with
          | none => 0
          | some k => match slotOf s k with
            | .empty => 0 | .loading _ => 0 | .loaded _ => 1 | .erased => 2
        answer s (tenantBytes s t ++ qosBytes x.qosS ++ leBytes 1 sl ++ zeros 3 ++ leBytes 4 (pendingOf s t).length)) s

/-! ### Keys (R132 to R142) -/

/-- The output of Get Key Wrapping Public Key but for its signature (C020h). -/
def wrapKeyBody (s : State) : List Byte := leBytes 8 s.mgmt.serial ++ (List.range 96).map fun i => Config.wrapPubKey.getD i 0

/-- GET_KEY_WRAPPING_PUBLIC_KEY (C020h, R133, R521): signed with the alias key. -/
def execGetKeyWrappingPublicKey (cci : Fin 10) (inp : List Byte) (s : State) : Res :=
  vendor cci 0xC020 inp 0 []
    (fun s =>
      let d := Config.sha384 (ascii "KUNOR-CA4800-KWK" ++ (wrapKeyBody s).map (·.toNat))
      answer s (wrapKeyBody s ++ leBytes 96 (Config.sign 1 d))) s

/-- A failed load: from the eighth in a row on, the next loads are refused for 1 s, doubling to 64 s (R135, A003h). -/
def loadFail (t step : Nat) (s : State) : State :=
  let x := tenantOf s t
  let n := x.fails + 1
  let refusal := if n < 8 then 0 else s.time.mono + min (2 ^ (n - 8)) 64 * 1000000000
  raise 0x036 0xA003 t step 0 (setTenant t { x with fails := n, refusal := refusal } s)

/-- The big-endian number of `n` bytes at an offset (SEC 1 coordinates, R133). -/
def beAt (b : List Byte) (off n : Nat) : Nat := ((b.drop off).take n).foldl (fun a x => a * 256 + x.toNat) 0

/-- The wrapping key of a blob (R133): HKDF-SHA-384 over the x-coordinate of the ECDH shared secret with the blob's ephemeral key,
salt the 8-byte serial number, info KUNOR-CA4800-KEYWRAP, 32 bytes. None when the ephemeral key is no point of the curve. -/
def wrappingKey (serial : Nat) (blob : List Byte) : Option Nat :=
  (Config.ecdhX (beAt blob 0x08 48) (beAt blob 0x38 48)).map fun x =>
    Config.hkdfSha384 x ((leBytes 8 serial).map (·.toNat)) (ascii "KUNOR-CA4800-KEYWRAP") 32

/-- The key pair in a blob (R133, Table 3-7): AES-GCM-256 under the wrapping key with NONCE, WRAPPED and TAG, and bytes 00h to 67h as
additional authenticated data; the data key lies in the low 256 bits. None when the tag fails. -/
def unwrapKey (serial : Nat) (blob : List Byte) : Option Nat :=
  match wrappingKey serial blob with
  | none => none
  | some k =>
    Config.gcmOpen k ((blob.drop 0x68).take 12) (blob.take 0x68) ((blob.drop 0x74).take 64) ((blob.drop 0xB4).take 16)

/-- The checks of R134: the failing step with its return code, or the key pair. -/
def checkBlob (t : Nat) (blob : List Byte) (s : State) : (Nat × Rc) ⊕ Nat :=
  let x := tenantOf s t
  if le blob 0 2 ≠ 1 ∨ le blob 4 2 ≠ t ∨ x.st ≠ .active ∨ le blob 6 2 ≠ x.keyGen then .inl (1, .invalidInput)
  else
    match unwrapKey s.mgmt.serial blob with
    | none => .inl (2, .invalidInput)
    | some pair =>
      if pair % 2 ^ 256 = pair / 2 ^ 256 then .inl (3, .invalidInput)
      else
        let other := match x.slot with
          | some k => match slotOf s k with
            | .loaded old => old != pair
            | .loading old => old != pair
            | _ => false
          | none => false
        if other then .inl (4, .invalidState)
        else if x.keyCheck ≠ 0 ∧ x.keyCheck ≠ keyCheckOf t pair then .inl (5, .invalidInput)
        else .inr pair

/-- A checked key is accepted: the count of failures ends, and a slot that does not hold it yet is being loaded (R134, R135). -/
def acceptKey (t pair : Nat) (s : State) : State :=
  let x := tenantOf s t
  let s := setTenant t { x with fails := 0, refusal := 0 } s
  match x.slot with
  | none => s
  | some k => if slotOf s k = .loaded pair then s else setSlot k (.loading pair) s

/-- LOAD_TENANT_KEY (C021h, R134, R135, R209): the command completes once no pending image entry of the tenant is left. Before phase 14
of a start it answers Busy (Table 20-5). -/
def execLoadTenantKey (cci : Fin 10) (inp : List Byte) (s : State) : Res :=
  vendor cci 0xC021 inp 200 [(2, 2)]
    (fun s =>
      let t := le inp 0 2
      if !s.start.phases.contains 14 ∨ s.time.mono < (tenantOf s t).refusal then .fail .busy
      else
        match checkBlob t (inp.drop 4) s with
        | .inl (n, rc) => .failWith rc (loadFail t n s)
        | .inr pair =>
          if s.persist.drain.isSome ∨ (s.place.cap = .writeLocked ∧ !(pendingOf s t).isEmpty) then .fail .busy
          else
            journaled s
              (let s := restoreTenant t (acceptKey t pair s)
               if (pendingOf s t).isEmpty then .done .none (finishLoad t s)
               else .wait .none { s with ten := { s.ten with loads := s.ten.loads ++ [(t, cci.val)] } })) s

/-- UNLOAD_TENANT_KEY (C022h, R138, R179). -/
def execUnloadTenantKey (cci : Fin 10) (inp : List Byte) (s : State) : Res :=
  vendor cci 0xC022 inp 2 []
    (fun s =>
      let t := le inp 0 2
      let x := tenantOf s t
      let loaded := match x.slot with
        | some k => (slotOf s k).isLoaded
        | none => false
      if x.st ≠ .active then .fail .invalidState
      else if !loaded then .done .none s
      else if s.place.cap = .writeLocked then .fail .busy
      else if tenantDirty s t then
        let lfas := (s.front.lines.filter fun p => p.2.tenant == t && countsDirty p.2).map (·.2.tag)
        let s := lfas.foldl (fun s l => markUrgent l s) s
        .wait .none { s with front := { s.front with unloads := s.front.unloads ++ [(t, cci.val)] } }
      else .done .none (unloadSlot t s)) s

/-- The background sweep of a Crypto-Erase (R139 steps 3 to 5): lines, slots and image entries go, every extent of the tenant
becomes Erasing with a Forced Capacity Release record for a local head, and one with a remote owner becomes Unassigned. -/
def eraseSweep (t : Nat) (s : State) : State :=
  let s := discardEntries (fun d => d.tenant == t) (dropLines (fun l => l.tenant == t) s)
  let s := ((s.back.slots.filter fun p => p.2.tenant == t && p.2.st == .valid).map (·.1)).foldl (fun s n => evictSlot n s) s
  let es := ((s.ten.extA.filter fun p => p.2.tenant == t && p.2.st != .unassigned).map (·.1))
  es.foldl (fun s e =>
    let x := extOf s e
    let s := if x.st = .added ∧ x.accessDev = 0xFFF then bumpGen x.head (dcRecord x.head 2 e t s) else s
    moveExt e (if x.ownerDev = 0xFFF then .erasing else .unassigned) s) s

/-- CRYPTO_ERASE_TENANT (C023h, R139 to R141): the key is destroyed at once. -/
def execCryptoEraseTenant (cci : Fin 10) (inp : List Byte) (s : State) : Res :=
  vendorBg cci 0xC023 inp 2 []
    (fun s =>
      let t := le inp 0 2
      let x := tenantOf s t
      if x.st = .free then .fail .invalidState
      else if x.st = .erasing then .done .none s
      else if 16 ≤ s.ten.erasing.length then .fail .busy
      else
        journaled s
          (let s := match x.slot with
             | some k => setSlot k .erased s
             | none => s
           let s := setTenant t { x with st := .erasing, keyGen := (x.keyGen + 1) % 65536, keyCheck := 0 } s
           let s := commit (.tenantWord t 0x30 true true 0) (journalTenant t s)
           let s := raise 0x036 0xA004 t 1 0 s
           let s := { s with ten := { s.ten with erasing := s.ten.erasing ++ [{ tenant := t, cci := cci }] } }
           .background (takeSweeps (eraseSweep t s)))) s

/-- CRYPTO_ERASE_SWEEP_DONE (R139 step 6): the last extent is trimmed; the slot is Empty and unbound, the tenant Free, and the
engine that swept it is free again (R574). -/
def execCryptoEraseSweepDone (tenant : Fin 65536) (s : State) : Res :=
  let t : Nat := tenant
  match s.ten.erasing.find? fun j => j.tenant == t with
  | none => .next s
  | some j =>
    if extentCount s t ≠ 0 ∨ journalFull s ∨ sweepHeld s t = false then .next s
    else
      let x := tenantOf s t
      let s := match x.slot with
        | some k => setSlot k .empty s
        | none => s
      let s := journalTenant t (setTenant t { x with st := .free, slot := none } s)
      let s := { s with ten := { s.ten with erasing := s.ten.erasing.filter fun j => j.tenant != t } }
      .next (endBgOn j.cci 0xC023 .success (raise 0x036 0xA004 t 0 0 (endSweep t s)))

/-! ### Head access (R524) -/

/-- The record of the access levels with one head changed, if it is present (R524). -/
def headAccessRec (inp : List Byte) (s : State) : Option (List Byte) :=
  let h := le inp 0 1
  let old := ((pendingRec s 0x09).map fun d => (List.range 4).map (byteAt d)).getD s.mgmt.access
  if 3 < h ∨ 2 < le inp 1 1 ∨ !(headOf s h).present then none else some ((old.set h (le inp 1 1)).flatMap (leBytes 1))

/-- SET_HEAD_ACCESS (C030h, R524): kept in the cellar book. -/
def execSetHeadAccess (cci : Fin 10) (inp : List Byte) (s : State) : Res :=
  vendor cci 0xC030 inp 2 []
    (fun s => storeSetting 0x09 (headAccessRec inp s) s) s

/-- GET_HEAD_ACCESS (C031h, R524). -/
def execGetHeadAccess (cci : Fin 10) (inp : List Byte) (s : State) : Res :=
  vendor cci 0xC031 inp 0 []
    (fun s =>
      answer s ((List.range 4).flatMap fun h =>
        leBytes 1 (if (headOf s h).present then s.mgmt.access.getD h 2 else 0xFF))) s

/-! ### Class profiles and queues -/

/-- SET_CLASS_PROFILE (C100h, R116, R121): bits above 7 are read-only and ignored (R24, R25). -/
def execSetClassProfile (cci : Fin 10) (inp : List Byte) (s : State) : Res :=
  vendor cci 0xC100 inp 8 [(1, 3)]
    (fun s =>
      if bankedBusy s then .fail .busy
      else journaled s (.done .none (commit (.classProfile (le inp 0 1) false true (le inp 4 1)) s))) s

/-- GET_CLASS_PROFILE (C101h, R116). -/
def execGetClassProfile (cci : Fin 10) (inp : List Byte) (s : State) : Res :=
  vendor cci 0xC101 inp 1 []
    (fun s =>
      answer s (leBytes 4 (profOf s.ten.profA (le inp 0 1)) ++ leBytes 4 (profOf s.ten.profS (le inp 0 1)))) s

/-- Bytes of a bucket's level: signed operations in 1/16, then signed bytes. -/
def bucketBytes (b : Bucket) : List Byte := leBytes 4 (unsignedOf 32 (b.ops / 1000)) ++ leBytes 4 (unsignedOf 32 (b.bytes / 1000))

/-- GET_FLOW_QUEUE_STATE (C110h, R123, R124); the level of a ceiling bucket that a ceiling of FFFFh does not have is a free
value. -/
def execGetFlowQueueState (cci : Fin 10) (inp : List Byte) (s : State) : Res :=
  vendor cci 0xC110 inp 4 []
    (fun s =>
      let q := le inp 0 4
      if 262144 ≤ q then .fail .invalidInput
      else
        let x := credited s q
        let p := queueQos s q
        let f1 := drawBits 32 s
        let f2 := drawBits 32 f1.2
        let co := if ceilOps p (q % 4) = 0xFFFF then leBytes 4 f1.1.toNat else leBytes 4 (unsignedOf 32 (x.ceil.ops / 1000))
        let cb := if ceilBw p (q % 4) = 0xFFFF then leBytes 4 f2.1.toNat else leBytes 4 (unsignedOf 32 (x.ceil.bytes / 1000))
        answer f2.2 (leBytes 4 x.reqs.length ++ bucketBytes x.conf ++ bucketBytes x.serv ++ co ++ cb ++ leBytes 4 x.deficit ++
          leBytes 8 x.lvl1 ++ leBytes 8 x.lvl2)) s

/-- GET_ADMISSION_TOTALS (C111h, R129). -/
def execGetAdmissionTotals (cci : Fin 10) (inp : List Byte) (s : State) : Res :=
  vendor cci 0xC111 inp 0 []
    (fun s =>
      let lim := (resLimits s).flatMap fun p => leBytes 4 (p.1 / p.2)
      let sums := fun b => (resSums s b).flatMap fun v => leBytes 4 v
      answer s (sums true ++ lim ++ sums false ++ lim)) s

/-- BANK_COPY_DONE (R122): the active bank has been copied into the staged bank. -/
def execBankCopyDone (s : State) : Res :=
  if s.ten.bankCopy then
    let ts := tmap s.ten.tenants fun _ x => { x with qosS := x.qosA }
    .next { s with ten := { s.ten with
      tenants := ts, extS := s.ten.extA, profS := s.ten.profA, epochS := s.ten.epochA, bankCopy := false } }
  else .next s

end Sys2Proof.Machine
end

