-- ==== Sys2Proof/Machine/Hub.lean ====
section
/-!
DEFINITION. The mailbox hub (R36, R37): posting, delivery into inbound queues and completion by the owner.
-/
namespace Sys2Proof.Machine

/-- The record key and record of a setting that a command can change, as that command checks it; none where it refuses. -/
def settingRec (op : Nat) (b : List Byte) (s : State) : Option (Nat × List Byte) :=
  let put := fun (key len : Nat) (r : Option (List Byte)) => if b.length = len then r.map fun d => (key, d) else none
  match op with
  | 0xC030 => put 0x09 2 (headAccessRec b s)
  | 0xC201 => put 0x1B 8 (partitionRec b s)
  | 0xC202 => put 0x19 4 (drainPolicyRec b s)
  | 0xC302 => if s.place.format.isSome then none else put 0x08 4 (overProvisionRec b s)
  | 0xC304 => put 0x11 8 (relocationRec b)
  | 0xC311 => put 0x12 8 (driftPolicyRec b s)
  | 0xC331 => put 0x1A 4 (backPolicyRec b s)
  | 0xC343 => put 0x0E 1 (mirroringRec b s)
  | 0xC361 => put 0x13 4 (dramPolicyRec b s)
  | 0xC402 => put 0x14 8 (fabPolicyRec b)
  | 0xC511 => put 0x15 8 (ringPolicyRec b)
  | 0xC601 => put 0x16 8 (timePolicyRec b)
  | 0xC702 => put 0x17 8 (powerPolicyRec b)
  | 0xC711 => put 0x0A 3264 (programRec b)
  | 0xC721 => put 0x10 16 (holdPolicyRec b)
  | 0xC731 => put 0x18 28 (thermPolicyRec b)
  | _ => none

/-- The owner validates a request and applies it: the state, and whether it was applied (R36). An item of another owner is
refused, and so is a value that the item's command would refuse. -/
def hubApply (r : HubReq) (s : State) : State × Bool :=
  match r.item with
  | .thermalPause l =>
    if r.sender = 4 ∧ r.receiver = 2 ∧ l < 4 then ({ s with therm := { s.therm with applied := l } }, true) else (s, false)
  | .power h l12 =>
    if r.receiver = 1 ∧ h < 4 ∧ (headOf s h).linkUp then (enterL1 h l12 s, true) else (s, false)
  | .setting op b =>
    if ownerOf op ≠ r.receiver then (s, false)
    else
      match settingRec op b s with
      | some (key, d) => (applySetting 2 key d (cellarWrite 5 2 key d none s), true)
      | none => (s, false)
  | .item row v =>
    if row < 21 ∧ rowOwner row = r.receiver then
      ({ s with mgmt := { s.mgmt with items := tput s.mgmt.items row v } }, true)
    else (s, false)

/-- Remove the first element that satisfies a test. -/
def dropFirst {α : Type} (p : α → Bool) : List α → List α
  | [] => []
  | r :: rs => if p r then rs else r :: dropFirst p rs

/-- The inbound queue of a node. -/
def inboundOf (s : State) (n : Nat) : List HubReq := tget s.mgmt.inbound n []

/-- The inbound queue of a node has a free slot (R36); how many slots it has is not stated (log entry 188). -/
def inboundFree (s : State) (n : Nat) : Bool := decide ((inboundOf s n).length ≤ Config.hubSlots n)

/-- The request the hub delivers next: a marked one first, otherwise the oldest, of those whose target has a free slot (R36,
R37). -/
def hubNext (s : State) : Option HubReq :=
  match s.mgmt.hub.find? fun r => r.marked && inboundFree s r.receiver with
  | some r => some r
  | none => s.mgmt.hub.find? fun r => inboundFree s r.receiver

/-- Deliver what the inbound queues can take (R36). -/
def hubDeliver : Nat → State → State
  | 0, s => s
  | n + 1, s =>
    match hubNext s with
    | none => s
    | some r =>
      hubDeliver n { s with mgmt := { s.mgmt with
        hub := dropFirst (· == r) s.mgmt.hub, inbound := tput s.mgmt.inbound r.receiver (inboundOf s r.receiver ++ [r]) } }

/-- The request a node completes next: a marked one before any other (R37). -/
def inboundNext (l : List HubReq) : Option HubReq :=
  match l.find? (·.marked) with
  | some r => some r
  | none => l.head?

/-- A node completes one request of its queue, if it runs and has one: applied or refused, the completion goes back (R36). -/
def hubComplete (n : Nat) (s : State) : State :=
  if !nodeRuns s n then s
  else
    match inboundNext (inboundOf s n) with
    | none => s
    | some r =>
      let s := { s with mgmt := { s.mgmt with
        inbound := tset s.mgmt.inbound n (dropFirst (· == r) (inboundOf s n)) [] } }
      let a := hubApply r s
      { a.1 with mgmt := { a.1.mgmt with hubDone := a.1.mgmt.hubDone ++ [(r.sender, r.receiver, a.2)] } }

/-- HUB_REQUEST_DELIVER (R36, R37): the posted requests join the hub; the hub delivers what the inbound queues take, those marked
thermal or power by the platform supervisor first; and every node that runs completes one request, a marked one first. -/
def execHubRequestDeliver (post : List HubReq) (s : State) : Res :=
  if s.mgmt.running then
    let new := post.map fun r => { r with marked := r.marked && r.sender == 4 }
    let s := { s with mgmt := { s.mgmt with hub := s.mgmt.hub ++ new } }
    let s := hubDeliver s.mgmt.hub.length s
    .next ((List.range 5).foldl (fun s n => hubComplete n s) s)
  else .next s

end Sys2Proof.Machine
end

