-- ==== Sys2Proof/Machine/Standard.lean ====
section
/-!
DEFINITION. The CXL standard commands but for firmware and timestamp (17_management_and_mailbox.md R526 to R529, 02_host_ports.md
R75 to R83, R94 to R98). Their payload layouts are CXL's, so fields come and go as numbers (log entry 5).
-/
namespace Sys2Proof.Machine

/-! ### Identity and background operations -/

/-- IDENTIFY (0001h, R528): vendor, serial number, and the head, FFh over MCTP. -/
def execIdentify (cci : Fin 10) (s : State) : Res :=
  standard cci 0x0001 (fun s => .done (.nums [0x1F9E, s.mgmt.serial, (headOfCci cci).getD 0xFF]) s) s

/-- CXL's number of a return code, for the background status (R525, Table 17-3). -/
def Rc.code : Rc → Nat
  | .success => 0 | .bgStarted => 1 | .invalidInput => 2 | .unsupported => 3 | .internalError => 4 | .busy => 6
  | .mediaDisabled => 7 | .fwInProgress => 8 | .fwOutOfOrder => 9 | .fwVerificationFailed => 10 | .invalidSlot => 11
  | .activationRolledBack => 12 | .activationColdRequired => 13 | .invalidPhysicalAddress => 15 | .aborted => 17
  | .incorrectPassphrase => 20 | .unsupportedMailbox => 21 | .invalidPayloadLength => 22 | .invalidState => 0x8001

/-- BACKGROUND_OPERATION_STATUS (0002h, R527): opcode, percent complete, whether it has ended, and the final return code. The manual
gives no measure of the percentage of an operation that runs: a free value below 100 (log entry 226). -/
def execBackgroundOperationStatus (cci : Fin 10) (s : State) : Res :=
  standard cci 0x0002
    (fun s =>
      match (cciOf s cci).bg with
      | none => .done (.nums [0, 0, 0, 0]) s
      | some b =>
        match b.rc with
        | none =>
          let r : Nat × State := drawNat s
          .done (.nums [b.op, r.1 % 100, 0, 0]) r.2
        | some r => .done (.nums [b.op, b.pct, 1, r.code]) s) s

/-- GET_RESPONSE_MESSAGE_LIMIT (0003h, Table 17-4): the limit in bytes. -/
def execGetResponseMessageLimit (cci : Fin 10) (s : State) : Res :=
  standard cci 0x0003 (fun s => .done (.nums [(cciOf s cci).limit]) s) s

/-- SET_RESPONSE_MESSAGE_LIMIT (0004h, Table 17-4): 2^exponent, from 256 B to 4,096 B. -/
def execSetResponseMessageLimit (cci : Fin 10) (exponent : Nat) (s : State) : Res :=
  standard cci 0x0004
    (fun s =>
      if exponent < 8 ∨ 12 < exponent then .fail .invalidInput
      else .done (.nums [2 ^ exponent]) (setCci cci { cciOf s cci with limit := 2 ^ exponent } s)) s

/-- REQUEST_ABORT_BACKGROUND_OPERATION (0005h, R527). -/
def execRequestAbortBackgroundOperation (cci : Fin 10) (s : State) : Res :=
  standard cci 0x0005
    (fun s =>
      match (cciOf s cci).bg with
      | none => .done .none s
      | some b =>
        if b.rc.isSome then .done .none s
        else
          match abortOp cci b.op s with
          | some s => .done .none s
          | none => .fail .busy) s

/-! ### Event logs (R94 to R98) -/

/-- A log by its number. -/
def logOf (n : Fin 5) : LogId :=
  if n = 0 then .info else if n = 1 then .warning else if n = 2 then .failure else if n = 3 then .fatal else .dynCap

/-- The logs that an interface acts on: its head's, or the device log set over MCTP (R528). -/
def cciLogs (s : State) (c : Nat) : LogSet :=
  match headOfCci c with
  | some h => (headOf s h).logs
  | none => s.mgmt.devLogs

/-- Put back the logs of an interface. -/
def setCciLogs (c : Nat) (l : LogSet) (s : State) : State :=
  match headOfCci c with
  | some h => setHead h { headOf s h with logs := l } s
  | none => { s with mgmt := { s.mgmt with devLogs := l } }

/-- GET_EVENT_RECORDS (0100h, R94, R528): the oldest records that fit, 128 B each after 32 B. -/
def execGetEventRecords (cci : Fin 10) (log : Fin 5) (s : State) : Res :=
  standard cci 0x0100
    (fun s =>
      let l := (cciLogs s cci).get (logOf log)
      let n := (payloadLimit s cci - 32) / 128
      .done (.ents (l.ents.take n) (decide (n < l.ents.length))) s) s

/-- CLEAR_EVENT_RECORDS (0101h, R94): all records, or the oldest ones by their handles in order; the overflow count of the log
starts anew. -/
def execClearEventRecords (cci : Fin 10) (log : Fin 5) (all : Bool) (handles : List Nat) (s : State) : Res :=
  standard cci 0x0101
    (fun s =>
      let ls := cciLogs s cci
      let l := ls.get (logOf log)
      if all then .done .none (setCciLogs cci (ls.put (logOf log) { l with ents := [], overflow := 0 }) s)
      else if handles ≠ (l.ents.take handles.length).map (·.handle) then .fail .invalidInput
      else .done .none (setCciLogs cci (ls.put (logOf log) { l with ents := l.ents.drop handles.length, overflow := 0 }) s)) s

/-- GET_EVENT_INTERRUPT_POLICY (0102h, R98). -/
def execGetEventInterruptPolicy (cci : Fin 10) (s : State) : Res :=
  standard cci 0x0102
    (fun s =>
      match headOfCci cci with
      | some h => .done (.nums (headOf s h).intPolicy) s
      | none => .done (.nums s.mgmt.devPolicy) s) s

/-- SET_EVENT_INTERRUPT_POLICY (0103h, R98): per log, 0 no interrupt or 1 MSI-X. -/
def execSetEventInterruptPolicy (cci : Fin 10) (settings : List Nat) (s : State) : Res :=
  standard cci 0x0103
    (fun s =>
      if settings.length ≠ 5 then .fail .invalidPayloadLength
      else if settings.any fun v => decide (1 < v) then .fail .invalidInput
      else
        match headOfCci cci with
        | some h => .done .none (setHead h { headOf s h with intPolicy := settings } s)
        | none => .done .none { s with mgmt := { s.mgmt with devPolicy := settings } }) s

/-! ### Logs and identity of the memory device -/

/-- UUID of CXL's Command Effects Log. -/
def celUuid : Nat := 0x0DA9C0B5BF414B788F7996B1623B3F17

/-- Commands that an interface supports, whatever its access level. -/
def supportedOps (c : Nat) : List Nat :=
  listedOps.filter fun op => !(mctpOnly op && decide (c < 8)) && !(primaryOnly op && decide (c < 8) && decide (c % 2 = 1))

/-- GET_SUPPORTED_LOGS (0400h, Table 17-4): the Command Effects Log only, with its size at 4 B per command. -/
def execGetSupportedLogs (cci : Fin 10) (s : State) : Res :=
  standard cci 0x0400 (fun s => .done (.nums [1, celUuid, 4 * (supportedOps cci).length]) s) s

/-- GET_LOG (0401h, Table 17-4): opcodes of the Command Effects Log from entry `first` on; any other log is invalid. The effects
words are CXL's and are left out of the output. -/
def execGetLog (cci : Fin 10) (log : Nat) (first count : Nat) (s : State) : Res :=
  standard cci 0x0401
    (fun s =>
      if log ≠ celUuid ∨ (supportedOps cci).length < first + count ∨ payloadLimit s cci < 4 * count then .fail .invalidInput
      else .done (.nums (((supportedOps cci).drop first).take count)) s) s

/-- IDENTIFY_MEMORY_DEVICE (4000h, Table 17-4): total capacity E × 1 GiB in bytes, no volatile-only or persistent-only capacity,
and the grade. -/
def execIdentifyMemoryDevice (cci : Fin 10) (s : State) : Res :=
  standard cci 0x4000 (fun s => .done (.nums [s.map.extents * 2 ^ 30, 0, 0, b2n s.mgmt.gradeFX]) s) s

/-! ### Health, alerts, shutdown state (R205, R206, R293, R509) -/

/-- Health Status (Table 8-9): bit 0 maintenance needed, bit 1 performance degraded, bit 2 hardware replacement needed. -/
def healthStatus (s : State) : Nat :=
  let c := s.place.cap
  b2n (c == .ration || c == .critical || !s.place.degraded.isEmpty) +
    2 * b2n (c == .ration || c == .critical || c == .writeLocked) + 4 * b2n (c == .critical || c == .writeLocked)

/-- Media Status (Table 8-9, R101): 0 normal, 2 write persistency lost, 6 loss imminent, FFh error; the numbers 0, 2 and 6 are
CXL's. -/
def mediaStatus (s : State) : Nat :=
  if s.start.mediaError then 0xFF
  else
    match s.place.cap with
    | .writeLocked => 2
    | .critical => 6
    | _ => 0

/-- Device temperature in whole °C: the DIE zone (R509), 7FFFh while it has none. -/
def deviceTemp (s : State) : Int :=
  match zoneTemp s 0 with
  | some t => t / 16
  | none => 0x7FFF

/-- Additional Status (R293, R509): bit 0 life used at its threshold, bit 2 device temperature beyond one of its thresholds. -/
def additionalStatus (s : State) : Nat :=
  let life := match s.mgmt.alerts.getD 0 none with
    | some t => decide (t ≤ (lifeUsed s : Int))
    | none => false
  let high := match s.mgmt.alerts.getD 1 none with
    | some t => decide (t ≤ deviceTemp s) && (zoneTemp s 0).isSome
    | none => false
  let low := match s.mgmt.alerts.getD 2 none with
    | some t => decide (deviceTemp s ≤ t)
    | none => false
  b2n life + 4 * b2n (high || low)

/-- GET_HEALTH_INFO (4200h, Table 8-9): health, media and additional status, life used in percent, device temperature, the Dirty
Shutdown Count, no volatile errors, and the corrected persistent errors. -/
def execGetHealthInfo (cci : Fin 10) (s : State) : Res :=
  standard cci 0x4200
    (fun s =>
      .done (.nums [healthStatus s, mediaStatus s, additionalStatus s, lifeUsed s, unsignedOf 16 (deviceTemp s), spreadRead s 0,
        0, min 0xFFFFFFFF (healthCount s 1 + healthCount s 2)]) s) s

/-- A threshold as the command leaves it. -/
def newAlert (old : Option Int) : AlertSet → Option Int
  | .keep => old
  | .disable => none
  | .enable v => some v

/-- GET_ALERT_CONFIGURATION (4201h): which thresholds are enabled, then each, 0 while disabled. -/
def execGetAlertConfiguration (cci : Fin 10) (s : State) : Res :=
  standard cci 0x4201
    (fun s =>
      let a := s.mgmt.alerts
      let en := b2n (a.getD 0 none).isSome + 2 * b2n (a.getD 1 none).isSome + 4 * b2n (a.getD 2 none).isSome
      .done (.nums (en :: a.map fun v => unsignedOf 16 (v.getD 0))) s) s

/-- SET_ALERT_CONFIGURATION (4202h, R293, R509): thresholds of life used (0 to 100 percent) and of device temperature. -/
def execSetAlertConfiguration (cci : Fin 10) (life high low : AlertSet) (s : State) : Res :=
  standard cci 0x4202
    (fun s =>
      let a := s.mgmt.alerts
      let bad := match life with
        | .enable v => decide (v < 0) || decide (100 < v)
        | _ => false
      if bad then .fail .invalidInput
      else
        .done .none { s with mgmt := { s.mgmt with
          alerts := [newAlert (a.getD 0 none) life, newAlert (a.getD 1 none) high, newAlert (a.getD 2 none) low] } }) s

/-- GET_SHUTDOWN_STATE (4203h, R206). -/
def execGetShutdownState (cci : Fin 10) (s : State) : Res :=
  standard cci 0x4203 (fun s => .done (.nums [s.mgmt.shutdownState]) s) s

/-- SET_SHUTDOWN_STATE (4204h, R206): kept in the cellar book; the Dirty Shutdown Count does not change. -/
def execSetShutdownState (cci : Fin 10) (dirty : Bool) (s : State) : Res :=
  standard cci 0x4204
    (fun s =>
      storeSetting 0x07 (some (leBytes 4 (b2n dirty))) s) s

/-! ### Poison (R81 to R83) -/

/-- An extent is added to the issuing head, or to any head over MCTP. -/
def addedFor (s : State) (c e : Nat) : Bool :=
  let x := extOf s e
  decide (e < 241664) && x.st == .added && x.accessDev == 0xFFF &&
    (match headOfCci c with
     | some h => x.head == h
     | none => true)

/-- A front line is poisoned: its line is, or its map entry names it and no whole line replaces it (R81, R82). -/
def linePoisoned (s : State) (key : Nat) : Bool :=
  let m := match mapEntry s (key / 16) with
    | some e => e.poison.getLsbD (key % 16)
    | none => false
  match findLine s key with
  | some i => (lineAt s i).poison || (m && (lineAt s i).valid != BitVec.allOnes 256)
  | none => m

/-- Front lines of a range that may be poisoned, ascending: those of listed entries with poison, and poisoned lines present. -/
def poisonKeys (s : State) (first last : Nat) : List Nat :=
  let ents := (s.map.copyA.ents.map (·.1)) ++ (s.map.copyB.ents.map (·.1))
  let a := (ents.filter fun l => decide (first / 16 ≤ l) && decide (l ≤ last / 16)).flatMap fun l =>
    (List.range 16).map fun i => 16 * l + i
  let b := s.front.lines.filterMap fun p => if p.2.st != .invalid && p.2.poison then some (keyOfLine p.1 p.2) else none
  let ks := (a ++ b).filter fun k => decide (first ≤ k) && decide (k ≤ last) && linePoisoned s k
  ks.foldl (fun l k => insertAsc k l) []

/-- CXL's number of a poison source. -/
def PoisonSrc.code : PoisonSrc → Nat
  | .external => 1 | .internal => 2 | .injected => 3

/-- GET_POISON_LIST (4300h, R82): more records flag, then a DPA, its length of 4 and its source for each of up to 256 lines. -/
def execGetPoisonList (cci : Fin 10) (dpa len : Nat) (s : State) : Res :=
  standard cci 0x4300
    (fun s =>
      if addedFor s cci (extentOf dpa) = false then .fail .invalidPhysicalAddress
      else if len = 0 then .done (.nums [0]) s
      else
        let ks := (poisonKeys s (dpa / 256) ((dpa + len - 1) / 256)).filter fun k => addedFor s cci (extentOf (256 * k))
        .done (.nums (b2n (decide (256 < ks.length)) :: (ks.take 256).flatMap fun k =>
          [256 * k, 4, (tget s.front.poisonSrcs k .internal).code])) s) s

/-- The allocation mask of a write of an extent's own profile. -/
def extentPart (s : State) (dpa : Nat) : Nat := partOf .wr (profOf s.ten.profA (extOf s (extentOf dpa)).prof)

/-- The front line of a DPA that a poison command may make dirty (R181): the present line, or one that is allocated, within the dirty
budget (R161); no line is allocated in Off and Draining, and where the victim search finds no victim at once. -/
def poisonLineFor (dpa : Nat) (s : State) : Option Nat × State :=
  if (s.front.mode = .off ∨ s.front.mode = .draining) ∧ (findLine s (dpa / 256)).isNone then (none, s)
  else lineFor (dpa / 256) (extOf s (extentOf dpa)).tenant (extentPart s dpa) 0 s

/-- A line that a poison command made dirty: outside write-back its frame is cleaned at once (Table 4-7). -/
def poisonDirty (lfa : Nat) (s : State) : State :=
  let s := noteDirty lfa s
  if s.front.mode = .writeBack then s else markUrgent lfa s

/-- A present line takes the bytes that Clear Poison merges into its frame without making the line dirty. -/
def refreshLine (key : Nat) (data : FrontLine) (s : State) : State :=
  match findLine s key with
  | some i => putLine i { lineAt s i with data := data, valid := BitVec.allOnes 256, poison := false } s
  | none => s

/-- Mark a front line poisoned with source Injected (R83, R181). A present line takes POISON, and one that holds no dirty data has its
map bit set as well (log entry 222); an absent line is allocated Dirty with VALID 0; without a line the map bit is set. -/
def injectOne (s : State) (dpa : Nat) : State :=
  let key := dpa / 256
  let s := notePoison key .injected s
  let inMap := commit (.mapPoison (key / 16) (1#16 <<< (key % 16)))
  match findLine s key with
  | some i =>
    let l := lineAt s i
    let s := putLine i { l with poison := true } s
    if countsDirty l then s else inMap s
  | none =>
    let v := poisonLineFor dpa s
    match v.1 with
    | some i => poisonDirty (key / 16) (putLine i { lineAt v.2 i with st := .dirty, poison := true } v.2)
    | none => inMap v.2

/-- INJECT_POISON (4301h, R83): up to 64 lines per call; lines that another device owns are not this device's to mark. -/
def execInjectPoison (cci : Fin 10) (dpas : List Nat) (s : State) : Res :=
  standard cci 0x4301
    (fun s =>
      if 64 < dpas.length then .fail .invalidInput
      else if (dpas.all fun d => addedFor s cci (extentOf d)) = false then .fail .invalidPhysicalAddress
      else if dpas.any fun d => (extOf s (extentOf d)).ownerDev != 0xFFF then .fail .invalidState
      else journaled s (.done .none (dpas.foldl injectOne s))) s

/-- CLEAR_POISON (4302h, R83, R181): a write of the payload's host line and of zeros for the rest of the front line, which clears its
poison; without a line it is merged into its frame, and the command completes after that commit. -/
def execClearPoison (cci : Fin 10) (dpa : Nat) (data : HostLine) (s : State) : Res :=
  standard cci 0x4302
    (fun s =>
      let x := extOf s (extentOf dpa)
      let key := dpa / 256
      let line := placeHostLine data (hostLineIn dpa)
      if addedFor s cci (extentOf dpa) = false then .fail .invalidPhysicalAddress
      else if x.ownerDev ≠ 0xFFF ∨ (tenantKey s x.tenant).isNone ∨ s.place.cap = .writeLocked then .fail .invalidState
      else
        let v := poisonLineFor dpa s
        match v.1 with
        | none =>
          .wait .none (mergeWrite key x.tenant line (BitVec.allOnes 256) none none [] [(cci, 0x4302)] (refreshLine key line v.2))
        | some i =>
          .done .none (poisonDirty (key / 16) (notePoison key .internal (storeBytes i line (BitVec.allOnes 256) 0xF none v.2)))) s

/-! ### Sanitize (R529) -/

/-- A reason for which Sanitize answers Invalid State (R529). -/
def sanitizeBarred (s : State) : Bool :=
  (s.ten.extA.any fun p => p.2.st == .pending || p.2.st == .added || p.2.st == .releasing || p.2.st == .erasing) ||
    !s.ten.erasing.isEmpty || (s.ten.extA.any fun p => p.2.crosses) || s.ten.extS.any fun p => p.2.crosses

/-- Step 1 of R529 for one extent: Unassigned in both banks, naming no tenant. -/
def unassignOne (s : State) (e : Nat) : State :=
  journalExt e (setExt e true true { ExtentEnt.fresh e with st := .unassigned } s)

/-- Step 2 of R529 for one tenant: its slot is zeroised, and an Active tenant becomes Free with the next KEY_GEN. -/
def sanitizeTenant (s : State) (t : Nat) : State :=
  let x := tenantOf s t
  let s := match x.slot with
    | some k => setSlot k .empty s
    | none => s
  if x.st = .active then
    journalTenant t (setTenant t { x with st := .free, slot := none, keyGen := (x.keyGen + 1) % 65536 } s)
  else s

/-- SANITIZE (4400h, R529): in the background. -/
def execSanitize (cci : Fin 10) (s : State) : Res :=
  mailbox cci 0x4400 true true true
    (fun s =>
      if sanitizeBarred s then .fail .invalidState
      else if s.place.format.isSome ∨ s.mgmt.sanitize.isSome then .fail .busy
      else
        let s0 := s
        journaled s0
          (let es := (s.ten.extA.filter fun p => p.2.st == .assigned).map (·.1)
           let s := es.foldl unassignOne s
           let s := (s.ten.tenants.map (·.1)).foldl sanitizeTenant s
           let s := discardEntries (fun _ => true) s
           let s := cellarCommitNow 2 0x24 [] { s with persist := { s.persist with imageList := [] } }
           let pe := s.map.pendingE
           let s := formatMedia { s with map := { s.map with pendingE := 0 } }
           .background (checkSanitize { s with map := { s.map with pendingE := pe },
                                               mgmt := { s.mgmt with sanitize := some cci.val } }))) s

/-! ### Dynamic capacity (R75 to R80, R114) -/

/-- A command that acts on the issuing head's extents; over MCTP there is none. -/
def onHead (c : Nat) (f : Nat → Reply) : Reply :=
  match headOfCci c with
  | some h => f h
  | none => .fail .unsupportedMailbox

/-- Extents added to a head, ascending (R80). -/
def headExtents (s : State) (h : Nat) : List Nat :=
  (s.ten.extA.filter fun p => p.2.st == .added && p.2.accessDev == 0xFFF && p.2.head == h).map (·.1)

/-- Bases and lengths of a head's regions, in GiB (R75). -/
def regionNums (s : State) (h : Nat) : List Nat := (headOf s h).regions.flatMap fun r => [r.1, r.2]

/-- Up to 256 of a head's extents from the one at a place on, with their number and the generation (R80). -/
def extentListNums (s : State) (h start count : Nat) : List Nat :=
  let es := headExtents s h
  [es.length, (headOf s h).extGen] ++ (es.drop start).take (min count 256)

/-- GET_DYNAMIC_CAPACITY_CONFIGURATION (4800h): the number of regions, then each base and length in GiB. -/
def execGetDynamicCapacityConfiguration (cci : Fin 10) (s : State) : Res :=
  standard cci 0x4800 (fun s => onHead cci fun h => .done (.nums (8 :: regionNums s h)) s) s

/-- GET_DYNAMIC_CAPACITY_EXTENT_LIST (4801h, R80). -/
def execGetDynamicCapacityExtentList (cci : Fin 10) (start count : Nat) (s : State) : Res :=
  standard cci 0x4801 (fun s => onHead cci fun h => .done (.nums (extentListNums s h start count)) s) s

/-- ADD_DYNAMIC_CAPACITY_RESPONSE (4802h, R76): the host accepts a pending add of an extent, or rejects it. -/
def execAddDynamicCapacityResponse (cci : Fin 10) (extent : Nat) (accept : Bool) (s : State) : Res :=
  standard cci 0x4802
    (fun s => onHead cci fun h =>
      let x := extOf s extent
      if 241664 ≤ extent ∨ x.st ≠ .pending ∨ x.head ≠ h then .fail .invalidInput
      else
        journaled s
          (.done .none (if accept then bumpGen h (moveExt extent .added s) else moveExt extent .assigned s))) s

/-- RELEASE_DYNAMIC_CAPACITY (4803h, R78): complete once no earlier transaction of the extent is in flight. -/
def execReleaseDynamicCapacity (cci : Fin 10) (extent : Nat) (s : State) : Res :=
  standard cci 0x4803
    (fun s => onHead cci fun h =>
      if !(headExtents s h).contains extent then .fail .invalidInput
      else
        journaled s
          (let t := dcRecord h 5 extent (extOf s extent).tenant (releaseExt extent s)
           if t.ten.reqs.any fun p => extentOf p.2.addr == extent then
             .wait .none { t with ten := { t.ten with releaseWait := t.ten.releaseWait ++ [(extent, cci.val)] } }
           else if (extOf t extent).ownerDev ≠ 0xFFF then .done .none (moveExt extent .assigned t)
           else .done .none t)) s

/-- GET_MULTI_HEADED_INFO (FM API, R528): the number of heads and which are present (R58). -/
def execGetMultiHeadedInfo (cci : Fin 10) (s : State) : Res :=
  standard cci 0x5500 (fun s => .done (.nums (4 :: (List.range 4).map fun h => b2n (headOf s h).present)) s) s

/-- GET_DCD_INFO (FM API, R528): hosts, regions per host, capacity in GiB and the block size of 1 GiB. -/
def execGetDcdInfo (cci : Fin 10) (s : State) : Res :=
  standard cci 0x5600
    (fun s => .done (.nums [((List.range 4).filter fun h => (headOf s h).present).length, 8, s.map.extents, 1]) s) s

/-- GET_HOST_DC_REGION_CONFIGURATION (FM API, R75, R528). -/
def execGetHostDcRegionConfiguration (cci : Fin 10) (head : Nat) (s : State) : Res :=
  standard cci 0x5601
    (fun s => if 3 < head ∨ !(headOf s head).present then .fail .invalidInput else .done (.nums (8 :: regionNums s head)) s) s

/-- A region of a head holds an added extent (R75). -/
def regionHolds (s : State) (h region : Nat) : Bool :=
  let r := (headOf s h).regions.getD region (0, 0)
  (headExtents s h).any fun e => decide (r.1 ≤ e) && decide (e < r.1 + r.2)

/-- SET_DC_REGION_CONFIGURATION (FM API, R75): base and length in bytes, multiples of 1 GiB within the local address space, and
only while the region holds no added extent. -/
def execSetDcRegionConfiguration (cci : Fin 10) (head region base len : Nat) (s : State) : Res :=
  standard cci 0x5602
    (fun s =>
      if 3 < head ∨ !(headOf s head).present ∨ 7 < region ∨ base % 2 ^ 30 ≠ 0 ∨ len % 2 ^ 30 ≠ 0 ∨ 2 ^ 48 < base + len then
        .fail .invalidInput
      else if regionHolds s head region then .fail .invalidState
      else
        let x := headOf s head
        .done .none (setHead head { x with regions := x.regions.set region (base / 2 ^ 30, len / 2 ^ 30) } s)) s

/-- GET_DC_REGION_EXTENT_LISTS (FM API, R528). -/
def execGetDcRegionExtentLists (cci : Fin 10) (head start count : Nat) (s : State) : Res :=
  standard cci 0x5603
    (fun s =>
      if 3 < head ∨ !(headOf s head).present then .fail .invalidInput
      else .done (.nums (extentListNums s head start count)) s) s

/-- An extent lies in a region of a head (R75). -/
def inRegion (s : State) (h e : Nat) : Bool :=
  (headOf s h).regions.any fun r => decide (r.1 ≤ e) && decide (e < r.1 + r.2)

/-- INITIATE_DYNAMIC_CAPACITY_ADD (FM API, R76, R114): an Assigned extent of an Active tenant. -/
def execInitiateDynamicCapacityAdd (cci : Fin 10) (head extent : Nat) (s : State) : Res :=
  standard cci 0x5604
    (fun s =>
      let x := extOf s extent
      if 3 < head ∨ !(headOf s head).present ∨ 241664 ≤ extent ∨ x.st ≠ .assigned ∨ (tenantOf s x.tenant).st ≠ .active ∨
          x.accessDev ≠ 0xFFF ∨ inRegion s head extent = false then .fail .invalidInput
      else if s.ten.withheld.contains extent then .fail .invalidState
      else journaled s (.done .none (initiateAdd extent head s))) s

/-- INITIATE_DYNAMIC_CAPACITY_RELEASE (FM API, R76, Table 3-3): asks the host to release an added extent, or withdraws a pending
add. -/
def execInitiateDynamicCapacityRelease (cci : Fin 10) (head extent : Nat) (s : State) : Res :=
  standard cci 0x5605
    (fun s =>
      let x := extOf s extent
      if 241664 ≤ extent ∨ x.head ≠ head ∨ x.accessDev ≠ 0xFFF then .fail .invalidInput
      else
        match x.st with
        | .added => .done .none (dcRecord head 1 extent x.tenant s)
        | .pending => journaled s (.done .none (moveExt extent .assigned s))
        | _ => .fail .invalidInput) s

/-! ### Unlisted opcodes -/

/-- UNSUPPORTED_COMMAND (R26): an opcode of no table has no effect. -/
def execUnsupportedCommand (cci : Fin 10) (op : Nat) (s : State) : Res :=
  if listedOps.contains op then .next s else standard cci op (fun _ => .fail .unsupported) s

end Sys2Proof.Machine
end

