-- ==== Sys2Proof/Machine/Startup.lean ====
section
/-!
DEFINITION. The phases of a start that supervisors run (20_startup_reset_and_errors.md R578 to R583): policies from the cellar
book, the shutdown class, the first hold-up measurement and the enabling of the front cache.
-/
namespace Sys2Proof.Machine

/-- Use a record of region 2, if the key has a value. -/
def withRec (key : Nat) (f : List Byte → State → State) (s : State) : State :=
  match cellarRead s 2 key with
  | some b => f b s
  | none => s

/-- The policies that the supervisors load in phase 6 (R578, Table 18-5); the always-on domain has loaded its own. -/
def loadPolicies (s : State) : State :=
  [0x10, 0x11, 0x12, 0x13, 0x14, 0x15, 0x19, 0x1A, 0x1B].foldl (fun s k => withRec k (loadSetting k) s) s

/-- The newest run record of a drain goes to DRAIN_LAST, and its image to IMAGE_LIST when it holds a frame (R194). A record that
DRAIN_LAST holds already has been acted on by an earlier start. -/
def keepDrain (r : RunRec) (s : State) : State :=
  if (r.kind = 3 ∨ r.kind = 4) ∧ s.persist.drainLast ≠ some r then
    let s := cellarCommitNow 2 0x23 (runBytes r) { s with persist := { s.persist with drainLast := some r } }
    if 0 < r.tail + r.dump then writeImageList (s.persist.imageList ++ [r]) s else s
  else s

/-- The shutdown class and the count of an unsafe shutdown (R580). -/
def shutdownClass (s : State) : State :=
  match s.persist.run with
  | none => s
  | some r =>
    let s := keepDrain r s
    if r.kind = 2 ∧ bits r.triggers 7 1 = 1 then
      let s := { s with persist := { s.persist with counted := true } }
      if dirtyCount s < r.rounds then spreadAdd 0 1 s else s
    else if r.kind = 1 ∨ r.kind = 4 then countUnsafe s
    else s

/-- A bypassed ring port whose conditions all hold (R428). -/
def ringWaits (s : State) : Bool :=
  s.epoch.ring.mode == .bypassed && s.epoch.ring.lock && s.epoch.ring.selfTest && s.epoch.policy.ringEn

/-- SHUTDOWN_CLASS_DECIDE (R580, R578 phase 6): the policies load, the newest run record decides, and the units that wait for
phase 6 begin: the fabric ports that PORT_EN enables and an election on a ring whose conditions hold (R428). -/
def execShutdownClassDecide (s : State) : Res :=
  if !s.start.phases.contains 5 ∨ s.start.phases.contains 6 ∨ s.mgmt.recovery ∨ !s.mgmt.running then .next s
  else
    let s := markPhase 6 (shutdownClass (loadPolicies s))
    .next (applyPortEn (if ringWaits s then startElection s else s))

/-- HOLDUP_BANK_CHARGED (R581, R578 phase 13): HOLD_SENSE has changed by less than 0.5% over 1 s; the first measurement
starts. -/
def execHoldupBankCharged (s : State) : Res :=
  if s.start.phases.contains 6 && !s.start.phases.contains 13 && mayMeasure s then .next (startMeasure none s) else .next s

/-- The state that a start gives the epoch machine (Table 13-6): its active slice matches its manifest entry, or it is Divergent.
At epoch 0, after formatting, there is no manifest and the device is Settled. -/
def startEpochCheck (s : State) : State :=
  if s.epoch.st = .lagging ∨ s.epoch.st = .divergent then s
  else if s.ten.epochA = 0 ∨ manSlice s s.epoch.manA s.fabric.devId = sliceDigest s true then
    setEpState (if s.epoch.arm.isSome then .armed else .settled) s
  else diverge s

/-- Phase 14: Invalidate All, then Enable Front Cache, then the work that waits for the journal (R175, R295). -/
def frontPhase (s : State) : State :=
  let s := dropLines (fun _ => true) s
  let s := enableFront { s with front := { s.front with invAllDone := true } }
  markPhase 14 (startEpochCheck (commitFaults s))

/-- START_FRONT_ENABLE (R175, R578 phase 14): after phases 11, 12 and 13. -/
def execStartFrontEnable (s : State) : Res :=
  let p := s.start.phases
  if !p.contains 11 ∨ !p.contains 12 ∨ !p.contains 13 ∨ p.contains 14 ∨ s.start.held ∨ s.front.mode ≠ .off ∨ journalFull s then
    .next s
  else .next (frontPhase s)

/-- FRONT_ENABLE_TIMEOUT (R581): 10 s after phase 12 without a measurement; the dirty budget is 0, so that the front cache is in
write-through. -/
def execFrontEnableTimeout (s : State) : Res :=
  let p := s.start.phases
  match s.start.phase12 with
  | some t =>
    if !p.contains 11 ∨ !p.contains 12 ∨ p.contains 13 ∨ p.contains 14 ∨ s.start.held ∨ s.front.mode ≠ .off ∨ journalFull s ∨
        s.time.mono < t + 10000000000 then .next s
    else .next (frontPhase { s with front := { s.front with budget := 0 } })
  | none => .next s

end Sys2Proof.Machine
end

