-- ==== Sys2Proof/Machine/Dispatch.lean ====
section
/-!
DEFINITION. One arm per command: the meaning it calls.
-/
namespace Sys2Proof.Machine

/-- What a command does to the state. -/
def exec (i : Instr) (s : State) : Host.Outcome State Fault Refusal :=
  match i with
  | .memRd head addr tag err => Sys2Proof.Machine.execMemRd head addr tag err s
  | .memRdData head addr tag err => Sys2Proof.Machine.execMemRdData head addr tag err s
  | .memSpecRd head addr err => Sys2Proof.Machine.execMemSpecRd head addr err s
  | .memWr head addr tag data poison err => Sys2Proof.Machine.execMemWr head addr tag data poison err s
  | .memWrPtl head addr tag data be poison err => Sys2Proof.Machine.execMemWrPtl head addr tag data be poison err s
  | .unsupportedM2sOpcode head opcode tag expectsData => Sys2Proof.Machine.execUnsupportedM2sOpcode head opcode tag expectsData s
  | .arbiterDispatchSlot err => Sys2Proof.Machine.execArbiterDispatchSlot err s
  | .writeStallRelease => Sys2Proof.Machine.execWriteStallRelease s
  | .hostViralSignal head => Sys2Proof.Machine.execHostViralSignal head s
  | .perstNAssert head => Sys2Proof.Machine.execPerstNAssert head s
  | .perstNRelease head => Sys2Proof.Machine.execPerstNRelease head s
  | .hotReset head => Sys2Proof.Machine.execHotReset head s
  | .linkDown head => Sys2Proof.Machine.execLinkDown head s
  | .linkUp head rate width flit => Sys2Proof.Machine.execLinkUp head rate width flit s
  | .cxlReset head => Sys2Proof.Machine.execCxlReset head s
  | .functionLevelReset head => Sys2Proof.Machine.execFunctionLevelReset head s
  | .gpfPhase1 head => Sys2Proof.Machine.execGpfPhase1 head s
  | .gpfPhase2 head => Sys2Proof.Machine.execGpfPhase2 head s
  | .ideIntegrityFailure head => Sys2Proof.Machine.execIdeIntegrityFailure head s
  | .ideStart head => Sys2Proof.Machine.execIdeStart head s
  | .cxlIdeKm head io key => Sys2Proof.Machine.execCxlIdeKm head io key s
  | .bar2BadAccess head off => Sys2Proof.Machine.execBar2BadAccess head off s
  | .registerWrite head reg => Sys2Proof.Machine.execRegisterWrite head reg s
  | .memoryActiveSet head => Sys2Proof.Machine.execMemoryActiveSet head s
  | .identify cci => Sys2Proof.Machine.execIdentify cci s
  | .backgroundOperationStatus cci => Sys2Proof.Machine.execBackgroundOperationStatus cci s
  | .getResponseMessageLimit cci => Sys2Proof.Machine.execGetResponseMessageLimit cci s
  | .setResponseMessageLimit cci exponent => Sys2Proof.Machine.execSetResponseMessageLimit cci exponent s
  | .requestAbortBackgroundOperation cci => Sys2Proof.Machine.execRequestAbortBackgroundOperation cci s
  | .getEventRecords cci log => Sys2Proof.Machine.execGetEventRecords cci log s
  | .clearEventRecords cci log all handles => Sys2Proof.Machine.execClearEventRecords cci log all handles s
  | .getEventInterruptPolicy cci => Sys2Proof.Machine.execGetEventInterruptPolicy cci s
  | .setEventInterruptPolicy cci settings => Sys2Proof.Machine.execSetEventInterruptPolicy cci settings s
  | .getFwInfo cci => Sys2Proof.Machine.execGetFwInfo cci s
  | .transferFwFull cci slot data => Sys2Proof.Machine.execTransferFwFull cci slot data s
  | .transferFwInitiate cci slot data => Sys2Proof.Machine.execTransferFwInitiate cci slot data s
  | .transferFwContinue cci off data => Sys2Proof.Machine.execTransferFwContinue cci off data s
  | .transferFwEnd cci off data => Sys2Proof.Machine.execTransferFwEnd cci off data s
  | .transferFwAbort cci => Sys2Proof.Machine.execTransferFwAbort cci s
  | .fwTransferIdleTimeout => Sys2Proof.Machine.execFwTransferIdleTimeout s
  | .activateFwCold cci slot => Sys2Proof.Machine.execActivateFwCold cci slot s
  | .activateFwOnline cci slot => Sys2Proof.Machine.execActivateFwOnline cci slot s
  | .onlineActivationWatchdogFail => Sys2Proof.Machine.execOnlineActivationWatchdogFail s
  | .getTimestamp cci => Sys2Proof.Machine.execGetTimestamp cci s
  | .setTimestamp cci time => Sys2Proof.Machine.execSetTimestamp cci time s
  | .getSupportedLogs cci => Sys2Proof.Machine.execGetSupportedLogs cci s
  | .getLog cci log first count => Sys2Proof.Machine.execGetLog cci log first count s
  | .identifyMemoryDevice cci => Sys2Proof.Machine.execIdentifyMemoryDevice cci s
  | .getHealthInfo cci => Sys2Proof.Machine.execGetHealthInfo cci s
  | .getAlertConfiguration cci => Sys2Proof.Machine.execGetAlertConfiguration cci s
  | .setAlertConfiguration cci life high low => Sys2Proof.Machine.execSetAlertConfiguration cci life high low s
  | .getShutdownState cci => Sys2Proof.Machine.execGetShutdownState cci s
  | .setShutdownState cci dirty => Sys2Proof.Machine.execSetShutdownState cci dirty s
  | .getPoisonList cci dpa len => Sys2Proof.Machine.execGetPoisonList cci dpa len s
  | .injectPoison cci dpas => Sys2Proof.Machine.execInjectPoison cci dpas s
  | .clearPoison cci dpa data => Sys2Proof.Machine.execClearPoison cci dpa data s
  | .sanitize cci => Sys2Proof.Machine.execSanitize cci s
  | .getDynamicCapacityConfiguration cci => Sys2Proof.Machine.execGetDynamicCapacityConfiguration cci s
  | .getDynamicCapacityExtentList cci start count => Sys2Proof.Machine.execGetDynamicCapacityExtentList cci start count s
  | .addDynamicCapacityResponse cci extent accept => Sys2Proof.Machine.execAddDynamicCapacityResponse cci extent accept s
  | .releaseDynamicCapacity cci extent => Sys2Proof.Machine.execReleaseDynamicCapacity cci extent s
  | .getMultiHeadedInfo cci => Sys2Proof.Machine.execGetMultiHeadedInfo cci s
  | .getDcdInfo cci => Sys2Proof.Machine.execGetDcdInfo cci s
  | .getHostDcRegionConfiguration cci head => Sys2Proof.Machine.execGetHostDcRegionConfiguration cci head s
  | .setDcRegionConfiguration cci head region base len => Sys2Proof.Machine.execSetDcRegionConfiguration cci head region base len s
  | .getDcRegionExtentLists cci head start count => Sys2Proof.Machine.execGetDcRegionExtentLists cci head start count s
  | .initiateDynamicCapacityAdd cci head extent => Sys2Proof.Machine.execInitiateDynamicCapacityAdd cci head extent s
  | .initiateDynamicCapacityRelease cci head extent => Sys2Proof.Machine.execInitiateDynamicCapacityRelease cci head extent s
  | .unsupportedCommand cci op => Sys2Proof.Machine.execUnsupportedCommand cci op s
  | .getExtentEntry cci inp => Sys2Proof.Machine.execGetExtentEntry cci inp s
  | .assignExtent cci inp => Sys2Proof.Machine.execAssignExtent cci inp s
  | .unassignExtent cci inp => Sys2Proof.Machine.execUnassignExtent cci inp s
  | .createTenant cci inp => Sys2Proof.Machine.execCreateTenant cci inp s
  | .deleteTenant cci inp => Sys2Proof.Machine.execDeleteTenant cci inp s
  | .setTenantProfile cci inp => Sys2Proof.Machine.execSetTenantProfile cci inp s
  | .getTenant cci inp => Sys2Proof.Machine.execGetTenant cci inp s
  | .getKeyWrappingPublicKey cci inp => Sys2Proof.Machine.execGetKeyWrappingPublicKey cci inp s
  | .loadTenantKey cci inp => Sys2Proof.Machine.execLoadTenantKey cci inp s
  | .unloadTenantKey cci inp => Sys2Proof.Machine.execUnloadTenantKey cci inp s
  | .cryptoEraseTenant cci inp => Sys2Proof.Machine.execCryptoEraseTenant cci inp s
  | .cryptoEraseSweepDone tenant => Sys2Proof.Machine.execCryptoEraseSweepDone tenant s
  | .releaseTrimDone extent => Sys2Proof.Machine.execReleaseTrimDone extent s
  | .setHeadAccess cci inp => Sys2Proof.Machine.execSetHeadAccess cci inp s
  | .getHeadAccess cci inp => Sys2Proof.Machine.execGetHeadAccess cci inp s
  | .setClassProfile cci inp => Sys2Proof.Machine.execSetClassProfile cci inp s
  | .getClassProfile cci inp => Sys2Proof.Machine.execGetClassProfile cci inp s
  | .getFlowQueueState cci inp => Sys2Proof.Machine.execGetFlowQueueState cci inp s
  | .getAdmissionTotals cci inp => Sys2Proof.Machine.execGetAdmissionTotals cci inp s
  | .bankCopyDone => Sys2Proof.Machine.execBankCopyDone s
  | .getFrontCacheState cci inp => Sys2Proof.Machine.execGetFrontCacheState cci inp s
  | .setFrontCachePartition cci inp => Sys2Proof.Machine.execSetFrontCachePartition cci inp s
  | .setDrainPolicy cci inp => Sys2Proof.Machine.execSetDrainPolicy cci inp s
  | .cleanRange cci inp => Sys2Proof.Machine.execCleanRange cci inp s
  | .invalidateRange cci inp => Sys2Proof.Machine.execInvalidateRange cci inp s
  | .cleanAndInvalidateRange cci inp => Sys2Proof.Machine.execCleanAndInvalidateRange cci inp s
  | .invalidateAll cci inp => Sys2Proof.Machine.execInvalidateAll cci inp s
  | .maintenanceWalkDone n => Sys2Proof.Machine.execMaintenanceWalkDone n s
  | .disableFrontCache cci inp => Sys2Proof.Machine.execDisableFrontCache cci inp s
  | .enableFrontCache cci inp => Sys2Proof.Machine.execEnableFrontCache cci inp s
  | .getMaintenanceResults cci inp => Sys2Proof.Machine.execGetMaintenanceResults cci inp s
  | .drainingComplete => Sys2Proof.Machine.execDrainingComplete s
  | .frontScrubPass err => Sys2Proof.Machine.execFrontScrubPass err s
  | .drainEngineSelect parity again => Sys2Proof.Machine.execDrainEngineSelect parity again s
  | .mergeReadDone asm parity again => Sys2Proof.Machine.execMergeReadDone asm parity again s
  | .frameProgramDone asm => Sys2Proof.Machine.execFrameProgramDone asm s
  | .frameProgramFail asm => Sys2Proof.Machine.execFrameProgramFail asm s
  | .pwrFailNAssert => Sys2Proof.Machine.execPwrFailNAssert s
  | .supplyMonitorTrip sample => Sys2Proof.Machine.execSupplyMonitorTrip sample s
  | .drainComplete vEnd => Sys2Proof.Machine.execDrainComplete vEnd s
  | .bankAtVCutoff => Sys2Proof.Machine.execBankAtVCutoff s
  | .stagingProgram => Sys2Proof.Machine.execStagingProgram s
  | .holdupMeasureSchedule => Sys2Proof.Machine.execHoldupMeasureSchedule s
  | .holdupLullWaitExpiry => Sys2Proof.Machine.execHoldupLullWaitExpiry s
  | .holdTestAssert v0 => Sys2Proof.Machine.execHoldTestAssert v0 s
  | .holdTestEnd samples => Sys2Proof.Machine.execHoldTestEnd samples s
  | .holdupRecoveryDone => Sys2Proof.Machine.execHoldupRecoveryDone s
  | .holdupRetry => Sys2Proof.Machine.execHoldupRetry s
  | .energyRecompute v => Sys2Proof.Machine.execEnergyRecompute v s
  | .getHoldUpStatus cci inp => Sys2Proof.Machine.execGetHoldUpStatus cci inp s
  | .setHoldUpParameters cci inp => Sys2Proof.Machine.execSetHoldUpParameters cci inp s
  | .measureHoldUp cci inp => Sys2Proof.Machine.execMeasureHoldUp cci inp s
  | .getDrainRecord cci inp => Sys2Proof.Machine.execGetDrainRecord cci inp s
  | .mapEntryReadDone line err => Sys2Proof.Machine.execMapEntryReadDone line err s
  | .backCacheReadDone rd err => Sys2Proof.Machine.execBackCacheReadDone rd err s
  | .codewordDecodeDone rd pos good up dn => Sys2Proof.Machine.execCodewordDecodeDone rd pos good up dn s
  | .slowPathSoftReadDone rd pos good => Sys2Proof.Machine.execSlowPathSoftReadDone rd pos good s
  | .fillComplete line parity => Sys2Proof.Machine.execFillComplete line parity s
  | .promotionReadDone lfa => Sys2Proof.Machine.execPromotionReadDone lfa s
  | .backCacheEvict => Sys2Proof.Machine.execBackCacheEvict s
  | .quarantineExpiry slot => Sys2Proof.Machine.execQuarantineExpiry slot s
  | .getReadPathState cci inp => Sys2Proof.Machine.execGetReadPathState cci inp s
  | .setBackCachePolicy cci inp => Sys2Proof.Machine.execSetBackCachePolicy cci inp s
  | .checkpointPassStart => Sys2Proof.Machine.execCheckpointPassStart s
  | .checkpointPassEnd => Sys2Proof.Machine.execCheckpointPassEnd s
  | .mapRecovery f => Sys2Proof.Machine.execMapRecovery f s
  | .mapRebuildStart => Sys2Proof.Machine.execMapRebuildStart s
  | .mapRebuildDone badMap bad => Sys2Proof.Machine.execMapRebuildDone badMap bad s
  | .frameMetadataScan bad => Sys2Proof.Machine.execFrameMetadataScan bad s
  | .getMapEntry cci inp => Sys2Proof.Machine.execGetMapEntry cci inp s
  | .getJournalState cci inp => Sys2Proof.Machine.execGetJournalState cci inp s
  | .startCheckpoint cci inp => Sys2Proof.Machine.execStartCheckpoint cci inp s
  | .setMapMirroring cci inp => Sys2Proof.Machine.execSetMapMirroring cci inp s
  | .getRebuildState cci inp => Sys2Proof.Machine.execGetRebuildState cci inp s
  | .readyQueueRefill ds => Sys2Proof.Machine.execReadyQueueRefill ds s
  | .busySlotFree ds => Sys2Proof.Machine.execBusySlotFree ds s
  | .programStatusPoll die valid blank => Sys2Proof.Machine.execProgramStatusPoll die valid blank s
  | .programOverrun die => Sys2Proof.Machine.execProgramOverrun die s
  | .rackingStart ds => Sys2Proof.Machine.execRackingStart ds s
  | .rackingCopyDone asm => Sys2Proof.Machine.execRackingCopyDone asm s
  | .tileResetStart g => Sys2Proof.Machine.execTileResetStart g s
  | .tileResetDone ds => Sys2Proof.Machine.execTileResetDone ds s
  | .wearLevelRacking => Sys2Proof.Machine.execWearLevelRacking s
  | .recoveryRead lfa => Sys2Proof.Machine.execRecoveryRead lfa s
  | .criticalWithhold => Sys2Proof.Machine.execCriticalWithhold s
  | .writeLockedEntry => Sys2Proof.Machine.execWriteLockedEntry s
  | .healthCounterUpdate => Sys2Proof.Machine.execHealthCounterUpdate s
  | .getMediaHealth cci inp => Sys2Proof.Machine.execGetMediaHealth cci inp s
  | .getGroupInfo cci inp => Sys2Proof.Machine.execGetGroupInfo cci inp s
  | .setOverProvisioning cci inp => Sys2Proof.Machine.execSetOverProvisioning cci inp s
  | .formatMedia cci inp => Sys2Proof.Machine.execFormatMedia cci inp s
  | .setRelocationPolicy cci inp => Sys2Proof.Machine.execSetRelocationPolicy cci inp s
  | .rackGroup cci inp => Sys2Proof.Machine.execRackGroup cci inp s
  | .weatheringTick => Sys2Proof.Machine.execWeatheringTick s
  | .driftClockWrite => Sys2Proof.Machine.execDriftClockWrite s
  | .packageTempRead ch temps => Sys2Proof.Machine.execPackageTempRead ch temps s
  | .trimWindowEnd g => Sys2Proof.Machine.execTrimWindowEnd g s
  | .groupReadsRecord => Sys2Proof.Machine.execGroupReadsRecord s
  | .toppingEvaluate => Sys2Proof.Machine.execToppingEvaluate s
  | .toppingStart => Sys2Proof.Machine.execToppingStart s
  | .imageRelocate => Sys2Proof.Machine.execImageRelocate s
  | .getDriftState cci inp => Sys2Proof.Machine.execGetDriftState cci inp s
  | .setDriftPolicy cci inp => Sys2Proof.Machine.execSetDriftPolicy cci inp s
  | .getDriftTable cci inp => Sys2Proof.Machine.execGetDriftTable cci inp s
  | .readSegSense die eng tile seg o0 o1 o2 => Sys2Proof.Machine.execReadSegSense die eng tile seg o0 o1 o2 s
  | .readSegOutput die eng free start len => Sys2Proof.Machine.execReadSegOutput die eng free start len s
  | .readSoft die eng tile seg o0 o1 o2 => Sys2Proof.Machine.execReadSoft die eng tile seg o0 o1 o2 s
  | .progSegSetup die tile seg => Sys2Proof.Machine.execProgSegSetup die tile seg s
  | .progSegData die start len data => Sys2Proof.Machine.execProgSegData die start len data s
  | .progSegConfirm die => Sys2Proof.Machine.execProgSegConfirm die s
  | .resetTile die tile => Sys2Proof.Machine.execResetTile die tile s
  | .statusPoll ch pkg => Sys2Proof.Machine.execStatusPoll ch pkg s
  | .statusDie die => Sys2Proof.Machine.execStatusDie die s
  | .readParamPage die copy => Sys2Proof.Machine.execReadParamPage die copy s
  | .setFeature die feature value => Sys2Proof.Machine.execSetFeature die feature value s
  | .getFeature die feature => Sys2Proof.Machine.execGetFeature die feature s
  | .suspend die => Sys2Proof.Machine.execSuspend die s
  | .resume die => Sys2Proof.Machine.execResume die s
  | .tempRead ch pkg => Sys2Proof.Machine.execTempRead ch pkg s
  | .calibrate ch pkg => Sys2Proof.Machine.execCalibrate ch pkg s
  | .cmdCheckFail ch pkg cmd => Sys2Proof.Machine.execCmdCheckFail ch pkg cmd s
  | .senseLead die eng => Sys2Proof.Machine.execSenseLead die eng s
  | .senseResultReady die eng => Sys2Proof.Machine.execSenseResultReady die eng s
  | .dieProgramEnd die good => Sys2Proof.Machine.execDieProgramEnd die good s
  | .dieTileResetEnd die good => Sys2Proof.Machine.execDieTileResetEnd die good s
  | .mresetNAssert ch => Sys2Proof.Machine.execMresetNAssert ch s
  | .mresetNRise ch => Sys2Proof.Machine.execMresetNRise ch s
  | .mrdyNFall ch => Sys2Proof.Machine.execMrdyNFall ch s
  | .mrdyNRepoll ch => Sys2Proof.Machine.execMrdyNRepoll ch s
  | .channelBringUp ch found => Sys2Proof.Machine.execChannelBringUp ch found s
  | .mediaFullTraining ch first second => Sys2Proof.Machine.execMediaFullTraining ch first second s
  | .mediaRetrain ch sweep => Sys2Proof.Machine.execMediaRetrain ch sweep s
  | .packageGroupPgLost chans => Sys2Proof.Machine.execPackageGroupPgLost chans s
  | .packageGroupReenable chans good => Sys2Proof.Machine.execPackageGroupReenable chans good s
  | .getMediaChannelState cci inp => Sys2Proof.Machine.execGetMediaChannelState cci inp s
  | .retrainMediaChannel cci inp => Sys2Proof.Machine.execRetrainMediaChannel cci inp s
  | .getDieParameterPage cci inp => Sys2Proof.Machine.execGetDieParameterPage cci inp s
  | .dramTraining ch dimms first second temp => Sys2Proof.Machine.execDramTraining ch dimms first second temp s
  | .dramFillDone => Sys2Proof.Machine.execDramFillDone s
  | .writeCrcAlert ch resend frost => Sys2Proof.Machine.execWriteCrcAlert ch resend frost s
  | .caParityAlert ch frost => Sys2Proof.Machine.execCaParityAlert ch frost s
  | .dramScrub ch err => Sys2Proof.Machine.execDramScrub ch err s
  | .neighbourRefresh ch => Sys2Proof.Machine.execNeighbourRefresh ch s
  | .sameBankRefresh ch bank => Sys2Proof.Machine.execSameBankRefresh ch bank s
  | .refreshRatePoll ch rate => Sys2Proof.Machine.execRefreshRatePoll ch rate s
  | .dimmTempPoll ch temps => Sys2Proof.Machine.execDimmTempPoll ch temps s
  | .frostHoldExpiry ch => Sys2Proof.Machine.execFrostHoldExpiry ch s
  | .thawSalvageDone ch bad => Sys2Proof.Machine.execThawSalvageDone ch bad s
  | .thawRefillDone ch => Sys2Proof.Machine.execThawRefillDone ch s
  | .thawResyncDone ch => Sys2Proof.Machine.execThawResyncDone ch s
  | .frozenFailTimeout ch => Sys2Proof.Machine.execFrozenFailTimeout ch s
  | .pinnedSlotResolve slot => Sys2Proof.Machine.execPinnedSlotResolve slot s
  | .selfRefreshEntry ch => Sys2Proof.Machine.execSelfRefreshEntry ch s
  | .selfRefreshExit ch temp first second => Sys2Proof.Machine.execSelfRefreshExit ch temp first second s
  | .getDramState cci inp => Sys2Proof.Machine.execGetDramState cci inp s
  | .setDramPolicy cci inp => Sys2Proof.Machine.execSetDramPolicy cci inp s
  | .getFrostRecord cci inp => Sys2Proof.Machine.execGetFrostRecord cci inp s
  | .thawDramChannel cci inp => Sys2Proof.Machine.execThawDramChannel cci inp s
  | .fabricPmdTrainingDone port width prop => Sys2Proof.Machine.execFabricPmdTrainingDone port width prop s
  | .fabricLossOfLock port => Sys2Proof.Machine.execFabricLossOfLock port s
  | .fabricRetrainTimeout port => Sys2Proof.Machine.execFabricRetrainTimeout port s
  | .fabricDisabledExpiry port => Sys2Proof.Machine.execFabricDisabledExpiry port s
  | .flitReceive port flit symbols uncorrectable => Sys2Proof.Machine.execFlitReceive port flit symbols uncorrectable s
  | .replayTimer port => Sys2Proof.Machine.execReplayTimer port s
  | .nakRepeatTimer port => Sys2Proof.Machine.execNakRepeatTimer port s
  | .helloSend port => Sys2Proof.Machine.execHelloSend port s
  | .hello port => Sys2Proof.Machine.execHello port s
  | .helloDeadInterval port => Sys2Proof.Machine.execHelloDeadInterval port s
  | .lsa port => Sys2Proof.Machine.execLsa port s
  | .lsaAck port => Sys2Proof.Machine.execLsaAck port s
  | .lsaResend port => Sys2Proof.Machine.execLsaResend port s
  | .lsaAgeTick => Sys2Proof.Machine.execLsaAgeTick s
  | .lsaOriginate => Sys2Proof.Machine.execLsaOriginate s
  | .routeRecompute => Sys2Proof.Machine.execRouteRecompute s
  | .routeTableSwap => Sys2Proof.Machine.execRouteTableSwap s
  | .autoIdAssign => Sys2Proof.Machine.execAutoIdAssign s
  | .messageRelay port => Sys2Proof.Machine.execMessageRelay port s
  | .memRdMessage port bad => Sys2Proof.Machine.execMemRdMessage port bad s
  | .memSpecRdMessage port => Sys2Proof.Machine.execMemSpecRdMessage port s
  | .memWrMessage port bad => Sys2Proof.Machine.execMemWrMessage port bad s
  | .memWrPtlMessage port bad => Sys2Proof.Machine.execMemWrPtlMessage port bad s
  | .dataMessage port => Sys2Proof.Machine.execDataMessage port s
  | .cmpMessage port => Sys2Proof.Machine.execCmpMessage port s
  | .fabTimeoutFirst => Sys2Proof.Machine.execFabTimeoutFirst s
  | .fabTimeoutSecond => Sys2Proof.Machine.execFabTimeoutSecond s
  | .getFabricState cci inp => Sys2Proof.Machine.execGetFabricState cci inp s
  | .setFabricDeviceId cci inp => Sys2Proof.Machine.execSetFabricDeviceId cci inp s
  | .setFabricPolicy cci inp => Sys2Proof.Machine.execSetFabricPolicy cci inp s
  | .getRouteTable cci inp => Sys2Proof.Machine.execGetRouteTable cci inp s
  | .getLinkStateDatabase cci inp => Sys2Proof.Machine.execGetLinkStateDatabase cci inp s
  | .getFabricPortCounters cci inp => Sys2Proof.Machine.execGetFabricPortCounters cci inp s
  | .retrainFabricPort cci inp => Sys2Proof.Machine.execRetrainFabricPort cci inp s
  | .ringReady => Sys2Proof.Machine.execRingReady s
  | .ringConditionFail => Sys2Proof.Machine.execRingConditionFail s
  | .ringLockLost => Sys2Proof.Machine.execRingLockLost s
  | .ringLockRegained => Sys2Proof.Machine.execRingLockRegained s
  | .claim frame => Sys2Proof.Machine.execClaim frame s
  | .roll frame => Sys2Proof.Machine.execRoll frame s
  | .rollReturned frame => Sys2Proof.Machine.execRollReturned frame s
  | .beaconSend => Sys2Proof.Machine.execBeaconSend s
  | .beaconTimeout => Sys2Proof.Machine.execBeaconTimeout s
  | .ringFrameForward frame => Sys2Proof.Machine.execRingFrameForward frame s
  | .announceSend => Sys2Proof.Machine.execAnnounceSend s
  | .announce frame => Sys2Proof.Machine.execAnnounce frame s
  | .epochStatusSend => Sys2Proof.Machine.execEpochStatusSend s
  | .epochStatus frame => Sys2Proof.Machine.execEpochStatus frame s
  | .arm frame => Sys2Proof.Machine.execArm frame s
  | .disarm frame => Sys2Proof.Machine.execDisarm frame s
  | .ringFrameRepeat => Sys2Proof.Machine.execRingFrameRepeat s
  | .storm frame => Sys2Proof.Machine.execStorm frame s
  | .braceExpiry => Sys2Proof.Machine.execBraceExpiry s
  | .wake frame => Sys2Proof.Machine.execWake frame s
  | .epochActivate => Sys2Proof.Machine.execEpochActivate s
  | .epochAdopt => Sys2Proof.Machine.execEpochAdopt s
  | .mismatchHoldExpiry => Sys2Proof.Machine.execMismatchHoldExpiry s
  | .getEpochState cci inp => Sys2Proof.Machine.execGetEpochState cci inp s
  | .stageManifest cci inp => Sys2Proof.Machine.execStageManifest cci inp s
  | .getSliceDigest cci inp => Sys2Proof.Machine.execGetSliceDigest cci inp s
  | .armEpoch cci inp => Sys2Proof.Machine.execArmEpoch cci inp s
  | .disarmEpoch cci inp => Sys2Proof.Machine.execDisarmEpoch cci inp s
  | .getRingState cci inp => Sys2Proof.Machine.execGetRingState cci inp s
  | .setRingAndEpochPolicy cci inp => Sys2Proof.Machine.execSetRingAndEpochPolicy cci inp s
  | .sendRingWake cci inp => Sys2Proof.Machine.execSendRingWake cci inp s
  | .ppsEdge rising stable => Sys2Proof.Machine.execPpsEdge rising stable s
  | .ppsWindowClose => Sys2Proof.Machine.execPpsWindowClose s
  | .secondTick => Sys2Proof.Machine.execSecondTick s
  | .snapshotCopyDone => Sys2Proof.Machine.execSnapshotCopyDone s
  | .halfRateEnd => Sys2Proof.Machine.execHalfRateEnd s
  | .timeAlarmFire => Sys2Proof.Machine.execTimeAlarmFire s
  | .refclkLoss input => Sys2Proof.Machine.execRefclkLoss input s
  | .sysclkReturn => Sys2Proof.Machine.execSysclkReturn s
  | .oscCompensation temp => Sys2Proof.Machine.execOscCompensation temp s
  | .oscTableWrite => Sys2Proof.Machine.execOscTableWrite s
  | .getTimeBaseState cci inp => Sys2Proof.Machine.execGetTimeBaseState cci inp s
  | .setTimeBasePolicy cci inp => Sys2Proof.Machine.execSetTimeBasePolicy cci inp s
  | .setTimeAlarm cci inp => Sys2Proof.Machine.execSetTimeAlarm cci inp s
  | .alwaysOnResetRelease hbif0 hbif1 sbaddr strapTest => Sys2Proof.Machine.execAlwaysOnResetRelease hbif0 hbif1 sbaddr strapTest s
  | .seqEnable => Sys2Proof.Machine.execSeqEnable s
  | .seqDisable => Sys2Proof.Machine.execSeqDisable s
  | .seqWait => Sys2Proof.Machine.execSeqWait s
  | .seqWaitExpiry => Sys2Proof.Machine.execSeqWaitExpiry s
  | .seqCheck => Sys2Proof.Machine.execSeqCheck s
  | .seqJump => Sys2Proof.Machine.execSeqJump s
  | .seqJumpif => Sys2Proof.Machine.execSeqJumpif s
  | .seqSetout => Sys2Proof.Machine.execSeqSetout s
  | .seqEnd => Sys2Proof.Machine.execSeqEnd s
  | .seqInvalid => Sys2Proof.Machine.execSeqInvalid s
  | .seqRunaway => Sys2Proof.Machine.execSeqRunaway s
  | .dependencyEnable rail => Sys2Proof.Machine.execDependencyEnable rail s
  | .dependencyDisable rail => Sys2Proof.Machine.execDependencyDisable rail s
  | .orderGuardRelease rail => Sys2Proof.Machine.execOrderGuardRelease rail s
  | .railPgEdge rail high => Sys2Proof.Machine.execRailPgEdge rail high s
  | .railSettleExpiry rail => Sys2Proof.Machine.execRailSettleExpiry rail s
  | .railTimeout rail => Sys2Proof.Machine.execRailTimeout rail s
  | .railAdcSample codes => Sys2Proof.Machine.execRailAdcSample codes s
  | .safeOffRetry => Sys2Proof.Machine.execSafeOffRetry s
  | .fabricHoldExpiry => Sys2Proof.Machine.execFabricHoldExpiry s
  | .powerFailClear => Sys2Proof.Machine.execPowerFailClear s
  | .vauxLowDetect => Sys2Proof.Machine.execVauxLowDetect s
  | .supplyRemoved vaux aon => Sys2Proof.Machine.execSupplyRemoved vaux aon s
  | .idleEntry => Sys2Proof.Machine.execIdleEntry s
  | .idleExit => Sys2Proof.Machine.execIdleExit s
  | .dormantAutoEntry => Sys2Proof.Machine.execDormantAutoEntry s
  | .dormantExit => Sys2Proof.Machine.execDormantExit s
  | .wakeEvent source => Sys2Proof.Machine.execWakeEvent source s
  | .getPowerState cci inp => Sys2Proof.Machine.execGetPowerState cci inp s
  | .setPowerStateActive cci inp => Sys2Proof.Machine.execSetPowerStateActive cci inp s
  | .setPowerStateDormant cci inp => Sys2Proof.Machine.execSetPowerStateDormant cci inp s
  | .setPowerStateStandby cci inp => Sys2Proof.Machine.execSetPowerStateStandby cci inp s
  | .setPowerPolicy cci inp => Sys2Proof.Machine.execSetPowerPolicy cci inp s
  | .getSequencerProgram cci inp => Sys2Proof.Machine.execGetSequencerProgram cci inp s
  | .setSequencerProgram cci inp => Sys2Proof.Machine.execSetSequencerProgram cci inp s
  | .getRailStatus cci inp => Sys2Proof.Machine.execGetRailStatus cci inp s
  | .clearRailFaults cci inp => Sys2Proof.Machine.execClearRailFaults cci inp s
  | .diodeSample diode reading => Sys2Proof.Machine.execDiodeSample diode reading s
  | .ntcSample ntc mv => Sys2Proof.Machine.execNtcSample ntc mv s
  | .sensorRecovered sensor => Sys2Proof.Machine.execSensorRecovered sensor s
  | .zoneFallHoldExpiry zone => Sys2Proof.Machine.execZoneFallHoldExpiry zone s
  | .programPauseEnd ds => Sys2Proof.Machine.execProgramPauseEnd ds s
  | .thermtrip diode => Sys2Proof.Machine.execThermtrip diode s
  | .thermalRestart => Sys2Proof.Machine.execThermalRestart s
  | .tempHistoryUpdate => Sys2Proof.Machine.execTempHistoryUpdate s
  | .getThermalState cci inp => Sys2Proof.Machine.execGetThermalState cci inp s
  | .setThermalPolicy cci inp => Sys2Proof.Machine.execSetThermalPolicy cci inp s
  | .getTemperatureHistory cci inp => Sys2Proof.Machine.execGetTemperatureHistory cci inp s
  | .bootRom => Sys2Proof.Machine.execBootRom s
  | .bootGood => Sys2Proof.Machine.execBootGood s
  | .supervisorWatchdogExpiry sup => Sys2Proof.Machine.execSupervisorWatchdogExpiry sup s
  | .supervisorRestartDone sup => Sys2Proof.Machine.execSupervisorRestartDone sup s
  | .mgmtWatchdogExpiry => Sys2Proof.Machine.execMgmtWatchdogExpiry s
  | .hubRequestDeliver post => Sys2Proof.Machine.execHubRequestDeliver post s
  | .ownershipViolation node row => Sys2Proof.Machine.execOwnershipViolation node row s
  | .spdmGetVersion ep => Sys2Proof.Machine.execSpdmGetVersion ep s
  | .spdmGetCapabilities ep => Sys2Proof.Machine.execSpdmGetCapabilities ep s
  | .spdmNegotiateAlgorithms ep offered => Sys2Proof.Machine.execSpdmNegotiateAlgorithms ep offered s
  | .spdmGetDigests ep => Sys2Proof.Machine.execSpdmGetDigests ep s
  | .spdmGetCertificate ep slot => Sys2Proof.Machine.execSpdmGetCertificate ep slot s
  | .spdmChallenge ep slot nonce => Sys2Proof.Machine.execSpdmChallenge ep slot nonce s
  | .spdmGetMeasurements ep index nonce => Sys2Proof.Machine.execSpdmGetMeasurements ep index nonce s
  | .spdmKeyExchange ep slot pub => Sys2Proof.Machine.execSpdmKeyExchange ep slot pub s
  | .spdmFinish ep session good => Sys2Proof.Machine.execSpdmFinish ep session good s
  | .spdmEndSession ep session => Sys2Proof.Machine.execSpdmEndSession ep session s
  | .spdmKeyUpdate ep session => Sys2Proof.Machine.execSpdmKeyUpdate ep session s
  | .spdmHeartbeat ep session => Sys2Proof.Machine.execSpdmHeartbeat ep session s
  | .setChannelService cci inp => Sys2Proof.Machine.execSetChannelService cci inp s
  | .issueMediaCommand cci inp => Sys2Proof.Machine.execIssueMediaCommand cci inp s
  | .getSupervisorState cci inp => Sys2Proof.Machine.execGetSupervisorState cci inp s
  | .restartSupervisor cci inp => Sys2Proof.Machine.execRestartSupervisor cci inp s
  | .setDebugAccess cci inp => Sys2Proof.Machine.execSetDebugAccess cci inp s
  | .getDeviceIdentity cci inp => Sys2Proof.Machine.execGetDeviceIdentity cci inp s
  | .getCellarBookInfo cci inp => Sys2Proof.Machine.execGetCellarBookInfo cci inp s
  | .readCellarRecord cci inp => Sys2Proof.Machine.execReadCellarRecord cci inp s
  | .writeCellarRecord cci inp => Sys2Proof.Machine.execWriteCellarRecord cci inp s
  | .cellarWriteComplete => Sys2Proof.Machine.execCellarWriteComplete s
  | .setRegionPasswords cci inp => Sys2Proof.Machine.execSetRegionPasswords cci inp s
  | .lockoutPersist => Sys2Proof.Machine.execLockoutPersist s
  | .getSpreadCounter cci inp => Sys2Proof.Machine.execGetSpreadCounter cci inp s
  | .eventPost src => Sys2Proof.Machine.execEventPost src s
  | .criticalRepeatCopy seq => Sys2Proof.Machine.execCriticalRepeatCopy seq s
  | .eventMarkWrite => Sys2Proof.Machine.execEventMarkWrite s
  | .eventOverflowRecord src => Sys2Proof.Machine.execEventOverflowRecord src s
  | .getEventRecordsVendor cci inp => Sys2Proof.Machine.execGetEventRecordsVendor cci inp s
  | .getEventRecorderState cci inp => Sys2Proof.Machine.execGetEventRecorderState cci inp s
  | .postTestEvent cci inp => Sys2Proof.Machine.execPostTestEvent cci inp s
  | .getCounterConfiguration cci inp => Sys2Proof.Machine.execGetCounterConfiguration cci inp s
  | .setCounterConfiguration cci inp => Sys2Proof.Machine.execSetCounterConfiguration cci inp s
  | .readCounters cci inp => Sys2Proof.Machine.execReadCounters cci inp s
  | .setTenantMetering cci inp => Sys2Proof.Machine.execSetTenantMetering cci inp s
  | .getTenantMeter cci inp => Sys2Proof.Machine.execGetTenantMeter cci inp s
  | .getCounterSample cci inp => Sys2Proof.Machine.execGetCounterSample cci inp s
  | .sampleCapture => Sys2Proof.Machine.execSampleCapture s
  | .counterWindowEnd set counter => Sys2Proof.Machine.execCounterWindowEnd set counter s
  | .headCountWrite head counter part value => Sys2Proof.Machine.execHeadCountWrite head counter part value s
  | .counterOverflowClear head mask => Sys2Proof.Machine.execCounterOverflowClear head mask s
  | .meterOccupancyTick => Sys2Proof.Machine.execMeterOccupancyTick s
  | .cvConfigWrite head unit value => Sys2Proof.Machine.execCvConfigWrite head unit value s
  | .cvRestartWrite head unit => Sys2Proof.Machine.execCvRestartWrite head unit s
  | .cvFeedWrite head unit off bytes => Sys2Proof.Machine.execCvFeedWrite head unit off bytes s
  | .cvResultRead head unit count => Sys2Proof.Machine.execCvResultRead head unit count s
  | .assignCheckValueUnit cci inp => Sys2Proof.Machine.execAssignCheckValueUnit cci inp s
  | .getEngineState cci inp => Sys2Proof.Machine.execGetEngineState cci inp s
  | .createDescriptorRing cci inp => Sys2Proof.Machine.execCreateDescriptorRing cci inp s
  | .deleteDescriptorRing cci inp => Sys2Proof.Machine.execDeleteDescriptorRing cci inp s
  | .getRingStateDescriptor cci inp => Sys2Proof.Machine.execGetRingStateDescriptor cci inp s
  | .ringBaseWrite head ring part value => Sys2Proof.Machine.execRingBaseWrite head ring part value s
  | .ringTailDoorbell head ring value => Sys2Proof.Machine.execRingTailDoorbell head ring value s
  | .ringStart head ring => Sys2Proof.Machine.execRingStart head ring s
  | .ringStop head ring => Sys2Proof.Machine.execRingStop head ring s
  | .ringResume head ring => Sys2Proof.Machine.execRingResume head ring s
  | .engineTakeDescriptor engine => Sys2Proof.Machine.execEngineTakeDescriptor engine s
  | .descCopy engine => Sys2Proof.Machine.execDescCopy engine s
  | .descFill engine => Sys2Proof.Machine.execDescFill engine s
  | .descCompare engine => Sys2Proof.Machine.execDescCompare engine s
  | .descChecksum engine => Sys2Proof.Machine.execDescChecksum engine s
  | .descMigrate engine => Sys2Proof.Machine.execDescMigrate engine s
  | .descInvalid engine => Sys2Proof.Machine.execDescInvalid engine s
  | .engineStepDone engine => Sys2Proof.Machine.execEngineStepDone engine s
  | .shutdownClassDecide => Sys2Proof.Machine.execShutdownClassDecide s
  | .holdupBankCharged => Sys2Proof.Machine.execHoldupBankCharged s
  | .frontEnableTimeout => Sys2Proof.Machine.execFrontEnableTimeout s
  | .startFrontEnable => Sys2Proof.Machine.execStartFrontEnable s
  | .aspmL1Entry head l12 => Sys2Proof.Machine.execAspmL1Entry head l12 s
  | .aspmL1Exit head => Sys2Proof.Machine.execAspmL1Exit head s
  | .downTimeout rail => Sys2Proof.Machine.execDownTimeout rail s
  | .mgmtRestartDone => Sys2Proof.Machine.execMgmtRestartDone s
  | .pllLockDone dom => Sys2Proof.Machine.execPllLockDone dom s
  | .dramRetrainDone ch lanes => Sys2Proof.Machine.execDramRetrainDone ch lanes s
  | .trstNAssert => Sys2Proof.Machine.execTrstNAssert s

end Sys2Proof.Machine
end

