-- ==== Sys2Proof/Machine/Step.lean ====
section
/-!
DEFINITION. One step of the block: the command at the front of the queue, or one nanosecond of its clocks when no command waits
(log entry 10).
-/
namespace Sys2Proof.Machine

/-- What a nanosecond without a command does (log entry 10): the clocks run (R452), the counters of levels and the check-value
units work (R557, R568), a second of temperature history passes with each second (R508), clocks gate in Idle (R467), and an
entry to Dormant or Standby, or an exit from Dormant, goes on (R491). -/
def tick (s : State) : State :=
  let s := { s with time := clockNs s.time }
  let s := if s.time.mono % 1000000000 = 0 then thermSecond s else s
  continueExit (continueEntry (idleClocks (cvTick (windowTick (levelTick s)))))

/-- One step: the command at the front of the queue with the queue's rest, or a tick. -/
def step (s : State) : Host.Outcome State Fault Refusal :=
  match s.pending with
  | [] => .next (tick s)
  | c :: rest => exec c { s with pending := rest }

/-- The state with the command of a table word at the front of its queue. The table gives no row any bits, so no word spells a
command (R530 gives the commands by opcode and payload). -/
def State.withFetchWord (s : State) (nbits w : Nat) : State :=
  match decodeTableWord nbits w with
  | some c => { s with pending := c :: s.pending }
  | none => s

end Sys2Proof.Machine
end

