-- ==== Sys2Proof/Safety.lean ====
section
/-!
DEFINITION. The terms in which claims about the machine are stated: what a command answers, when an interface takes a command,
a device at work, what an event leaves behind, and the facts that no command may change.
-/
namespace Sys2Proof.Safety
open Sys2Proof.Machine

/-- A command answers a next state, and that state satisfies `P`. -/
def After (i : Instr) (s : State) (P : State → Prop) : Prop := ∃ t, exec i s = .next t ∧ P t

/-- A step stops: it answers a fault or a refusal. -/
def stops (s : State) : Prop := ∀ t, step s ≠ .next t

/-- Interface `c` takes a command of an opcode: it is open and gives no refusal (R516, R522 to R524, R582). -/
abbrev Takes (s : State) (c : Fin 10) (op : Nat) : Prop := cciOpen s c = true ∧ gate s c op = none

/-- A command answers Success with `n` bytes, and changes nothing but its interface (R525, R526). -/
def AnswersBytes (i : Instr) (c : Fin 10) (op n : Nat) (s : State) : Prop :=
  ∃ b : List Byte, b.length = n ∧ exec i s = .next (complete c op .success (.bytes b) s)

/-- A command whose record waits for its COMMIT word stays in progress on its interface (R539). -/
def waitsCommit (c op : Nat) (s : State) : State := awaitCommit c op .none (tieCommit c s)

/-- The device is Active, and no entry to a lower state and no rail sequence runs (Table 15-9). -/
abbrev AtWork (s : State) : Prop := s.power.mode = .active ∧ s.power.entering = none ∧ s.power.seq = none

/-- A head takes CXL.mem requests: its link is up and carries them, IDE is not insecure, it is out of L1, it grants credits and
is not in viral (R29, R61, R84, R93). -/
abbrev HeadReady (s : State) (h : Nat) : Prop :=
  headTakes (headOf s h) = true ∧ (headOf s h).withheld = false ∧ (headOf s h).l1 = false ∧ (headOf s h).viral = false ∧
    AtWork s

/-- A die is on its bus, its channel is out of reset, and its package does not calibrate (R330, R348, R349). -/
abbrev DieReady (s : State) (d : Nat) : Prop :=
  (dieOf s d).present = true ∧ (chanOf s (chanOfDie d)).mreset = false ∧ calibrating s d = false

/-- The ring is formed and a frame of the type arrives whole (R426, R429). -/
abbrev RingHears (s : State) (typ : Nat) (f : RingFrame) : Prop := s.epoch.ring.mode = .formed ∧ f.typ = typ ∧ f.crcOk = true

/-- Engine `e`, with its new context `x`, makes a request that takes the given tag and is classified at once (R50, R124, R570, R572). -/
def engineAsks (tag e : Nat) (x : Engine) (op : ReqOp) (addr : Nat) (data : HostLine) (be : W64) (bytes : Nat) (s : State) :
    State :=
  let r : Req := { newReq (.engine e) op addr 0 data be false false s.time.mono with cost := bytes }
  let s := setEngine e x s
  classifyReq tag true r { s with ten := { s.ten with reqs := tput s.ten.reqs tag r } }

/-- A maintenance operation of an interface is accepted and listed (R176, R177). -/
def maintPosted (op : Nat) (c : Fin 10) (a n : Nat) (s : State) : State :=
  { s with front := { s.front with maint := listMaint (newMaint op (some c.val) a n s) s.front.maint } }

/-- A received ring frame is counted. -/
def ringCounted (s : State) : State := setRing { s.epoch.ring with framesRx := s.epoch.ring.framesRx + 1 } s

/-- A frame of a type that a Formed position takes and acts on: a broadcast, or a unicast to it, not its own (R433). -/
abbrev RingActs (s : State) (typ : Nat) (f : RingFrame) : Prop :=
  RingHears s typ f ∧ ownFrame s f = false ∧ (f.dst = 0xFF ∨ s.epoch.ring.position = some f.dst)

/-- The state in which a Formed position acts on a frame: it is counted, and a broadcast has been forwarded (R433). -/
def ringActed (f : RingFrame) (s : State) : State := if f.dst = 0xFF then passOn f (ringCounted s) else ringCounted s

/-- The state after a CLAIM comes home: this position is head (R431). -/
def ringHead (s : State) : State :=
  setRing { (ringCounted s).epoch.ring with isHead := true, position := some 0, headSerial := s.mgmt.serial, beaconAt := s.time.mono }
    (ringCounted s)

/-- The fuses (R7, R520, R530 CF05h): grade, serial number, boot ROM version and debug lock. -/
def fuses (s : State) : Bool × Nat × Nat × Bool := (s.mgmt.gradeFX, s.mgmt.serial, s.mgmt.romVersion, s.mgmt.debugLock)

/-- The fuses hold given values, and every key of a set is revoked (R514: a blown fuse cannot be restored). -/
abbrev FusesHold (f : Bool × Nat × Nat × Bool) (k : BitVec 4) (s : State) : Prop := fuses s = f ∧ s.mgmt.revoked &&& k = k

end Sys2Proof.Safety
end

