-- ==== Sys2Proof/Certificates/Slice0/Obligations.lean ====
section
/-!
DEFINITION. The statements for the provers.
-/
open Sys2Proof Sys2Proof.Machine Sys2Proof.Safety

/-! ### CXL standard commands (17_management_and_mailbox.md, 02_host_ports.md) -/

/-- Identity, background operations, event logs and supported logs complete: Identify, Background Operation Status, the response
message limit, Request Abort, the event records and their interrupt policy, and the Command Effects Log (R94, R98, R527, R528). How far
a running operation has come is a free value below 100 (log entry 226). -/
def Obligations.IdentityAndLogCommandsComplete : Prop :=
  (∀ c s, Takes s c 0x0001 →
    exec (.identify c) s
      = .next (complete c 0x0001 .success (.nums [0x1F9E, s.mgmt.serial, (headOfCci c).getD 0xFF]) s)) ∧
  (∀ c s, Takes s c 0x0002 → (cciOf s c).bg = none →
    exec (.backgroundOperationStatus c) s = .next (complete c 0x0002 .success (.nums [0, 0, 0, 0]) s)) ∧
  (∀ c s b, Takes s c 0x0002 → (cciOf s c).bg = some b → b.rc = none →
    exec (.backgroundOperationStatus c) s
      = .next (complete c 0x0002 .success (.nums [b.op, (drawNat s).1 % 100, 0, 0]) (drawNat s).2)) ∧
  (∀ c s b r, Takes s c 0x0002 → (cciOf s c).bg = some b → b.rc = some r →
    exec (.backgroundOperationStatus c) s = .next (complete c 0x0002 .success (.nums [b.op, b.pct, 1, r.code]) s)) ∧
  (∀ c s, Takes s c 0x0003 →
    exec (.getResponseMessageLimit c) s = .next (complete c 0x0003 .success (.nums [(cciOf s c).limit]) s)) ∧
  (∀ c e s, Takes s c 0x0004 → 8 ≤ e → e ≤ 12 →
    After (.setResponseMessageLimit c e) s fun t => (cciOf t c).limit = 2 ^ e ∧ (cciOf t c).rc = .success) ∧
  (∀ c e s, Takes s c 0x0004 → (e < 8 ∨ 12 < e) →
    exec (.setResponseMessageLimit c e) s = .next (complete c 0x0004 .invalidInput .none s)) ∧
  (∀ c b s, Takes s c 0x0005 → (cciOf s c).bg = some b → b.rc = none → b.op = 0xC722 →
    exec (.requestAbortBackgroundOperation c) s
      = .next (complete c 0x0005 .success .none (endBgOn c 0xC722 .aborted (abandonMeasure s)))) ∧
  (∀ c log s, Takes s c 0x0100 →
    After (.getEventRecords c log) s fun t =>
      ∃ more, (cciOf t c).out =
        .ents ((((cciLogs s c).get (logOf log)).ents).take ((payloadLimit s c - 32) / 128)) more) ∧
  (∀ c log s, Takes s c 0x0101 →
    After (.clearEventRecords c log true []) s fun t => ((cciLogs t c).get (logOf log)).ents = []) ∧
  (∀ (c : Fin 10) (h : Nat) s, Takes s c 0x0102 → headOfCci c = some h →
    exec (.getEventInterruptPolicy c) s = .next (complete c 0x0102 .success (.nums (headOf s h).intPolicy) s)) ∧
  (∀ (c : Fin 10) (h : Nat) (p : List Nat) s, Takes s c 0x0103 → headOfCci c = some h → p.length = 5 → (∀ v ∈ p, v ≤ 1) →
    After (.setEventInterruptPolicy c p) s fun t => (headOf t h).intPolicy = p) ∧
  (∀ c s, Takes s c 0x0400 →
    exec (.getSupportedLogs c) s
      = .next (complete c 0x0400 .success (.nums [1, celUuid, 4 * (supportedOps c).length]) s)) ∧
  (∀ (c : Fin 10) (i n : Nat) s, Takes s c 0x0401 → i + n ≤ (supportedOps c).length → 4 * n ≤ payloadLimit s c →
    exec (.getLog c celUuid i n) s
      = .next (complete c 0x0401 .success (.nums (((supportedOps c).drop i).take n)) s))

/-- Identity, health, alerts, shutdown state, poison and Sanitize of the memory device complete (R82, R83, R205, R206, R293,
R529). -/
def Obligations.MemoryDeviceCommandsComplete : Prop :=
  (∀ c s, Takes s c 0x4000 →
    exec (.identifyMemoryDevice c) s
      = .next (complete c 0x4000 .success (.nums [s.map.extents * 2 ^ 30, 0, 0, b2n s.mgmt.gradeFX]) s)) ∧
  (∀ c s, Takes s c 0x4200 →
    After (.getHealthInfo c) s fun t => ∃ l, (cciOf t c).out = .nums l ∧ l.length = 8 ∧ l.getD 5 0 = spreadRead s 0) ∧
  (∀ (c : Fin 10) (a b d : Option Int) s, Takes s c 0x4201 → s.mgmt.alerts = [a, b, d] →
    exec (.getAlertConfiguration c) s
      = .next (complete c 0x4201 .success (.nums [b2n a.isSome + 2 * b2n b.isSome + 4 * b2n d.isSome,
          unsignedOf 16 (a.getD 0), unsignedOf 16 (b.getD 0), unsignedOf 16 (d.getD 0)]) s)) ∧
  (∀ (c : Fin 10) (v high low : Int) s, Takes s c 0x4202 → 0 ≤ v → v ≤ 100 →
    exec (.setAlertConfiguration c (.enable v) (.enable high) (.enable low)) s
      = .next (complete c 0x4202 .success .none
          { s with mgmt := { s.mgmt with alerts := [some v, some high, some low] } })) ∧
  (∀ c s, Takes s c 0x4203 →
    exec (.getShutdownState c) s = .next (complete c 0x4203 .success (.nums [s.mgmt.shutdownState]) s)) ∧
  (∀ c dirty s, Takes s c 0x4204 →
    exec (.setShutdownState c dirty) s
      = .next (waitsCommit c 0x4204 (cellarWrite 5 2 0x07 (leBytes 4 (b2n dirty)) none s))) ∧
  (∀ (c : Fin 10) (dpa : Nat) s, Takes s c 0x4300 → addedFor s c (extentOf dpa) = true →
    exec (.getPoisonList c dpa 0) s = .next (complete c 0x4300 .success (.nums [0]) s)) ∧
  (∀ (c : Fin 10) (dpa len : Nat) s, Takes s c 0x4300 → addedFor s c (extentOf dpa) = true → 0 < len →
    After (.getPoisonList c dpa len) s fun t => (cciOf t c).rc = .success ∧ ∃ more l, (cciOf t c).out = .nums (more :: l)) ∧
  (∀ (c : Fin 10) (dpa : Nat) s, Takes s c 0x4301 → addedFor s c (extentOf dpa) = true →
    (extOf s (extentOf dpa)).ownerDev = 0xFFF → journalFull s = false →
    exec (.injectPoison c [dpa]) s = .next (complete c 0x4301 .success .none (injectOne s dpa)) ∧
    ∀ i, findLine s (dpa / 256) = some i → countsDirty (lineAt s i) = true →
      injectOne s dpa = putLine i { lineAt s i with poison := true } (notePoison (dpa / 256) .injected s)) ∧
  (∀ (c : Fin 10) (dpa i k : Nat) (data : HostLine) s, Takes s c 0x4302 → addedFor s c (extentOf dpa) = true →
    (extOf s (extentOf dpa)).ownerDev = 0xFFF → tenantKey s (extOf s (extentOf dpa)).tenant = some k →
    s.place.cap = .normal → s.front.mode = .writeBack → findLine s (dpa / 256) = some i → countsDirty (lineAt s i) = true →
    exec (.clearPoison c dpa data) s
      = .next (complete c 0x4302 .success .none (poisonDirty (dpa / 4096) (notePoison (dpa / 256) .internal
          (storeBytes i (placeHostLine data (hostLineIn dpa)) (BitVec.allOnes 256) 0xF none
            (putLine i { lineAt s i with age := 0 } s)))))) ∧
  (∀ c s, Takes s c 0x4400 → bgBusy s c = false → sanitizeBarred s = false → s.place.format = none → s.mgmt.sanitize = none →
    journalFull s = false →
    After (.sanitize c) s fun t => (cciOf t c).rc = .bgStarted ∧ ∃ b, (cciOf t c).bg = some b ∧ b.op = 0x4400 ∧ b.rc = none)

/-- Dynamic capacity commands of a host and of the FM API complete (R75 to R80, R114, R528). -/
def Obligations.DynamicCapacityCommandsComplete : Prop :=
  (∀ (c : Fin 10) (h : Nat) s, Takes s c 0x4800 → headOfCci c = some h →
    exec (.getDynamicCapacityConfiguration c) s
      = .next (complete c 0x4800 .success (.nums (8 :: regionNums s h)) s)) ∧
  (∀ (c : Fin 10) (h i n : Nat) s, Takes s c 0x4801 → headOfCci c = some h →
    exec (.getDynamicCapacityExtentList c i n) s
      = .next (complete c 0x4801 .success (.nums (extentListNums s h i n)) s)) ∧
  (∀ (c : Fin 10) (h e : Nat) s, Takes s c 0x4802 → headOfCci c = some h → e < 241664 → (extOf s e).st = .pending →
    (extOf s e).head = h → journalFull s = false →
    exec (.addDynamicCapacityResponse c e true) s
        = .next (complete c 0x4802 .success .none (bumpGen h (moveExt e .added s))) ∧
      exec (.addDynamicCapacityResponse c e false) s
        = .next (complete c 0x4802 .success .none (moveExt e .assigned s))) ∧
  (∀ (c : Fin 10) (h e : Nat) s t, Takes s c 0x4803 → headOfCci c = some h → (headExtents s h).contains e = true →
    journalFull s = false → t = dcRecord h 5 e (extOf s e).tenant (releaseExt e s) →
    (t.ten.reqs.any fun p => extentOf p.2.addr == e) = false → (extOf t e).ownerDev = 0xFFF →
    exec (.releaseDynamicCapacity c e) s = .next (complete c 0x4803 .success .none t)) ∧
  (∀ c s, Takes s c 0x5500 →
    exec (.getMultiHeadedInfo c) s
      = .next (complete c 0x5500 .success (.nums [4, b2n (headOf s 0).present, b2n (headOf s 1).present,
          b2n (headOf s 2).present, b2n (headOf s 3).present]) s)) ∧
  (∀ c s, Takes s c 0x5600 →
    After (.getDcdInfo c) s fun t => ∃ n, (cciOf t c).out = .nums [n, 8, s.map.extents, 1]) ∧
  (∀ (c : Fin 10) (h : Nat) s, Takes s c 0x5601 → h ≤ 3 → (headOf s h).present = true →
    exec (.getHostDcRegionConfiguration c h) s = .next (complete c 0x5601 .success (.nums (8 :: regionNums s h)) s)) ∧
  (∀ (c : Fin 10) (h r base len : Nat) s, Takes s c 0x5602 → h ≤ 3 → (headOf s h).present = true → r ≤ 7 →
    base % 2 ^ 30 = 0 → len % 2 ^ 30 = 0 → base + len ≤ 2 ^ 48 → regionHolds s h r = false →
    exec (.setDcRegionConfiguration c h r base len) s
      = .next (complete c 0x5602 .success .none
          (setHead h { headOf s h with regions := (headOf s h).regions.set r (base / 2 ^ 30, len / 2 ^ 30) } s))) ∧
  (∀ (c : Fin 10) (h i n : Nat) s, Takes s c 0x5603 → h ≤ 3 → (headOf s h).present = true →
    exec (.getDcRegionExtentLists c h i n) s
      = .next (complete c 0x5603 .success (.nums (extentListNums s h i n)) s)) ∧
  (∀ (c : Fin 10) (h e : Nat) s, Takes s c 0x5604 → h ≤ 3 → (headOf s h).present = true → e < 241664 →
    (extOf s e).st = .assigned → (extOf s e).accessDev = 0xFFF → (tenantOf s (extOf s e).tenant).st = .active →
    inRegion s h e = true → s.ten.withheld.contains e = false → journalFull s = false →
    exec (.initiateDynamicCapacityAdd c h e) s = .next (complete c 0x5604 .success .none (initiateAdd e h s))) ∧
  (∀ (c : Fin 10) (e : Nat) s, Takes s c 0x5605 → e < 241664 → (extOf s e).accessDev = 0xFFF → (extOf s e).st = .added →
    exec (.initiateDynamicCapacityRelease c (extOf s e).head e) s
      = .next (complete c 0x5605 .success .none (dcRecord (extOf s e).head 1 e (extOf s e).tenant s)))

/-! ### Firmware, supervisors and the hub (17_management_and_mailbox.md, 01_architecture.md) -/

/-- Boot, firmware transfer and activation complete (R512, R513, R515, R517 to R519). -/
def Obligations.FirmwareCommandsComplete : Prop :=
  (∀ s, s.mgmt.running = false → railsGood s = true → domOf s 10 = .running → s.start.phases.contains 3 = true →
    s.start.phases.contains 5 = false → s.mgmt.nextSlot = none →
    After .bootRom s fun t => t.mgmt.running = true ∧ t.start.phases.contains 5 = true ∧
      (slotValid s s.mgmt.active = true → t.mgmt.recovery = false ∧ t.mgmt.runSlot = some s.mgmt.active ∧
        t.mgmt.host.mode = .running ∧ t.mgmt.media.mode = .running ∧ t.mgmt.fabric.mode = .running ∧
        t.mgmt.platform.mode = .running) ∧
      (slotValid s s.mgmt.active = false → slotValid s (1 - s.mgmt.active) = true → t.mgmt.recovery = false ∧
        t.mgmt.active = 1 - s.mgmt.active ∧ t.mgmt.runSlot = some (1 - s.mgmt.active)) ∧
      (slotValid s s.mgmt.active = false → slotValid s (1 - s.mgmt.active) = false → t.mgmt.recovery = true ∧
        t.mgmt.host = s.mgmt.host ∧ t.mgmt.media = s.mgmt.media ∧ t.mgmt.fabric = s.mgmt.fabric ∧
        t.mgmt.platform = s.mgmt.platform)) ∧
  (∀ s t0 n x, s.mgmt.goodSince = some t0 → s.mgmt.runSlot = some n → runImage s = some x → t0 + 60000000000 ≤ s.time.mono →
    s.mgmt.running = true → ([1, 2, 3, 4].all fun k => nodeRuns s k) = true → s.mgmt.nextSlot = some n → 0 < s.mgmt.tries →
    After .bootGood s fun t => t.mgmt.active = n ∧ t.mgmt.nextSlot = none ∧ t.mgmt.goodSince = none) ∧
  (∀ (c : Fin 10) slot n (x : List Byte) s, Takes s c 0x0201 → slotNo slot = some n → n ≠ s.mgmt.active →
    s.mgmt.transfer = none → s.mgmt.activation = none → x.length ≤ (if c.val < 8 then 65536 else 4096) →
    After (.transferFwFull c slot x) s fun t => slotImage t n = (if imageValid s x then some x else none) ∧
      t.mgmt.transfer = none ∧ (cciOf t c).rc = if imageValid s x then .success else .fwVerificationFailed) ∧
  (∀ (c : Fin 10) slot n (d : List Byte) s, Takes s c 0x0201 → slotNo slot = some n → n ≠ s.mgmt.active →
    s.mgmt.transfer = none → s.mgmt.activation = none → d.length ≤ (if c.val < 8 then 65536 else 4096) →
    After (.transferFwInitiate c slot d) s fun t => slotImage t n = none ∧
      t.mgmt.transfer = some { cci := c, slot := n, data := d, lastTime := s.time.mono } ∧ (cciOf t c).rc = .success) ∧
  (∀ (c : Fin 10) x off (d : List Byte) s, Takes s c 0x0201 → s.mgmt.transfer = some x → x.cci = c →
    x.data.length = 128 * off → d.length ≤ (if c.val < 8 then 65536 else 4096) → x.data.length + d.length ≤ slotBytes →
    exec (.transferFwContinue c off d) s
      = .next (complete c 0x0201 .success .none { s with mgmt := { s.mgmt with
          transfer := some { x with data := x.data ++ d, lastTime := s.time.mono } } })) ∧
  (∀ (c : Fin 10) x off (d : List Byte) s, Takes s c 0x0201 → s.mgmt.transfer = some x → x.cci = c →
    x.data.length = 128 * off → d.length ≤ (if c.val < 8 then 65536 else 4096) → x.data.length + d.length ≤ slotBytes →
    x.slot ≤ 1 →
    After (.transferFwEnd c off d) s fun t => t.mgmt.transfer = none ∧
      slotImage t x.slot = (if imageValid s (x.data ++ d) then some (x.data ++ d) else slotImage s x.slot) ∧
      (cciOf t c).rc = if imageValid s (x.data ++ d) then .success else .fwVerificationFailed) ∧
  (∀ (c : Fin 10) x s, Takes s c 0x0201 → s.mgmt.transfer = some x → x.cci = c →
    exec (.transferFwAbort c) s
      = .next (complete c 0x0201 .success .none { s with mgmt := { s.mgmt with transfer := none } })) ∧
  (∀ x s, s.mgmt.transfer = some x → x.lastTime + 60000000000 ≤ s.time.mono →
    exec .fwTransferIdleTimeout s = .next { s with mgmt := { s.mgmt with transfer := none } }) ∧
  (∀ c slot n s, Takes s c 0x0202 → slotNo slot = some n → (slotImage s n).isSome = true →
    exec (.activateFwCold c slot) s
      = .next (waitsCommit c 0x0202 (cellarWrite 5 2 0x01 (leBytes 1 s.mgmt.active ++ leBytes 1 n ++ leBytes 1 0) none
          { s with mgmt := { s.mgmt with nextSlot := some n, tries := 0 } }))) ∧
  (∀ (c : Fin 10) slot n x y s, Takes s c 0x0202 → bgBusy s c = false → slotNo slot = some n → slotImage s n = some x →
    runImage s = some y → fwOnline x = true → byteAt x 15 = byteAt y 15 → microcodeHash x = microcodeHash y →
    s.mgmt.activation = none → ([1, 2, 3, 4].all fun k => nodeRuns s k) = true →
    exec (.activateFwOnline c slot) s
      = .next (startBg c 0x0202 (activateNext { s with mgmt := { s.mgmt with
          activation := some { cci := c, slot := n, todo := [4, 3, 1, 2], prev := [] } } }))) ∧
  (∀ a s, s.mgmt.activation = some a →
    After .onlineActivationWatchdogFail s fun t => t.mgmt.activation = none ∧ t.mgmt.active = s.mgmt.active) ∧
  (∀ c s, Takes s c 0x0200 → s.mgmt.nextSlot = none →
    exec (.getFwInfo c) s
      = .next (complete c 0x0200 .success
          (.nums ([2, s.mgmt.active + 1, 0] ++ slotRevision s 0 ++ slotRevision s 1)) s))

/-- Supervisor and management watchdogs and restarts, the hub, ownership and the diagnostic commands complete (R34, R36, R40 to
R43, R530, R584). -/
def Obligations.SupervisorAndHubCommandsComplete : Prop :=
  (∀ (k : Fin 4) x s, supOf s (k + 1) = some x → x.mode = .running →
    (x.expiries.filter fun t => decide (s.time.mono < t + 600000000000)).length < 2 →
    After (.supervisorWatchdogExpiry k) s fun t =>
      ∃ y, supOf t (k + 1) = some y ∧ y.mode = .restarting ∧ y.restarts = x.restarts + 1) ∧
  (∀ (k : Fin 4) x s, supOf s (k + 1) = some x → x.mode = .running →
    2 ≤ (x.expiries.filter fun t => decide (s.time.mono < t + 600000000000)).length →
    After (.supervisorWatchdogExpiry k) s fun t => ∃ y, supOf t (k + 1) = some y ∧ y.mode = .halted) ∧
  (∀ (k : Fin 4) x s, supOf s (k + 1) = some x → x.mode = .restarting → s.mgmt.activation = none →
    After (.supervisorRestartDone k) s fun t =>
      ∃ y, supOf t (k + 1) = some y ∧ y.mode = .running ∧ y.slot = s.mgmt.runSlot.getD s.mgmt.active) ∧
  (∀ c (b : Byte) x s, Takes s c 0xCF03 → supOf s (b.toNat + 1) = some x → x.mode = .running → s.mgmt.activation = none →
    exec (.restartSupervisor c [b]) s = .next (complete c 0xCF03 .success .none (restartSup (b.toNat + 1) x s))) ∧
  (∀ s, s.mgmt.running = true → s.mgmt.restarting = false →
    After .mgmtWatchdogExpiry s fun t => t.mgmt.restarting = true ∧ t.mgmt.transfer = none ∧ t.mgmt.spdm = [] ∧
      t.mgmt.activation = none) ∧
  (∀ (c : Fin 10) op out s, s.mgmt.restarting = true → (cciOf s c).wait = some (op, out) →
    After .mgmtRestartDone s fun t => t.mgmt.restarting = false ∧ (cciOf t c).wait = none ∧
      (cciOf t c).rc = .internalError) ∧
  (∀ r s, s.mgmt.running = true → s.mgmt.hub = [r] → r.item = .thermalPause 2 → r.sender = 4 → r.receiver = 2 →
    (∀ n, inboundOf s n = []) → nodeRuns s 2 = true →
    After (.hubRequestDeliver []) s fun t => t.mgmt.hub = [] ∧
      t.mgmt.hubDone = s.mgmt.hubDone ++ [(r.sender, r.receiver, true)] ∧ t.therm.applied = 2) ∧
  (∀ (n : Fin 61) (row : Fin 21) s, rowOwner row ≠ n → rowThrough row n = false →
    exec (.ownershipViolation n row) s = .next (raise 0x000 0xB001 n (rowOwner row) 0 s)) ∧
  (∀ c s, Takes s c 0xCF02 → 64 ≤ payloadLimit s c → AnswersBytes (.getSupervisorState c []) c 0xCF02 64 s) ∧
  (∀ c (b : Byte) s, Takes s c 0xCF04 → s.mgmt.debugLock = false →
    After (.setDebugAccess c [b]) s fun t => t.mgmt.debugAccess = (b.toNat % 2 == 1) ∧ (cciOf t c).rc = .success) ∧
  (∀ c (b : Byte) s, Takes s c 0xCF04 → s.mgmt.debugLock = true →
    exec (.setDebugAccess c [b]) s = .next (complete c 0xCF04 .invalidState .none s)) ∧
  (∀ c s, Takes s c 0xCF05 → 16 ≤ payloadLimit s c →
    exec (.getDeviceIdentity c []) s = .next (complete c 0xCF05 .success
      (.bytes (leBytes 8 s.mgmt.serial ++ leBytes 1 (b2n s.mgmt.gradeFX) ++ leBytes 1 s.mgmt.revoked.toNat ++
        leBytes 1 (b2n s.mgmt.debugLock) ++ zeros 1 ++ leBytes 4 s.mgmt.romVersion)) s)) ∧
  (∀ s, exec .trstNAssert s = .next { s with start := { s.start with tap := 0 } })

/-- Attestation messages of an SPDM endpoint complete in SPDM's order (R520). -/
def Obligations.AttestationMessagesComplete : Prop :=
  (∀ (e : Fin 6) s, spdmOpen s e = true →
    exec (.spdmGetVersion e) s
      = .next (setSpdm e { spdmOf s e with versionDone := true, capsDone := false, algsDone := false, resp := [0x04, 0x12] } s)) ∧
  (∀ (e : Fin 6) s, spdmOpen s e = true → (spdmOf s e).versionDone = true →
    exec (.spdmGetCapabilities e) s = .next (setSpdm e { spdmOf s e with capsDone := true, resp := [0x61] } s)) ∧
  (∀ (e : Fin 6) s, spdmOpen s e = true → (spdmOf s e).capsDone = true →
    exec (.spdmNegotiateAlgorithms e true) s = .next (setSpdm e { spdmOf s e with algsDone := true, resp := [0x63] } s)) ∧
  (∀ (e : Fin 6) s, spdmOpen s e = true → (spdmOf s e).algsDone = false →
    exec (.spdmGetDigests e) s = .next (setSpdm e { spdmOf s e with resp := [0x7F, 0x04] } s)) ∧
  (∀ (e : Fin 6) s, spdmOpen s e = true → (spdmOf s e).algsDone = true →
    exec (.spdmGetDigests e) s
      = .next (setSpdm e { spdmOf s e with resp := [0x01, Config.sha384 (certChain s)] } s)) ∧
  (∀ (e : Fin 6) s, spdmOpen s e = true → (spdmOf s e).algsDone = true →
    exec (.spdmGetCertificate e 0) s = .next (setSpdm e { spdmOf s e with resp := 0x02 :: certChain s } s)) ∧
  (∀ (e : Fin 6) nonce s, spdmOpen s e = true → (spdmOf s e).algsDone = true →
    exec (.spdmChallenge e 0 nonce) s
      = .next (setSpdm e { spdmOf s e with resp := signed_ [0x03, Config.sha384 (certChain s), nonce] } s)) ∧
  (∀ (e : Fin 6) i nonce s, spdmOpen s e = true → (spdmOf s e).algsDone = true → 1 ≤ i → i ≤ 11 →
    exec (.spdmGetMeasurements e i nonce) s
      = .next (setSpdm e { spdmOf s e with resp := signed_ (0x60 :: measurement s i ++ [nonce]) } s)) ∧
  (∀ (e : Fin 6) pub s, spdmOpen s e = true → (spdmOf s e).algsDone = true →
    After (.spdmKeyExchange e 0 pub) s fun t =>
      (spdmOf t e).sessions = (spdmOf s e).sessions ++
        [{ id := (spdmOf s e).nextId, established := false, keyGen := 0, heartbeat := s.time.mono }] ∧
      (spdmOf t e).nextId = (spdmOf s e).nextId + 1) ∧
  (∀ (e : Fin 6) id y s, spdmOpen s e = true → (spdmOf s e).algsDone = true → sessionOf (spdmOf s e) id = some y →
    y.established = false →
    exec (.spdmFinish e id true) s
        = .next (setSpdm e { spdmOf s e with
            sessions := (spdmOf s e).sessions.map fun w => if w.id = id then { w with established := true } else w,
            resp := [0x65, id] } s) ∧
      exec (.spdmFinish e id false) s
        = .next (setSpdm e { spdmOf s e with
            sessions := (spdmOf s e).sessions.filter fun w => w.id != id, resp := [0x7F, 0x06] } s)) ∧
  (∀ (e : Fin 6) id y s, spdmOpen s e = true → (spdmOf s e).algsDone = true → sessionOf (spdmOf s e) id = some y →
    y.established = true →
    exec (.spdmEndSession e id) s
        = .next (setSpdm e { spdmOf s e with
            sessions := (spdmOf s e).sessions.filter fun w => w.id != id, resp := [0x6C, id] } s) ∧
      exec (.spdmKeyUpdate e id) s
        = .next (setSpdm e { spdmOf s e with
            sessions := (spdmOf s e).sessions.map fun w => if w.id = id then { y with keyGen := y.keyGen + 1 } else w,
            resp := [0x69, id] } s) ∧
      exec (.spdmHeartbeat e id) s
        = .next (setSpdm e { spdmOf s e with
            sessions := (spdmOf s e).sessions.map fun w => if w.id = id then { y with heartbeat := s.time.mono } else w,
            resp := [0x68, id] } s))

/-! ### Time base and clocks (14_time_base_and_clocks.md) -/

/-- Events and commands of the time base complete: PPS edges, ticks, the end of a half-rate run, oscillator compensation and its
table, clocks and PLLs, policy, alarm, timestamps and the metering snapshot copy (R455 to R467, R469, R471, R563). -/
def Obligations.TimeBaseCommandsComplete : Prop :=
  (∀ rising stable s, s.time.policy.ppsEn = true → s.time.policy.ppsEdge ≠ rising → 10 * s.time.policy.ppsFilter ≤ stable →
    s.time.tbRunning = true → s.time.pps = .locked → s.time.lastAccept = none → inWindow s.time (captureNow s) = true →
    exec (.ppsEdge rising stable) s = .next (edgeTick (captureNow s) (acceptEdge (captureNow s) s))) ∧
  (∀ rising stable s, s.time.policy.ppsEn = true → s.time.policy.ppsEdge ≠ rising → 10 * s.time.policy.ppsFilter ≤ stable →
    s.time.tbRunning = true → s.time.pps = .locked → s.time.lastAccept = none → inWindow s.time (captureNow s) = false →
    exec (.ppsEdge rising stable) s = .next (countOut s)) ∧
  (∀ s, s.time.pps = .locked → (s.time.secMark + 1) * 1000000000 + s.time.policy.ppsWindow * 1000 ≤ s.time.tbNow →
    exec .ppsWindowClose s = .next (tickAt (s.time.secMark + 1) false s)) ∧
  (∀ s, s.time.tbRunning = true → s.time.pps ≠ .locked → (s.time.secMark + 1) * 1000000000 ≤ s.time.tbNow →
    exec .secondTick s = .next (tickAt (s.time.secMark + 1) false s)) ∧
  (∀ s, s.time.halfRun = true → s.time.halfRem = 0 →
    exec .halfRateEnd s = .next { s with time := { s.time with halfRun := false, halfRuns := s.time.halfRuns + 1 } }) ∧
  (∀ temp s, diode22Broken s = false → exec (.oscCompensation temp) s
    = .next { s with time := { s.time with oscTemp := temp, oscComp := Config.oscFuse temp } }) ∧
  (∀ s, s.mgmt.platform.mode = .running →
    exec .oscTableWrite s = .next (cellarWrite 5 2 0x0B (oscTableBytes s) none s)) ∧
  (∀ s, exec .sysclkReturn s = .next { s with time := { s.time with sysGood := true, sysFallback := false } }) ∧
  (∀ d s, s.time.locking = [d] → s.time.lockQueue = [] →
    exec (.pllLockDone d) s
      = .next { setDom d .running s with time := { (setDom d .running s).time with locking := [] } }) ∧
  (∀ c s, Takes s c 0xC600 → 408 ≤ payloadLimit s c → AnswersBytes (.getTimeBaseState c []) c 0xC600 408 s) ∧
  (∀ c inp s, Takes s c 0xC601 → inp.length = 8 → timePolicyOk (timePolicyOf inp) = true →
    exec (.setTimeBasePolicy c inp) s
      = .next (waitsCommit c 0xC601 (cellarWrite 5 2 0x16 (timePolicyBytes (timePolicyOf inp)) none s))) ∧
  (∀ c inp s, Takes s c 0xC601 → inp.length = 8 → timePolicyOk (timePolicyOf inp) = false →
    exec (.setTimeBasePolicy c inp) s = .next (complete c 0xC601 .invalidInput .none s)) ∧
  (∀ c inp s, Takes s c 0xC602 → inp.length = 8 → s.time.tbNow < le inp 0 8 →
    exec (.setTimeAlarm c inp) s
      = .next (complete c 0xC602 .success .none { s with time := { s.time with alarm := le inp 0 8 } })) ∧
  (∀ s, s.time.alarm ≠ 0 → s.time.alarm ≤ s.time.tbNow → s.power.mode = .active →
    exec .timeAlarmFire s = .next (raise 0x060 0x8004 0 0 0 { s with time := { s.time with alarm := 0 } })) ∧
  (∀ c s, Takes s c 0x0300 →
    exec (.getTimestamp c) s = .next (complete c 0x0300 .success (.nums [tbRead s]) s)) ∧
  (∀ (c : Fin 10) v s, Takes s c 0x0301 → v < 2 ^ 64 → s.time.pps ≠ .locked → s.time.tbNow + 1000000 < v →
    s.time.alarm = 0 → s.drift.provisional = false →
    After (.setTimestamp c v) s fun t => t.time.tbNow = v ∧ t.time.timeSet = true ∧ t.time.steps = s.time.steps + 1) ∧
  (∀ (c : Fin 10) v s, Takes s c 0x0301 → v < 2 ^ 64 → s.time.pps ≠ .locked → s.time.tbNow ≤ v →
    v ≤ s.time.tbNow + 1000000 → s.time.alarm = 0 → s.drift.provisional = false →
    After (.setTimestamp c v) s fun t => t.time.tbNow = s.time.tbNow ∧ t.time.timeSet = true ∧
      t.time.slewRem = ((v : Int) - s.time.tbNow) * 1000000000) ∧
  (∀ b s, s.time.snapCopy = some b →
    After .snapshotCopyDone s fun t => t.time.tbMinute = b ∧ t.time.snapBuf = !s.time.snapBuf ∧
      t.time.snapSeq = (s.time.snapSeq + 1) % 2 ^ 31 ∧ t.time.snapCopy = none)

/-! ### Cellar book and event recorder (18_cellar_book_and_event_recorder.md) -/

/-- Cellar book commands and the completion of a write run complete (R530, R534 to R545). -/
def Obligations.CellarCommandsComplete : Prop :=
  (∀ c s, Takes s c 0xC800 → 136 ≤ payloadLimit s c → AnswersBytes (.getCellarBookInfo c []) c 0xC800 136 s) ∧
  (∀ c inp l r s, Takes s c 0xC801 → inp.length = 24 → le inp 1 3 = 0 → regionLog s.cellar (le inp 0 1) = some l →
    pwCheck s (le inp 0 1) (lockOf s (le inp 0 1)).readVer (le inp 8 16) = .good → (lockOf s (le inp 0 1)).fails = 0 →
    currentRec l.recs (le inp 4 4) = some r → r.data ≠ [] → 8 + r.data.length ≤ payloadLimit s c →
    exec (.readCellarRecord c inp) s
      = .next (complete c 0xC801 .success
          (.bytes (leBytes 4 r.seq ++ leBytes 2 r.data.length ++ zeros 2 ++ r.data)) s)) ∧
  (∀ c inp s, Takes s c 0xC802 → inp.length = 24 + le inp 2 2 → le inp 1 1 = 0 → le inp 0 1 = 7 → le inp 4 4 ≠ 0xFFFFFFFF →
    pwCheck s 7 (lockOf s 7).writeVer (le inp 8 16) = .good → (lockOf s 7).fails = 0 →
    exec (.writeCellarRecord c inp) s
      = .next (waitsCommit c 0xC802 (cellarWrite 5 7 (le inp 4 4) (inp.drop 24) none s))) ∧
  (∀ c inp s, Takes s c 0xC802 → inp.length = 24 + le inp 2 2 → le inp 1 1 = 0 → (le inp 0 1 = 2 ∨ le inp 0 1 = 6) →
    exec (.writeCellarRecord c inp) s = .next (complete c 0xC802 .unsupportedMailbox .none s)) ∧
  (∀ (c : Fin 10) w op out l s, s.power.vauxLow = false → s.cellar.writes = [w] → w.cci = some c.val → w.cls ≤ 5 →
    (cciOf s c).wait = some (op, out) → regionLog s.cellar w.region = some l →
    2 * currentPages l.recs w.key w.data.length ≤ l.pages → (w.region = 2 → w.key ≠ 0x14 ∧ w.key ≠ 0x15) →
    exec .cellarWriteComplete s
      = .next (complete c op .success out (applySetting w.region w.key w.data
          { s with cellar := (setRegionLog { s.cellar with writes := [] } w.region
                (appendRec (reclaim (recPages w.data.length) l.recs.length l) w.key w.data)) }))) ∧
  (∀ (c : Fin 10) w op out l s, s.power.vauxLow = false → s.cellar.writes = [w] → w.cci = some c.val → w.cls ≤ 5 →
    (cciOf s c).wait = some (op, out) → regionLog s.cellar w.region = some l →
    l.pages < 2 * currentPages l.recs w.key w.data.length →
    exec .cellarWriteComplete s
      = .next (complete c op .invalidState .none { s with cellar := { s.cellar with writes := [] } })) ∧
  (∀ c inp s, Takes s c 0xC803 → inp.length = 36 → le inp 2 2 = 0 → (le inp 0 1 = 2 ∨ le inp 0 1 = 6 ∨ le inp 0 1 = 7) →
    pwCheck s (le inp 0 1) (lockOf s (le inp 0 1)).writeVer (le inp 4 16) = .good → (lockOf s (le inp 0 1)).fails = 0 →
    exec (.setRegionPasswords c inp) s
      = .next (waitsCommit c 0xC803 (cellarWrite 5 2 0x20
          (passwordBytes (withPasswords (le inp 0 1) (byteAt inp 1) (le inp 20 16) s)) none s))) ∧
  (∀ r s, r ∈ [2, 6, 7] → s.time.mono < (lockOf s r).refusal →
    exec .lockoutPersist s = .next (cellarWrite 5 2 0x21 (lockoutBytes s) none s)) ∧
  (∀ c inp s, Takes s c 0xC804 → inp.length = 2 → le inp 0 2 ≤ 255 → 12 ≤ payloadLimit s c →
    exec (.getSpreadCounter c inp) s
      = .next (complete c 0xC804 .success (.bytes (leBytes 8 (spreadRead s (le inp 0 2)) ++
          leBytes 4 (spreadBase (tget s.cellar.spread (le inp 0 2) Spread.empty)).2)) s))

/-- Event recorder commands and events complete (R38, R39, R547 to R552). -/
def Obligations.RecorderCommandsComplete : Prop :=
  (∀ src e es s, (tget s.recorder.units src UnitBuf.empty).evs = e :: es → (tget s.recorder.units src UnitBuf.empty).lost = 0 →
    s.recorder.seqReady = true → (s.recorder.ringOn = true ∨ s.recorder.held.length < 64) →
    exec (.eventPost src) s
      = .next (recordPost e { s with recorder := { s.recorder with
          units := tput s.recorder.units src
            { evs := es, lost := 0, before := (tget s.recorder.units src UnitBuf.empty).before - 1 } } })) ∧
  (∀ src e es s, (tget s.recorder.units src UnitBuf.empty).evs = e :: es → (tget s.recorder.units src UnitBuf.empty).lost = 0 →
    s.recorder.seqReady = false → s.recorder.input.length < 256 →
    After (.eventPost src) s fun t => t.recorder.input = s.recorder.input ++ [e] ∧
      (tget t.recorder.units src UnitBuf.empty).evs = es) ∧
  (∀ src n s, (tget s.recorder.units src UnitBuf.empty).lost = n → 0 < n →
    (tget s.recorder.units src UnitBuf.empty).evs.length < 16 → s.recorder.seqReady = false → s.recorder.input.length < 256 →
    After (.eventOverflowRecord src) s fun t =>
      t.recorder.input = s.recorder.input ++ [{ src := src, code := 0xB005, p0 := src, p1 := n, p2 := 0, sev := 0 }] ∧
      (tget t.recorder.units src UnitBuf.empty).lost = 0 ∧ t.recorder.overflows = s.recorder.overflows + 1) ∧
  (∀ seq r k s, tfind s.recorder.ring (seq % 65536) = some r → r.seq = seq → r.sev = 5 →
    tget s.recorder.copyTime (seq % 4096) 0 + 60000000000 ≤ s.time.mono → tfind s.recorder.events (seq % 4096) = some k →
    k.seq = seq → k.rep < r.rep →
    exec (.criticalRepeatCopy seq) s
      = .next { s with recorder := { s.recorder with
          events := tput s.recorder.events (seq % 4096) r,
          copyTime := tput s.recorder.copyTime (seq % 4096) s.time.mono } }) ∧
  (∀ s, s.recorder.seqReady = true →
    exec .eventMarkWrite s
      = .next (cellarWrite 5 2 0x22 (leBytes 4 s.recorder.nextSeq) none s)) ∧
  (∀ c inp s, Takes s c 0xC900 → inp.length = 8 → le inp 1 1 = 0 → le inp 0 1 = 0 → le inp 2 2 ≤ 2040 →
    16 + 32 * (ringFrom s.recorder.ring (le inp 4 4) (le inp 2 2)).length ≤ payloadLimit s c →
    AnswersBytes (.getEventRecordsVendor c inp) c 0xC900
      (16 + 32 * (ringFrom s.recorder.ring (le inp 4 4) (le inp 2 2)).length) s) ∧
  (∀ c s, Takes s c 0xC901 → 28 ≤ payloadLimit s c →
    exec (.getEventRecorderState c []) s
      = .next (complete c 0xC901 .success (.bytes (leBytes 4 (newestSeq s.recorder.ring) ++
          leBytes 4 (newestSeq s.recorder.events) ++ leBytes 8 s.recorder.written ++ leBytes 8 s.recorder.folded ++
          leBytes 4 s.recorder.overflows)) s)) ∧
  (∀ c inp s, Takes s c 0xC902 → inp.length = 16 → le inp 3 1 = 0 → le inp 2 1 ≤ 5 →
    exec (.postTestEvent c inp) s
      = .next (complete c 0xC902 .success .none (raiseEv
          { src := 0, code := le inp 0 2, p0 := le inp 4 4, p1 := le inp 8 4, p2 := le inp 12 4, sev := le inp 2 1 } s)))

/-! ### Counters, metering, check-value units and engines (19_counters_metering_and_engines.md) -/

/-- Counter, sampling and metering commands and events complete (R555 to R564). -/
def Obligations.CounterCommandsComplete : Prop :=
  (∀ c (set : Byte) s, Takes s c 0xCA00 → set.toNat ≤ 4 → 1024 ≤ payloadLimit s c →
    AnswersBytes (.getCounterConfiguration c [set]) c 0xCA00 1024 s) ∧
  (∀ c inp s, Takes s c 0xCA01 → inp.length = 20 → le inp 2 2 = 0 → byteAt inp 0 ≤ 4 → byteAt inp 1 ≤ 63 →
    ctrDescOk (ctrDescOf inp 4) = true →
    After (.setCounterConfiguration c inp) s fun t =>
      ctrOf t (byteAt inp 0) (byteAt inp 1) = { Ctr.reset with
        desc := ctrDescOf inp 4, winNo := s.time.tbNow / (1000 * max 1 (ctrDescOf inp 4).window) } ∧ (cciOf t c).rc = .success) ∧
  (∀ c (set : Byte) s, Takes s c 0xCA02 → set.toNat ≤ 4 → 520 ≤ payloadLimit s c →
    AnswersBytes (.readCounters c [set]) c 0xCA02 520 s) ∧
  (∀ (set : Fin 5) (n : Fin 64) s, (ctrOf s set n).desc.enable = true → (ctrOf s set n).desc.mode = 2 →
    windowOf (ctrOf s set n) s.time.tbNow ≠ (ctrOf s set n).winNo →
    exec (.counterWindowEnd set n) s
      = .next (setCtr set n { ctrOf s set n with count := (ctrOf s set n).win % 2 ^ 64, win := 0,
                                                 winNo := windowOf (ctrOf s set n) s.time.tbNow, ended := none } s)) ∧
  (∀ (set : Fin 5) (n : Fin 64) v s, (ctrOf s set n).ended = some v → (ctrOf s set n).desc.enable = true →
    (ctrOf s set n).desc.mode = 2 → windowOf (ctrOf s set n) s.time.tbNow = (ctrOf s set n).winNo →
    exec (.counterWindowEnd set n) s
      = .next (setCtr set n { ctrOf s set n with count := v % 2 ^ 64, ended := none } s)) ∧
  (∀ (h : Fin 4) (n : Fin 64) (v : W64) s, (headOf s h).present = true → (headOf s h).linkUp = true →
    exec (.headCountWrite h n .whole v) s = .next (setCtr h n { ctrOf s h n with count := v.toNat } s)) ∧
  (∀ (h : Fin 4) (n : Fin 64) (v : W64) s, (headOf s h).present = true → (headOf s h).linkUp = true →
    After (.headCountWrite h n .low v) s fun t =>
      (ctrOf t h n).count = (ctrOf s h n).count / 2 ^ 32 * 2 ^ 32 + v.toNat % 2 ^ 32) ∧
  (∀ (h : Fin 4) (m : W64) s, (headOf s h).present = true → (headOf s h).linkUp = true →
    After (.counterOverflowClear h m) s fun t => ∀ n, n < 64 → m.getLsbD n = true → (ctrOf t h n).ovf = false) ∧
  (∀ x rest s, s.count.completions = x :: rest →
    exec .sampleCapture s = .next { s with count := { s.count with
      ctrs := tmap s.count.ctrs (fun k c => if k / 64 = x.set then sampleStep x c else c), completions := rest } }) ∧
  (∀ c (a b : Byte) y s, Takes s c 0xCA05 → a.toNat ≤ 4 → b.toNat ≤ 63 → (ctrOf s a.toNat b.toNat).sample = some y →
    32 ≤ payloadLimit s c →
    exec (.getCounterSample c [a, b]) s
      = .next (complete c 0xCA05 .success (.bytes (sampleBytes y))
          (setCtr a.toNat b.toNat { ctrOf s a.toNat b.toNat with sample := none } s))) ∧
  (∀ s, devUp s = true → exec .meterOccupancyTick s = .next (meterMs s)) ∧
  (∀ c inp s, Takes s c 0xCA03 → inp.length = 12 → le inp 3 1 = 0 → (tenantOf s (le inp 0 2)).st ≠ .free →
    le inp 4 8 = 0 → journalFull s = false →
    After (.setTenantMetering c inp) s fun t =>
      (tenantOf t (le inp 0 2)).meterEn = (bits (byteAt inp 2) 0 1 == 1) ∧ (meterOf t (le inp 0 2)).groups = [] ∧
      (cciOf t c).rc = .success) ∧
  (∀ c inp s, Takes s c 0xCA04 → inp.length = 3 → (tenantOf s (le inp 0 2)).st ≠ .free → byteAt inp 2 ≤ 1 →
    4096 ≤ payloadLimit s c → AnswersBytes (.getTenantMeter c inp) c 0xCA04 4096 s)

/-- Check-value unit commands and register accesses complete (R565, R567, R568). -/
def Obligations.CheckValueUnitCommandsComplete : Prop :=
  (∀ (h : Fin 4) (u : Fin 8) (v : W32) s, cvVisible s h u = true → (cvOf s u).held = none → v.toNat % 8 ≤ 3 →
    exec (.cvConfigWrite h u v) s
      = .next (setCv u (cvRestart { cvOf s u with poly := v.toNat % 8, useSeed := v.getLsbD 8 }) s)) ∧
  (∀ (h : Fin 4) (u : Fin 8) (v : W32) s, cvVisible s h u = true → (cvOf s u).held = none → 3 < v.toNat % 8 →
    exec (.cvConfigWrite h u v) s = .next (raise 0x039 0x9003 h (0x10000 + 0x1000 * u) 0 s)) ∧
  (∀ (h : Fin 4) (u : Fin 8) s, cvVisible s h u = true → (cvOf s u).held = none →
    exec (.cvRestartWrite h u) s = .next (setCv u (cvRestart (cvOf s u)) s)) ∧
  (∀ (h : Fin 4) (u : Fin 8) (o : Fin 4) (b : List Byte) s, cvVisible s h u = true → (cvOf s u).held = none →
    (b.length = 1 ∨ b.length = 2 ∨ b.length = 4) → o.val % b.length = 0 → (cvOf s u).feeds.length < 64 →
    exec (.cvFeedWrite h u o b) s = .next (setCv u { cvOf s u with feeds := (cvOf s u).feeds ++ [b] } s)) ∧
  (∀ (h : Fin 4) (u : Fin 8) s, cvVisible s h u = true →
    After (.cvResultRead h u false) s fun t =>
      t.eng.reads = s.eng.reads ++ [(h.val, cvResult (cvDrain (cvOf s u)))] ∧ (cvOf t u).feeds = []) ∧
  (∀ (h : Fin 4) (u : Fin 8) s, cvVisible s h u = false →
    exec (.cvResultRead h u false) s = .next { s with eng := { s.eng with reads := s.eng.reads ++ [(h.val, 0)] } }) ∧
  (∀ c (u h : Byte) s, Takes s c 0xCB03 → u.toNat ≤ 7 → h.toNat ≤ 3 → (headOf s h.toNat).present = true →
    exec (.assignCheckValueUnit c [u, h]) s
      = .next (complete c 0xCB03 .success .none
          (setCv u.toNat (cvRestart { cvOf s u.toNat with head := some h.toNat }) s)))

/-- Descriptor ring commands and doorbells complete (R569, Tables 19-8, 19-9 and 19-13). -/
def Obligations.DescriptorRingCommandsComplete : Prop :=
  (∀ c s, Takes s c 0xCB00 → 256 ≤ payloadLimit s c → AnswersBytes (.getEngineState c []) c 0xCB00 256 s) ∧
  (∀ c inp s, Takes s c 0xCB01 → inp.length = 8 → le inp 3 1 = 0 → le inp 0 2 ≤ 4095 → byteAt inp 2 ≤ 3 →
    (headOf s (byteAt inp 2)).present = true → le inp 6 2 = 256 → tfind s.eng.rings (le inp 0 2) = none →
    (tenantOf s (le inp 4 2)).st = .active →
    exec (.createDescriptorRing c inp) s
      = .next (complete c 0xCB01 .success .none (setDescRing (le inp 0 2)
          { head := byteAt inp 2, tenant := le inp 4 2, entries := 256, base := 0, tailP := 0, headP := 0, st := 0,
            lastError := 0, stopping := false } s))) ∧
  (∀ c inp s, Takes s c 0xCB02 → inp.length = 2 → le inp 0 2 ≤ 4095 → (tfind s.eng.rings (le inp 0 2)).isSome = true →
    ringServed s (le inp 0 2) = false →
    exec (.deleteDescriptorRing c inp) s
      = .next (complete c 0xCB02 .success .none
          { s with eng := { s.eng with rings := tdel s.eng.rings (le inp 0 2) } })) ∧
  (∀ c inp x s, Takes s c 0xCB04 → inp.length = 2 → le inp 0 2 ≤ 4095 → tfind s.eng.rings (le inp 0 2) = some x →
    8 ≤ payloadLimit s c → AnswersBytes (.getRingStateDescriptor c inp) c 0xCB04 8 s) ∧
  (∀ (h : Fin 4) (r : Fin 4096) (v : W64) x s, ringSeen s h r = some x → x.st = 0 →
    exec (.ringBaseWrite h r .whole v) s = .next (setDescRing r { x with base := v.toNat % 2 ^ 48 / 64 * 64 } s)) ∧
  (∀ (h : Fin 4) (r : Fin 4096) (v : W64) x s, ringSeen s h r = some x → x.st = 0 → x.base < 2 ^ 48 → x.base % 64 = 0 →
    exec (.ringBaseWrite h r .low v) s
      = .next (setDescRing r { x with base := x.base / 2 ^ 32 * 2 ^ 32 + v.toNat % 2 ^ 32 / 64 * 64 } s)) ∧
  (∀ (h : Fin 4) (r : Fin 4096) (v : W64) x s, ringSeen s h r = some x → x.st = 0 → x.base < 2 ^ 48 → x.base % 64 = 0 →
    exec (.ringBaseWrite h r .high v) s
      = .next (setDescRing r { x with base := v.toNat % 2 ^ 16 * 2 ^ 32 + x.base % 2 ^ 32 } s)) ∧
  (∀ (h : Fin 4) (r : Fin 4096) p (v : W64) x s, ringSeen s h r = some x → x.st ≠ 0 →
    exec (.ringBaseWrite h r p v) s = .next (raise 0x038 0x9003 h (0x11000000 + 0x1000 * r + 0) 0 s)) ∧
  (∀ (h : Fin 4) (r : Fin 4096) (v : W64) x s, ringSeen s h r = some x → v.toNat % 65536 < x.entries →
    exec (.ringTailDoorbell h r v) s = .next (setDescRing r { x with tailP := v.toNat % 65536 } s)) ∧
  (∀ (h : Fin 4) (r : Fin 4096) x s, ringSeen s h r = some x → x.st = 0 → ringInExtent s x = true →
    exec (.ringStart h r) s = .next (setDescRing r { x with st := 1 } s)) ∧
  (∀ (h : Fin 4) (r : Fin 4096) x s, ringSeen s h r = some x → x.st = 0 → ringInExtent s x = false →
    exec (.ringStart h r) s = .next (setDescRing r { x with st := 2, lastError := 1 } s)) ∧
  (∀ (h : Fin 4) (r : Fin 4096) x s, ringSeen s h r = some x → ringServed s r = false →
    exec (.ringStop h r) s = .next (setDescRing r { x with st := 0 } s)) ∧
  (∀ (h : Fin 4) (r : Fin 4096) x s, ringSeen s h r = some x → x.st = 1 → ringServed s r = true →
    exec (.ringStop h r) s = .next (setDescRing r { x with stopping := true } s)) ∧
  (∀ (h : Fin 4) (r : Fin 4096) x s, ringSeen s h r = some x → x.st = 2 →
    exec (.ringResume h r) s = .next (setDescRing r { x with st := 1 } s))

/-- Steps of a bulk engine complete: a descriptor is taken and started by its operation, a step is taken in, and the last
write-back advances the ring (R570, R573 to R575, Table 19-12). -/
def Obligations.EngineStepsComplete : Prop :=
  (∀ (e : Fin 16) k r tag s, s.ten.erasing = [] → engineFree s e = true → drainRunning s = false →
    nextFrom s.eng.rr ((s.eng.rings.filter fun p =>
      p.2.st == 1 && p.2.headP != p.2.tailP && !p.2.stopping && !ringServed s p.1).map (·.1)) = some k →
    tfind s.eng.rings k = some r → tagFor s (.engine e) = some tag →
    exec (.engineTakeDescriptor e) s
      = .next (engineAsks tag e { Engine.fresh with phase := .fetch, ring := some k, done := (engineOf s e).done } .rd
          (r.base + 64 * r.headP) 0 0 64 { s with eng := { s.eng with rr := k + 1 } })) ∧
  (∀ (e : Fin 16) r x tag s, engineRing s e = some r → engineOf s e = x → x.phase = .decoded → descOk x.desc = true →
    descOp x.desc = 1 → x.code = 0 → x.pos = 0 → tagFor s (.engine e) = some tag →
    exec (.descCopy e) s
      = .next (engineAsks tag e { x with phase := .readSrc } .rd (descSrc x.desc / 64 * 64) 0 0 64 s)) ∧
  (∀ (e : Fin 16) r x tag s, engineRing s e = some r → engineOf s e = x → x.phase = .decoded → descOk x.desc = true →
    descOp x.desc = 2 → x.code = 0 → x.pos = 0 → tagFor s (.engine e) = some tag →
    exec (.descFill e) s
      = .next (engineAsks tag e { x with phase := .write } .wr (descDst x.desc) (patternLine (descPattern x.desc))
          (BitVec.allOnes 64) 64 s)) ∧
  (∀ (e : Fin 16) r x tag s, engineRing s e = some r → engineOf s e = x → x.phase = .decoded → descOk x.desc = true →
    descOp x.desc = 5 → x.code = 0 → x.pos = 0 → (extOf s (extentOf (descSrc x.desc))).ownerDev = 0xFFF →
    tagFor s (.engine e) = some tag →
    exec (.descMigrate e) s
      = .next (engineAsks tag e { x with phase := .readSrc } .rd (descSrc x.desc / 64 * 64) 0 0 64 s)) ∧
  (∀ (e : Fin 16) r x c tag s, engineRing s e = some r → engineOf s e = x → x.phase = .decoded → descOk x.desc = true →
    descOp x.desc = 4 → x.code = 0 → x.pos = 0 → cvOf s (byteAt x.desc 1) = c → c.held = none →
    (c.head = none ∨ c.head = some r.head) → tagFor s (.engine e) = some tag →
    exec (.descChecksum e) s
      = .next (engineAsks tag e { x with phase := .readSrc } .rd (descSrc x.desc / 64 * 64) 0 0
          (min (64 - descSrc x.desc % 64) (descLen x.desc))
          (setCv (byteAt x.desc 1) { cvRestart c with held := some e.val } s))) ∧
  (∀ (e : Fin 16) r x c tag s, engineRing s e = some r → engineOf s e = x → x.phase = .decoded → descOk x.desc = true →
    descOp x.desc = 4 → cvOf s (byteAt x.desc 1) = c → (c.held.isSome = true ∨ ∃ h, c.head = some h ∧ h ≠ r.head) →
    tagFor s (.engine e) = some tag →
    exec (.descChecksum e) s
      = .next (engineAsks tag e { x with code := 3, phase := .writeBack } .wrPtl (r.base + 64 * r.headP)
          (backLine { x with code := 3 }) (BitVec.ofNat 64 (2 ^ 64 - 2 ^ 40)) 24 (releaseUnit e s))) ∧
  (∀ (e : Fin 16) r x tag s, engineRing s e = some r → engineOf s e = x → x.phase = .decoded → descOk x.desc = true →
    descOp x.desc = 3 → x.code = 0 → x.pos = 0 → tagFor s (.engine e) = some tag →
    exec (.descCompare e) s
      = .next (engineAsks tag e { x with result := 2 ^ 64 - 1, phase := .readSrc } .rd (descSrc x.desc / 64 * 64) 0 0 64 s)) ∧
  (∀ (e : Fin 16) r x tag s, engineRing s e = some r → engineOf s e = x → x.phase = .decoded → descOk x.desc = false →
    tagFor s (.engine e) = some tag →
    exec (.descInvalid e) s
      = .next (engineAsks tag e { x with code := 2, phase := .writeBack } .wrPtl (r.base + 64 * r.headP)
          (backLine { x with code := 2 }) (BitVec.ofNat 64 (2 ^ 64 - 2 ^ 40)) 24 (releaseUnit e s))) ∧
  (∀ (e : Fin 16) r p s, s.eng.resp.find? (fun q => q.1 == e.val) = some p → engineRing s e = some r →
    (engineOf s e).phase = .fetch → p.2.1 = 0 → slotErased s r.tenant = false → p.2.2.poison = false →
    exec (.engineStepDone e) s
      = .next (setEngine e { engineOf s e with phase := .decoded, desc := hostBytes p.2.2.data }
          { s with eng := { s.eng with resp := s.eng.resp.erase p } })) ∧
  (∀ (e : Fin 16) k r p s, s.eng.resp.find? (fun q => q.1 == e.val) = some p → (engineOf s e).ring = some k →
    tfind s.eng.engines e = some (engineOf s e) → tfind s.eng.rings k = some r → (engineOf s e).phase = .writeBack →
    (engineOf s e).code = 0 → p.2.1 = 0 → slotErased s r.tenant = false → r.stopping = false →
    After (.engineStepDone e) s fun t =>
      tfind t.eng.rings k = some { r with headP := (r.headP + 1) % max 1 r.entries, st := r.st, stopping := false,
                                          lastError := r.lastError } ∧
      t.eng.resp = s.eng.resp.erase p)

/-! ### Host ports (02_host_ports.md) -/

/-- A head that takes CXL.mem requests receives each kind of request: the request gets the lowest free tag, is classified, and
waits in its flow queue with its operation, address, tag and source; an opcode of no other row is logged and, if it expects data,
completed with poison (R29, R66, R68 to R71, R123). -/
def Obligations.HostRequestsAreQueued : Prop :=
  let queued := fun (h : Nat) (op : ReqOp) (a tag tg : Nat) (t : State) =>
    ∃ r, tfind t.ten.reqs tg = some r ∧ r.src = .head h ∧ r.op = op ∧ r.addr = a / 64 * 64 ∧ r.rtag = tag ∧
      tg ∈ (queueOf t (4 * r.tenant + r.cls)).reqs
  let takes := fun (h a tg : Nat) (s : State) =>
    HeadReady s h ∧ extentOf a < 241664 ∧ classify s (.head h) false (a / 64 * 64) = .queue ∧ tagFor s (.head h) = some tg
  (∀ (h : Fin 4) a (tag : Fin 65536) tg s, takes h a tg s →
    After (.memRd h (.dpa a) tag .none) s (queued h .rd a tag tg) ∧
    After (.memRdData h (.dpa a) tag .none) s (queued h .rdData a tag tg) ∧
    After (.memSpecRd h (.dpa a) .none) s (queued h .specRd a 0 tg) ∧
    (∀ (d : HostLine) p, After (.memWr h (.dpa a) tag d p .none) s (queued h .wr a tag tg)) ∧
    (∀ (d : HostLine) (be : W64) p, After (.memWrPtl h (.dpa a) tag d be p .none) s (queued h .wrPtl a tag tg))) ∧
  (∀ (h : Fin 4) (op : Fin 256) (tag : Fin 65536) s, HeadReady s h →
    exec (.unsupportedM2sOpcode h op tag false) s = .next (raise (0x020 + h) 0x9003 h op 0 (noteRequest s))) ∧
  (∀ (h : Fin 4) (op : Fin 256) (tag : Fin 65536) s, HeadReady s h →
    After (.unsupportedM2sOpcode h op tag true) s fun t =>
      ∃ r, (headOf t h).s2m = (headOf s h).s2m ++ [r] ∧ r.rtag = tag.val ∧ r.isData = true ∧ r.poison = true)

/-- Dispatch, stalled writes, viral, GPF and IDE commands of a head complete (R84 to R93, R126, R163). -/
def Obligations.HeadDataPathEventsComplete : Prop :=
  (∀ q s, drainRunning s = false → gapHolds s = false → s.power.exiting = false →
    pickOne (creditAll s) ((((creditAll s).ten.queues.filter fun p => !p.2.reqs.isEmpty).map (·.1)).filter
      (levelOne (creditAll s))) = some q →
    exec (.arbiterDispatchSlot .none) s
      = .next (dispatch q 1 { creditAll s with
          ten := { (creditAll s).ten with rr := (creditAll s).ten.rr.set (q % 4) (q + 4) } })) ∧
  (∀ tag at_ r s, s.front.stalls = [(tag, at_)] → tfind s.ten.reqs tag = some r → stallFree s r = true →
    exec .writeStallRelease s
      = .next (if r.op.isWrite then frontWrite tag r { s with front := { s.front with stalls := [] } }
          else frontRead tag r { s with front := { s.front with stalls := [] } })) ∧
  (∀ (h : Fin 4) s, (headOf s h).linkUp = true → (headOf s h).present = true → (headOf s h).viral = false →
    exec (.hostViralSignal h) s = .next (raise 0x010 0x9004 h 0 0 (setHead h { headOf s h with viral := true } s))) ∧
  (∀ (h : Fin 4) s, (headOf s h).linkUp = true →
    exec (.gpfPhase1 h) s
      = .next (setHead h { headOf s h with gpfSent := (headOf s h).gpfSent ++ [1], gpfWait := false } s)) ∧
  (∀ (h : Fin 4) s, (headOf s h).linkUp = true → (headOf s h).l1 = false → drainArmed s = false →
    exec (.gpfPhase2 h) s
      = .next (setHead h { headOf s h with gpfSent := (headOf s h).gpfSent ++ [2], gpfWait := false } s)) ∧
  (∀ (h : Fin 4) s, (headOf s h).linkUp = true → (headOf s h).l1 = false → devUp s = true → drainArmed s = true →
    exec (.gpfPhase2 h) s = .next (drainStart 2 [h] (setHead h { headOf s h with gpfWait := true } s))) ∧
  (∀ (h : Fin 4) s, (headOf s h).linkUp = true → (headOf s h).ide.on = true →
    After (.ideIntegrityFailure h) s fun t => (headOf t h).ide.insecure = true ∧ (headOf t h).aer = true ∧
      headTakes (headOf t h) = false) ∧
  (∀ (h : Fin 4) k s, (headOf s h).linkUp = true → (headOf s h).ide.pend = some k →
    exec (.ideStart h) s
      = .next (setHead h { headOf s h with ide := { on := true, insecure := false, cur := some k, pend := none } } s)) ∧
  (∀ (h : Fin 4) key p s, (headOf s h).linkUp = true → tfind s.mgmt.spdm h = some p →
    (p.sessions.any fun q => q.established) = true →
    exec (.cxlIdeKm h false key) s
        = .next (setHead h { headOf s h with ide := { (headOf s h).ide with pend := some key } } s) ∧
      exec (.cxlIdeKm h true key) s = .next (setHead h { headOf s h with ideIo := some key } s)) ∧
  (∀ (h : Fin 4) (off : Fin 536870912) s, (headOf s h).linkUp = true →
    exec (.bar2BadAccess h off) s = .next (raise (0x020 + h) 0x9003 h off 0 s)) ∧
  (∀ (h : Fin 4) (v : W32) s, (headOf s h).present = true → (headOf s h).linkUp = true →
    exec (.registerWrite h (.dvsec 0x34 v)) s
      = .next (setHead h { headOf s h with vendorEvtEn := v.getLsbD 1, devloadEn := v.getLsbD 0 } s)) ∧
  (∀ (h : Fin 4) (off : Nat) (v : W64) s, (headOf s h).present = true → (headOf s h).linkUp = true →
    exec (.registerWrite h (.bar2 off v)) s = .next s) ∧
  (∀ (h : Fin 4) (n : Fin 8) base size ways gran pos skip commit s, (headOf s h).present = true → (headOf s h).linkUp = true →
    ((headOf s h).decoders.getD n Decoder.off).committed = false →
    exec (.registerWrite h (.decoder n base size ways gran pos skip commit)) s
      = .next (setHead h { headOf s h with decoders := ((headOf s h).decoders.set n
          ⟨commit && decoderOk size ways gran pos, base, size, ways, gran, pos, skip⟩) } s)) ∧
  (∀ (h : Fin 4) (u : Fin 8) (v : W64) s, (headOf s h).present = true → (headOf s h).linkUp = true →
    (cvOf s u).head = some h.val →
    exec (.registerWrite h (.cvSeed u .whole v)) s = .next (setCv u { cvOf s u with seed := v.toNat } s))

/-- Links and resets of a head complete: L1, training, PERST_N, hot reset, link down, CXL Reset, function-level reset, a lost
reference clock and Memory_Active (R60 to R64, R99, R100, R466, R467). -/
def Obligations.HeadLinkAndResetEventsComplete : Prop :=
  (∀ (h : Fin 4) s, (headOf s h).linkUp = true → domOf s (3 + h) = .running →
    After (.aspmL1Entry h false) s fun t => (headOf t h).l1 = true ∧ domOf t (3 + h) = .gated) ∧
  (∀ (h : Fin 4) s, (headOf s h).linkUp = true →
    After (.aspmL1Entry h true) s fun t => (headOf t h).l1 = true ∧ domOf t (3 + h) = .stopped) ∧
  (∀ (h : Fin 4) s, AtWork s → (headOf s h).linkUp = true → (headOf s h).l1 = true → domOf s (3 + h) = .gated →
    After (.aspmL1Exit h) s fun t => (headOf t h).l1 = false ∧ domOf t (3 + h) = .running) ∧
  (∀ (h : Fin 4) (rate : Fin 65) (width : Fin 17) flit s, (headOf s h).present = true → (headOf s h).perst = false →
    (headOf s h).linkUp = false → devUp s = true → widthOk s h width = true →
    rateOk rate flit = true →
    After (.linkUp h rate width flit) s fun t => (headOf t h).linkUp = true ∧ (headOf t h).rate = rate.val ∧
      (headOf t h).width = width.val ∧ (headOf t h).flit = flit) ∧
  (∀ (h : Fin 4) s, (headOf s h).present = true → (headOf s h).perst = false →
    After (.perstNAssert h) s fun t => (headOf t h).perst = true ∧ (headOf t h).linkUp = false ∧
      (headOf t h).memActive = false ∧ (headOf t h).decoders = List.replicate 8 Decoder.off) ∧
  (∀ (h : Fin 4) s, AtWork s → (headOf s h).present = true → (headOf s h).perst = true →
    After (.perstNRelease h) s fun t => (headOf t h).perst = false ∧ (headOf t h).maRef = s.time.mono) ∧
  (∀ (h : Fin 4) s, (headOf s h).linkUp = true →
    exec (.hotReset h) s = .next (resetHead h s) ∧ exec (.linkDown h) s = .next (resetHead h s)) ∧
  (∀ (h : Fin 4) s, (headOf s h).linkUp = true →
    After (.cxlReset h) s fun t => (headOf t h).linkUp = true ∧ (headOf t h).memActive = false ∧ (headOf t h).viral = false ∧
      (headOf t h).ide.on = false ∧ t.ten.extA = s.ten.extA) ∧
  (∀ (h : Fin 4) s, (headOf s h).linkUp = true →
    exec (.functionLevelReset h) s = .next (setHead h { headOf s h with vendorEvtEn := true, devloadEn := true } s)) ∧
  (∀ s, exec (.refclkLoss 5) s
    = .next { raise 0x060 0x8003 5 0 0 s with time := { s.time with sysGood := false, sysFallback := true } }) ∧
  (∀ (h : Fin 4) s, (headOf s h).linkUp = true →
    After (.refclkLoss ⟨h.val, by omega⟩) s fun t => (headOf t h).linkUp = false ∧ t.time.hrefGood.getD h false = false) ∧
  (∀ (h : Fin 4) s, headTakes (headOf s h) = true → (headOf s h).memActive = false → devUp s = true → s.map.loaded = true →
    frontEnabled s = true → extentsReady s h = true → s.start.held = false → s.start.mediaError = false → s.epoch.arm = none →
    After (.memoryActiveSet h) s fun t => (headOf t h).memActive = true ∧
      (headOf t h).maTime = (s.time.mono - max (headOf s h).maRef s.start.upEnd) / 1000000)

/-! ### Tenants, extents, keys and flow queues (03_tenants_and_flow_queues.md) -/

/-- Extent, access and profile commands complete, with the copy of a bank (R112 to R116, R121, R122, R129, R143, R524). -/
def Obligations.ExtentAndProfileCommandsComplete : Prop :=
  (∀ c inp s, Takes s c 0xC000 → inp.length = 6 → 1 ≤ le inp 4 2 → le inp 4 2 ≤ 256 → le inp 0 4 + le inp 4 2 ≤ 241664 →
    6 + 40 * le inp 4 2 ≤ payloadLimit s c → AnswersBytes (.getExtentEntry c inp) c 0xC000 (6 + 40 * le inp 4 2) s) ∧
  (∀ c inp s, Takes s c 0xC001 → inp.length = 16 → assignBad inp s = false → (extOf s (le inp 0 4)).st = .unassigned →
    s.ten.withheld.contains (le inp 0 4) = false → (assignEntry inp s).crosses = false →
    (extOf s (le inp 0 4)).crosses = false → (extStg s (le inp 0 4)).crosses = false → journalFull s = false →
    le inp 14 1 = 0xFF →
    After (.assignExtent c inp) s fun t => extOf t (le inp 0 4) = assignEntry inp s ∧ (cciOf t c).rc = .success) ∧
  (∀ c inp s, Takes s c 0xC002 → inp.length = 4 → le inp 0 4 < 241664 → (extOf s (le inp 0 4)).st = .assigned →
    journalFull s = false →
    After (.unassignExtent c inp) s fun t => (extOf t (le inp 0 4)).st = .unassigned ∧ (cciOf t c).rc = .success) ∧
  (∀ (e : Fin 241664) s, (extOf s e).st = .releasing → (extOf s e).ownerDev = 0xFFF → extentInFlight s e = false →
    journalFull s = false → s.ten.affected.contains e.val = false → s.ten.releaseAsked = [] →
    exec (.releaseTrimDone e) s
      = .next (spareRecompute { moveExt e .assigned (trimExtent e (extOf s e).tenant s) with
          ten := { (moveExt e .assigned (trimExtent e (extOf s e).tenant s)).ten with
            releaseAsked := (moveExt e .assigned (trimExtent e (extOf s e).tenant s)).ten.releaseAsked.filter
              (· != e.val) } })) ∧
  (∀ c (h a : Byte) s, Takes s c 0xC030 → h.toNat ≤ 3 → a.toNat ≤ 2 → (headOf s h.toNat).present = true →
    exec (.setHeadAccess c [h, a]) s
      = .next (waitsCommit c 0xC030 (cellarWrite 5 2 0x09
          (((((pendingRec s 0x09).map fun d => (List.range 4).map (byteAt d)).getD s.mgmt.access).set h.toNat a.toNat).flatMap
            (leBytes 1)) none s))) ∧
  (∀ c s, Takes s c 0xC031 → 4 ≤ payloadLimit s c → AnswersBytes (.getHeadAccess c []) c 0xC031 4 s) ∧
  (∀ c inp s, Takes s c 0xC100 → inp.length = 8 → le inp 1 3 = 0 → bankedBusy s = false → journalFull s = false →
    exec (.setClassProfile c inp) s
      = .next (complete c 0xC100 .success .none (commit (.classProfile (le inp 0 1) false true (le inp 4 1)) s))) ∧
  (∀ c (p : Byte) s, Takes s c 0xC101 → 8 ≤ payloadLimit s c →
    exec (.getClassProfile c [p]) s
      = .next (complete c 0xC101 .success
          (.bytes (leBytes 4 (profOf s.ten.profA p.toNat) ++ leBytes 4 (profOf s.ten.profS p.toNat))) s)) ∧
  (∀ c inp s, Takes s c 0xC110 → inp.length = 4 → le inp 0 4 < 262144 → 48 ≤ payloadLimit s c →
    After (.getFlowQueueState c inp) s fun t => ∃ b, (cciOf t c).out = .bytes b ∧ b.length = 48 ∧
      (cciOf t c).rc = .success ∧ t.ten = s.ten) ∧
  (∀ c s, Takes s c 0xC111 → 48 ≤ payloadLimit s c → AnswersBytes (.getAdmissionTotals c []) c 0xC111 48 s) ∧
  (∀ s, s.ten.bankCopy = true →
    After .bankCopyDone s fun t => t.ten.extS = s.ten.extA ∧ t.ten.profS = s.ten.profA ∧ t.ten.epochS = s.ten.epochA ∧
      t.ten.bankCopy = false ∧ t.ten.extA = s.ten.extA)

/-- Tenant and key commands complete (R109 to R111, R121, R129, R132 to R141, R179, R209, R521). -/
def Obligations.TenantAndKeyCommandsComplete : Prop :=
  (∀ c inp s, Takes s c 0xC010 → inp.length = 2 → (tenantOf s (le inp 0 2)).st = .free → journalFull s = false →
    bankedBusy s = false → 2 ≤ payloadLimit s c → lowestSlot s < 65536 → (tenantOf s (le inp 0 2)).keyGen < 65536 →
    After (.createTenant c inp) s fun t => (tenantOf t (le inp 0 2)).st = .active ∧
      (tenantOf t (le inp 0 2)).slot = some (lowestSlot s) ∧
      (tenantOf t (le inp 0 2)).keyGen = (tenantOf s (le inp 0 2)).keyGen ∧ slotOf t (lowestSlot s) = .empty ∧
      (cciOf t c).out = .bytes (leBytes 2 (lowestSlot s))) ∧
  (∀ c inp k s, Takes s c 0xC011 → inp.length = 2 → (tenantOf s (le inp 0 2)).st = .active →
    extentCount s (le inp 0 2) = 0 → (tenantOf s (le inp 0 2)).slot = some k → journalFull s = false →
    After (.deleteTenant c inp) s fun t => (tenantOf t (le inp 0 2)).st = .free ∧ (tenantOf t (le inp 0 2)).slot = none ∧
      (tenantOf t (le inp 0 2)).keyGen = ((tenantOf s (le inp 0 2)).keyGen + 1) % 65536 ∧
      (tenantOf t (le inp 0 2)).keyCheck = 0 ∧ slotOf t k = .empty) ∧
  (∀ c inp s, Takes s c 0xC012 → inp.length = 48 → le inp 2 6 = 0 → (tenantOf s (le inp 0 2)).st ≠ .free →
    bankedBusy s = false → ceilingLow (qosOfBytes (inp.drop 8)) = false → s.ten.overcommit = false →
    withinLimits (setTenant (le inp 0 2) { tenantOf s (le inp 0 2) with qosS := qosOfBytes (inp.drop 8) } s) false = true →
    journalFull s = false →
    After (.setTenantProfile c inp) s fun t => (tenantOf t (le inp 0 2)).qosS = qosOfBytes (inp.drop 8) ∧
      (tenantOf t (le inp 0 2)).qosA = (tenantOf s (le inp 0 2)).qosA ∧ (cciOf t c).rc = .success) ∧
  (∀ c inp s, Takes s c 0xC013 → inp.length = 2 → accessOf s c ≠ 0 → 112 ≤ payloadLimit s c →
    AnswersBytes (.getTenant c inp) c 0xC013 112 s) ∧
  (∀ c s, Takes s c 0xC020 → 200 ≤ payloadLimit s c → AnswersBytes (.getKeyWrappingPublicKey c []) c 0xC020 200 s) ∧
  (∀ c inp pair t s, Takes s c 0xC021 → inp.length = 200 → le inp 2 2 = 0 →
    s.start.phases.contains 14 = true → (tenantOf s (le inp 0 2)).refusal ≤ s.time.mono →
    checkBlob (le inp 0 2) (inp.drop 4) s = .inr pair → s.persist.drain = none → s.place.cap = .normal →
    journalFull s = false → restoreTenant (le inp 0 2) (acceptKey (le inp 0 2) pair s) = t →
    exec (.loadTenantKey c inp) s
      = .next (if pendingOf t (le inp 0 2) = [] then complete c 0xC021 .success .none (finishLoad (le inp 0 2) t)
          else awaitCommit c 0xC021 .none { t with ten := { t.ten with loads := t.ten.loads ++ [(le inp 0 2, c.val)] } })) ∧
  (∀ c inp n rc s, Takes s c 0xC021 → inp.length = 200 → le inp 2 2 = 0 →
    s.start.phases.contains 14 = true → (tenantOf s (le inp 0 2)).refusal ≤ s.time.mono →
    checkBlob (le inp 0 2) (inp.drop 4) s = .inl (n, rc) →
    exec (.loadTenantKey c inp) s = .next (complete c 0xC021 rc .none (loadFail (le inp 0 2) n s))) ∧
  (∀ c inp k key s, Takes s c 0xC022 → inp.length = 2 → (tenantOf s (le inp 0 2)).st = .active →
    (tenantOf s (le inp 0 2)).slot = some k → slotOf s k = .loaded key → s.place.cap = .normal →
    tenantDirty s (le inp 0 2) = false →
    exec (.unloadTenantKey c inp) s = .next (complete c 0xC022 .success .none (unloadSlot (le inp 0 2) s))) ∧
  (∀ c inp k s, Takes s c 0xC023 → bgBusy s c = false → inp.length = 2 → (tenantOf s (le inp 0 2)).st = .active →
    (tenantOf s (le inp 0 2)).slot = some k → s.ten.erasing.length < 16 → journalFull s = false →
    After (.cryptoEraseTenant c inp) s fun t => slotOf t k = .erased ∧ (cciOf t c).rc = .bgStarted ∧
      t.ten.erasing = s.ten.erasing ++ [{ tenant := le inp 0 2, cci := c.val }]) ∧
  (∀ (n : Fin 65536) j k s, s.ten.erasing.find? (fun j => j.tenant == n.val) = some j → extentCount s n = 0 →
    journalFull s = false → sweepHeld s n = true → (tenantOf s n).slot = some k → (tenantOf s n).keyGen < 65536 →
    After (.cryptoEraseSweepDone n) s fun t => slotOf t k = .empty ∧ (tenantOf t n).st = .free ∧ (tenantOf t n).slot = none ∧
      t.ten.erasing = s.ten.erasing.filter fun j => j.tenant != n.val)

/-! ### Front cache (04_front_cache.md) -/

/-- Front cache commands and events complete: scrubbing, registers, range operations and their walks, the modes, and the drain
engine's gathers, merges and commits (R148, R149, R157, R158, R164 to R177, R182, R295). -/
def Obligations.FrontCacheCommandsComplete : Prop :=
  (∀ e s, drainRunning s = false → exec (.frontScrubPass e) s = .next (frontError e s)) ∧
  (∀ i s, drainRunning s = false → (lineAt s i).st = .clean →
    exec (.frontScrubPass (.data i)) s = .next (dropLine i (raise 0x033 0x5001 (i / 16) (i % 16) 0 s))) ∧
  (∀ c inp s, Takes s c 0xC200 → inp.length = 6 → le inp 4 2 ≤ 256 → le inp 0 4 + le inp 4 2 ≤ 393216 →
    88 + 40 * le inp 4 2 ≤ payloadLimit s c → AnswersBytes (.getFrontCacheState c inp) c 0xC200 (88 + 40 * le inp 4 2) s) ∧
  (∀ c inp ms s, Takes s c 0xC201 → inp.length = 8 → le inp 1 3 = 0 → le inp 0 1 < 8 → 2 ≤ pop16 (BitVec.ofNat 16 (le inp 4 4)) →
    ms = (((pendingRec s 0x1B).map partMasksOf).getD s.front.masks).set (le inp 0 1) (BitVec.ofNat 16 (le inp 4 4)) →
    ms.foldl (· ||| ·) 0 = 0xFFFF#16 →
    exec (.setFrontCachePartition c inp) s
      = .next (waitsCommit c 0xC201 (cellarWrite 5 2 0x1B (ms.flatMap fun m => leBytes 4 m.toNat) none s))) ∧
  (∀ c inp s, Takes s c 0xC202 → inp.length = 4 → 50 ≤ bits (le inp 0 4) 24 8 → bits (le inp 0 4) 24 8 ≤ 90 →
    bits (le inp 0 4) 16 8 ≠ 0 → bits (le inp 0 4) 0 14 ≤ 10000 →
    exec (.setDrainPolicy c inp) s
      = .next (waitsCommit c 0xC202 (cellarWrite 5 2 0x19
          (leBytes 4 (bits (le inp 0 4) 24 8 * 2 ^ 24 + bits (le inp 0 4) 16 8 * 2 ^ 16 + bits (le inp 0 4) 0 14)) none s))) ∧
  (∀ (c : Fin 10) inp s, bgBusy s c = false → inp.length = 16 → le inp 0 8 % 256 = 0 → le inp 8 8 % 256 = 0 →
    le inp 0 8 < 2 ^ 48 → le inp 8 8 < 2 ^ 48 → (s.front.maint.filter fun m => m.status == 0).length < 8 →
    (Takes s c 0xC203 →
      exec (.cleanRange c inp) s = .next (startBg c 0xC203 (maintPosted 0xC203 c (le inp 0 8) (le inp 8 8) s))) ∧
    (Takes s c 0xC204 →
      exec (.invalidateRange c inp) s = .next (startBg c 0xC204 (maintPosted 0xC204 c (le inp 0 8) (le inp 8 8) s))) ∧
    (Takes s c 0xC205 →
      exec (.cleanAndInvalidateRange c inp) s
        = .next (startBg c 0xC205 (maintPosted 0xC205 c (le inp 0 8) (le inp 8 8) s)))) ∧
  (∀ (c : Fin 10) s, Takes s c 0xC206 → bgBusy s c = false → (s.front.maint.filter fun m => m.status == 0).length < 8 →
    exec (.invalidateAll c []) s = .next (startBg c 0xC206 (maintPosted 0xC206 c 0 (2 ^ 48) s))) ∧
  (∀ (n : Fin 8) m r s, s.front.maint[n.val]? = some m → m.status = 0 → m.walked = false → m.fills = [] →
    ((s.front.maint.drop (n.val + 1)).any fun x => x.status == 0 && rangesMeet x m) = false → drainRunning s = false →
    r = (if m.op = 0xC203 ∨ m.op = 0xC205 then maintClean m s else maintInvalidate m s) →
    exec (.maintenanceWalkDone n) s = .next (releaseHeld (advanceMaint n (setMaint n { r.1 with walked := true } r.2)))) ∧
  (∀ c s, Takes s c 0xC209 → 32 * s.front.maint.length ≤ payloadLimit s c →
    AnswersBytes (.getMaintenanceResults c []) c 0xC209 (32 * s.front.maint.length) s) ∧
  (∀ s, s.front.mode = .draining → dirtyLines s = 0 →
    exec .drainingComplete s = .next (continueEntry (reachOff s))) ∧
  (∀ c s, Takes s c 0xC207 → bgBusy s c = false → s.front.mode = .off →
    exec (.disableFrontCache c []) s = .next (complete c 0xC207 .success .none s)) ∧
  (∀ (c : Fin 10) s, Takes s c 0xC207 → bgBusy s c = false → (s.front.mode = .writeBack ∨ s.front.mode = .writeThrough) →
    exec (.disableFrontCache c []) s
      = .next (startBg c 0xC207 (urgentAll { s with front := { s.front with
          mode := .draining, invAllDone := false, disableCci := s.front.disableCci ++ [c.val] } }))) ∧
  (∀ (c : Fin 10) s, Takes s c 0xC207 → bgBusy s c = false → s.front.mode = .draining →
    exec (.disableFrontCache c []) s
      = .next (startBg c 0xC207 { s with front := { s.front with disableCci := s.front.disableCci ++ [c.val] } })) ∧
  (∀ c s, Takes s c 0xC208 → s.front.mode = .off → s.front.invAllDone = true →
    exec (.enableFrontCache c []) s = .next (complete c 0xC208 .success .none (enableFront s))) ∧
  (∀ c s, Takes s c 0xC208 → s.front.mode = .off → s.front.invAllDone = false →
    exec (.enableFrontCache c []) s = .next (complete c 0xC208 .invalidState .none s)) ∧
  (∀ l p a s, drainRunning s = false → urgentFrame s = some l →
    exec (.drainEngineSelect p a) s = .next (gather l 3 false p a s)) ∧
  (∀ l p a s, drainRunning s = false → urgentFrame s = none → drainPlace s = true → reservedFrame s = some l →
    exec (.drainEngineSelect p a) s = .next (gather l 3 true p a s)) ∧
  (∀ n a pfa u s, tfind s.front.asms n = some a → a.pfa = none → drainRunning s = false → asmEarlier s n a.lfa = false →
    a.merging = false → journalFull s = false → place (asmRole a) s = some (pfa, u) →
    exec (.mergeReadDone n 0 0) s
      = .next (queueAsm n { u with front := { u.front with asms := tput u.front.asms n { a with pfa := some pfa, merging := false } } })) ∧
  (∀ n a par again r u s, tfind s.front.asms n = some a → a.pfa = none → drainRunning s = false → asmEarlier s n a.lfa = false →
    a.merging = true → a.begun = true → readsDone s (.merge n) = true → r = asmParity (mergeImage n a s) par again s →
    u = dropReads (.merge n) (poisonFront a.lfa (readsBad s (.merge n)) r.2) →
    exec (.mergeReadDone n par again) s
      = .next (placeAsm n { u with front := { u.front with asms := tput u.front.asms n { r.1 with merging := false } } })) ∧
  (∀ n a ds s, tfind s.front.asms n = some a → slotOfAsm s n = some ds → (∀ o g, a.kind ≠ .copy o g) →
    asmDone s n = true →
    journalFull s = false →
    exec (.frameProgramDone n) s = .next (slotStart ds (afterCommit a.lfa (commitAsm n (slotClear ds s))))) ∧
  (∀ n a ds q qs p s, tfind s.front.asms n = some a → slotOfAsm s n = some ds → (busyOf s ds).failed = q :: qs →
    a.pfa = some p → drainRunning s = false → journalFull s = false →
    exec (.frameProgramFail n) s
      = .next (slotStart ds (placeAsm n (countFail 4 (failTile (groupOf p) q 1
          { slotClear ds s with front := { (slotClear ds s).front with
              asms := tput (slotClear ds s).front.asms n { a with pfa := none, programming := false } } })))))

/-! ### Persistence and hold-up (05_persistence_and_holdup.md) -/

/-- Power-fail events, drains, hold-up measurements and their commands complete (R183 to R201, R488). -/
def Obligations.PersistenceCommandsComplete : Prop :=
  (∀ s, s.persist.pwrFail = false → s.power.seq = none → s.power.hold = none → devUp s = true → drainRunning s = false →
    drainArmed s = true →
    exec .pwrFailNAssert s
      = .next (sendStorm (drainStart 0 [] { s with persist := { s.persist with pwrFailPin := true, pwrFail := true } }))) ∧
  (∀ s, s.persist.pwrFail = false → s.power.seq = none → s.power.hold = none → devUp s = true → drainRunning s = false →
    drainArmed s = false →
    exec .pwrFailNAssert s
      = .next (beginPowerDown 2 { s with persist := { s.persist with pwrFailPin := true, pwrFail := true } })) ∧
  (∀ v s, s.power.mode ≠ .off → v < s.persist.policy.supplyTrip → 1 ≤ s.persist.lowSamples → s.persist.pwrFail = false →
    s.power.seq = none → s.power.hold = none → devUp s = true → drainRunning s = false → drainArmed s = true →
    exec (.supplyMonitorTrip v) s
      = .next (sendStorm (drainStart 1 [] { s with persist := { s.persist with lowSamples := 2, pwrFail := true } }))) ∧
  (∀ v s, s.power.mode ≠ .off → v < s.persist.policy.supplyTrip → s.persist.lowSamples = 0 →
    exec (.supplyMonitorTrip v) s = .next { s with persist := { s.persist with lowSamples := 1 } }) ∧
  (∀ v s, s.power.mode ≠ .off → s.persist.policy.supplyTrip ≠ 0 → s.persist.policy.supplyTrip ≤ v →
    exec (.supplyMonitorTrip v) s = .next { s with persist := { s.persist with lowSamples := 0 } }) ∧
  (∀ v d t s, drainKick s = t → t.persist.drain = some d → imageWritten d t = true → imageWhole d = true →
    exec (.drainComplete v) s = .next (afterDrain d.triggers (endDrain 3 v d (drainBooks t)))) ∧
  (∀ v d t s, drainKick s = t → t.persist.drain = some d → imageWritten d t = true → imageWhole d = false →
    exec (.drainComplete v) s = .next (afterDrain d.triggers (endDrain 4 v d (drainBooks t)))) ∧
  (∀ d s, s.persist.drain = some d → bits d.triggers 4 1 = 1 →
    exec .bankAtVCutoff s = .next (handOver d.triggers (endDrain 4 s.persist.vNow d (drainBooks s)))) ∧
  (∀ d s, s.persist.drain = some d → bits d.triggers 4 1 = 0 →
    exec .bankAtVCutoff s
      = .next (handOver (d.triggers + 16)
          (endDrain 4 s.persist.vNow { d with triggers := d.triggers + 16 } (drainBooks s)))) ∧
  (∀ s, mayMeasure s = true → s.persist.phase = .idle → s.start.phases.contains 13 = true →
    s.persist.phaseAt + s.persist.policy.measurePeriod * 3600000000000 ≤ s.time.mono →
    exec .holdupMeasureSchedule s = .next (startMeasure none s)) ∧
  (∀ s, s.persist.phase = .lowering → s.persist.phaseAt + s.persist.policy.lullWait * 60000000000 ≤ s.time.mono →
    exec .holdupLullWaitExpiry s
      = .next (urgentAll { s with persist := { s.persist with phase := .forced, phaseAt := s.time.mono } })) ∧
  (∀ v s, (s.persist.phase = .lowering ∨ s.persist.phase = .forced) → dirtyLines s ≤ 4096 * s.persist.testCap.getD 0 →
    exec (.holdTestAssert v) s = .next { s with persist := { s.persist with
      phase := .test, phaseAt := s.time.mono, holdTest := true, v0New := v } }) ∧
  (∀ l s, s.persist.phase = .test → (fitBank s.persist.policy s.persist.v0New l).1 = 0 →
    After (.holdTestEnd l) s fun t => t.persist.phase = .recovering ∧ t.persist.holdTest = false ∧ t.persist.holdState = 1 ∧
      t.persist.esr = (fitBank s.persist.policy s.persist.v0New l).2.1 ∧
      t.persist.cUf = (fitBank s.persist.policy s.persist.v0New l).2.2 ∧ t.persist.lastMeasure = s.time.tbNow) ∧
  (∀ l s, s.persist.phase = .test → (fitBank s.persist.policy s.persist.v0New l).1 ≠ 0 → s.persist.measureCci = none →
    After (.holdTestEnd l) s fun t => t.persist.phase = .retry ∧ t.persist.holdState = 3 ∧
      t.persist.retryAt = some (s.time.mono + 60000000000)) ∧
  (∀ s, s.persist.phase = .recovering → s.persist.phaseAt + 10000000000 ≤ s.time.mono → s.persist.measureCci = none →
    After .holdupRecoveryDone s fun t => t.persist.phase = .idle ∧ t.persist.testCap = none ∧
      t.start.phases.contains 13 = true) ∧
  (∀ at_ s, s.persist.retryAt = some at_ → at_ ≤ s.time.mono → mayMeasure s = true →
    exec .holdupRetry s = .next (startMeasure none s)) ∧
  (∀ v s, devUp s = true → s.start.phases.contains 6 = true →
    exec (.energyRecompute v) s
      = .next (energyUpdate { s with persist := { s.persist with vNow := v % 65536 } })) ∧
  (∀ c s, Takes s c 0xC720 → 32 ≤ payloadLimit s c → AnswersBytes (.getHoldUpStatus c []) c 0xC720 32 s) ∧
  (∀ c inp s, Takes s c 0xC721 → inp.length = 16 → holdPolicyOk (holdPolicyOf inp) = true →
    exec (.setHoldUpParameters c inp) s
      = .next (waitsCommit c 0xC721 (cellarWrite 5 2 0x10 (holdPolicyBytes (holdPolicyOf inp)) none s))) ∧
  (∀ (c : Fin 10) s, Takes s c 0xC722 → bgBusy s c = false → mayMeasure s = true →
    exec (.measureHoldUp c []) s = .next (startBg c 0xC722 (startMeasure (some c.val) s))) ∧
  (∀ c s, Takes s c 0xC723 → 64 ≤ payloadLimit s c → AnswersBytes (.getDrainRecord c []) c 0xC723 64 s)


/-! ### Read path (06_read_path_and_latency_bounds.md) and translation map (07_translation_map_and_journal.md) -/

/-- Read path events and commands complete: map and back-cache reads, decodes, soft reads, fills, promotion, eviction, quarantine
and the two read path commands (R211 to R234). -/
def Obligations.ReadPathCommandsComplete : Prop :=
  (∀ line m r s, tfind s.front.miss line = some m → m.stage = .mapRead → copyUp s m.copyB (line / 16) = true →
    r = openRow (mapChan s m.copyB (line / 16)) (entryLoc s m.copyB (line / 16)) s →
    (copyBad s m.copyB (line / 16) = false → exec (.mapEntryReadDone line .none) s = .next (serveEntry line m r)) ∧
    (copyBad s m.copyB (line / 16) = true → exec (.mapEntryReadDone line .none) s = .next (checkFails line m r)) ∧
    exec (.mapEntryReadDone line .check) s = .next (checkFails line m r)) ∧
  (∀ line m f l c r s, tfind s.front.miss line = some m → m.stage = .mapRead → copyUp s m.copyB (line / 16) = true →
    c = mapChan s m.copyB (line / 16) → l = entryLoc s m.copyB (line / 16) → r = openRow c l s →
    exec (.mapEntryReadDone line (.uncorrectable f)) s = .next (otherCopy line m (freeze c 1 (frostAt f l) r)) ∧
    exec (.mapEntryReadDone line (.parity f)) s
      = .next (otherCopy line m (freeze c 1 (frostAt f l) (raiseParity 0x034 4 (line * 256) r)))) ∧
  (∀ rd f n pfa l r s, fetchOf s rd = some f → f.stage = .back n pfa → (slotChans s n).any (dramOut s) = false →
    f.latency = true → slotLoc s n (lineOfRead s rd % 16 * 256) = some l →
    r = openRow (chunkChan s n (lineOfRead s rd % 16 * 256)) l s →
    exec (.backCacheReadDone rd .none) s = .next (slotRead rd n f r) ∧
    (∀ d, exec (.backCacheReadDone rd (.uncorrectable d)) s
      = .next (slotLost rd n pfa f (freeze (chunkChan s n (lineOfRead s rd % 16 * 256)) 1 d r)))) ∧
  (∀ rd f n pfa e s, fetchOf s rd = some f → f.stage = .back n pfa → (slotChans s n).any (dramOut s) = true →
    dramOut s (dirChan s n) = false →
    exec (.backCacheReadDone rd e) s = .next (issueMedia rd pfa f s)) ∧
  (∀ rd f pos pfa s, fetchOf s rd = some f → stagePfa f.stage = some pfa → hardRead f.stage pos = true →
    inEngine s rd pfa pos = true →
    (∀ (up dn : List Nat), (up ++ dn).sum = 0 → exec (.codewordDecodeDone rd pos true up dn) s
      = .next (settleRead rd (decodeDone rd pos true f (noteDecode (groupOf pfa) up dn (endRead rd pfa pos s))))) ∧
    (∀ (up dn : List Nat), 0 < (up ++ dn).sum → exec (.codewordDecodeDone rd pos true up dn) s
      = .next (settleRead rd (decodeDone rd pos true f
          (bumpHealth 0 (noteDecode (groupOf pfa) up dn (endRead rd pfa pos s)))))) ∧
    (∀ up dn, exec (.codewordDecodeDone rd pos false up dn) s
      = .next (settleRead rd (decodeDone rd pos false f (noteDecode (groupOf pfa) up dn (endRead rd pfa pos s)))))) ∧
  (∀ rd f pos good pfa q soft w lost k s, fetchOf s rd = some f → f.stage = .slow pfa q soft w lost →
    (soft.find? fun p => p.1 == pos) = some (pos, k) → inEngine s rd pfa pos = true →
    exec (.slowPathSoftReadDone rd pos good) s
      = .next (settleRead rd (softDone rd pos k good f (endRead rd pfa pos s)))) ∧
  (∀ line m a r u s, tfind s.front.miss line = some m → m.stage = .ready →
    a = { s with front := { s.front with miss := tdel s.front.miss line } } → r = fillMerge line m a →
    u = fillEnds line (m.waiters.foldl (fun s t => answerRead r.1 r.2.1 m.outcome t s) r.2.2) →
    (m.outcome < 2 ∨ 5 < m.outcome → exec (.fillComplete line false) s = .next u) ∧
    (∀ e, 2 ≤ m.outcome → m.outcome ≤ 5 → mapEntry u (line / 16) = some e → e.st = .media →
      exec (.fillComplete line false) s = .next (promote (line / 16) e.loc m.latency u))) ∧
  (∀ line m a r s, tfind s.front.miss line = some m → m.stage = .ready → m.outcome < 2 ∨ 5 < m.outcome →
    a = raiseParity 0x033 1 (line * 256) { s with front := { s.front with miss := tdel s.front.miss line } } →
    r = fillMerge line m a →
    exec (.fillComplete line true) s
      = .next (fillEnds line (m.waiters.foldl (fun s t => answerRead r.1 true m.outcome t s) r.2.2))) ∧
  (∀ lfa n r e x s, (s.back.promoting.find? fun p => p.1 == lfa) = some (lfa, n) → readsDone s (.promote lfa) = true →
    r = dropReads (.promote lfa) { s with back := { s.back with promoting := s.back.promoting.filter fun p => p.1 != lfa } } →
    mapEntry r lfa = some e → tfind r.back.slots n = some x →
    (e.st = .media → e.loc = x.pfa → readsBad s (.promote lfa) = 0 → slotUp r n = true →
      exec (.promotionReadDone lfa) s = .next (postEntry lfa { e with st := .back, loc := n }
        { r with back := { r.back with
            slots := tput r.back.slots n { x with st := .valid, data := (List.range 16).map fun i =>
              (((readsOf s (.promote lfa)).find? fun p => p.2.line % 16 == i).map fun p => p.2.data).getD 0 },
            installs := r.back.installs + 1 } })) ∧
    (e.st ≠ .media ∨ e.loc ≠ x.pfa → exec (.promotionReadDone lfa) s = .next (freeTaken n r))) ∧
  (∀ n r s, s.back.wanted = true →
    r = sweepSlots ((s.back.slots.filter fun p => decide (s.back.hand ≤ p.1)) ++
      (s.back.slots.filter fun p => decide (p.1 < s.back.hand))) s →
    r.1 = some n →
    exec .backCacheEvict s = .next (evictSlot n { r.2 with back := { r.2.back with wanted := false } })) ∧
  (∀ n x s, tfind s.back.slots n = some x → x.st = .quarantined → quarantineOver s x.quarantine = true →
    exec (.quarantineExpiry n) s = .next { s with back := { s.back with slots := tdel s.back.slots n } }) ∧
  (∀ c inp s, Takes s c 0xC330 → inp.length = 1 → (le inp 0 1 < 36 ∨ le inp 0 1 = 0xFF) → 240 ≤ payloadLimit s c →
    AnswersBytes (.getReadPathState c inp) c 0xC330 240 s) ∧
  (∀ c inp s, Takes s c 0xC331 → inp.length = 4 → bits (le inp 0 4) 24 8 ≠ 0 → 2 ≤ bits (le inp 0 4) 20 4 →
    exec (.setBackCachePolicy c inp) s
      = .next (waitsCommit c 0xC331 (cellarWrite 5 2 0x1A (backPolicyBytes (backPolicyOf inp s.back)) none s)))

/-- Map and journal events and commands complete (R235 to R267). -/
def Obligations.MapAndJournalCommandsComplete : Prop :=
  (∀ r fs s, drainRunning s = false → s.map.root.isSome = true → stagingDue s = true → r = replaceMetas s →
    fs = cutFrames (unprogrammed r).length (unprogrammed r) → journalFits r fs.length = true →
    exec .stagingProgram s = .next (checkRunClosed (fs.foldl takeFrame r))) ∧
  (∀ r s, r = replaceMetas s → passFree r = true →
    (2 * journalArea r ≤ 5 * journalKept r ∨ r.map.passEnd + 3600000000000 ≤ r.time.mono ∨ r.map.passDue = true) →
    exec .checkpointPassStart s = .next (beginPass r)) ∧
  (∀ x s, s.map.pass = some x → drainRunning s = false → journalFull s = false →
    (s.map.passDone < passFrames x.ck → exec .checkpointPassEnd s = .next (issueCkpt s)) ∧
    (∀ r, passFrames x.ck ≤ s.map.passDone → s.map.passCci = none → r = commit (.ckptEnd x.slot x.ck.seq) s →
      exec .checkpointPassEnd s = .next (replaceMetas { r with map := { r.map with
        ckptSeq := x.ck.seq, pass := none, passDone := 0, passEnd := r.time.mono, passCci := none } }))) ∧
  (∀ (c : Fin 10) r s, Takes s c 0xC342 → bgBusy s c = false → s.map.pass = none → s.map.rebuild = [] → r = replaceMetas s →
    passFree r = true →
    exec (.startCheckpoint c []) s
      = .next (startBg c 0xC342 { beginPass r with map := { (beginPass r).map with passCci := some c.val } })) ∧
  (∀ f s, recoveryDue s = true → rootFits (recoveryBase s) = false →
    exec (.mapRecovery f) s = .next (finishRecovery (recoverNone (recoveryBase s)))) ∧
  (∀ f r s, recoveryDue s = true → rootFits (recoveryBase s) = true → r = recoverMedium f (recoveryBase s) →
    (imageLost r f.image = false → exec (.mapRecovery f) s = .next (finishRecovery r)) ∧
    (imageLost r f.image = true → exec (.mapRecovery f) s = .next (finishRecovery (countUnsafe r)))) ∧
  (∀ x r s, x = s.ten.affected.filter (regionBack s) → x ≠ [] → s.map.rebuild = [] → drainRunning s = false →
    r = abandonPass .success s →
    exec .mapRebuildStart s
      = .next (raise 0x034 0x4004 1 x.length 0 { r with map := { r.map with
          rebuild := x, rebuildAt := r.time.mono, rebuilt := 0, rebuildPoisoned := 0,
          copyA := { r.map.copyA with locked := r.map.copyA.locked ++ x.filter fun e => !r.map.copyA.locked.contains e },
          copyB := if r.map.mirror then
              { r.map.copyB with locked := r.map.copyB.locked ++ x.filter fun e => !r.map.copyB.locked.contains e }
            else r.map.copyB } })) ∧
  (∀ bad s, s.map.loaded = true → s.drift.activeAt.isSome = true → drainRunning s = false →
    s.map.markAll = true ∨ s.map.marked ≠ [] →
    exec (.frameMetadataScan bad) s = .next (unblock (scannedExtents s).contains (recount (scanMarked bad s))) ∧
    (scanMarked bad s).map.marked = [] ∧ (scanMarked bad s).map.markAll = false ∧
    (scanMarked bad s).map.scans = s.map.scans + (scannedFrames s).length ∧
    (scanMarked bad s).map.copyA = scanCopy bad s s.map.copyA) ∧
  (∀ badMap bad xs s, s.map.rebuild ≠ [] → drainRunning s = false → xs = s.map.rebuild.foldr insertAsc [] →
    exec (.mapRebuildDone badMap bad) s
      = .next (unblock xs.contains (raise 0x034 0x4004 0 xs.length 0 (rebuildMap badMap bad s))) ∧
    (rebuildMap badMap bad s).map.rebuild = [] ∧ (rebuildMap badMap bad s).map.rebuilt = s.map.rebuilt + xs.length) ∧
  (∀ c inp s, Takes s c 0xC340 → inp.length = 6 → le inp 0 5 < 262144 * s.map.extents → 152 ≤ payloadLimit s c →
    AnswersBytes (.getMapEntry c inp) c 0xC340 152 s) ∧
  (∀ c s, Takes s c 0xC341 → 60 ≤ payloadLimit s c → AnswersBytes (.getJournalState c []) c 0xC341 60 s) ∧
  (∀ c inp s, Takes s c 0xC343 → inp.length = 1 → le inp 0 1 ≤ 1 → dramMeets s (le inp 0 1 == 1) s.map.extents = true →
    exec (.setMapMirroring c inp) s
      = .next (waitsCommit c 0xC343 (cellarWrite 5 2 0x0E (leBytes 1 (le inp 0 1)) none s))) ∧
  (∀ c s, Takes s c 0xC344 → 25 ≤ payloadLimit s c → AnswersBytes (.getRebuildState c []) c 0xC344 25 s)


/-! ### Placement, wear and health (08_placement_wear_and_health.md) and drift (09_drift_vintage_and_topping.md) -/

/-- Placement events and commands complete: refills, busy slots, tile resets, racking, recovery, withholding, Write-Locked, health
(R268 to R296). -/
def Obligations.PlacementCommandsComplete : Prop :=
  (∀ (ds : Fin 512) r s, mediaUp s = true → drainRunning s = false → (liveSets s).contains ds.val = true → s.map.loaded = true →
    journalFull s = false → r = replaceMetas s →
    exec (.readyQueueRefill ds) s = .next (checkFormat (checkSanitize (placeWaiting { r with place := { r.place with
      ready := tput r.place.ready ds.val ((freePool r ds.val).take (shareFull r)) } })))) ∧
  (∀ (ds : Fin 512) r s, mediaUp s = true → drainRunning s = false → (liveSets s).contains ds.val = true → s.map.loaded = true →
    journalFull s = false → r = replaceMetas s → r.front.asms = [] → r.mgmt.sanitize = none → r.place.format = none →
    exec (.readyQueueRefill ds) s = .next { r with place := { r.place with
      ready := tput r.place.ready ds.val ((freePool r ds.val).take (shareFull r)) } }) ∧
  (∀ (ds : Fin 512) w d s, isDegraded s ds.val = false → setTraining s ds.val = false → drainRunning s = false →
    (busyOf s ds.val).cur = none → nextWork s ds.val (busyOf s ds.val) = some (w, d) →
    exec (.busySlotFree ds) s = .next (takeWork ds.val w (setBusy ds.val { busyOf s ds.val with defs := d } s))) ∧
  (∀ (ds : Fin 512) w s, isDegraded s ds.val = false → setTraining s ds.val = false → (busyOf s ds.val).cur = some w →
    exec (.busySlotFree ds) s = .next (startQuad ds.val s)) ∧
  (∀ g check s, (groupAt s g).st = (if check = true then .resetSuspect else .pendingReset) → fillHolds s g = false →
    isDegraded s (dieSetOf g) = false → drainRunning s = false → mediaUp s = true → (busyOf s (dieSetOf g)).waiting = [] →
    rackOf s g = none →
    exec (.tileResetStart g) s
      = .next (slotStart (dieSetOf g) (addWork (dieSetOf g) { prio := 5, kind := .reset g check } s))) ∧
  (∀ (ds : Fin 512) g p check s, (busyOf s ds).cur = some { prio := p, kind := .reset g check } → (busyOf s ds).quad = 9 →
    journalFull s = false → drainRunning s = false →
    exec (.tileResetDone ds) s = .next (resetGoesOn ds g p check
      ((busyOf s ds).failed.foldl (fun s q => countFail 5 (failTile g q 2 s)) s))) ∧
  (∀ (ds : Fin 512) g p check s, (busyOf s ds).cur = some { prio := p, kind := .reset g check } → (busyOf s ds).quad = 9 →
    journalFull s = false → drainRunning s = false → (busyOf s ds).failed = [] → isDegraded s ds = false → failedQuad s g = none →
    exec (.tileResetDone ds) s = .next (slotStart ds (groupReset g true (slotClear ds s)))) ∧
  (∀ (ds : Fin 512) g q p check s, (busyOf s ds).cur = some { prio := p, kind := .spare g q check } → (busyOf s ds).quad = 9 →
    journalFull s = false → drainRunning s = false →
    exec (.tileResetDone ds) s
      = .next (resetGoesOn ds g p check (spareDone g q (!(busyOf s ds).failed.isEmpty) s))) ∧
  (∀ (ds : Fin 512) r s, racksRun s = true → drainRunning s = false →
    (s.place.racks.any fun r => dieSetOf r.group == ds.val && r.step != 0) = false → s.map.loaded = true → journalFull s = false →
    queuedRack s ds = some r →
    exec (.rackingStart ds) s = .next (beginRack r.group s)) ∧
  (∀ (ds : Fin 512) g r s, racksRun s = true → drainRunning s = false →
    (s.place.racks.any fun r => dieSetOf r.group == ds.val && r.step != 0) = false → s.map.loaded = true → journalFull s = false →
    queuedRack s ds = none → isDegraded s ds = false → freeIn s ds ≤ rackThreshold s s.place.rackUrgent →
    r = { s with place := { s.place with racking := ds.val :: s.place.racking.filter (· != ds.val) } } →
    victim r ds 5 = some g →
    exec (.rackingStart ds) s = .next (beginRack g (addRack g 1 5 none false false r))) ∧
  (∀ n a ds c d s, tfind s.front.asms n = some a → slotOfAsm s n = some ds → a.kind = .copy c d → asmDone s n = true →
    journalFull s = false →
    exec (.rackingCopyDone n) s = .next (slotStart ds (copyDone n (slotClear ds s)))) ∧
  (∀ g x s, s.place.groups = [(g, x)] → x.st = .closed → exec .wearLevelRacking s = .next s) ∧
  (∀ g h x y s, s.place.groups = [(g, x), (h, y)] → x.st = .closed → (y.st = .closed ∨ y.st = .free) →
    x.cycles + s.place.wearSpread < y.cycles → racksRun s = true → drainRunning s = false → s.place.racks = [] →
    exec .wearLevelRacking s = .next (addRack g 1 6 none true false s)) ∧
  (∀ lfa pfa s, (s.place.reported.find? fun p => p.1 == lfa) = some (lfa, pfa) → racksRun s = true → drainRunning s = false →
    journalFull s = false →
    (readsOf s (.recovery lfa) = [] → (mapEntry s lfa).bind (entPfa s) = some pfa →
      exec (.recoveryRead lfa) s = .next (recoveryStart lfa pfa s)) ∧
    (readsOf s (.recovery lfa) ≠ [] → exec (.recoveryRead lfa) s = .next (recoveryEnd lfa s))) ∧
  (∀ r s, s.place.cap = .critical → (s.place.withholdAt = 0 ∨ s.place.withholdAt + 60000000000 ≤ s.time.mono) →
    journalFull s = false → r = askNow (withholdNow s) →
    exec .criticalWithhold s = .next (spareRecompute { r with place := { r.place with withholdAt := r.time.mono } })) ∧
  (∀ s, s.place.cap ≠ .writeLocked → s.map.loaded = true → s.map.root.isSome = true → journalFull s = false →
    (chooseSet s 1).isNone = true → waited50 s = true →
    exec .writeLockedEntry s = .next (discardStalls (setCap .writeLocked s))) ∧
  (∀ s, s.place.cap ≠ .writeLocked → s.map.loaded = true → s.map.root.isSome = true → journalFull s = false →
    s.mgmt.media.mode = .halted → (s.place.ready.all fun p => p.2.isEmpty) = true →
    exec .writeLockedEntry s = .next (discardStalls (setCap .writeLocked s))) ∧
  (∀ r s, r = flushHealth s →
    exec .healthCounterUpdate s = .next { r with place := { r.place with
      waSamples := (r.time.mono, r.place.progFrames, r.place.hostFrames) ::
        r.place.waSamples.filter fun p => decide (r.time.mono ≤ p.1 + 3600000000000) } }) ∧
  (∀ c s, Takes s c 0xC300 → 96 ≤ payloadLimit s c →
    ∃ b : List Byte, b.length = 96 ∧
      exec (.getMediaHealth c []) s = .next (complete c 0xC300 .success (.bytes b) (waX100 s).2)) ∧
  (∀ c inp s, Takes s c 0xC301 → inp.length = 5 → 1 ≤ byteAt inp 4 → byteAt inp 4 ≤ 64 → le inp 0 4 + byteAt inp 4 ≤ 2 ^ 19 →
    (dieSets s).contains (dieSetOf (le inp 0 4)) = true →
    (dieSets s).contains (dieSetOf (le inp 0 4 + byteAt inp 4 - 1)) = true → 16 + 32 * byteAt inp 4 ≤ payloadLimit s c →
    AnswersBytes (.getGroupInfo c inp) c 0xC301 (16 + 32 * byteAt inp 4) s) ∧
  (∀ c inp s, Takes s c 0xC302 → inp.length = 4 → s.place.format = none → overProvisionOk s (le inp 0 4) = true →
    exec (.setOverProvisioning c inp) s
      = .next (waitsCommit c 0xC302 (cellarWrite 5 2 0x08 (leBytes 4 (le inp 0 4)) none s))) ∧
  (∀ (c : Fin 10) inp s, Takes s c 0xC303 → bgBusy s c = false → inp.length = 4 → le inp 0 4 = 0x544D5246 →
    (s.ten.extA.any fun p => p.2.st != .unassigned) = false → pendingImages s = 0 → s.place.format = none →
    drainRunning s = false →
    exec (.formatMedia c inp) s
      = .next (startBg c 0xC303 { formatMedia s with place := { (formatMedia s).place with format := some c.val } })) ∧
  (∀ c inp s, Takes s c 0xC304 → inp.length = 8 → 10 ≤ bits (le inp 0 4) 24 8 → bits (le inp 0 4) 24 8 ≤ 90 →
    5 ≤ bits (le inp 0 4) 16 8 → bits (le inp 0 4) 16 8 + 5 ≤ bits (le inp 0 4) 24 8 → bits (le inp 0 4) 12 4 ≠ 0 →
    bits (le inp 0 4) 8 4 ≠ 0 → bits (le inp 0 4) 4 4 ≠ 0 → 500 ≤ le inp 6 2 → le inp 6 2 ≤ 20000 →
    exec (.setRelocationPolicy c inp) s
      = .next (waitsCommit c 0xC304 (cellarWrite 5 2 0x11
          (leBytes 4 (le inp 0 4 / 16 * 16) ++ leBytes 4 (le inp 6 2 * 65536)) none s))) ∧
  (∀ (c : Fin 10) inp s, Takes s c 0xC305 → bgBusy s c = false → inp.length = 4 → le inp 0 4 < 2 ^ 19 →
    (dieSets s).contains (dieSetOf (le inp 0 4)) = true → (groupAt s (le inp 0 4)).st = .closed →
    exec (.rackGroup c inp) s = .next (startBg c 0xC305 (addRack (le inp 0 4) 1 5 (some c.val) false false s)))

/-- Drift and topping events and commands complete (R297 to R322). -/
def Obligations.DriftCommandsComplete : Prop :=
  (∀ s, s.map.loaded = true → devUp s = true → s.drift.sweepDue = false →
    exec .weatheringTick s = .next ((dieSets s).foldl (weatherOne false) s)) ∧
  (∀ r s, s.map.loaded = true → devUp s = true → s.drift.sweepDue = true → s.drift.activeAt.isSome = true → mediaUp s = true →
    r = (dieSets s).foldl (weatherOne true) s →
    exec .weatheringTick s = .next { r with drift := { r.drift with sweepDue := false } }) ∧
  (∀ s, s.map.loaded = true → devUp s = true → s.mgmt.media.mode = .running →
    exec .driftClockWrite s = .next (writeDriftClock s)) ∧
  (∀ (c : Fin 36) temps s, (chanOf s c).mode ≠ .down → (chanOf s c).mreset = false →
    exec (.packageTempRead c temps) s
      = .next ((List.range 8).foldl (fun s p => packageTemp c p (temps.getD p none) s) s)) ∧
  (∀ g w r s, (s.drift.windows.find? fun w => w.group == g) = some w → s.drift.trimWindow * 256 ≤ w.decodes → journalFull s = false →
    r = stepTrims g (trimStep (w.up.getD 0 0) (w.dn.getD 0 0)) (trimStep (w.up.getD 1 0) (w.dn.getD 1 0))
      (trimStep (w.up.getD 2 0) (w.dn.getD 2 0)) s →
    exec (.trimWindowEnd g) s
      = .next { r with drift := { r.drift with windows := r.drift.windows.filter fun x => x.group != g } }) ∧
  (∀ xs r s, s.drift.readDue ≠ [] → journalFull s = false → xs = (s.drift.readDue.map fun g => (g, (groupAt s g).reads)) →
    r = commitAll ((inSixes xs.length xs).map .groupReads) s →
    exec .groupReadsRecord s = .next { r with drift := { r.drift with readDue := [] } }) ∧
  (∀ s, s.map.loaded = true → mediaUp s = true → exec .toppingEvaluate s = .next ((listedGroups s).foldl evalTop s)) ∧
  (∀ g s, racksRun s = true → drainRunning s = false → s.map.loaded = true → journalFull s = false →
    topFirst s .overdue = some g →
    exec .toppingStart s = .next (beginRack g (addRack g 2 5 none false false s))) ∧
  (∀ g s, racksRun s = true → drainRunning s = false → s.map.loaded = true → journalFull s = false →
    topFirst s .overdue = none → topFirst s .due = some g →
    exec .toppingStart s = .next (beginRack g (addRack g 2 6 none false false s))) ∧
  (∀ x n w k u v s, drainRunning s = false → journalFull s = false → s.map.loaded = true → imageDue s = some x →
    n = (drainParts s).length → n ≠ 0 → s.persist.setReset.contains (1 - x.set) = false → w = setW s (1 - x.set) →
    k = ((imageOn s x).map fun f => f.no / max 1 n + 1).foldl max 0 → w + k ≤ 131072 →
    u = putW (1 - x.set) (w + k) (copyImage (imageOn s x) (1 - x.set) w (drainParts s) s) →
    v = writeImageList (u.persist.imageList.map fun y => if y.seq = x.seq then { y with set := 1 - x.set, startW := w, rounds := k } else y)
      { u with persist := { u.persist with relocAt := none } } →
    exec .imageRelocate s = .next (armDrain (commit (.imageRelocated x.seq (1 - x.set) w k) v))) ∧
  (∀ x s, drainRunning s = false → journalFull s = false → s.map.loaded = true → imageDue s = some x → drainParts s = [] →
    exec .imageRelocate s = .next (logRelocation ((drainGroups s x.set).headD 0) s)) ∧
  (∀ c inp s, Takes s c 0xC310 → inp.length = 4 → 1 ≤ le inp 2 2 → le inp 2 2 ≤ 64 → le inp 0 2 + le inp 2 2 ≤ 512 →
    32 + 16 * le inp 2 2 ≤ payloadLimit s c →
    AnswersBytes (.getDriftState c inp) c 0xC310 (32 + 16 * le inp 2 2) s) ∧
  (∀ c inp s, Takes s c 0xC311 → inp.length = 8 → driftPolicyOk (driftPolicyOf inp s.drift) = true →
    exec (.setDriftPolicy c inp) s = .next (waitsCommit c 0xC311 (cellarWrite 5 2 0x12 (inp.take 8) none s))) ∧
  (∀ c inp s, Takes s c 0xC312 → inp.length = 3 → byteAt inp 0 < 36 → byteAt inp 1 < 8 → byteAt inp 2 < 16 →
    (dieOf s (dieId (byteAt inp 0) (byteAt inp 1) (byteAt inp 2))).present = true → 105 ≤ payloadLimit s c →
    AnswersBytes (.getDriftTable c inp) c 0xC312 105 s)

/-- Media channel events and commands complete: bring-up, training, package groups, status polls, service (R323 to R357). -/
def Obligations.MediaChannelCommandsComplete : Prop :=
  (∀ (c : Fin 36) found pk dies s, (chanOf s c).mode = .down → (chanOf s c).mreset = false → (chanOf s c).probed = false →
    s.start.phases.contains 6 = true → pk = ((found.take 8).map fun l => l.take 16) →
    dies = (pk.zipIdx.flatMap fun a => a.1.zipIdx.map fun b => (dieId c a.2 b.2, b.1)) →
    exec (.channelBringUp c found) s
      = .next (checkPopulation (syncMq (setChan c
          { chanOf s c with probed := true, found := pk.map (·.length), mck := 1600,
                            mode := if dies.isEmpty then .down else .training }
          (dies.foldl (fun s p => loadDrift p.1 (setDie p.1 (foundDie s p.1 p.2) s)) s))))) ∧
  (∀ (c : Fin 36) first second r s, (chanOf s c).mode = .training → trainAll (beginTraining c s) c first = some r →
    exec (.mediaFullTraining c first second) s = .next (checkPopulation (trainDone c 1 r.1 r.2 (beginTraining c s)))) ∧
  (∀ (c : Fin 36) first second r s, (chanOf s c).mode = .training → trainAll (beginTraining c s) c first = none →
    trainAll (beginTraining c s) c second = some r →
    exec (.mediaFullTraining c first second) s = .next (checkPopulation (trainDone c 2 r.1 r.2 (beginTraining c s)))) ∧
  (∀ (c : Fin 36) first second r s, (chanOf s c).mode = .training → r = beginTraining c s → trainAll r c first = none →
    trainAll r c second = none → (chanOf s c).trainCci = none →
    exec (.mediaFullTraining c first second) s
      = .next (checkPopulation (failChannel c (setChan c { chanOf r c with trainings := (chanOf s c).trainings + 2 } r)))) ∧
  (∀ (c : Fin 36) sweep x news s, (chanOf s c).mode = .inService → retrainDue s c = true → lull s c = true →
    otherTrains s c = false → drainRunning s = false →
    x = { noteRetrain (chanOf s c) with retrains := (chanOf s c).retrains + 1, wantRetrain := false, checkTimes := [] } →
    news = (x.pkgs.map fun p => (p.1, retrainPkg s c p.1 p.2 (sweepOf sweep p.1))) →
    ((news.any fun p => p.2.isNone) = false → exec (.mediaRetrain c sweep) s
      = .next (setChan c { x with pkgs := news.filterMap fun p => p.2.map fun v => (p.1, v) } s)) ∧
    ((news.any fun p => p.2.isNone) = true →
      exec (.mediaRetrain c sweep) s = .next (setChan c { x with mode := .training } s))) ∧
  (∀ (c : Fin 36) r s, (chanOf s c).probed = true → r = assertMreset c (loseWork c s) → (chanOf r c).mode ≠ .failed →
    exec (.packageGroupPgLost [c]) s
      = .next (syncMq (setChan c
          { chanOf r c with mode := .outOfService, pgLost := some ((chanOf r c).pgLost.getD r.time.mono) } r))) ∧
  (∀ (c : Fin 36) n s, (chanOf s c).pgLost = some n → n + 100000000 ≤ s.time.mono →
    ((List.range 64).filter fun r => (railRole (blobOf s) r == 9 || railRole (blobOf s) r == 10) &&
      (railChannels (blobOf s) r).any fun d => [c].any fun e => e.val == d) = [] →
    exec (.packageGroupReenable [c] false) s
      = .next (failChannel c (setChan c { chanOf s c with pgLost := none } s)) ∧
    ((chanOf s c).reenabled = false → exec (.packageGroupReenable [c] true) s = .next (reenable true s c))) ∧
  (∀ d ds b s, slotOfDie s d = some ds → exec (.programStatusPoll d false b) s = .next (invalidStatus d s)) ∧
  (∀ d ds b r u s, slotOfDie s d = some ds → r = busDone (chanOfDie d) (.status d) s →
    u = setChan (chanOfDie d) { chanOf r (chanOfDie d) with
      invalid := tdel (chanOf r (chanOfDie d)).invalid (16 * pkgOfDie d + idxOfDie d),
      retrained := (chanOf r (chanOfDie d)).retrained.filter (· != 16 * pkgOfDie d + idxOfDie d) } r →
    ((dieOf u d).array.isSome = true →
      exec (.programStatusPoll d true b) s = .next (busAdd (chanOfDie d) [statusForm d] u)) ∧
    (∀ w, (dieOf u d).array = none → (busyOf u ds).cur = some w → exec (.programStatusPoll d true b) s
      = .next (continueEntry (quadEnded ds
          (opFailed (dieOf u d) b w.kind || (busyOf u ds).failed.contains (busyOf u ds).quad) u)))) ∧
  (∀ d ds w s, slotOfDie s d = some ds → (dieOf s d).array.isSome = true → (busyOf s ds).cur = some w →
    w.kind.isReset = false →
    (journalFull s = false → 10 * (dieMax (dieOf s d)).1 < s.time.mono - (busyOf s ds).opAt →
      exec (.programOverrun d) s = .next (failDie d s)) ∧
    (2 * (dieMax (dieOf s d)).1 < s.time.mono - (busyOf s ds).opAt →
      s.time.mono - (busyOf s ds).opAt ≤ 10 * (dieMax (dieOf s d)).1 → (busyOf s ds).failed.contains (busyOf s ds).quad = false →
      exec (.programOverrun d) s
        = .next (setBusy ds { busyOf s ds with failed := (busyOf s ds).failed ++ [(busyOf s ds).quad] } s))) ∧
  (∀ d ds w s, slotOfDie s d = some ds → (dieOf s d).array.isSome = true → (busyOf s ds).cur = some w →
    w.kind.isReset = true → journalFull s = false → 10 * (dieMax (dieOf s d)).2 < s.time.mono - (busyOf s ds).opAt →
    exec (.programOverrun d) s = .next (failDie d s)) ∧
  (∀ c inp s, Takes s c 0xC350 → inp.length = 1 → byteAt inp 0 < 36 →
    24 + 16 * (chanPkgs s (byteAt inp 0)).length ≤ payloadLimit s c →
    AnswersBytes (.getMediaChannelState c inp) c 0xC350 (24 + 16 * (chanPkgs s (byteAt inp 0)).length) s) ∧
  (∀ (c : Fin 10) inp s, Takes s c 0xC351 → bgBusy s c = false → inp.length = 1 → byteAt inp 0 < 36 →
    otherTrains s (byteAt inp 0) = false → (chanOf s (byteAt inp 0)).trainCci = none →
    (chanOf s (byteAt inp 0)).mode = .inService →
    exec (.retrainMediaChannel c inp) s
      = .next (startBg c 0xC351 (setChan (byteAt inp 0)
          { chanOf s (byteAt inp 0) with trainCci := some c.val, mode := if lull s (byteAt inp 0) then .training else .inService } s))) ∧
  (∀ c inp s, Takes s c 0xC352 → inp.length = 3 → byteAt inp 0 < 36 → byteAt inp 1 < 8 → byteAt inp 2 < 16 →
    (dieOf s (dieId (byteAt inp 0) (byteAt inp 1) (byteAt inp 2))).present = true → 1028 ≤ payloadLimit s c →
    AnswersBytes (.getDieParameterPage c inp) c 0xC352 1028 s) ∧
  (∀ c inp s, Takes s c 0xCF00 → inp.length = 2 → byteAt inp 0 < 36 → byteAt inp 1 = 0 →
    (chanOf s (byteAt inp 0)).mode = .inService → (chanOf s (byteAt inp 0)).pgLost = none →
    otherTrains s (byteAt inp 0) = false → (chanOf s (byteAt inp 0)).trainCci = none → chanBusy s (byteAt inp 0) = false →
    exec (.setChannelService c inp) s
      = .next (complete c 0xCF00 .success .none
          (syncMq (setChan (byteAt inp 0) { chanOf s (byteAt inp 0) with mode := .outOfService } s)))) ∧
  (∀ c inp s, Takes s c 0xCF00 → inp.length = 2 → byteAt inp 0 < 36 → byteAt inp 1 = 1 →
    (chanOf s (byteAt inp 0)).mode = .outOfService → (chanOf s (byteAt inp 0)).pgLost = none → s.power.mode ≠ .dormant →
    exec (.setChannelService c inp) s
      = .next (complete c 0xCF00 .success .none
          (syncMq (setChan (byteAt inp 0) { chanOf s (byteAt inp 0) with mode := .inService } s)))) ∧
  (∀ c inp d k ch n u s, Takes s c 0xCF01 → inp.length = 14 + le inp 12 2 → ch = byteAt inp 0 → ch < 36 → n = byteAt inp 1 →
    (n = 4 ∨ n = 6 ∨ n = 10) → le inp 12 2 ≤ 1184 → (chanOf s ch).mode = .outOfService → (chanOf s ch).pgLost = none →
    parseCmd ((inp.drop 2).take (n - 1) ++ [BitVec.ofNat 8 (crc8 ((inp.drop 2).take (n - 1)))]) = some (d, k) →
    (∀ st len b, k ≠ .data st len b) →
    u = dieRun (dieId ch ((drawNat s).1 % 8) d) k (setChan ch { chanOf s ch with resp := [] } (drawNat s).2) →
    (mediaCommandOut u (some (d, k)) (chanOf u ch).resp).1.length ≤ payloadLimit s c →
    exec (.issueMediaCommand c inp) s
      = .next (complete c 0xCF01 .success (.bytes (mediaCommandOut u (some (d, k)) (chanOf u ch).resp).1)
          (mediaCommandOut u (some (d, k)) (chanOf u ch).resp).2))


/-! ### Media channels (10_media_channel.md) -/

/-- Media die commands that sense, and the results they leave, complete on a die that is ready (R330 to R335, R338, R339, R344,
Table 10-6). -/
def Obligations.DieReadCommandsComplete : Prop :=
  (∀ d e tile seg a b c s, DieReady s d → (dieOf s d).array = none → (engOf (dieOf s d) e).st = .idle →
    exec (.readSegSense d e tile seg a b c) s
      = .next (busDone (chanOfDie d) (.sense d) (setDie d (setEng (dieOf s d) e { engOf (dieOf s d) e with
          st := .sensing, form := some (clampForm (dieOf s d) (.seg tile seg a b c)) }) s)) ∧
    exec (.readSoft d e tile seg a b c) s
      = .next (busDone (chanOfDie d) (.sense d) (setDie d (setEng (dieOf s d) e { engOf (dieOf s d) e with
          st := .sensing, form := some (clampForm (dieOf s d) (.soft tile seg a b c)) }) s))) ∧
  (∀ d e tile seg a b c s, DieReady s d → (dieOf s d).array.isSome = true → (dieOf s d).suspended = false →
    exec (.readSegSense d e tile seg a b c) s
      = .next (busDone (chanOfDie d) (.sense d) (setDie d { dieOf s d with cmdReject := true } s))) ∧
  (∀ d copy s, DieReady s d → (dieOf s d).array = none → (dieOf s d).e0.st = .idle →
    exec (.readParamPage d copy) s
      = .next (setDie d { dieOf s d with e0 := { (dieOf s d).e0 with st := .sensing, form := some (.page (b2n copy)) } } s)) ∧
  (∀ d e st len s, DieReady s d → (engOf (dieOf s d) e).full = true → st + len ≤ (engOf (dieOf s d) e).valid →
    exec (.readSegOutput d e false st len) s
      = .next (busDone (chanOfDie d) (.output d st len)
          (respond (chanOfDie d) (outputBytes (dieOf s d) (engOf (dieOf s d) e) st len) s))) ∧
  (∀ d e st len s, DieReady s d → (engOf (dieOf s d) e).full = true → (engOf (dieOf s d) e).valid < st + len →
    exec (.readSegOutput d e false st len) s
      = .next (busDone (chanOfDie d) (.output d st len) (setDie d { dieOf s d with cmdReject := true } s))) ∧
  (∀ d e s, (engOf (dieOf s d) e).st = .sensing →
    exec (.senseLead d e) s
      = .next (leadBus d (setDie d (setEng (dieOf s d) e { engOf (dieOf s d) e with st := .lead }) s))) ∧
  (∀ d e s, (engOf (dieOf s d) e).st = .lead → (engOf (dieOf s d) e).full = true →
    exec (.senseResultReady d e) s
      = .next (setDie d (setEng (dieOf s d) e { engOf (dieOf s d) e with st := .held }) s)) ∧
  (∀ d e s, (engOf (dieOf s d) e).st = .lead → (engOf (dieOf s d) e).full = false →
    exec (.senseResultReady d e) s = .next (moveResult d e s)) ∧
  (∀ (c : Fin 36) (p : Fin 8) s, exec (.statusPoll c p) s = .next (busDone c (.poll p) (pollPkg c p s))) ∧
  (∀ d s, DieReady s d →
    After (.statusDie d) s fun t => (dieOf t d).cmdReject = false ∧ (dieOf t d).cmdCheck = false ∧
      (chanOf t (chanOfDie d)).resp = wordResp (statusWord (dieOf s d))) ∧
  (∀ (c : Fin 36) s, mrdyLow s c = true →
    exec (.mrdyNFall c) s = .next (((List.range 8).filter fun p => pkgOutstanding s c p).foldl
      (fun s p => busDone c (.poll p) (pollPkg c p s)) s) ∧
    exec (.mrdyNRepoll c) s = .next (((List.range 8).filter fun p => pkgOutstanding s c p).foldl
      (fun s p => busDone c (.poll p) (pollPkg c p s)) s))

/-- Media die commands that program, reset, suspend, set a feature or report, and the ends of array operations, complete
(R330, R336 to R343, R347 to R351, Table 10-7, Table 10-9). -/
def Obligations.DieArrayCommandsComplete : Prop :=
  (∀ d tile seg s, DieReady s d → arrayFree (dieOf s d) = true →
    exec (.progSegSetup d tile seg) s
      = .next (setDie d { dieOf s d with setup := some (tile, seg), buf := 0, bufSet := 0, progFail := false } s)) ∧
  (∀ d tile seg s, DieReady s d → arrayFree (dieOf s d) = false →
    exec (.progSegSetup d tile seg) s = .next (setDie d { dieOf s d with cmdReject := true } s) ∧
    exec (.resetTile d tile) s = .next (setDie d { dieOf s d with cmdReject := true } s)) ∧
  (∀ d st len bs s, DieReady s d → (dieOf s d).setup.isSome = true → 8 * st + 8 * len ≤ 592 →
    After (.progSegData d st len bs) s fun t =>
      (dieOf t d).bufSet = (dieOf s d).bufSet ||| (BitVec.ofNat 592 (2 ^ (8 * len) - 1) <<< (8 * st)) ∧
      (dieOf t d).setup = (dieOf s d).setup) ∧
  (∀ d tile seg s, DieReady s d → (dieOf s d).setup = some (tile, seg) → (dieOf s d).bufSet = BitVec.allOnes 592 →
    (dieOf s d).trainMode ≠ 2 →
    exec (.progSegConfirm d) s = .next (setDie d { dieOf s d with array := some (.prog tile seg), setup := none } s)) ∧
  (∀ d tile s, DieReady s d → arrayFree (dieOf s d) = true →
    exec (.resetTile d tile) s = .next (setDie d { dieOf s d with array := some (.reset tile), resetFail := false } s)) ∧
  (∀ d f v s, DieReady s d → (dieOf s d).array = none → enginesIdle (dieOf s d) = true → featureOk f v = true →
    (4 ≤ f ∨ idxOfDie d = 0) →
    exec (.setFeature d f v) s = .next (setDie d (putFeature (dieOf s d) f v) s)) ∧
  (∀ d f s, DieReady s d →
    exec (.getFeature d f) s = .next (respond (chanOfDie d) (wordResp (readFeature s d f)) s)) ∧
  (∀ d s, DieReady s d → (dieOf s d).array.isSome = true → (dieOf s d).suspended = false →
    exec (.suspend d) s = .next (setDie d { dieOf s d with suspended := true } s)) ∧
  (∀ d s, DieReady s d → (dieOf s d).suspended = true →
    exec (.resume d) s = .next (setDie d { dieOf s d with suspended := false } s)) ∧
  (∀ (c : Fin 36) (p : Fin 8) s, DieReady s (dieId c p 0) →
    exec (.tempRead c p) s
      = .next (respond (chanOfDie (dieId c p 0)) (wordResp (unsignedOf 12 (dieOf s (dieId c p 0)).temp * 16 +
          b2n (dieOf s (dieId c p 0)).tempDone * 8 + 2)) s)) ∧
  (∀ (c : Fin 36) (p : Fin 8) s, DieReady s (dieId c p 0) →
    ((pkgDies (chanOfDie (dieId c p 0)) (pkgOfDie (dieId c p 0))).all fun i =>
      (dieOf s i).array.isNone && enginesIdle (dieOf s i)) = true →
    exec (.calibrate c p) s = .next (setDie (dieId c p 0)
      { dieOf s (dieId c p 0) with calEnd := (drawNat s).2.time.mono + (drawNat s).1 % 16001 } (drawNat s).2)) ∧
  (∀ (c : Fin 36) (p : Fin 8) cmd s, parseCmd cmd = none → (chanOf s c).mreset = false →
    exec (.cmdCheckFail c p cmd) s = .next (sendAgain c p (cmdCheckAll c p s))) ∧
  (∀ d tile seg s, (dieOf s d).array = some (.prog tile seg) → (dieOf s d).suspended = false →
    segBlank (dieOf s d) tile seg = true →
    After (.dieProgramEnd d true) s fun t => (dieOf t d).array = none ∧ (dieOf t d).progFail = false ∧
      segContent (dieOf t d) tile seg = (dieOf s d).buf) ∧
  (∀ d tile s, (dieOf s d).array = some (.reset tile) → (dieOf s d).suspended = false →
    After (.dieTileResetEnd d true) s fun t => (dieOf t d).array = none ∧ (dieOf t d).resetFail = false) ∧
  (∀ c s, exec (.mresetNAssert c) s = .next (assertMreset c (stopWork c s))) ∧
  (∀ (c : Fin 36) s, exec (.mresetNRise c) s = .next (setChan c { chanOf s c with mreset := false, mck := 200 } s))


/-! ### DRAM subsystem (11_dram_subsystem.md) -/

/-- DRAM training, fill, alerts, scrubbing, refresh, temperature polls and self-refresh complete (R358 to R376). -/
def Obligations.DramChannelEventsComplete : Prop :=
  (∀ (c : Fin 8) d ds first second l temp s, (dramOf s c).cci = none → (dramOf s c).mode = .training → drainRunning s = false →
    (dramOf s c).thaw = false → (dramOf s c).spd = false → s.start.phases.contains 6 = true →
    dramTrain first second = some l →
    exec (.dramTraining c (d :: ds) first second temp) s
      = .next (checkDram (setDram c { dramOf s c with spd := true, dimms := d :: ds, mode := .filling, lanes := l, trainTemp := 16 * temp } s))) ∧
  (∀ (c : Fin 8) dimms first second temp s, (dramOf s c).cci = none → (dramOf s c).mode = .training → drainRunning s = false →
    (dramOf s c).thaw = false → (dramOf s c).spd = false → s.start.phases.contains 6 = true →
    dramTrain first second = none →
    exec (.dramTraining c dimms first second temp) s
      = .next (checkDram (setDram c { dramOf s c with spd := true, dimms := dimms, trainFails := 2 } s))) ∧
  (∀ s, s.start.phases.contains 8 = true → s.start.held = false → s.dram.filled = false →
    exec .dramFillDone s = .next (markPhase 9 { s with dram := { s.dram with
      chans := tmap s.dram.chans fun _ x => if x.mode = .filling then { x with mode := .inService, lapStart := s.time.mono } else x,
      filled := true, mapGrainNow := s.dram.mapGrain, backGrainNow := s.dram.backGrain } })) ∧
  (∀ (c : Fin 8) f s, (dramOf s c).mode = .inService → 2 ≤ (dramOf s c).crcAlerts →
    exec (.writeCrcAlert c true f) s
      = .next (freeze c 2 f (setDram c { dramOf s c with crcAlerts := (dramOf s c).crcAlerts + 1 } s))) ∧
  (∀ (c : Fin 8) f s, (dramOf s c).mode = .inService →
    exec (.writeCrcAlert c false f) s = .next (setDram c { dramOf s c with crcAlerts := 1 } s)) ∧
  (∀ (c : Fin 8) f s, exec (.caParityAlert c f) s = .next (freeze c 3 f s)) ∧
  (∀ (c : Fin 8) l r u s, (dramOf s c).mode = .inService → s.dram.scrubEn = true →
    l = dramLoc (dramOf s c) (64 * (dramOf s c).scrubPos) → r = openRow c l s →
    (dramOf r c).scrubPos + 1 < chanBursts (dramOf r c) →
    u = setDram c { dramOf r c with scrubPos := (dramOf r c).scrubPos + 1 } r →
    exec (.dramScrub c .none) s = .next u ∧
    (∀ a b d, exec (.dramScrub c (.corrected a b d)) s = .next (correctable c l.rank l.row l.col u)) ∧
    (∀ f, exec (.dramScrub c (.uncorrectable f)) s = .next (freeze c 1 (frostAt f l) u))) ∧
  (∀ (c : Fin 8) x xs s, (dramOf s c).mode = .inService → (dramOf s c).nbrQueue = x :: xs →
    exec (.neighbourRefresh c) s
      = .next (setDram c { dramOf s c with nbrQueue := xs, nbrIssued := (dramOf s c).nbrIssued + 1 } s)) ∧
  (∀ (c : Fin 8) (b : Fin 4) s, (dramOf s c).mode = .inService → bankRead s c b = false →
    refreshing s ((c.val + 4) % 8) b = false →
    exec (.sameBankRefresh c b) s
      = .next (setDram c { dramOf s c with refreshed := (dramOf s c).refreshed + 1, refBank := b,
                                           refEnd := s.time.mono + (drawNat s).1 } (drawNat s).2)) ∧
  (∀ (c : Fin 8) r s, (dramOf s c).mode = .inService →
    exec (.refreshRatePoll c r) s = .next (setDram c { dramOf s c with refRate := r } s)) ∧
  (∀ (c : Fin 8) s, (dramOf s c).spd = true → (dramOf s c).dimms = [] →
    exec (.dimmTempPoll c []) s = .next (setDram c { dramOf s c with temps := [] } s)) ∧
  (∀ (c : Fin 8) s, (dramOf s c).mode = .inService → (dramOf s c).retrain = true → (dramOf s c).lanes = [] →
    hottest (dramOf s c).temps = none →
    exec (.dramRetrainDone c []) s = .next (setDram c { dramOf s c with retrain := false, lanes := [] } s)) ∧
  (∀ (c : Fin 8) s, (dramOf s c).mode = .inService → s.power.mode = .dormant →
    exec (.selfRefreshEntry c) s = .next (stopDom (12 + c.val) (setDram c { dramOf s c with mode := .selfRefresh } s))) ∧
  (∀ (c : Fin 8) temp first second s, (dramOf s c).mode = .selfRefresh → s.power.mode = .active →
    (16 * temp - (dramOf s c).trainTemp).natAbs < 160 →
    exec (.selfRefreshExit c temp first second) s
      = .next (setDram c { dramOf s c with mode := .inService } (startDom (12 + c.val) s)))

/-- Freezing, thawing, pinned slots and the DRAM commands complete (R377 to R385). -/
def Obligations.FrostAndThawCommandsComplete : Prop :=
  (∀ (c : Fin 8) s, s.dram.frostHold ≠ 0 → thawDue s (dramOf s c) ≤ s.time.mono →
    thawsSpent s (dramOf s c) = false → mayThaw s c = true →
    exec (.frostHoldExpiry c) s = .next (startThaw c true s)) ∧
  (∀ (c : Fin 8) bad u s, (dramOf s c).mode = .thawing → (dramOf s c).step = 2 → drainRunning s = false →
    u = setDram c { dramOf s c with step := 3 } s →
    exec (.thawSalvageDone c bad) s
      = .next (((pinnedOn u c).filter fun n => !bad.contains n).foldl (fun s n => unpin n s) u)) ∧
  (∀ (c : Fin 8) s, (dramOf s c).mode = .thawing → (dramOf s c).step = 3 → drainRunning s = false →
    exec (.thawRefillDone c) s = .next (setDram c { dramOf s c with step := 4 } s)) ∧
  (∀ (c : Fin 8) s, (dramOf s c).mode = .thawing → (dramOf s c).step = 4 → drainRunning s = false → s.map.mirror = false →
    (dramOf s c).cci = none →
    exec (.thawResyncDone c) s
      = .next (exposedEvent (mapExposed s) c (raise (0x040 + c.val) 0x2003 c.val 0 0
          (setDram c { dramOf s c with mode := .inService, thaw := false, step := 0, frost := none, cci := none } s)))) ∧
  (∀ (c : Fin 8) s, (dramOf s c).mode = .frozen → (dramOf s c).cci = none → s.dram.frostHold ≠ 0 →
    thawDue s (dramOf s c) + 86400000000000 ≤ s.time.mono → thawsSpent s (dramOf s c) = true →
    exec (.frozenFailTimeout c) s = .next (setDram c { dramOf s c with mode := .failed } s)) ∧
  (∀ n x s, tfind s.back.slots n = some x → x.pinned = true → drainRunning s = false → x.deferred = true →
    (dramOf s (dirChan s n)).mode = .failed →
    exec (.pinnedSlotResolve n) s = .next (unpin n s)) ∧
  (∀ n x s, tfind s.back.slots n = some x → x.pinned = true → drainRunning s = false → x.deferred = false →
    (dramOf s (dirChan s n)).mode = .failed →
    exec (.pinnedSlotResolve n) s = .next (evictSlot n (unpin n s))) ∧
  (∀ c inp s, Takes s c 0xC360 → inp.length = 1 → byteAt inp 0 < 8 → 152 ≤ payloadLimit s c →
    AnswersBytes (.getDramState c inp) c 0xC360 152 s) ∧
  (∀ c inp s, Takes s c 0xC361 → inp.length = 4 → dramPolicyOk (dramPolicyOf inp s.dram) = true →
    exec (.setDramPolicy c inp) s
      = .next (waitsCommit c 0xC361 (cellarWrite 5 2 0x13 (dramPolicyBytes (dramPolicyOf inp s.dram)) none s))) ∧
  (∀ c inp f s, Takes s c 0xC362 → inp.length = 12 → le inp 1 3 = 0 → byteAt inp 0 < 8 → le inp 8 4 ≤ 4096 →
    le inp 4 4 + le inp 8 4 ≤ 12320 → (dramOf s (byteAt inp 0)).frost = some f → le inp 8 4 ≤ payloadLimit s c →
    exec (.getFrostRecord c inp) s
      = .next (complete c 0xC362 .success
          (.bytes (((frostBytes (byteAt inp 0) f).drop (le inp 4 4)).take (le inp 8 4))) s)) ∧
  (∀ (c : Fin 10) inp s, Takes s c 0xC363 → bgBusy s c = false → inp.length = 1 → byteAt inp 0 < 8 →
    (dramOf s (byteAt inp 0)).mode = .failed →
    exec (.thawDramChannel c inp) s = .next (complete c 0xC363 .success .none s)) ∧
  (∀ (c : Fin 10) inp u s, Takes s c 0xC363 → bgBusy s c = false → inp.length = 1 → byteAt inp 0 < 8 →
    (dramOf s (byteAt inp 0)).mode = .frozen → (dramOf s (byteAt inp 0)).cci = none →
    u = setDram (byteAt inp 0) { dramOf s (byteAt inp 0) with cci := some c.val } s → mayThaw u (byteAt inp 0) = true →
    exec (.thawDramChannel c inp) s = .next (startBg c 0xC363 (startThaw (byteAt inp 0) false u)))


/-! ### Fabric (12_memory_fabric.md) -/

/-- Fabric port events complete: training, loss of lock, flits, timers, Hellos, link state (R390 to R412). -/
def Obligations.FabricPortEventsComplete : Prop :=
  (∀ (p : Fin 8) (w : Fin 5) n s, ((portOf s p).st = .training ∨ (portOf s p).st = .retraining) →
    (w.val = 4 ∨ w.val = 2 ∨ w.val = 1) →
    exec (.fabricPmdTrainingDone p w n) s = .next (sendHello p (enterPort p .linked (setPort p
      { linkStart (drainRunning s) (portOf s p) with width := w, prop := n } { s with time := { s.time with frefGood := true } })))) ∧
  (∀ (p : Fin 8) s, (portOf s p).st.flits = true → exec (.fabricLossOfLock p) s = .next (toRetraining p s)) ∧
  (∀ (p : Fin 8) s, (portOf s p).st = .retraining → (portOf s p).since + 100000000 ≤ s.time.mono →
    exec (.fabricRetrainTimeout p) s = .next (enterPort p .training s)) ∧
  (∀ (p : Fin 8) s, (portOf s p).st = .disabled → (portOf s p).byRetrain = true →
    (portOf s p).since + 60000000000 ≤ s.time.mono →
    exec (.fabricDisabledExpiry p) s
      = .next (syncFab (enterPort p .training (setPort p { portOf s p with byRetrain := false } s)))) ∧
  (∀ (p : Fin 8) f a b s, (portOf s p).st.flits = true → f.crcOk = false →
    exec (.flitReceive p f a b) s
      = .next (setPort p (rejectFlit s.time.mono ((noteFlit s.time.mono a b (portOf s p)).bump 4 1)) s)) ∧
  (∀ (p : Fin 8) f a b s z, (portOf s p).st.flits = true → f.crcOk = true → f.nak = false →
    z = readFlit f (noteFlit s.time.mono a b (portOf s p)) →
    (f.payload = true → f.seq = z.rxNext → exec (.flitReceive p f a b) s
      = .next (pumpPort p (f.msgs.foldl (fun s m => countPortData (0x40 + p) m s) (setPort p (acceptFlit (drainRunning s) f z) s)))) ∧
    (f.payload = true → f.seq ≠ z.rxNext → exec (.flitReceive p f a b) s
      = .next (pumpPort p (setPort p (rejectFlit s.time.mono z) s))) ∧
    (f.payload = false → exec (.flitReceive p f a b) s = .next (pumpPort p (setPort p z s)))) ∧
  (∀ (p : Fin 8) f a b s, (portOf s p).st.flits = true → f.crcOk = true → f.nak = true → f.payload = false →
    exec (.flitReceive p f a b) s
      = .next (pumpPort p (replay p (setPort p (readFlit f (noteFlit s.time.mono a b (portOf s p))) s)))) ∧
  (∀ (p : Fin 8) f fs s, (portOf s p).retry = f :: fs → f.at_ + 2000 ≤ s.time.mono →
    exec (.replayTimer p) s = .next (replay p s)) ∧
  (∀ (p : Fin 8) n s, (portOf s p).nakAt = some n → (portOf s p).st.flits = true → n + 1000 ≤ s.time.mono →
    exec (.nakRepeatTimer p) s = .next (setPort p (sendNak s.time.mono (portOf s p)) s)) ∧
  (∀ (p : Fin 8) s, (portOf s p).st.flits = true → (portOf s p).helloAt + (portOf s p).helloMs * 1000000 ≤ s.time.mono →
    exec (.helloSend p) s = .next (checkUp p (sendHello p s))) ∧
  (∀ (p : Fin 8) h s u, takeMsg p WireMsg.isHello s = some (.hello h, u) →
    (h.src ≠ u.fabric.devId → exec (.hello p) s
      = .next (checkUp p (hearPeer h.src h.epoch h.digest 0 (claimId h.src h.serial
          (setPort p { portOf u p with hello := some (h, u.time.mono) } u))))) ∧
    (h.src = u.fabric.devId → h.serial = u.mgmt.serial → h.src ≠ 0xFFF → exec (.hello p) s
      = .next (raise (0x050 + p) 0x6005 p 0 0 (setPort p { portOf u p with hello := some (h, u.time.mono) } u)))) ∧
  (∀ (p : Fin 8) h n s, (portOf s p).hello = some (h, n) → (portOf s p).st.flits = true →
    n + (portOf s p).deadMult * (portOf s p).helloMs * 1000000 ≤ s.time.mono →
    exec (.helloDeadInterval p) s = .next (toRetraining p s)) ∧
  (∀ (p : Fin 8) l s u, takeMsg p WireMsg.isLsa s = some (.lsa l, u) → exec (.lsa p) s = .next (receiveLsa p l u)) ∧
  (∀ (p : Fin 8) o q n s u, takeMsg p WireMsg.isAck s = some (.ack o q n, u) →
    exec (.lsaAck p) s = .next { u with fabric := { u.fabric with unacked := u.fabric.unacked.filter fun x =>
      !(x.1 == p.val && x.2.1.origin == o && x.2.1.seq == q && x.2.1.serial == n) } }) ∧
  (∀ (p : Fin 8) l n s, s.fabric.unacked = [(p.val, l, n)] → n + 100000000 ≤ s.time.mono →
    exec (.lsaResend p) s = .next (sendLsa p l s)) ∧
  (∀ o l s, s.fabric.db = [(o, l)] →
    (l.age + 1 < 1800 → exec .lsaAgeTick s
      = .next { s with fabric := { s.fabric with db := [(o, { l with age := l.age + 1 })] } }) ∧
    (1800 ≤ l.age + 1 → exec .lsaAgeTick s
      = .next { s with fabric := { s.fabric with db := [], dbAt := s.time.mono, dirty := true } })) ∧
  (∀ s, s.fabric.devId ≠ 0xFFF → (tfind s.fabric.db s.fabric.devId = none ∨ s.fabric.lsaAt + 600000000000 ≤ s.time.mono) →
    exec .lsaOriginate s = .next (originateLsa false s)) ∧
  (∀ s, s.mgmt.fabric.mode = .running → s.fabric.policy.autoId = true → s.fabric.devId = 0xFFF →
    ((List.range 8).any fun p => (portOf s p).st.flits) = true →
    s.fabric.dbAt + 2000000000 ≤ s.time.mono → tfind s.fabric.db (crc16 (leBytes 8 s.mgmt.serial) % 4095) = none →
    exec .autoIdAssign s = .next (assignId (crc16 (leBytes 8 s.mgmt.serial) % 4095) s)) ∧
  (∀ s, s.fabric.dirty = true → s.fabric.dbAt + 5000000 ≤ s.time.mono → s.mgmt.fabric.mode = .running → s.fabric.devId ≠ 0xFFF →
    exec .routeRecompute s
      = .next { s with fabric := { s.fabric with standby := some (computeRoutes s), dirty := false } }) ∧
  (∀ r s, s.fabric.standby = some r → s.mgmt.fabric.mode = .running →
    exec .routeTableSwap s
      = .next (retryEgress { s with fabric := { s.fabric with routes := r, standby := none, swapAt := s.time.tbNow } }))

/-- Routed fabric messages, their timeouts and the fabric commands complete (R413 to R426). -/
def Obligations.FabricMessagesAndCommandsComplete : Prop :=
  (∀ (p : Fin 8) m n s, (portOf s p).inbox.find? (relayable s.fabric.devId (drainRunning s)) = some (.routed m) →
    m.dst ≠ 0xFFF → s.fabric.devId ≠ 0xFFF → s.fabric.policy.relayEn = true → n = { m with vc := m.vc + 1 } →
    exec (.messageRelay p) s = .next (forward p n (setPort p
      { portOf s p with inbox := (portOf s p).inbox.erase (.routed m), relaying := (portOf s p).relaying ++ [n] } s))) ∧
  (∀ (p : Fin 8) m s u, (portOf s p).inbox.find? (relayable s.fabric.devId (drainRunning s)) = some (.routed m) →
    takeMsg p (fun w => w == .routed m) s = some (.routed m, u) →
    (m.dst = 0xFFF → exec (.messageRelay p) s = .next (refuseRoute p m u)) ∧
    (m.dst ≠ 0xFFF → (s.fabric.devId = 0xFFF ∨ s.fabric.policy.relayEn = false) →
      exec (.messageRelay p) s = .next (dropMsg p 2 m.dst u))) ∧
  (∀ (p : Fin 8) (bad : Bool) m v n w s u, takeLocal p .rd s = some (.routed m, u) → w = (if bad then 1 else 0) →
    v = noteIngress .rd w m u → tagFor v (.fabric m.src) = some n →
    exec (.memRdMessage p bad) s = .next (classifyReq n m.eng (ingressReq .rd .rd w m s.time.mono)
      { v with ten := { v.ten with reqs := tput v.ten.reqs n (ingressReq .rd .rd w m s.time.mono) } })) ∧
  (∀ (p : Fin 8) m v n s u, takeLocal p .specRd s = some (.routed m, u) → v = noteIngress .specRd 0 m u →
    tagFor v (.fabric m.src) = some n →
    exec (.memSpecRdMessage p) s = .next (classifyReq n m.eng (ingressReq .specRd .specRd 0 m s.time.mono)
      { v with ten := { v.ten with reqs := tput v.ten.reqs n (ingressReq .specRd .specRd 0 m s.time.mono) } })) ∧
  (∀ (p : Fin 8) bad m v n s u, takeLocal p .wr s = some (.routed m, u) → v = noteIngress .wr bad m u →
    tagFor v (.fabric m.src) = some n →
    exec (.memWrMessage p bad) s = .next (classifyReq n m.eng (ingressReq .wr .wr bad m s.time.mono)
      { v with ten := { v.ten with reqs := tput v.ten.reqs n (ingressReq .wr .wr bad m s.time.mono) } })) ∧
  (∀ (p : Fin 8) bad m v n s u, takeLocal p .wrPtl s = some (.routed m, u) → v = noteIngress .wrPtl bad m u →
    tagFor v (.fabric m.src) = some n →
    exec (.memWrPtlMessage p bad) s = .next (classifyReq n m.eng (ingressReq .wrPtl .wrPtl bad m s.time.mono)
      { v with ten := { v.ten with reqs := tput v.ten.reqs n (ingressReq .wrPtl .wrPtl bad m s.time.mono) } })) ∧
  (∀ (p : Fin 8) m x r v s u, takeLocal p .data s = some (.routed m, u) → tfind u.fabric.remote m.tag = some x →
    tfind u.ten.reqs m.tag = some r → v = modReq m.tag (fun r => { r with devload := m.devload }) u → tagMatches v m.epoch = true →
    (x.waits = 0 → x.msg.gen = m.gen → exec (.dataMessage p) s
      = .next (endRemote m.tag m.data (m.status != 0 || m.poison) m.status (if r.op.isWrite && m.status != 0 then 8 else 6)
          (statusEvents p m r v))) ∧
    (x.msg.gen ≠ m.gen → exec (.dataMessage p) s = .next (dropMsg p 1 m.dst u))) ∧
  (∀ (p : Fin 8) m x r v s u, takeLocal p .cmp s = some (.routed m, u) → tfind u.fabric.remote m.tag = some x →
    tfind u.ten.reqs m.tag = some r → v = modReq m.tag (fun r => { r with devload := m.devload }) u → tagMatches v m.epoch = true →
    (x.waits = 0 → x.msg.gen = m.gen → exec (.cmpMessage p) s
      = .next (endRemote m.tag m.data (m.status != 0 || m.poison) m.status (if r.op.isWrite && m.status != 0 then 8 else 6)
          (statusEvents p m r v))) ∧
    (x.msg.gen ≠ m.gen → exec (.cmpMessage p) s = .next (dropMsg p 1 m.dst u))) ∧
  (∀ n x m s, expiredReq s 0 = some (n, x) → m = { x.msg with resend := true, epoch := epochTag s } →
    exec .fabTimeoutFirst s = .next (originate m (countEvent 0x0053 1 EvAttr.bare (dropHeld m { s with
      fabric := { s.fabric with
        remote := tput s.fabric.remote n { x with expired := 1, msg := m }, timeouts := s.fabric.timeouts + 1,
        resends := s.fabric.resends + 1 } })))) ∧
  (∀ n x r h v w s, expiredReq s 1 = some (n, x) → tfind s.ten.reqs n = some r → r.op.isWrite = true → r.src = .head h →
    v = dropHeld x.msg { s with fabric := { s.fabric with timeouts := s.fabric.timeouts + 1 } } →
    w = modReq n (fun r => { r with devload := plainLoad v }) v →
    exec .fabTimeoutSecond s = .next (endRemote n 0 false 5 8 (raiseDpa 0x030 0x6003 r.addr h
      (enterViral 6 h { w with fabric := { w.fabric with virals := w.fabric.virals + 1 } })))) ∧
  (∀ n x r h v w d s, expiredReq s 1 = some (n, x) → tfind s.ten.reqs n = some r → r.op.isWrite = false → r.src = .head h →
    v = dropHeld x.msg { s with fabric := { s.fabric with timeouts := s.fabric.timeouts + 1 } } →
    w = modReq n (fun r => { r with devload := plainLoad v }) v →
    d = drawBits 512 (raiseDpa 0x030 0x6003 r.addr h (raiseDpa 0x030 0x3002 r.addr h w)) →
    exec .fabTimeoutSecond s = .next (endRemote n d.1 true 5 9 d.2)) ∧
  (∀ c s, Takes s c 0xC400 → 280 ≤ payloadLimit s c → AnswersBytes (.getFabricState c []) c 0xC400 280 s) ∧
  (∀ c inp s, Takes s c 0xC401 → inp.length = 3 → le inp 0 2 < 0xFFF → s.fabric.devId = 0xFFF →
    tfind s.fabric.db (le inp 0 2) = none → tfind s.fabric.db 0xFFF = none →
    exec (.setFabricDeviceId c inp) s = .next (waitsCommit c 0xC401 (assignId (le inp 0 2) s))) ∧
  (∀ c inp s, Takes s c 0xC401 → inp.length = 3 → le inp 0 2 ≤ 0xFFF → s.fabric.devId ≠ 0xFFF → byteAt inp 2 % 2 = 0 →
    exec (.setFabricDeviceId c inp) s = .next (complete c 0xC401 .invalidState .none s)) ∧
  (∀ c inp s, Takes s c 0xC402 → inp.length = 8 → fabPolicyOk (fabPolicyOf inp) = true →
    exec (.setFabricPolicy c inp) s
      = .next (waitsCommit c 0xC402 (cellarWrite 5 2 0x14 (fabPolicyBytes (fabPolicyOf inp)) none s))) ∧
  (∀ c inp s, Takes s c 0xC403 → inp.length = 4 → 1 ≤ le inp 2 2 → le inp 2 2 ≤ 256 → le inp 0 2 + le inp 2 2 ≤ 4096 →
    8 + 4 * le inp 2 2 ≤ payloadLimit s c → AnswersBytes (.getRouteTable c inp) c 0xC403 (8 + 4 * le inp 2 2) s) ∧
  (∀ c inp s, Takes s c 0xC404 → inp.length = 3 → 1 ≤ byteAt inp 2 → byteAt inp 2 ≤ 63 →
    4 + 64 * ((s.fabric.db.filter fun p => decide (le inp 0 2 ≤ p.1)).take (byteAt inp 2)).length ≤ payloadLimit s c →
    AnswersBytes (.getLinkStateDatabase c inp) c 0xC404
      (4 + 64 * ((s.fabric.db.filter fun p => decide (le inp 0 2 ≤ p.1)).take (byteAt inp 2)).length) s) ∧
  (∀ c inp s, Takes s c 0xC405 → inp.length = 1 →
    (byteAt inp 0 = 0xFF → 24 ≤ payloadLimit s c → AnswersBytes (.getFabricPortCounters c inp) c 0xC405 24 s) ∧
    (byteAt inp 0 < 8 → 8 * (portOf s (byteAt inp 0)).counts.length ≤ payloadLimit s c →
      AnswersBytes (.getFabricPortCounters c inp) c 0xC405 (8 * (portOf s (byteAt inp 0)).counts.length) s)) ∧
  (∀ (c : Fin 10) inp s, Takes s c 0xC406 → bgBusy s c = false → inp.length = 1 → byteAt inp 0 < 8 →
    ((portOf s (byteAt inp 0)).st = .up ∨ (portOf s (byteAt inp 0)).st = .linked) →
    exec (.retrainFabricPort c inp) s
      = .next (startBg c 0xC406 (toRetraining (byteAt inp 0)
          (setPort (byteAt inp 0) { portOf s (byteAt inp 0) with cci := some c } s))))

/-! ### Epochs and the ring (13_configuration_epochs_and_ring.md) -/

/-- Ring lock, election, beacons and frames complete (R427 to R442). -/
def Obligations.RingEventsComplete : Prop :=
  (∀ s, s.epoch.ring.mode = .bypassed → s.power.mode ≠ .off → s.epoch.policy.ringEn = true →
    exec .ringReady s = .next (startElection (setRing { s.epoch.ring with lock := true, selfTest := true } s))) ∧
  (∀ s, exec .ringConditionFail s = .next (leaveRing .bypassed (setRing { s.epoch.ring with lock := false } s))) ∧
  (∀ s, (s.epoch.ring.mode = .formed ∨ s.epoch.ring.mode = .electing) →
    exec .ringLockLost s
      = .next (leaveRing .broken (setRing { s.epoch.ring with lock := false, breaks := s.epoch.ring.breaks + 1 } s))) ∧
  (∀ s, s.epoch.ring.mode = .broken →
    exec .ringLockRegained s = .next (startElection (setRing { s.epoch.ring with lock := true } s))) ∧
  (∀ f s, (s.epoch.ring.mode = .electing ∨ s.epoch.ring.mode = .formed) → f.typ = 1 → f.crcOk = true →
    (le f.payload 0 8 = s.mgmt.serial → exec (.claim f) s
      = .next (sendRing 0x02 0xFF (leBytes 1 1 ++ leBytes 8 s.mgmt.serial) (enterRing .formed (ringHead s)))) ∧
    (le f.payload 0 8 ≠ s.mgmt.serial → le f.payload 0 8 < s.epoch.ring.lowest → exec (.claim f) s
      = .next (passOn f (setRing { (ringCounted s).epoch.ring with lowest := le f.payload 0 8 } (ringCounted s)))) ∧
    (le f.payload 0 8 ≠ s.mgmt.serial → s.epoch.ring.lowest ≤ le f.payload 0 8 → exec (.claim f) s = .next (ringCounted s))) ∧
  (∀ f s, (s.epoch.ring.mode = .electing ∨ s.epoch.ring.mode = .formed) → f.typ = 2 → f.crcOk = true → s.epoch.ring.isHead = false →
    (byteAt f.payload 0 ≤ 63 → exec (.roll f) s = .next (enterRing .formed (passOn
      { f with payload := leBytes 1 (byteAt f.payload 0 + 1) ++ f.payload.drop 1 } (setRing { (ringCounted s).epoch.ring with
        position := some (byteAt f.payload 0), headSerial := le f.payload 1 8, beaconAt := s.time.mono } (ringCounted s))))) ∧
    (63 < byteAt f.payload 0 → exec (.roll f) s = .next (leaveRing .bypassed (passOn f (ringCounted s))))) ∧
  (∀ f s, RingHears s 2 f → s.epoch.ring.isHead = true →
    exec (.roll f) s = .next (rollBack f (ringCounted s)) ∧ exec (.rollReturned f) s = .next (rollBack f (ringCounted s))) ∧
  (∀ s, s.epoch.ring.mode = .formed → s.epoch.ring.isHead = true → s.epoch.ring.members ≠ 0 →
    s.epoch.ring.beaconSent + 10000000 ≤ s.time.mono →
    exec .beaconSend s = .next (sendRing 0x03 0xFF (leBytes 8 s.mgmt.serial ++ leBytes 1 s.epoch.ring.members ++
      leBytes 4 ((s.epoch.ring.beacons + 1) % 2 ^ 32))
      (setRing { s.epoch.ring with beacons := (s.epoch.ring.beacons + 1) % 2 ^ 32, beaconSent := s.time.mono } s))) ∧
  (∀ s, (s.epoch.ring.mode = .formed ∨ s.epoch.ring.mode = .electing) → s.epoch.ring.beaconAt + 30000000 ≤ s.time.mono →
    exec .beaconTimeout s = .next (startElection s)) ∧
  (∀ f s, RingHears s f.typ f → ownFrame s f = false → s.epoch.ring.position ≠ some f.dst → ringTypes.contains f.typ = true →
    (s.epoch.policy.spreadArm = true ∨ f.typ ≠ 0x12 ∧ f.typ ≠ 0x13) →
    exec (.ringFrameForward f) s = .next (passOn f (hearBeacon f (ringCounted s)))) ∧
  (∀ f s, RingHears s f.typ f → ownFrame s f = true →
    exec (.ringFrameForward f) s = .next (hearBeacon f (ringCounted s))) ∧
  (∀ s, s.epoch.ring.mode = .formed → s.epoch.ring.announceAt + 1000000000 ≤ s.time.mono →
    exec .announceSend s = .next (sendRing 0x10 0xFF (leBytes 8 s.mgmt.serial ++ leBytes 2 s.fabric.devId ++
        leBytes 1 (b2n s.fabric.policy.autoId + 2 * b2n s.fabric.policy.relayEn))
      (setRing { s.epoch.ring with announceAt := s.time.mono } s))) ∧
  (∀ f (m : RingMember) u s, RingActs s 0x10 f → u = ringActed f s →
    m = { serial := le f.payload 0 8, devId := le f.payload 8 2 % 4096, flags := byteAt f.payload 10, at_ := u.time.mono } →
    exec (.announce f) s
      = .next (claimId m.devId m.serial (setRing { u.epoch.ring with table := tput u.epoch.ring.table f.src m } u))) ∧
  (∀ s, s.epoch.ring.mode = .formed → s.epoch.ring.statusAt + 1000000000 ≤ s.time.mono →
    exec .epochStatusSend s = .next (sendStatus s)) ∧
  (∀ f m u s, RingActs s 0x11 f → u = ringActed f s → tfind u.epoch.ring.table f.src = some m →
    exec (.epochStatus f) s
      = .next (hearPeer m.devId (le f.payload 0 8) (le f.payload 8 16) (byteAt f.payload 24 % 4) u)) ∧
  (∀ f u s, RingActs s 0x12 f → s.epoch.policy.spreadArm = true → (ringActed f s).mgmt.fabric.mode = .running →
    firstTime (0x12, le f.payload 0 8, le f.payload 8 16) (ringActed f s) = (true, u) →
    (armCheck u (le f.payload 0 8) (le f.payload 8 16) (le f.payload 24 8) = none → exec (.arm f) s
      = .next (armEpoch (le f.payload 0 8) (le f.payload 8 16) (le f.payload 24 8) u)) ∧
    (∀ n rc, armCheck u (le f.payload 0 8) (le f.payload 8 16) (le f.payload 24 8) = some (n, rc) → exec (.arm f) s
      = .next (raise 0x058 0x7005 (le f.payload 0 8 % 2 ^ 32) n 0 u))) ∧
  (∀ f n u s, RingActs s 0x13 f → s.epoch.policy.spreadArm = true → (ringActed f s).mgmt.fabric.mode = .running →
    firstTime (0x13, le f.payload 0 8, le f.payload 8 16) (ringActed f s) = (true, u) →
    armedIs u (le f.payload 0 8) (le f.payload 8 16) = some (n, true) →
    exec (.disarm f) s = .next (disarmEpoch (le f.payload 0 8) (le f.payload 8 16) n u)) ∧
  (∀ x s, s.epoch.ring.repeats = [x] → x.2.2.1 ≤ s.time.mono → s.epoch.ring.mode = .formed →
    (x.2.1 ≤ 1 → exec .ringFrameRepeat s = .next (putRing x.1 (setRing { s.epoch.ring with repeats := [] } s))) ∧
    (1 < x.2.1 → exec .ringFrameRepeat s = .next (putRing x.1 (setRing { s.epoch.ring with
      repeats := [(x.1, x.2.1 - 1, s.time.mono + x.2.2.2, x.2.2.2)] } s)))) ∧
  (∀ f u s, RingActs s 0x20 f → firstTime (0x20, le f.payload 0 8, le f.payload 13 4) (ringActed f s) = (true, u) →
    (ringActed f s).epoch.policy.stormObey = true → (ringActed f s).power.mode = .active → drainRunning (ringActed f s) = false →
    exec (.storm f) s
      = .next (brace (raise 0x058 0x7002 (le f.payload 0 4) (le f.payload 8 2) (byteAt f.payload 10) u))) ∧
  (∀ n s, s.epoch.braceEnd = some n → n ≤ s.time.mono →
    exec .braceExpiry s = .next (repeatMeasure (budgetUpdate { s with
      epoch := { s.epoch with braceEnd := none }, persist := { s.persist with braceCap := none } }))) ∧
  (∀ f s, RingHears s 0x21 f →
    (s.epoch.ring.position = some f.dst → exec (.wake f) s = .next (wake 2 (ringCounted s))) ∧
    (s.epoch.ring.position ≠ some f.dst → ownFrame s f = false → exec (.wake f) s = .next (passOn f (ringCounted s))))

/-- Epoch activation, adoption, mismatch expiry and the epoch and ring commands complete (R443 to R451). -/
def Obligations.EpochCommandsComplete : Prop :=
  (∀ e d n s, s.epoch.arm = some (e, d, n) → armDue n s = true → canSwap s = true →
    (s.epoch.late = false → s.epoch.stepAt = none → s.drift.activeAt.isSome = true → n = s.time.secMark →
      exec .epochActivate s = .next (activate e d s)) ∧
    ((s.epoch.late = true ∨ n < s.time.secMark) →
      exec .epochActivate s = .next (activate e d (raise 0x012 0x7004 (e % 2 ^ 32) 0xFFF 0 s)))) ∧
  (∀ e d n s, s.epoch.arm = some (e, d, n) → armDue n s = true → pathRuns s = false →
    exec .epochActivate s = .next { s with epoch := { s.epoch with late := true } }) ∧
  (∀ dev x s, s.epoch.heard = some (dev, x) → (s.epoch.st = .lagging ∨ s.epoch.st = .divergent) →
    adoptable s (manEpoch s s.epoch.manS) (manDigest s s.epoch.manS) = true → canSwap s = true →
    s.time.tbNow % 1000000000 ≤ s.time.mono - x →
    exec .epochAdopt s
      = .next (activate (manEpoch s s.epoch.manS) (manDigest s s.epoch.manS)
          (raise 0x012 0x7004 (manEpoch s s.epoch.manS % 2 ^ 32) dev 0 s))) ∧
  (∀ n x u s, (s.epoch.st = .settled ∨ s.epoch.st = .armed) → s.epoch.tagFlags = [(n, x)] →
    max x s.epoch.actAt + s.epoch.policy.mismatchHold * 1000000 ≤ s.time.mono →
    u = { s with epoch := { s.epoch with tagFlags := [] } } →
    exec .mismatchHoldExpiry s = .next (setTenant n { tenantOf u n with mismatch := false } u)) ∧
  (∀ c s, Takes s c 0xC500 → 104 ≤ payloadLimit s c → AnswersBytes (.getEpochState c []) c 0xC500 104 s) ∧
  (∀ c inp u s, Takes s c 0xC501 → le inp 4 4 + 8 = inp.length → s.epoch.arm = none → le inp 0 4 = 0 → 0 < le inp 4 4 →
    le inp 4 4 ≤ 4096 → u = { s with epoch := { s.epoch with
      slots := tput s.epoch.slots (freeManSlot s) (putBytes 0 (inp.drop 8) []), load := some (freeManSlot s, [(0, le inp 4 4)]) } } →
    exec (.stageManifest c inp) s = .next (complete c 0xC501 .success .none u)) ∧
  (∀ c inp k ps u v s, Takes s c 0xC501 → le inp 4 4 + 8 = inp.length → s.epoch.arm = none → le inp 0 4 ≠ 0 →
    le inp 0 4 % 4096 = 0 → 0 < le inp 4 4 → le inp 4 4 ≤ 4096 → le inp 0 4 + le inp 4 4 ≤ manifestLen →
    s.epoch.load = some (k, ps) →
    u = { s with epoch := { s.epoch with
      slots := tput s.epoch.slots k (putBytes (le inp 0 4) (inp.drop 8) (tget s.epoch.slots k [])),
      load := some (k, ps ++ [(le inp 0 4, le inp 4 4)]) } } → v = { u with epoch := { u.epoch with load := none } } →
    (manifestLen ≤ coveredTo (ps ++ [(le inp 0 4, le inp 4 4)]) (ps ++ [(le inp 0 4, le inp 4 4)]).length 0 →
      exec (.stageManifest c inp) s = .next (waitsCommit c 0xC501 (cellarWrite 5 6 0x101
        (leBytes 1 k ++ leBytes 8 (manEpoch v (some k)) ++ leBytes 16 (manDigest v (some k))) none v))) ∧
    (coveredTo (ps ++ [(le inp 0 4, le inp 4 4)]) (ps ++ [(le inp 0 4, le inp 4 4)]).length 0 < manifestLen →
      exec (.stageManifest c inp) s = .next (complete c 0xC501 .success .none u))) ∧
  (∀ c inp s, Takes s c 0xC502 → inp.length = 4 → le inp 2 2 ≤ 2040 →
    40 + 2 * (((changedTenants s).filter fun t => decide (le inp 0 2 ≤ t)).take (le inp 2 2)).length ≤ payloadLimit s c →
    AnswersBytes (.getSliceDigest c inp) c 0xC502
      (40 + 2 * (((changedTenants s).filter fun t => decide (le inp 0 2 ≤ t)).take (le inp 2 2)).length) s) ∧
  (∀ c inp u s, Takes s c 0xC503 → inp.length = 33 → armCheck s (le inp 0 8) (le inp 8 16) (le inp 24 8) = none →
    u = armEpoch (le inp 0 8) (le inp 8 16) (le inp 24 8) s →
    (byteAt inp 32 % 2 = 0 → exec (.armEpoch c inp) s = .next (waitsCommit c 0xC503 u)) ∧
    (byteAt inp 32 % 2 = 1 → u.epoch.policy.spreadArm = true → u.epoch.ring.mode = .formed →
      exec (.armEpoch c inp) s = .next (waitsCommit c 0xC503 (sendThrice 0x12 10000000 (inp.take 32) u)))) ∧
  (∀ c inp n u s, Takes s c 0xC504 → inp.length = 24 → armedIs s (le inp 0 8) (le inp 8 16) = some (n, true) →
    u = disarmEpoch (le inp 0 8) (le inp 8 16) n s →
    (u.epoch.policy.spreadArm = false → exec (.disarmEpoch c inp) s = .next (waitsCommit c 0xC504 u)) ∧
    (u.epoch.policy.spreadArm = true → u.epoch.ring.mode = .formed →
      exec (.disarmEpoch c inp) s = .next (waitsCommit c 0xC504 (sendThrice 0x13 10000000 inp u)))) ∧
  (∀ c inp n s, Takes s c 0xC504 → inp.length = 24 → armedIs s (le inp 0 8) (le inp 8 16) = some (n, false) →
    exec (.disarmEpoch c inp) s = .next (complete c 0xC504 .invalidState .none s)) ∧
  (∀ c s, Takes s c 0xC510 → 32 + 16 * s.epoch.ring.table.length ≤ payloadLimit s c →
    AnswersBytes (.getRingState c []) c 0xC510 (32 + 16 * s.epoch.ring.table.length) s) ∧
  (∀ c inp s, Takes s c 0xC511 → inp.length = 8 → ringPolicyOk (ringPolicyOf inp) = true →
    exec (.setRingAndEpochPolicy c inp) s
      = .next (waitsCommit c 0xC511 (cellarWrite 5 2 0x15 (ringPolicyBytes (ringPolicyOf inp)) none s))) ∧
  (∀ c inp s, Takes s c 0xC512 → inp.length = 1 → s.epoch.ring.mode = .formed → byteAt inp 0 ≤ 63 →
    exec (.sendRingWake c inp) s = .next (complete c 0xC512 .success .none (sendRing 0x21 (byteAt inp 0) [] s)))


/-! ### Supplies and sequencing (15_supplies_and_sequencing.md) -/

/-- The steps of a sequencer program complete (R480 to R484, Table 15-5). -/
def Obligations.SequencerStepsComplete : Prop :=
  (∀ q w s, stepReady s 1 = some (q, w) → bits w 21 1 = 0 →
    exec .seqEnable s = .next (enableRail (bits w 22 6) (goTo
      { q with wait := .good (bits w 22 6), deadline := max s.time.mono (orderTime s (bits w 22 6)) + bits w 0 16 * 100000 }
      (q.pc + 1) s))) ∧
  (∀ q w s, stepReady s 1 = some (q, w) → bits w 21 1 = 1 →
    exec .seqEnable s = .next (enableRail (bits w 22 6) (goTo
      { q with timers := q.timers ++
          [(bits w 22 6, max s.time.mono (orderTime s (bits w 22 6)) + bits w 0 16 * 100000)] } (q.pc + 1) s))) ∧
  (∀ q w s, stepReady s 2 = some (q, w) → bits w 21 1 = 0 →
    exec .seqDisable s = .next (checkFallen (bits w 22 6) (dropRail (bits w 22 6) (goTo
      { q with wait := .off (bits w 22 6), deadline := s.time.mono + bits w 0 16 * 100000 } (q.pc + 1) s)))) ∧
  (∀ q w s, stepReady s 2 = some (q, w) → bits w 21 1 = 1 →
    exec .seqDisable s = .next (checkFallen (bits w 22 6) (dropRail (bits w 22 6) (goTo
      { q with falling := q.falling ++ [(bits w 22 6, s.time.mono + bits w 0 16 * 100000)] } (q.pc + 1) s)))) ∧
  (∀ q w s, stepReady s 3 = some (q, w) →
    exec .seqWait s = .next (goTo { q with wait := .until_ (s.time.mono + bits w 0 28 * 1000) } (q.pc + 1) s)) ∧
  (∀ q n s, s.power.seq = some q → q.wait = .until_ n → n ≤ s.time.mono →
    exec .seqWaitExpiry s = .next { s with power := { s.power with seq := some { q with wait := .none } } }) ∧
  (∀ q w s, stepReady s 4 = some (q, w) →
    exec .seqCheck s = .next (goTo { q with flag := checkCond s (bits w 22 6) (bits w 20 2) } (q.pc + 1) s)) ∧
  (∀ q w s, stepReady s 5 = some (q, w) → exec .seqJump s = .next (goTo q (bits w 0 8) s)) ∧
  (∀ q w s, stepReady s 6 = some (q, w) → (q.flag = true ↔ bits w 27 1 = 1) →
    exec .seqJumpif s = .next (goTo q (bits w 0 8) s)) ∧
  (∀ q w s, stepReady s 6 = some (q, w) → ¬(q.flag = true ↔ bits w 27 1 = 1) →
    exec .seqJumpif s = .next (goTo q (q.pc + 1) s)) ∧
  (∀ q w u s, stepReady s 7 = some (q, w) → u = goTo q (q.pc + 1) s →
    (railRole (blobOf u) (bits w 22 6) = 11 → exec .seqSetout s
      = .next (setRail (bits w 22 6) { railOf u (bits w 22 6) with enabled := bits w 21 1 == 1 } u)) ∧
    (railRole (blobOf u) (bits w 22 6) ≠ 11 → exec .seqSetout s = .next u)) ∧
  (∀ q w s, stepReady s 15 = some (q, w) → bits w 0 16 = 0 →
    (q.up = true → exec .seqEnd s = .next (endPowerUp s)) ∧ (q.up = false → exec .seqEnd s = .next (endPowerDown s))) ∧
  (∀ q w s, stepReady s 15 = some (q, w) → bits w 0 16 ≠ 0 →
    (q.up = true → exec .seqEnd s = .next (safeOff 4 (raise 0x061 0x0002 7 (bits w 0 16) q.pc s))) ∧
    (q.up = false → exec .seqEnd s = .next (endPowerDown (raise 0x061 0x0002 7 (bits w 0 16) q.pc s)))) ∧
  (∀ q s, s.power.seq = some q → stepMode (blobOf s) = true → q.wait = .none → q.steps < 4096 →
    (bits (stepWord (blobOf s) q.pc) 28 4 = 0 ∨
      8 ≤ bits (stepWord (blobOf s) q.pc) 28 4 ∧ bits (stepWord (blobOf s) q.pc) 28 4 ≤ 14) →
    exec .seqInvalid s = .next (seqFault 9 q s)) ∧
  (∀ q s, s.power.seq = some q → stepMode (blobOf s) = true → 4096 ≤ q.steps →
    exec .seqRunaway s = .next (seqFault 6 q s)) ∧
  (∀ q (r : Fin 64) s, s.power.seq = some q → q.up = true → stepMode (blobOf s) = false →
    (supplyRails (blobOf s)).contains r.val = true → (railOf s r).enabled = false → (railOf s r).held = false →
    (railOf s r).lost = false → predsGood s r = true →
    exec (.dependencyEnable r) s = .next (enableRail r s)) ∧
  (∀ q (r : Fin 64) s, s.power.seq = some q → q.up = false → stepMode (blobOf s) = false → (railOf s r).enabled = true →
    usersOff s q r = true → offHeld s r = false →
    exec (.dependencyDisable r) s = .next (checkFallen r (driveOff r { s with power := { s.power with
      seq := some { q with falling := q.falling ++ [(r.val, s.time.mono + depField (blobOf s) r 3)] } } }))) ∧
  (∀ q (r : Fin 64) s, s.power.seq = some q → (railOf s r).held = true → (railOf s r).enabled = false →
    orderTime s r ≤ s.time.mono → exec (.orderGuardRelease r) s = .next (checkGood r (driveOn r s)))

/-- Rail events, safe-off, power-fail clearing and V_AUX events complete (R473 to R479, R485 to R490). -/
def Obligations.RailAndSupplyEventsComplete : Prop :=
  (∀ (r : Fin 64) (k : Bool) s, (railOf s r).pg ≠ k → s.power.mode ≠ .off →
    ((railRole (blobOf s) r = 0 ∨ railRole (blobOf s) r = 11) →
      exec (.railPgEdge r k) s = .next (setRail r (pgEdge s r k) s)) ∧
    (railRole (blobOf s) r ≠ 0 → railRole (blobOf s) r ≠ 11 → (railOf s r).enabled = false →
      exec (.railPgEdge r k) s = .next (checkFallen r (setRail r (pgEdge s r k) s))) ∧
    (railRole (blobOf s) r ≠ 0 → railRole (blobOf s) r ≠ 11 → (railOf s r).enabled = true →
      chatterMax (blobOf s) r < (pgEdge s r k).edges.length →
      exec (.railPgEdge r k) s = .next (faultAct r 2 (setRail r (pgEdge s r k) s))) ∧
    (railRole (blobOf s) r ≠ 0 → railRole (blobOf s) r ≠ 11 → (railOf s r).enabled = true →
      (pgEdge s r k).edges.length ≤ chatterMax (blobOf s) r → k = false → (railOf s r).good = true →
      exec (.railPgEdge r k) s = .next (faultAct r 5 (setRail r (pgEdge s r k) s)))) ∧
  (∀ (r : Fin 64) s, (railOf s r).enabled = true → (railOf s r).good = false → goodNow s r = true →
    exec (.railSettleExpiry r) s = .next (becomeGood r s)) ∧
  (∀ q (r : Fin 64) s, s.power.seq = some q → q.up = true → (railOf s r).enabled = true → (railOf s r).good = false →
    goodDue s q r = true → exec (.railTimeout r) s = .next (faultAct r 1 s)) ∧
  (∀ q (r : Fin 64) s, s.power.seq = some q → fallDue s q r = true →
    exec (.downTimeout r) s
      = .next (stopFalling r (raise 0x061 0x0005 r.val 0 0 (setRail r { railOf s r with fault := 10 } s)))) ∧
  (∀ codes s, ((adcHits (blobOf s) codes).all fun p => sampleFault (takeAdc codes s) p.1 == 0) = true →
    exec (.railAdcSample codes) s
      = .next ((adcHits (blobOf s) codes).foldl (fun s p => checkFallen p.1 (checkGood p.1 s)) (takeAdc codes s))) ∧
  (∀ codes r v s, adcHits (blobOf s) codes = [(r, v)] → sampleFault (takeAdc codes s) r ≠ 0 →
    exec (.railAdcSample codes) s = .next (faultAct r (sampleFault (takeAdc codes s) r) (takeAdc codes s))) ∧
  (∀ n s, s.power.retryAt = some n → s.power.mode = .standby → n ≤ s.time.mono → s.persist.pwrFail = false →
    s.therm.barred = false →
    exec .safeOffRetry s = .next (startPowerUp 4 { s with power := { s.power with retries := s.power.retries + 1 } })) ∧
  (∀ n u s, s.power.hold = some n → n ≤ s.time.mono → u = stopFabric { s with power := { s.power with hold := none } } →
    (u.power.entering ≠ some 3 → exec .fabricHoldExpiry s = .next u) ∧
    (u.power.entering = some 3 → exec .fabricHoldExpiry s = .next (runPowerDown u))) ∧
  (∀ u s, s.persist.pwrFail = true → drainRunning s = false →
    u = { s with persist := { s.persist with pwrFail := false, pwrFailPin := false, lowSamples := 0 } } →
    (s.power.policy.autoOn = false → exec .powerFailClear s = .next u) ∧
    (s.power.policy.autoOn = true → s.power.mode = .standby → s.power.seq = none →
      exec .powerFailClear s = .next (startPowerUp 1 u))) ∧
  (∀ u s, u = { s with cellar := { s.cellar with writes := [] } } →
    (s.persist.drain = none → exec .vauxLowDetect s = .next { u with power := { u.power with vauxLow := true } }) ∧
    (∀ d v, s.persist.drain = some d → v = endDrain 4 s.persist.vNow { d with faults := [] } u →
      exec .vauxLowDetect s = .next { v with power := { v.power with vauxLow := true } })) ∧
  (∀ v a s, (v && a) = false →
    ((a && s.power.aon) = true → exec (.supplyRemoved v a) s = .next (supplyGone v s)) ∧
    ((a && s.power.aon) = false → exec (.supplyRemoved v a) s = .next (aonGone v (supplyGone v s)))) ∧
  (∀ h0 h1 sb st u s, s.power.mode = .off → u = startAon h0 h1 sb st s →
    (u.power.policy.autoOn = true → exec (.alwaysOnResetRelease h0 h1 sb st) s = .next (startPowerUp 1 u)) ∧
    (u.power.policy.autoOn = false → exec (.alwaysOnResetRelease h0 h1 sb st) s = .next u))

/-- Power state changes and the power commands complete (R491 to R495). -/
def Obligations.PowerStateCommandsComplete : Prop :=
  (∀ s, s.power.mode = .active → s.power.seq = none → s.power.entering = none →
    s.power.lastReq + s.power.policy.idleDelay * 1000 ≤ s.time.mono → exec .idleEntry s = .next (setMode .idle 1 s)) ∧
  (∀ s, s.power.mode = .idle →
    exec .idleExit s
      = .next (setMode .active 1 (idleResume { s with power := { s.power with lastReq := s.time.mono } }))) ∧
  (∀ s, (s.power.mode = .active ∨ s.power.mode = .idle) → s.power.policy.autoDormant = true → s.power.entering = none → drainRunning s = false →
    (List.range 4).all (headQuiet s) = true →
    s.power.quietSince + s.power.policy.dormantDelay * 1000000000 ≤ s.time.mono →
    exec .dormantAutoEntry s = .next (beginEntry 2 1 s)) ∧
  (∀ s, s.power.mode = .dormant → exec .dormantExit s = .next (exitDormant 5 s)) ∧
  (∀ (x : Fin 5) s, s.power.mode = .dormant → s.power.entering = none → s.power.seq = none →
    exec (.wakeEvent x) s = .next (exitDormant 5 s)) ∧
  (∀ (x : Fin 5) s, s.power.mode = .standby → s.power.entering = none → s.power.seq = none → s.therm.barred = false →
    exec (.wakeEvent x) s = .next (startPowerUp 5 s)) ∧
  (∀ c s, Takes s c 0xC700 → 12 ≤ payloadLimit s c →
    exec (.getPowerState c []) s
      = .next (complete c 0xC700 .success (.bytes (leBytes 1 s.power.mode.code ++ leBytes 1 s.power.cause ++
          leBytes 1 (b2n s.persist.pwrFail) ++ leBytes 1 s.power.retries ++ leBytes 8 s.power.transAt)) s)) ∧
  (∀ c s, Takes s c 0xC701 → drainRunning s = false → s.power.seq = none → s.power.entering = none → s.power.hold = none →
    s.power.exiting = false →
    (s.power.mode = .idle → exec (.setPowerStateActive c [0]) s = .next (complete c 0xC701 .success .none (setMode .active 0 s))) ∧
    (s.power.mode = .dormant → exec (.setPowerStateActive c [0]) s = .next (complete c 0xC701 .success .none (exitDormant 0 s))) ∧
    (s.power.mode = .active → exec (.setPowerStateDormant c [2]) s = .next (complete c 0xC701 .success .none (beginEntry 2 0 s))) ∧
    (s.power.mode = .dormant → exec (.setPowerStateDormant c [2]) s = .next (complete c 0xC701 .success .none s)) ∧
    exec (.setPowerStateStandby c [3]) s = .next (complete c 0xC701 .success .none (beginEntry 3 0 s))) ∧
  (∀ c s, Takes s c 0xC701 → drainRunning s = true →
    exec (.setPowerStateStandby c [3]) s = .next (complete c 0xC701 .busy .none s)) ∧
  (∀ c inp s, Takes s c 0xC702 → inp.length = 8 → powerPolicyOk (powerPolicyOf inp) = true →
    exec (.setPowerPolicy c inp) s
      = .next (waitsCommit c 0xC702 (cellarWrite 5 2 0x17 (powerPolicyBytes (powerPolicyOf inp)) none s))) ∧
  (∀ c inp s, Takes s c 0xC710 → inp.length = 1 → byteAt inp 0 = 1 → (blobRead (blobOf s)).length ≤ payloadLimit s c →
    exec (.getSequencerProgram c inp) s = .next (complete c 0xC710 .success (.bytes (blobRead (blobOf s))) s)) ∧
  (∀ c inp s, Takes s c 0xC711 → inp.length = 3264 → blobOk inp = true →
    exec (.setSequencerProgram c inp) s
      = .next (waitsCommit c 0xC711 (cellarWrite 5 2 0x0A inp none s))) ∧
  (∀ c inp s, Takes s c 0xC711 → inp.length = 3264 → blobOk inp = false →
    exec (.setSequencerProgram c inp) s = .next (complete c 0xC711 .invalidInput .none s)) ∧
  (∀ c s, Takes s c 0xC712 → 576 ≤ payloadLimit s c → AnswersBytes (.getRailStatus c []) c 0xC712 576 s) ∧
  (∀ c s, Takes s c 0xC713 →
    exec (.clearRailFaults c []) s
      = .next (complete c 0xC713 .success .none { s with power := { s.power with
          retries := 0, rails := tmap s.power.rails fun _ x => { x with fault := 0, ovWarn := false, uvWarn := false } } }))

/-! ### Thermal (16_thermal.md) and start-up (20_startup_reset_and_errors.md) -/

/-- Temperature samples, throttling holds, THERMTRIP, restart and the thermal commands complete (R496 to R511). -/
def Obligations.ThermalCommandsComplete : Prop :=
  (∀ (d : Fin 24) x s, exec (.diodeSample d x) s = .next (sampleSensor d x s)) ∧
  (∀ (n : Fin 8) mv u s, bits s.therm.policy.ntcMask n 1 = 1 → u = sampleSensor (328 + n) (ntcReading s mv) s →
    (u.power.mode = .active → exec (.ntcSample n mv) s = .next u) ∧
    (∀ v : Int, (u.power.mode = .standby ∨ u.power.mode = .dormant) → ntcReading s mv = some v → 0 < u.therm.policy.ntcWake →
      exec (.ntcSample n mv) s = .next (if (16 * u.therm.policy.ntcWake : Int) < v then wake 4 u else u))) ∧
  (∀ (n : Fin 8) mv s, bits s.therm.policy.ntcMask n 1 = 0 → exec (.ntcSample n mv) s = .next s) ∧
  (∀ (n : Fin 336) x s, (sensorOf s n).goodSince = some x → (sensorOf s n).broken = true → x + 60000000000 ≤ s.time.mono →
    exec (.sensorRecovered n) s
      = .next (raise 0x062 0x1002 n.val 0 0 (setSensor n { sensorOf s n with broken := false, bad := 0, goodSince := none } s))) ∧
  (∀ (z : Fin 4) x s, s.therm.belowSince.getD z none = some x → x + 10000000000 ≤ s.time.mono → 1 ≤ zoneLevel s z →
    zoneLevel s z < 3 →
    exec (.zoneFallHoldExpiry z) s = .next (noteBelow z (setLevel z (zoneLevel s z - 1) s))) ∧
  (∀ (ds : Fin 512) x s, (busyOf s ds).pause = some x → x ≤ s.time.mono →
    exec (.programPauseEnd ds) s = .next (slotStart ds (startQuad ds (setBusy ds { busyOf s ds with pause := none } s)))) ∧
  (∀ (d : Fin 24) s, s.power.mode ≠ .off →
    (drainRunning (tripNoted d s) = false → exec (.thermtrip d) s = .next (safeOff 3 (tripNoted d s))) ∧
    (drainRunning (tripNoted d s) = true → exec (.thermtrip d) s = .next (safeOff 3 (abortDrain 5 (tripNoted d s))))) ∧
  (∀ n u s, s.therm.coolSince = some n → s.therm.barred = true → s.power.mode = .standby → n + 60000000000 ≤ s.time.mono →
    u = { s with therm := { s.therm with barred := false, wakeHeld := false }, power := { s.power with retryAt := none } } →
    (s.therm.wakeHeld = true → exec .thermalRestart s = .next (startPowerUp 5 u)) ∧
    (s.therm.wakeHeld = false → s.power.policy.autoOn = true → recentStops s < s.therm.policy.autoRestarts →
      exec .thermalRestart s = .next (startPowerUp 3 u)) ∧
    (s.therm.wakeHeld = false → s.power.policy.autoOn = false → exec .thermalRestart s = .next u)) ∧
  (∀ s, exec .tempHistoryUpdate s = .next (flushTherm s)) ∧
  (∀ c s, Takes s c 0xC730 → 1352 ≤ payloadLimit s c → AnswersBytes (.getThermalState c []) c 0xC730 1352 s) ∧
  (∀ c inp s, Takes s c 0xC731 → inp.length = 28 → thermPolicyOk (thermPolicyOf inp) = true →
    exec (.setThermalPolicy c inp) s
      = .next (waitsCommit c 0xC731 (cellarWrite 5 2 0x18 (thermPolicyBytes (thermPolicyOf inp)) none s))) ∧
  (∀ c s, Takes s c 0xC732 → 652 ≤ payloadLimit s c → AnswersBytes (.getTemperatureHistory c []) c 0xC732 652 s)

/-- The start-up phases that commands drive complete (R577 to R583, Table 20-1). -/
def Obligations.StartPhasesComplete : Prop :=
  (∀ u s, s.start.phases.contains 5 = true → s.start.phases.contains 6 = false → s.mgmt.recovery = false → s.mgmt.running = true →
    u = markPhase 6 (shutdownClass (loadPolicies s)) →
    (ringWaits u = false → exec .shutdownClassDecide s = .next (applyPortEn u)) ∧
    (ringWaits u = true → exec .shutdownClassDecide s = .next (applyPortEn (startElection u)))) ∧
  (∀ s, s.start.phases.contains 6 = true → s.start.phases.contains 13 = false → mayMeasure s = true →
    exec .holdupBankCharged s = .next (startMeasure none s)) ∧
  (∀ s, s.start.phases.contains 11 = true → s.start.phases.contains 12 = true → s.start.phases.contains 13 = true →
    s.start.phases.contains 14 = false → s.start.held = false → s.front.mode = .off → journalFull s = false →
    exec .startFrontEnable s = .next (frontPhase s)) ∧
  (∀ n s, s.start.phase12 = some n → s.start.phases.contains 11 = true → s.start.phases.contains 12 = true →
    s.start.phases.contains 13 = false → s.start.phases.contains 14 = false → s.start.held = false → s.front.mode = .off →
    journalFull s = false → n + 10000000000 ≤ s.time.mono →
    exec .frontEnableTimeout s = .next (frontPhase { s with front := { s.front with budget := 0 } }))


/-! ### The machine as a whole -/

/-- A step takes the command at the front of the queue and runs it on the state with the queue's rest. -/
def Obligations.StepRunsTheFrontCommand : Prop :=
  ∀ (c : Instr) (rest : List Instr) (s : State), s.pending = c :: rest → step s = exec c { s with pending := rest }

/-- With no command waiting, a step is 1 ns of the always-on clock (the model's choice, log entry 10). -/
def Obligations.StepOnAnEmptyQueueTicks : Prop :=
  (∀ s : State, s.pending = [] → step s = .next (tick s)) ∧
  (∀ s : State, (clockNs s.time).mono = s.time.mono + 1)

/-- Every command answers a next state, in every state: nothing the manual describes stops the block. -/
def Obligations.EveryCommandAnswersAState : Prop :=
  ∀ c s, ∃ t, exec c s = .next t

/-- No step changes the fused grade, serial number, boot ROM version or debug lock, and no step restores a revoked key
(R7, R514, R520). -/
def Obligations.StepNeverRestoresAFuse : Prop :=
  ∀ f k s t, FusesHold f k s → step s = .next t → FusesHold f k t

/-- The fuse invariant holds right after reset. -/
def Obligations.FusesHoldAtReset : Prop :=
  FusesHold (false, 0, 0, false) 0 State.reset ∧ State.reset.pending = []

/-- What the manual says of the state right after reset: Off, no bulk supply sequence, no phase passed, the ring bypassed, no
fabric identity, the front cache off with INV_ALL_DONE 0, every key slot Empty, every head at access level 2, the cellar book's
SEQ at 1, no tenant, no PPS (R110, R132, R173, R405, R524, R536, Table 13-1). -/
def Obligations.ResetLeavesTheManualsValues : Prop :=
  State.reset.power.mode = .off ∧ State.reset.power.seq = none ∧ State.reset.start.phases = [] ∧
  State.reset.epoch.ring.mode = .bypassed ∧ State.reset.fabric.devId = 0xFFF ∧
  State.reset.front.mode = .off ∧ State.reset.front.invAllDone = false ∧
  (∀ k, slotOf State.reset k = .empty) ∧ (∀ h : Fin 4, State.reset.mgmt.access[h.val]? = some 2) ∧
  State.reset.cellar.system.seq = 1 ∧ State.reset.cellar.epoch.seq = 1 ∧ State.reset.cellar.user.seq = 1 ∧
  State.reset.time.timeSet = false ∧ State.reset.time.pps = .absent ∧ State.reset.persist.drain = none

/-! ### Mailbox rules (17_management_and_mailbox.md) -/

/-- Answering a command changes its own interface and nothing else, and a command that waits for a COMMIT word changes its own
interface and the mark on the newest cellar write (R523, R525, R539). -/
def Obligations.AnsweringChangesOnlyTheInterface : Prop :=
  (∀ c op rc out s, ∃ x : Tbl CciSt, complete c op rc out s = { s with mgmt := { s.mgmt with ccis := x } } ∧
    ∀ d, d ≠ c → tget x d CciSt.fresh = cciOf s d) ∧
  (∀ c op s, ∃ (x : Tbl CciSt) (w : List CWrite), waitsCommit c op s
      = { s with mgmt := { s.mgmt with ccis := x }, cellar := { s.cellar with writes := w } } ∧
    w.map (fun a => (a.cls, a.region, a.key, a.data)) = s.cellar.writes.map (fun a => (a.cls, a.region, a.key, a.data))) ∧
  (∀ c op rc out s, (cciOf (complete c op rc out s) c).rc = rc ∧ (cciOf (complete c op rc out s) c).wait = none)

/-- A mailbox command with an opcode that is reserved or not listed answers Unsupported and has no effect, whatever the mailbox, its
access level and the state of the device. -/
def Obligations.UnlistedOpcodeIsUnsupported : Prop :=
  ∀ (c : Fin 10) op s, listedOps.contains op = false → cciOpen s c = true →
    exec (.unsupportedCommand c op) s = .next (complete c op .unsupported .none s)

/-- When the mailbox refuses: Transfer FW, Activate FW and Sanitize on a secondary mailbox, every command outside its list in
recovery mode, what an access level does not allow, data-path commands in a held start; and a refusal has no effect
(R516, R522, R524, R582). -/
def Obligations.MailboxRefusals : Prop :=
  (∀ c op s, c < 8 → c % 2 = 1 → (op = 0x0201 ∨ op = 0x0202 ∨ op = 0x4400) → gate s c op = some .unsupportedMailbox) ∧
  (∀ c op s, listedOps.contains op = true → s.mgmt.recovery = true → recoveryOps.contains op = false → (8 ≤ c ∨ (mctpOnly op = false ∧ c % 2 = 0)) →
    gate s c op = some .mediaDisabled) ∧
  (∀ (c : Fin 8) op s, listedOps.contains op = true → s.mgmt.recovery = false → s.mgmt.access.getD (c.val / 2) 2 = 1 → 0xC000 ≤ op → vendorGets.contains op = false →
    gate s c op = some .unsupportedMailbox) ∧
  (∀ (c : Fin 8) op s, listedOps.contains op = true → s.mgmt.recovery = false → s.mgmt.access.getD (c.val / 2) 2 = 0 → headScope.contains op = false → op ≠ 0xC013 →
    gate s c op = some .unsupportedMailbox) ∧
  (∀ (c : Fin 10) op s, listedOps.contains op = true → 8 ≤ c.val → s.mgmt.recovery = false → s.start.held = true → dataPathOp op = true →
    gate s c op = some .mediaDisabled) ∧
  (∀ c op bg l r body s rc, cciOpen s c = true → gate s c op = some rc →
    mailbox c op bg l r body s = .next (complete c op rc .none s))

/-- Payloads are little-endian: a number written as n bytes reads back modulo 256^n, whatever follows it (R19, R526). -/
def Obligations.PayloadNumbersAreLittleEndian : Prop :=
  (∀ n v, le (leBytes n v) 0 n = v % 256 ^ n) ∧
  (∀ n v rest, le (leBytes n v ++ rest) 0 n = v % 256 ^ n) ∧
  (∀ n v pre, le (pre ++ leBytes n v) pre.length n = v % 256 ^ n)

/-- At boot-good each key that REVOKE names is revoked, but never the image's own key, and no other key (R514). -/
def Obligations.BootGoodBlowsTheNamedFuses : Prop :=
  ∀ t0 n x s, s.mgmt.goodSince = some t0 → s.mgmt.runSlot = some n → runImage s = some x → t0 + 60000000000 ≤ s.time.mono →
    ([1, 2, 3, 4].all fun k => nodeRuns s k) = true → s.mgmt.running = true →
    After .bootGood s fun t => ∀ k < 4, t.mgmt.revoked.getLsbD k
      = (s.mgmt.revoked.getLsbD k || (fwRevokes x k && fwKey x != some k))

/-! ### Rules of single units -/

/-- A group's bin by its effective age, and that a read of a group takes the table entry at the bin of its WEATHERING (R305). -/
def Obligations.DriftBinOfAnEffectiveAge : Prop :=
  (∀ a, a < 64 → driftBin a = 0) ∧
  (∀ a, 64 ≤ a → driftBin a = min 23 (1 + Nat.log2 (a / 64))) ∧
  (∀ a b, 1 ≤ b → b ≤ 22 → 64 * 2 ^ (b - 1) ≤ a → a < 64 * 2 ^ b → driftBin a = b) ∧
  (∀ a, 268435456 ≤ a → driftBin a = 23) ∧
  (∀ s d x, driftEntry s d x = (tableOf s d).ents.getD (driftBin (weathering x)) (0, 0, 0, 0))

/-- The front-cache meter (R561). -/
def Obligations.MeterAddsFrontCacheOccupancy : Prop :=
  (∀ n m s, devUp s = true → tfind s.count.meters n = some m → (tenantOf s n).st ≠ .free →
    After .meterOccupancyTick s fun t => tfind t.count.meters n = some { m with live := { m.live with
      fcByteMs := m.live.fcByteMs +
        256 * (s.front.lines.filter fun p => p.2.st != .invalid && p.2.tenant == n).length } }) ∧
  (∀ minute seq buf m, m.fcByteMs / 1000 < 2 ^ 64 → le (meterBytes minute seq buf m) 40 8 = m.fcByteMs / 1000)

/-- Repeats of the newest record fold into it and take no SEQUENCE; any other post is a new record with the next SEQUENCE
(R547). -/
def Obligations.RepeatedEventsFold : Prop :=
  (∀ e r k s, s.recorder.ringOn = true → s.recorder.newest = some k → tfind s.recorder.ring k = some r →
    r.code = e.code → r.src = e.src → r.p0 = e.p0 → r.p1 = e.p1 → r.p2 = e.p2 → r.rep < 0xFFFF →
    recordPost e s = { s with recorder := { s.recorder with
      ring := tput s.recorder.ring (r.seq % 65536) { r with rep := r.rep + 1, time := s.time.tbNow },
      folded := s.recorder.folded + 1 } }) ∧
  (∀ e r k s, s.recorder.ringOn = true → s.recorder.newest = some k → tfind s.recorder.ring k = some r →
    (r.code ≠ e.code ∨ r.src ≠ e.src ∨ r.p0 ≠ e.p0 ∨ r.p1 ≠ e.p1 ∨ r.p2 ≠ e.p2 ∨ 0xFFFF ≤ r.rep) →
    (recordPost e s).recorder.nextSeq = (s.recorder.nextSeq + 1) % 2 ^ 32 ∧
    tfind (recordPost e s).recorder.ring (s.recorder.nextSeq % 65536) = some
      { src := e.src, sev := evSeverity e, code := e.code, p0 := e.p0, p1 := e.p1, p2 := e.p2, time := s.time.tbNow,
        seq := s.recorder.nextSeq, rep := 0, ext := e.ext }) ∧
  (∀ e s, s.recorder.ringOn = true → newestRec s = none →
    (recordPost e s).recorder.nextSeq = (s.recorder.nextSeq + 1) % 2 ^ 32)

/-- A record written in a cellar log is the current one of its key, and every other key keeps its current value, whatever the
reclaim moved (R536, R538). -/
def Obligations.CellarLogReadsAfterWrite : Prop :=
  ∀ l k d l', logWrite l k d = some l' →
    (currentRec l'.recs k).map (·.data) = some d ∧
    ∀ j, j ≠ k → (currentRec l'.recs j).map (·.data) = (currentRec l.recs j).map (·.data)

/-- The heads are independent (R65): a reset, link failure, IDE failure or viral state of one leaves every other head as it was,
and every request that is not the first head's own. -/
def Obligations.HeadsAreIndependent : Prop :=
  ∀ (h k : Fin 4) s c, h ≠ k →
    (c = .perstNAssert h ∨ c = .hotReset h ∨ c = .linkDown h ∨ c = .cxlReset h ∨ c = .functionLevelReset h ∨
      c = .ideIntegrityFailure h ∨ c = .hostViralSignal h) →
    After c s fun t => headOf t k = headOf s k ∧
      ∀ tag r, tfind s.ten.reqs tag = some r → r.src ≠ .head h → tfind t.ten.reqs tag = some r

/-- Failed key loads are refused for a time that doubles, and a good load resets the count (R135). -/
def Obligations.FailedKeyLoadsAreHeldOff : Prop :=
  (∀ t n s, (tenantOf (loadFail t n s) t).fails = (tenantOf s t).fails + 1) ∧
  (∀ t n s, (tenantOf s t).fails + 1 < 8 → (tenantOf (loadFail t n s) t).refusal = 0) ∧
  (∀ t n s, 8 ≤ (tenantOf s t).fails + 1 → (tenantOf (loadFail t n s) t).refusal
    = s.time.mono + min (2 ^ ((tenantOf s t).fails - 7)) 64 * 1000000000) ∧
  (∀ c inp s, Takes s c 0xC021 → inp.length = 200 → le inp 2 2 = 0 → s.time.mono < (tenantOf s (le inp 0 2)).refusal →
    exec (.loadTenantKey c inp) s = .next (complete c 0xC021 .busy .none s)) ∧
  (∀ c inp n rc s, Takes s c 0xC021 → inp.length = 200 → le inp 2 2 = 0 →
    s.start.phases.contains 14 = true → (tenantOf s (le inp 0 2)).refusal ≤ s.time.mono →
    checkBlob (le inp 0 2) (inp.drop 4) s = .inl (n, rc) →
    exec (.loadTenantKey c inp) s = .next (complete c 0xC021 rc .none (loadFail (le inp 0 2) n s))) ∧
  (∀ t p s, (tenantOf (acceptKey t p s) t).fails = 0 ∧ (tenantOf (acceptKey t p s) t).refusal = 0)

/-- Storing a subset of a line's bytes stores those bytes and leaves the others (R70, R147). -/
def Obligations.LineStoresOnlyTheMaskedBytes : Prop :=
  ∀ (old new : FrontLine) (m : ByteMask) (n : Nat), n < 256 →
    (blendLine old new m).extractLsb' (8 * n) 8 = if m.getLsbD n then new.extractLsb' (8 * n) 8 else old.extractLsb' (8 * n) 8

/-- A program or a tile reset of a die, ended well or badly or cut off by MRESET_N, never changes another segment or tile
(R325, R336, R337, R349). -/
def Obligations.DieArrayWorkKeepsOtherSegments : Prop :=
  (∀ d good tile seg tile' seg' s, (dieOf s d).array = some (.prog tile seg) → seg < 131072 → seg' < 131072 →
    (tile', seg') ≠ (tile, seg) →
    After (.dieProgramEnd d good) s fun t => segContent (dieOf t d) tile' seg' = segContent (dieOf s d) tile' seg') ∧
  (∀ d good tile tile' seg' s, (dieOf s d).array = some (.reset tile) → seg' < 131072 → tile' ≠ tile →
    After (.dieTileResetEnd d good) s fun t => segContent (dieOf t d) tile' seg' = segContent (dieOf s d) tile' seg') ∧
  (∀ (d : Nat) good (e : Nat) s, e ≠ d → After (.dieProgramEnd d good) s (fun t => dieOf t e = dieOf s e) ∧
    After (.dieTileResetEnd d good) s (fun t => dieOf t e = dieOf s e)) ∧
  (∀ d tile seg tile' seg' s, (dieOf s d).array = some (.prog tile seg) → seg < 131072 → seg' < 131072 →
    (tile', seg') ≠ (tile, seg) → segContent (dieOf (resetDie d s) d) tile' seg' = segContent (dieOf s d) tile' seg') ∧
  (∀ d tile seg s, (dieOf s d).array = some (.reset tile) → (dieOf s d).suspended = false → seg < 131072 →
    tblWf (dieOf s d).undefTiles = true →
    After (.dieTileResetEnd d true) s fun t => segContent (dieOf t d) tile seg = BitVec.allOnes 4736)

/-- At most four PLLs lock at once; a start request beyond them waits in the queue (R48). -/
def Obligations.AtMostFourPllsLock : Prop :=
  (∀ d s, pllCount s.time.locking ≤ 4 → pllCount (startDom d s).time.locking ≤ 4) ∧
  (∀ d s, domOf s d = .stopped → pllRuns s d = false → pllCount s.time.locking = 4 → s.time.locking.contains d = false →
    s.time.lockQueue.contains d = false → (s.time.locking.any fun x => pllOf x == pllOf d) = false →
    (startDom d s).time.locking = s.time.locking ∧ (startDom d s).time.lockQueue.contains d = true)

/-- An increment of a spread counter adds exactly itself to the value read, whether it is a cell write or a carry (R545). -/
def Obligations.SpreadCounterAddsExactly : Prop :=
  (∀ p inc, spreadValue (spreadBump p inc) = spreadValue p + inc) ∧
  (∀ c inc s, spreadRead (spreadAdd c inc s) c = spreadRead s c + inc) ∧
  (∀ (c d : Nat) inc s, d ≠ c → spreadRead (spreadAdd c inc s) d = spreadRead s d)

/-- No command touches the queue of waiting commands: only the step takes from it (the model's choice, log entry 10). -/
def Obligations.CommandsLeaveTheQueueAlone : Prop :=
  ∀ (c : Instr) s t, exec c s = .next t → t.pending = s.pending
end

