-- ==== Sys2Proof/Laws/State.lean ====
section
/-!
SUPPORT. What the shared updates of State leave alone: one lemma for each field and update.
-/
namespace Sys2Proof.Machine

@[simp] theorem setHead_recorder (h : Nat) (x : HeadSt) (s : State) : (setHead h x s).recorder = s.recorder := rfl
@[simp] theorem setHead_cellar (h : Nat) (x : HeadSt) (s : State) : (setHead h x s).cellar = s.cellar := rfl
@[simp] theorem setHead_mgmt (h : Nat) (x : HeadSt) (s : State) : (setHead h x s).mgmt = s.mgmt := rfl
@[simp] theorem setHead_time (h : Nat) (x : HeadSt) (s : State) : (setHead h x s).time = s.time := rfl
@[simp] theorem setHead_start (h : Nat) (x : HeadSt) (s : State) : (setHead h x s).start = s.start := rfl
@[simp] theorem setHead_media (h : Nat) (x : HeadSt) (s : State) : (setHead h x s).media = s.media := rfl
@[simp] theorem setHead_ten (h : Nat) (x : HeadSt) (s : State) : (setHead h x s).ten = s.ten := rfl
@[simp] theorem setHead_front (h : Nat) (x : HeadSt) (s : State) : (setHead h x s).front = s.front := rfl
@[simp] theorem setHead_persist (h : Nat) (x : HeadSt) (s : State) : (setHead h x s).persist = s.persist := rfl
@[simp] theorem setHead_back (h : Nat) (x : HeadSt) (s : State) : (setHead h x s).back = s.back := rfl
@[simp] theorem setHead_map (h : Nat) (x : HeadSt) (s : State) : (setHead h x s).map = s.map := rfl
@[simp] theorem setHead_place (h : Nat) (x : HeadSt) (s : State) : (setHead h x s).place = s.place := rfl
@[simp] theorem setHead_drift (h : Nat) (x : HeadSt) (s : State) : (setHead h x s).drift = s.drift := rfl
@[simp] theorem setHead_dram (h : Nat) (x : HeadSt) (s : State) : (setHead h x s).dram = s.dram := rfl
@[simp] theorem setHead_fabric (h : Nat) (x : HeadSt) (s : State) : (setHead h x s).fabric = s.fabric := rfl
@[simp] theorem setHead_epoch (h : Nat) (x : HeadSt) (s : State) : (setHead h x s).epoch = s.epoch := rfl
@[simp] theorem setHead_count (h : Nat) (x : HeadSt) (s : State) : (setHead h x s).count = s.count := rfl
@[simp] theorem setHead_eng (h : Nat) (x : HeadSt) (s : State) : (setHead h x s).eng = s.eng := rfl
@[simp] theorem setHead_power (h : Nat) (x : HeadSt) (s : State) : (setHead h x s).power = s.power := rfl
@[simp] theorem setHead_therm (h : Nat) (x : HeadSt) (s : State) : (setHead h x s).therm = s.therm := rfl
@[simp] theorem setHead_free (h : Nat) (x : HeadSt) (s : State) : (setHead h x s).free = s.free := rfl
@[simp] theorem setHead_pending (h : Nat) (x : HeadSt) (s : State) : (setHead h x s).pending = s.pending := rfl

@[simp] theorem setCci_recorder (c : Nat) (x : CciSt) (s : State) : (setCci c x s).recorder = s.recorder := rfl
@[simp] theorem setCci_cellar (c : Nat) (x : CciSt) (s : State) : (setCci c x s).cellar = s.cellar := rfl
@[simp] theorem setCci_time (c : Nat) (x : CciSt) (s : State) : (setCci c x s).time = s.time := rfl
@[simp] theorem setCci_heads (c : Nat) (x : CciSt) (s : State) : (setCci c x s).heads = s.heads := rfl
@[simp] theorem setCci_start (c : Nat) (x : CciSt) (s : State) : (setCci c x s).start = s.start := rfl
@[simp] theorem setCci_media (c : Nat) (x : CciSt) (s : State) : (setCci c x s).media = s.media := rfl
@[simp] theorem setCci_ten (c : Nat) (x : CciSt) (s : State) : (setCci c x s).ten = s.ten := rfl
@[simp] theorem setCci_front (c : Nat) (x : CciSt) (s : State) : (setCci c x s).front = s.front := rfl
@[simp] theorem setCci_persist (c : Nat) (x : CciSt) (s : State) : (setCci c x s).persist = s.persist := rfl
@[simp] theorem setCci_back (c : Nat) (x : CciSt) (s : State) : (setCci c x s).back = s.back := rfl
@[simp] theorem setCci_map (c : Nat) (x : CciSt) (s : State) : (setCci c x s).map = s.map := rfl
@[simp] theorem setCci_place (c : Nat) (x : CciSt) (s : State) : (setCci c x s).place = s.place := rfl
@[simp] theorem setCci_drift (c : Nat) (x : CciSt) (s : State) : (setCci c x s).drift = s.drift := rfl
@[simp] theorem setCci_dram (c : Nat) (x : CciSt) (s : State) : (setCci c x s).dram = s.dram := rfl
@[simp] theorem setCci_fabric (c : Nat) (x : CciSt) (s : State) : (setCci c x s).fabric = s.fabric := rfl
@[simp] theorem setCci_epoch (c : Nat) (x : CciSt) (s : State) : (setCci c x s).epoch = s.epoch := rfl
@[simp] theorem setCci_count (c : Nat) (x : CciSt) (s : State) : (setCci c x s).count = s.count := rfl
@[simp] theorem setCci_eng (c : Nat) (x : CciSt) (s : State) : (setCci c x s).eng = s.eng := rfl
@[simp] theorem setCci_power (c : Nat) (x : CciSt) (s : State) : (setCci c x s).power = s.power := rfl
@[simp] theorem setCci_therm (c : Nat) (x : CciSt) (s : State) : (setCci c x s).therm = s.therm := rfl
@[simp] theorem setCci_free (c : Nat) (x : CciSt) (s : State) : (setCci c x s).free = s.free := rfl
@[simp] theorem setCci_pending (c : Nat) (x : CciSt) (s : State) : (setCci c x s).pending = s.pending := rfl

@[simp] theorem raiseEv_cellar (e : Ev) (s : State) : (raiseEv e s).cellar = s.cellar := rfl
@[simp] theorem raiseEv_mgmt (e : Ev) (s : State) : (raiseEv e s).mgmt = s.mgmt := rfl
@[simp] theorem raiseEv_time (e : Ev) (s : State) : (raiseEv e s).time = s.time := rfl
@[simp] theorem raiseEv_heads (e : Ev) (s : State) : (raiseEv e s).heads = s.heads := rfl
@[simp] theorem raiseEv_start (e : Ev) (s : State) : (raiseEv e s).start = s.start := rfl
@[simp] theorem raiseEv_media (e : Ev) (s : State) : (raiseEv e s).media = s.media := rfl
@[simp] theorem raiseEv_ten (e : Ev) (s : State) : (raiseEv e s).ten = s.ten := rfl
@[simp] theorem raiseEv_front (e : Ev) (s : State) : (raiseEv e s).front = s.front := rfl
@[simp] theorem raiseEv_persist (e : Ev) (s : State) : (raiseEv e s).persist = s.persist := rfl
@[simp] theorem raiseEv_back (e : Ev) (s : State) : (raiseEv e s).back = s.back := rfl
@[simp] theorem raiseEv_map (e : Ev) (s : State) : (raiseEv e s).map = s.map := rfl
@[simp] theorem raiseEv_place (e : Ev) (s : State) : (raiseEv e s).place = s.place := rfl
@[simp] theorem raiseEv_drift (e : Ev) (s : State) : (raiseEv e s).drift = s.drift := rfl
@[simp] theorem raiseEv_dram (e : Ev) (s : State) : (raiseEv e s).dram = s.dram := rfl
@[simp] theorem raiseEv_fabric (e : Ev) (s : State) : (raiseEv e s).fabric = s.fabric := rfl
@[simp] theorem raiseEv_epoch (e : Ev) (s : State) : (raiseEv e s).epoch = s.epoch := rfl
@[simp] theorem raiseEv_count (e : Ev) (s : State) : (raiseEv e s).count = s.count := rfl
@[simp] theorem raiseEv_eng (e : Ev) (s : State) : (raiseEv e s).eng = s.eng := rfl
@[simp] theorem raiseEv_power (e : Ev) (s : State) : (raiseEv e s).power = s.power := rfl
@[simp] theorem raiseEv_therm (e : Ev) (s : State) : (raiseEv e s).therm = s.therm := rfl
@[simp] theorem raiseEv_free (e : Ev) (s : State) : (raiseEv e s).free = s.free := rfl
@[simp] theorem raiseEv_pending (e : Ev) (s : State) : (raiseEv e s).pending = s.pending := rfl

@[simp] theorem raise_cellar (src code p0 p1 p2 : Nat) (s : State) : (raise src code p0 p1 p2 s).cellar = s.cellar := rfl
@[simp] theorem raise_mgmt (src code p0 p1 p2 : Nat) (s : State) : (raise src code p0 p1 p2 s).mgmt = s.mgmt := rfl
@[simp] theorem raise_time (src code p0 p1 p2 : Nat) (s : State) : (raise src code p0 p1 p2 s).time = s.time := rfl
@[simp] theorem raise_heads (src code p0 p1 p2 : Nat) (s : State) : (raise src code p0 p1 p2 s).heads = s.heads := rfl
@[simp] theorem raise_start (src code p0 p1 p2 : Nat) (s : State) : (raise src code p0 p1 p2 s).start = s.start := rfl
@[simp] theorem raise_media (src code p0 p1 p2 : Nat) (s : State) : (raise src code p0 p1 p2 s).media = s.media := rfl
@[simp] theorem raise_ten (src code p0 p1 p2 : Nat) (s : State) : (raise src code p0 p1 p2 s).ten = s.ten := rfl
@[simp] theorem raise_front (src code p0 p1 p2 : Nat) (s : State) : (raise src code p0 p1 p2 s).front = s.front := rfl
@[simp] theorem raise_persist (src code p0 p1 p2 : Nat) (s : State) : (raise src code p0 p1 p2 s).persist = s.persist := rfl
@[simp] theorem raise_back (src code p0 p1 p2 : Nat) (s : State) : (raise src code p0 p1 p2 s).back = s.back := rfl
@[simp] theorem raise_map (src code p0 p1 p2 : Nat) (s : State) : (raise src code p0 p1 p2 s).map = s.map := rfl
@[simp] theorem raise_place (src code p0 p1 p2 : Nat) (s : State) : (raise src code p0 p1 p2 s).place = s.place := rfl
@[simp] theorem raise_drift (src code p0 p1 p2 : Nat) (s : State) : (raise src code p0 p1 p2 s).drift = s.drift := rfl
@[simp] theorem raise_dram (src code p0 p1 p2 : Nat) (s : State) : (raise src code p0 p1 p2 s).dram = s.dram := rfl
@[simp] theorem raise_fabric (src code p0 p1 p2 : Nat) (s : State) : (raise src code p0 p1 p2 s).fabric = s.fabric := rfl
@[simp] theorem raise_epoch (src code p0 p1 p2 : Nat) (s : State) : (raise src code p0 p1 p2 s).epoch = s.epoch := rfl
@[simp] theorem raise_count (src code p0 p1 p2 : Nat) (s : State) : (raise src code p0 p1 p2 s).count = s.count := rfl
@[simp] theorem raise_eng (src code p0 p1 p2 : Nat) (s : State) : (raise src code p0 p1 p2 s).eng = s.eng := rfl
@[simp] theorem raise_power (src code p0 p1 p2 : Nat) (s : State) : (raise src code p0 p1 p2 s).power = s.power := rfl
@[simp] theorem raise_therm (src code p0 p1 p2 : Nat) (s : State) : (raise src code p0 p1 p2 s).therm = s.therm := rfl
@[simp] theorem raise_free (src code p0 p1 p2 : Nat) (s : State) : (raise src code p0 p1 p2 s).free = s.free := rfl
@[simp] theorem raise_pending (src code p0 p1 p2 : Nat) (s : State) : (raise src code p0 p1 p2 s).pending = s.pending := rfl

@[simp] theorem setDie_recorder (d : Nat) (x : DieSt) (s : State) : (setDie d x s).recorder = s.recorder := rfl
@[simp] theorem setDie_cellar (d : Nat) (x : DieSt) (s : State) : (setDie d x s).cellar = s.cellar := rfl
@[simp] theorem setDie_mgmt (d : Nat) (x : DieSt) (s : State) : (setDie d x s).mgmt = s.mgmt := rfl
@[simp] theorem setDie_time (d : Nat) (x : DieSt) (s : State) : (setDie d x s).time = s.time := rfl
@[simp] theorem setDie_heads (d : Nat) (x : DieSt) (s : State) : (setDie d x s).heads = s.heads := rfl
@[simp] theorem setDie_start (d : Nat) (x : DieSt) (s : State) : (setDie d x s).start = s.start := rfl
@[simp] theorem setDie_ten (d : Nat) (x : DieSt) (s : State) : (setDie d x s).ten = s.ten := rfl
@[simp] theorem setDie_front (d : Nat) (x : DieSt) (s : State) : (setDie d x s).front = s.front := rfl
@[simp] theorem setDie_persist (d : Nat) (x : DieSt) (s : State) : (setDie d x s).persist = s.persist := rfl
@[simp] theorem setDie_back (d : Nat) (x : DieSt) (s : State) : (setDie d x s).back = s.back := rfl
@[simp] theorem setDie_map (d : Nat) (x : DieSt) (s : State) : (setDie d x s).map = s.map := rfl
@[simp] theorem setDie_place (d : Nat) (x : DieSt) (s : State) : (setDie d x s).place = s.place := rfl
@[simp] theorem setDie_drift (d : Nat) (x : DieSt) (s : State) : (setDie d x s).drift = s.drift := rfl
@[simp] theorem setDie_dram (d : Nat) (x : DieSt) (s : State) : (setDie d x s).dram = s.dram := rfl
@[simp] theorem setDie_fabric (d : Nat) (x : DieSt) (s : State) : (setDie d x s).fabric = s.fabric := rfl
@[simp] theorem setDie_epoch (d : Nat) (x : DieSt) (s : State) : (setDie d x s).epoch = s.epoch := rfl
@[simp] theorem setDie_count (d : Nat) (x : DieSt) (s : State) : (setDie d x s).count = s.count := rfl
@[simp] theorem setDie_eng (d : Nat) (x : DieSt) (s : State) : (setDie d x s).eng = s.eng := rfl
@[simp] theorem setDie_power (d : Nat) (x : DieSt) (s : State) : (setDie d x s).power = s.power := rfl
@[simp] theorem setDie_therm (d : Nat) (x : DieSt) (s : State) : (setDie d x s).therm = s.therm := rfl
@[simp] theorem setDie_free (d : Nat) (x : DieSt) (s : State) : (setDie d x s).free = s.free := rfl
@[simp] theorem setDie_pending (d : Nat) (x : DieSt) (s : State) : (setDie d x s).pending = s.pending := rfl

@[simp] theorem setChan_recorder (c : Nat) (x : ChanSt) (s : State) : (setChan c x s).recorder = s.recorder := rfl
@[simp] theorem setChan_cellar (c : Nat) (x : ChanSt) (s : State) : (setChan c x s).cellar = s.cellar := rfl
@[simp] theorem setChan_mgmt (c : Nat) (x : ChanSt) (s : State) : (setChan c x s).mgmt = s.mgmt := rfl
@[simp] theorem setChan_time (c : Nat) (x : ChanSt) (s : State) : (setChan c x s).time = s.time := rfl
@[simp] theorem setChan_heads (c : Nat) (x : ChanSt) (s : State) : (setChan c x s).heads = s.heads := rfl
@[simp] theorem setChan_start (c : Nat) (x : ChanSt) (s : State) : (setChan c x s).start = s.start := rfl
@[simp] theorem setChan_ten (c : Nat) (x : ChanSt) (s : State) : (setChan c x s).ten = s.ten := rfl
@[simp] theorem setChan_front (c : Nat) (x : ChanSt) (s : State) : (setChan c x s).front = s.front := rfl
@[simp] theorem setChan_persist (c : Nat) (x : ChanSt) (s : State) : (setChan c x s).persist = s.persist := rfl
@[simp] theorem setChan_back (c : Nat) (x : ChanSt) (s : State) : (setChan c x s).back = s.back := rfl
@[simp] theorem setChan_map (c : Nat) (x : ChanSt) (s : State) : (setChan c x s).map = s.map := rfl
@[simp] theorem setChan_place (c : Nat) (x : ChanSt) (s : State) : (setChan c x s).place = s.place := rfl
@[simp] theorem setChan_drift (c : Nat) (x : ChanSt) (s : State) : (setChan c x s).drift = s.drift := rfl
@[simp] theorem setChan_dram (c : Nat) (x : ChanSt) (s : State) : (setChan c x s).dram = s.dram := rfl
@[simp] theorem setChan_fabric (c : Nat) (x : ChanSt) (s : State) : (setChan c x s).fabric = s.fabric := rfl
@[simp] theorem setChan_epoch (c : Nat) (x : ChanSt) (s : State) : (setChan c x s).epoch = s.epoch := rfl
@[simp] theorem setChan_count (c : Nat) (x : ChanSt) (s : State) : (setChan c x s).count = s.count := rfl
@[simp] theorem setChan_eng (c : Nat) (x : ChanSt) (s : State) : (setChan c x s).eng = s.eng := rfl
@[simp] theorem setChan_power (c : Nat) (x : ChanSt) (s : State) : (setChan c x s).power = s.power := rfl
@[simp] theorem setChan_therm (c : Nat) (x : ChanSt) (s : State) : (setChan c x s).therm = s.therm := rfl
@[simp] theorem setChan_free (c : Nat) (x : ChanSt) (s : State) : (setChan c x s).free = s.free := rfl
@[simp] theorem setChan_pending (c : Nat) (x : ChanSt) (s : State) : (setChan c x s).pending = s.pending := rfl

@[simp] theorem setPort_recorder (p : Nat) (x : FabPort) (s : State) : (setPort p x s).recorder = s.recorder := rfl
@[simp] theorem setPort_cellar (p : Nat) (x : FabPort) (s : State) : (setPort p x s).cellar = s.cellar := rfl
@[simp] theorem setPort_mgmt (p : Nat) (x : FabPort) (s : State) : (setPort p x s).mgmt = s.mgmt := rfl
@[simp] theorem setPort_time (p : Nat) (x : FabPort) (s : State) : (setPort p x s).time = s.time := rfl
@[simp] theorem setPort_heads (p : Nat) (x : FabPort) (s : State) : (setPort p x s).heads = s.heads := rfl
@[simp] theorem setPort_start (p : Nat) (x : FabPort) (s : State) : (setPort p x s).start = s.start := rfl
@[simp] theorem setPort_media (p : Nat) (x : FabPort) (s : State) : (setPort p x s).media = s.media := rfl
@[simp] theorem setPort_ten (p : Nat) (x : FabPort) (s : State) : (setPort p x s).ten = s.ten := rfl
@[simp] theorem setPort_front (p : Nat) (x : FabPort) (s : State) : (setPort p x s).front = s.front := rfl
@[simp] theorem setPort_persist (p : Nat) (x : FabPort) (s : State) : (setPort p x s).persist = s.persist := rfl
@[simp] theorem setPort_back (p : Nat) (x : FabPort) (s : State) : (setPort p x s).back = s.back := rfl
@[simp] theorem setPort_map (p : Nat) (x : FabPort) (s : State) : (setPort p x s).map = s.map := rfl
@[simp] theorem setPort_place (p : Nat) (x : FabPort) (s : State) : (setPort p x s).place = s.place := rfl
@[simp] theorem setPort_drift (p : Nat) (x : FabPort) (s : State) : (setPort p x s).drift = s.drift := rfl
@[simp] theorem setPort_dram (p : Nat) (x : FabPort) (s : State) : (setPort p x s).dram = s.dram := rfl
@[simp] theorem setPort_epoch (p : Nat) (x : FabPort) (s : State) : (setPort p x s).epoch = s.epoch := rfl
@[simp] theorem setPort_count (p : Nat) (x : FabPort) (s : State) : (setPort p x s).count = s.count := rfl
@[simp] theorem setPort_eng (p : Nat) (x : FabPort) (s : State) : (setPort p x s).eng = s.eng := rfl
@[simp] theorem setPort_power (p : Nat) (x : FabPort) (s : State) : (setPort p x s).power = s.power := rfl
@[simp] theorem setPort_therm (p : Nat) (x : FabPort) (s : State) : (setPort p x s).therm = s.therm := rfl
@[simp] theorem setPort_free (p : Nat) (x : FabPort) (s : State) : (setPort p x s).free = s.free := rfl
@[simp] theorem setPort_pending (p : Nat) (x : FabPort) (s : State) : (setPort p x s).pending = s.pending := rfl

@[simp] theorem setRing_recorder (r : RingSt) (s : State) : (setRing r s).recorder = s.recorder := rfl
@[simp] theorem setRing_cellar (r : RingSt) (s : State) : (setRing r s).cellar = s.cellar := rfl
@[simp] theorem setRing_mgmt (r : RingSt) (s : State) : (setRing r s).mgmt = s.mgmt := rfl
@[simp] theorem setRing_time (r : RingSt) (s : State) : (setRing r s).time = s.time := rfl
@[simp] theorem setRing_heads (r : RingSt) (s : State) : (setRing r s).heads = s.heads := rfl
@[simp] theorem setRing_start (r : RingSt) (s : State) : (setRing r s).start = s.start := rfl
@[simp] theorem setRing_media (r : RingSt) (s : State) : (setRing r s).media = s.media := rfl
@[simp] theorem setRing_ten (r : RingSt) (s : State) : (setRing r s).ten = s.ten := rfl
@[simp] theorem setRing_front (r : RingSt) (s : State) : (setRing r s).front = s.front := rfl
@[simp] theorem setRing_persist (r : RingSt) (s : State) : (setRing r s).persist = s.persist := rfl
@[simp] theorem setRing_back (r : RingSt) (s : State) : (setRing r s).back = s.back := rfl
@[simp] theorem setRing_map (r : RingSt) (s : State) : (setRing r s).map = s.map := rfl
@[simp] theorem setRing_place (r : RingSt) (s : State) : (setRing r s).place = s.place := rfl
@[simp] theorem setRing_drift (r : RingSt) (s : State) : (setRing r s).drift = s.drift := rfl
@[simp] theorem setRing_dram (r : RingSt) (s : State) : (setRing r s).dram = s.dram := rfl
@[simp] theorem setRing_fabric (r : RingSt) (s : State) : (setRing r s).fabric = s.fabric := rfl
@[simp] theorem setRing_count (r : RingSt) (s : State) : (setRing r s).count = s.count := rfl
@[simp] theorem setRing_eng (r : RingSt) (s : State) : (setRing r s).eng = s.eng := rfl
@[simp] theorem setRing_power (r : RingSt) (s : State) : (setRing r s).power = s.power := rfl
@[simp] theorem setRing_therm (r : RingSt) (s : State) : (setRing r s).therm = s.therm := rfl
@[simp] theorem setRing_free (r : RingSt) (s : State) : (setRing r s).free = s.free := rfl
@[simp] theorem setRing_pending (r : RingSt) (s : State) : (setRing r s).pending = s.pending := rfl

@[simp] theorem setRail_recorder (r : Nat) (x : Rail) (s : State) : (setRail r x s).recorder = s.recorder := rfl
@[simp] theorem setRail_cellar (r : Nat) (x : Rail) (s : State) : (setRail r x s).cellar = s.cellar := rfl
@[simp] theorem setRail_mgmt (r : Nat) (x : Rail) (s : State) : (setRail r x s).mgmt = s.mgmt := rfl
@[simp] theorem setRail_time (r : Nat) (x : Rail) (s : State) : (setRail r x s).time = s.time := rfl
@[simp] theorem setRail_heads (r : Nat) (x : Rail) (s : State) : (setRail r x s).heads = s.heads := rfl
@[simp] theorem setRail_start (r : Nat) (x : Rail) (s : State) : (setRail r x s).start = s.start := rfl
@[simp] theorem setRail_media (r : Nat) (x : Rail) (s : State) : (setRail r x s).media = s.media := rfl
@[simp] theorem setRail_ten (r : Nat) (x : Rail) (s : State) : (setRail r x s).ten = s.ten := rfl
@[simp] theorem setRail_front (r : Nat) (x : Rail) (s : State) : (setRail r x s).front = s.front := rfl
@[simp] theorem setRail_persist (r : Nat) (x : Rail) (s : State) : (setRail r x s).persist = s.persist := rfl
@[simp] theorem setRail_back (r : Nat) (x : Rail) (s : State) : (setRail r x s).back = s.back := rfl
@[simp] theorem setRail_map (r : Nat) (x : Rail) (s : State) : (setRail r x s).map = s.map := rfl
@[simp] theorem setRail_place (r : Nat) (x : Rail) (s : State) : (setRail r x s).place = s.place := rfl
@[simp] theorem setRail_drift (r : Nat) (x : Rail) (s : State) : (setRail r x s).drift = s.drift := rfl
@[simp] theorem setRail_dram (r : Nat) (x : Rail) (s : State) : (setRail r x s).dram = s.dram := rfl
@[simp] theorem setRail_fabric (r : Nat) (x : Rail) (s : State) : (setRail r x s).fabric = s.fabric := rfl
@[simp] theorem setRail_epoch (r : Nat) (x : Rail) (s : State) : (setRail r x s).epoch = s.epoch := rfl
@[simp] theorem setRail_count (r : Nat) (x : Rail) (s : State) : (setRail r x s).count = s.count := rfl
@[simp] theorem setRail_eng (r : Nat) (x : Rail) (s : State) : (setRail r x s).eng = s.eng := rfl
@[simp] theorem setRail_therm (r : Nat) (x : Rail) (s : State) : (setRail r x s).therm = s.therm := rfl
@[simp] theorem setRail_free (r : Nat) (x : Rail) (s : State) : (setRail r x s).free = s.free := rfl
@[simp] theorem setRail_pending (r : Nat) (x : Rail) (s : State) : (setRail r x s).pending = s.pending := rfl

@[simp] theorem setDram_recorder (c : Nat) (x : DramCh) (s : State) : (setDram c x s).recorder = s.recorder := rfl
@[simp] theorem setDram_cellar (c : Nat) (x : DramCh) (s : State) : (setDram c x s).cellar = s.cellar := rfl
@[simp] theorem setDram_mgmt (c : Nat) (x : DramCh) (s : State) : (setDram c x s).mgmt = s.mgmt := rfl
@[simp] theorem setDram_time (c : Nat) (x : DramCh) (s : State) : (setDram c x s).time = s.time := rfl
@[simp] theorem setDram_heads (c : Nat) (x : DramCh) (s : State) : (setDram c x s).heads = s.heads := rfl
@[simp] theorem setDram_start (c : Nat) (x : DramCh) (s : State) : (setDram c x s).start = s.start := rfl
@[simp] theorem setDram_media (c : Nat) (x : DramCh) (s : State) : (setDram c x s).media = s.media := rfl
@[simp] theorem setDram_ten (c : Nat) (x : DramCh) (s : State) : (setDram c x s).ten = s.ten := rfl
@[simp] theorem setDram_front (c : Nat) (x : DramCh) (s : State) : (setDram c x s).front = s.front := rfl
@[simp] theorem setDram_persist (c : Nat) (x : DramCh) (s : State) : (setDram c x s).persist = s.persist := rfl
@[simp] theorem setDram_back (c : Nat) (x : DramCh) (s : State) : (setDram c x s).back = s.back := rfl
@[simp] theorem setDram_map (c : Nat) (x : DramCh) (s : State) : (setDram c x s).map = s.map := rfl
@[simp] theorem setDram_place (c : Nat) (x : DramCh) (s : State) : (setDram c x s).place = s.place := rfl
@[simp] theorem setDram_drift (c : Nat) (x : DramCh) (s : State) : (setDram c x s).drift = s.drift := rfl
@[simp] theorem setDram_fabric (c : Nat) (x : DramCh) (s : State) : (setDram c x s).fabric = s.fabric := rfl
@[simp] theorem setDram_epoch (c : Nat) (x : DramCh) (s : State) : (setDram c x s).epoch = s.epoch := rfl
@[simp] theorem setDram_count (c : Nat) (x : DramCh) (s : State) : (setDram c x s).count = s.count := rfl
@[simp] theorem setDram_eng (c : Nat) (x : DramCh) (s : State) : (setDram c x s).eng = s.eng := rfl
@[simp] theorem setDram_power (c : Nat) (x : DramCh) (s : State) : (setDram c x s).power = s.power := rfl
@[simp] theorem setDram_therm (c : Nat) (x : DramCh) (s : State) : (setDram c x s).therm = s.therm := rfl
@[simp] theorem setDram_free (c : Nat) (x : DramCh) (s : State) : (setDram c x s).free = s.free := rfl
@[simp] theorem setDram_pending (c : Nat) (x : DramCh) (s : State) : (setDram c x s).pending = s.pending := rfl

@[simp] theorem setBusy_recorder (ds : Nat) (b : BusySt) (s : State) : (setBusy ds b s).recorder = s.recorder := rfl
@[simp] theorem setBusy_cellar (ds : Nat) (b : BusySt) (s : State) : (setBusy ds b s).cellar = s.cellar := rfl
@[simp] theorem setBusy_mgmt (ds : Nat) (b : BusySt) (s : State) : (setBusy ds b s).mgmt = s.mgmt := rfl
@[simp] theorem setBusy_time (ds : Nat) (b : BusySt) (s : State) : (setBusy ds b s).time = s.time := rfl
@[simp] theorem setBusy_heads (ds : Nat) (b : BusySt) (s : State) : (setBusy ds b s).heads = s.heads := rfl
@[simp] theorem setBusy_start (ds : Nat) (b : BusySt) (s : State) : (setBusy ds b s).start = s.start := rfl
@[simp] theorem setBusy_media (ds : Nat) (b : BusySt) (s : State) : (setBusy ds b s).media = s.media := rfl
@[simp] theorem setBusy_ten (ds : Nat) (b : BusySt) (s : State) : (setBusy ds b s).ten = s.ten := rfl
@[simp] theorem setBusy_front (ds : Nat) (b : BusySt) (s : State) : (setBusy ds b s).front = s.front := rfl
@[simp] theorem setBusy_persist (ds : Nat) (b : BusySt) (s : State) : (setBusy ds b s).persist = s.persist := rfl
@[simp] theorem setBusy_back (ds : Nat) (b : BusySt) (s : State) : (setBusy ds b s).back = s.back := rfl
@[simp] theorem setBusy_map (ds : Nat) (b : BusySt) (s : State) : (setBusy ds b s).map = s.map := rfl
@[simp] theorem setBusy_drift (ds : Nat) (b : BusySt) (s : State) : (setBusy ds b s).drift = s.drift := rfl
@[simp] theorem setBusy_dram (ds : Nat) (b : BusySt) (s : State) : (setBusy ds b s).dram = s.dram := rfl
@[simp] theorem setBusy_fabric (ds : Nat) (b : BusySt) (s : State) : (setBusy ds b s).fabric = s.fabric := rfl
@[simp] theorem setBusy_epoch (ds : Nat) (b : BusySt) (s : State) : (setBusy ds b s).epoch = s.epoch := rfl
@[simp] theorem setBusy_count (ds : Nat) (b : BusySt) (s : State) : (setBusy ds b s).count = s.count := rfl
@[simp] theorem setBusy_eng (ds : Nat) (b : BusySt) (s : State) : (setBusy ds b s).eng = s.eng := rfl
@[simp] theorem setBusy_power (ds : Nat) (b : BusySt) (s : State) : (setBusy ds b s).power = s.power := rfl
@[simp] theorem setBusy_therm (ds : Nat) (b : BusySt) (s : State) : (setBusy ds b s).therm = s.therm := rfl
@[simp] theorem setBusy_free (ds : Nat) (b : BusySt) (s : State) : (setBusy ds b s).free = s.free := rfl
@[simp] theorem setBusy_pending (ds : Nat) (b : BusySt) (s : State) : (setBusy ds b s).pending = s.pending := rfl

@[simp] theorem setTenant_recorder (t : Nat) (x : TenantSt) (s : State) : (setTenant t x s).recorder = s.recorder := rfl
@[simp] theorem setTenant_cellar (t : Nat) (x : TenantSt) (s : State) : (setTenant t x s).cellar = s.cellar := rfl
@[simp] theorem setTenant_mgmt (t : Nat) (x : TenantSt) (s : State) : (setTenant t x s).mgmt = s.mgmt := rfl
@[simp] theorem setTenant_time (t : Nat) (x : TenantSt) (s : State) : (setTenant t x s).time = s.time := rfl
@[simp] theorem setTenant_heads (t : Nat) (x : TenantSt) (s : State) : (setTenant t x s).heads = s.heads := rfl
@[simp] theorem setTenant_start (t : Nat) (x : TenantSt) (s : State) : (setTenant t x s).start = s.start := rfl
@[simp] theorem setTenant_media (t : Nat) (x : TenantSt) (s : State) : (setTenant t x s).media = s.media := rfl
@[simp] theorem setTenant_front (t : Nat) (x : TenantSt) (s : State) : (setTenant t x s).front = s.front := rfl
@[simp] theorem setTenant_persist (t : Nat) (x : TenantSt) (s : State) : (setTenant t x s).persist = s.persist := rfl
@[simp] theorem setTenant_back (t : Nat) (x : TenantSt) (s : State) : (setTenant t x s).back = s.back := rfl
@[simp] theorem setTenant_map (t : Nat) (x : TenantSt) (s : State) : (setTenant t x s).map = s.map := rfl
@[simp] theorem setTenant_place (t : Nat) (x : TenantSt) (s : State) : (setTenant t x s).place = s.place := rfl
@[simp] theorem setTenant_drift (t : Nat) (x : TenantSt) (s : State) : (setTenant t x s).drift = s.drift := rfl
@[simp] theorem setTenant_dram (t : Nat) (x : TenantSt) (s : State) : (setTenant t x s).dram = s.dram := rfl
@[simp] theorem setTenant_fabric (t : Nat) (x : TenantSt) (s : State) : (setTenant t x s).fabric = s.fabric := rfl
@[simp] theorem setTenant_epoch (t : Nat) (x : TenantSt) (s : State) : (setTenant t x s).epoch = s.epoch := rfl
@[simp] theorem setTenant_count (t : Nat) (x : TenantSt) (s : State) : (setTenant t x s).count = s.count := rfl
@[simp] theorem setTenant_eng (t : Nat) (x : TenantSt) (s : State) : (setTenant t x s).eng = s.eng := rfl
@[simp] theorem setTenant_power (t : Nat) (x : TenantSt) (s : State) : (setTenant t x s).power = s.power := rfl
@[simp] theorem setTenant_therm (t : Nat) (x : TenantSt) (s : State) : (setTenant t x s).therm = s.therm := rfl
@[simp] theorem setTenant_free (t : Nat) (x : TenantSt) (s : State) : (setTenant t x s).free = s.free := rfl
@[simp] theorem setTenant_pending (t : Nat) (x : TenantSt) (s : State) : (setTenant t x s).pending = s.pending := rfl

@[simp] theorem setSlot_recorder (k : Nat) (x : SlotState) (s : State) : (setSlot k x s).recorder = s.recorder := rfl
@[simp] theorem setSlot_cellar (k : Nat) (x : SlotState) (s : State) : (setSlot k x s).cellar = s.cellar := rfl
@[simp] theorem setSlot_mgmt (k : Nat) (x : SlotState) (s : State) : (setSlot k x s).mgmt = s.mgmt := rfl
@[simp] theorem setSlot_time (k : Nat) (x : SlotState) (s : State) : (setSlot k x s).time = s.time := rfl
@[simp] theorem setSlot_heads (k : Nat) (x : SlotState) (s : State) : (setSlot k x s).heads = s.heads := rfl
@[simp] theorem setSlot_start (k : Nat) (x : SlotState) (s : State) : (setSlot k x s).start = s.start := rfl
@[simp] theorem setSlot_media (k : Nat) (x : SlotState) (s : State) : (setSlot k x s).media = s.media := rfl
@[simp] theorem setSlot_front (k : Nat) (x : SlotState) (s : State) : (setSlot k x s).front = s.front := rfl
@[simp] theorem setSlot_persist (k : Nat) (x : SlotState) (s : State) : (setSlot k x s).persist = s.persist := rfl
@[simp] theorem setSlot_back (k : Nat) (x : SlotState) (s : State) : (setSlot k x s).back = s.back := rfl
@[simp] theorem setSlot_map (k : Nat) (x : SlotState) (s : State) : (setSlot k x s).map = s.map := rfl
@[simp] theorem setSlot_place (k : Nat) (x : SlotState) (s : State) : (setSlot k x s).place = s.place := rfl
@[simp] theorem setSlot_drift (k : Nat) (x : SlotState) (s : State) : (setSlot k x s).drift = s.drift := rfl
@[simp] theorem setSlot_dram (k : Nat) (x : SlotState) (s : State) : (setSlot k x s).dram = s.dram := rfl
@[simp] theorem setSlot_fabric (k : Nat) (x : SlotState) (s : State) : (setSlot k x s).fabric = s.fabric := rfl
@[simp] theorem setSlot_epoch (k : Nat) (x : SlotState) (s : State) : (setSlot k x s).epoch = s.epoch := rfl
@[simp] theorem setSlot_count (k : Nat) (x : SlotState) (s : State) : (setSlot k x s).count = s.count := rfl
@[simp] theorem setSlot_eng (k : Nat) (x : SlotState) (s : State) : (setSlot k x s).eng = s.eng := rfl
@[simp] theorem setSlot_power (k : Nat) (x : SlotState) (s : State) : (setSlot k x s).power = s.power := rfl
@[simp] theorem setSlot_therm (k : Nat) (x : SlotState) (s : State) : (setSlot k x s).therm = s.therm := rfl
@[simp] theorem setSlot_free (k : Nat) (x : SlotState) (s : State) : (setSlot k x s).free = s.free := rfl
@[simp] theorem setSlot_pending (k : Nat) (x : SlotState) (s : State) : (setSlot k x s).pending = s.pending := rfl

@[simp] theorem setQueue_recorder (q : Nat) (x : FlowQ) (s : State) : (setQueue q x s).recorder = s.recorder := rfl
@[simp] theorem setQueue_cellar (q : Nat) (x : FlowQ) (s : State) : (setQueue q x s).cellar = s.cellar := rfl
@[simp] theorem setQueue_mgmt (q : Nat) (x : FlowQ) (s : State) : (setQueue q x s).mgmt = s.mgmt := rfl
@[simp] theorem setQueue_time (q : Nat) (x : FlowQ) (s : State) : (setQueue q x s).time = s.time := rfl
@[simp] theorem setQueue_heads (q : Nat) (x : FlowQ) (s : State) : (setQueue q x s).heads = s.heads := rfl
@[simp] theorem setQueue_start (q : Nat) (x : FlowQ) (s : State) : (setQueue q x s).start = s.start := rfl
@[simp] theorem setQueue_media (q : Nat) (x : FlowQ) (s : State) : (setQueue q x s).media = s.media := rfl
@[simp] theorem setQueue_front (q : Nat) (x : FlowQ) (s : State) : (setQueue q x s).front = s.front := rfl
@[simp] theorem setQueue_persist (q : Nat) (x : FlowQ) (s : State) : (setQueue q x s).persist = s.persist := rfl
@[simp] theorem setQueue_back (q : Nat) (x : FlowQ) (s : State) : (setQueue q x s).back = s.back := rfl
@[simp] theorem setQueue_map (q : Nat) (x : FlowQ) (s : State) : (setQueue q x s).map = s.map := rfl
@[simp] theorem setQueue_place (q : Nat) (x : FlowQ) (s : State) : (setQueue q x s).place = s.place := rfl
@[simp] theorem setQueue_drift (q : Nat) (x : FlowQ) (s : State) : (setQueue q x s).drift = s.drift := rfl
@[simp] theorem setQueue_dram (q : Nat) (x : FlowQ) (s : State) : (setQueue q x s).dram = s.dram := rfl
@[simp] theorem setQueue_fabric (q : Nat) (x : FlowQ) (s : State) : (setQueue q x s).fabric = s.fabric := rfl
@[simp] theorem setQueue_epoch (q : Nat) (x : FlowQ) (s : State) : (setQueue q x s).epoch = s.epoch := rfl
@[simp] theorem setQueue_count (q : Nat) (x : FlowQ) (s : State) : (setQueue q x s).count = s.count := rfl
@[simp] theorem setQueue_eng (q : Nat) (x : FlowQ) (s : State) : (setQueue q x s).eng = s.eng := rfl
@[simp] theorem setQueue_power (q : Nat) (x : FlowQ) (s : State) : (setQueue q x s).power = s.power := rfl
@[simp] theorem setQueue_therm (q : Nat) (x : FlowQ) (s : State) : (setQueue q x s).therm = s.therm := rfl
@[simp] theorem setQueue_free (q : Nat) (x : FlowQ) (s : State) : (setQueue q x s).free = s.free := rfl
@[simp] theorem setQueue_pending (q : Nat) (x : FlowQ) (s : State) : (setQueue q x s).pending = s.pending := rfl

@[simp] theorem setCv_recorder (u : Nat) (x : CvUnit) (s : State) : (setCv u x s).recorder = s.recorder := rfl
@[simp] theorem setCv_cellar (u : Nat) (x : CvUnit) (s : State) : (setCv u x s).cellar = s.cellar := rfl
@[simp] theorem setCv_mgmt (u : Nat) (x : CvUnit) (s : State) : (setCv u x s).mgmt = s.mgmt := rfl
@[simp] theorem setCv_time (u : Nat) (x : CvUnit) (s : State) : (setCv u x s).time = s.time := rfl
@[simp] theorem setCv_heads (u : Nat) (x : CvUnit) (s : State) : (setCv u x s).heads = s.heads := rfl
@[simp] theorem setCv_start (u : Nat) (x : CvUnit) (s : State) : (setCv u x s).start = s.start := rfl
@[simp] theorem setCv_media (u : Nat) (x : CvUnit) (s : State) : (setCv u x s).media = s.media := rfl
@[simp] theorem setCv_ten (u : Nat) (x : CvUnit) (s : State) : (setCv u x s).ten = s.ten := rfl
@[simp] theorem setCv_front (u : Nat) (x : CvUnit) (s : State) : (setCv u x s).front = s.front := rfl
@[simp] theorem setCv_persist (u : Nat) (x : CvUnit) (s : State) : (setCv u x s).persist = s.persist := rfl
@[simp] theorem setCv_back (u : Nat) (x : CvUnit) (s : State) : (setCv u x s).back = s.back := rfl
@[simp] theorem setCv_map (u : Nat) (x : CvUnit) (s : State) : (setCv u x s).map = s.map := rfl
@[simp] theorem setCv_place (u : Nat) (x : CvUnit) (s : State) : (setCv u x s).place = s.place := rfl
@[simp] theorem setCv_drift (u : Nat) (x : CvUnit) (s : State) : (setCv u x s).drift = s.drift := rfl
@[simp] theorem setCv_dram (u : Nat) (x : CvUnit) (s : State) : (setCv u x s).dram = s.dram := rfl
@[simp] theorem setCv_fabric (u : Nat) (x : CvUnit) (s : State) : (setCv u x s).fabric = s.fabric := rfl
@[simp] theorem setCv_epoch (u : Nat) (x : CvUnit) (s : State) : (setCv u x s).epoch = s.epoch := rfl
@[simp] theorem setCv_count (u : Nat) (x : CvUnit) (s : State) : (setCv u x s).count = s.count := rfl
@[simp] theorem setCv_power (u : Nat) (x : CvUnit) (s : State) : (setCv u x s).power = s.power := rfl
@[simp] theorem setCv_therm (u : Nat) (x : CvUnit) (s : State) : (setCv u x s).therm = s.therm := rfl
@[simp] theorem setCv_free (u : Nat) (x : CvUnit) (s : State) : (setCv u x s).free = s.free := rfl
@[simp] theorem setCv_pending (u : Nat) (x : CvUnit) (s : State) : (setCv u x s).pending = s.pending := rfl

@[simp] theorem setEngine_recorder (e : Nat) (x : Engine) (s : State) : (setEngine e x s).recorder = s.recorder := rfl
@[simp] theorem setEngine_cellar (e : Nat) (x : Engine) (s : State) : (setEngine e x s).cellar = s.cellar := rfl
@[simp] theorem setEngine_mgmt (e : Nat) (x : Engine) (s : State) : (setEngine e x s).mgmt = s.mgmt := rfl
@[simp] theorem setEngine_time (e : Nat) (x : Engine) (s : State) : (setEngine e x s).time = s.time := rfl
@[simp] theorem setEngine_heads (e : Nat) (x : Engine) (s : State) : (setEngine e x s).heads = s.heads := rfl
@[simp] theorem setEngine_start (e : Nat) (x : Engine) (s : State) : (setEngine e x s).start = s.start := rfl
@[simp] theorem setEngine_media (e : Nat) (x : Engine) (s : State) : (setEngine e x s).media = s.media := rfl
@[simp] theorem setEngine_ten (e : Nat) (x : Engine) (s : State) : (setEngine e x s).ten = s.ten := rfl
@[simp] theorem setEngine_front (e : Nat) (x : Engine) (s : State) : (setEngine e x s).front = s.front := rfl
@[simp] theorem setEngine_persist (e : Nat) (x : Engine) (s : State) : (setEngine e x s).persist = s.persist := rfl
@[simp] theorem setEngine_back (e : Nat) (x : Engine) (s : State) : (setEngine e x s).back = s.back := rfl
@[simp] theorem setEngine_map (e : Nat) (x : Engine) (s : State) : (setEngine e x s).map = s.map := rfl
@[simp] theorem setEngine_place (e : Nat) (x : Engine) (s : State) : (setEngine e x s).place = s.place := rfl
@[simp] theorem setEngine_drift (e : Nat) (x : Engine) (s : State) : (setEngine e x s).drift = s.drift := rfl
@[simp] theorem setEngine_dram (e : Nat) (x : Engine) (s : State) : (setEngine e x s).dram = s.dram := rfl
@[simp] theorem setEngine_fabric (e : Nat) (x : Engine) (s : State) : (setEngine e x s).fabric = s.fabric := rfl
@[simp] theorem setEngine_epoch (e : Nat) (x : Engine) (s : State) : (setEngine e x s).epoch = s.epoch := rfl
@[simp] theorem setEngine_count (e : Nat) (x : Engine) (s : State) : (setEngine e x s).count = s.count := rfl
@[simp] theorem setEngine_power (e : Nat) (x : Engine) (s : State) : (setEngine e x s).power = s.power := rfl
@[simp] theorem setEngine_therm (e : Nat) (x : Engine) (s : State) : (setEngine e x s).therm = s.therm := rfl
@[simp] theorem setEngine_free (e : Nat) (x : Engine) (s : State) : (setEngine e x s).free = s.free := rfl
@[simp] theorem setEngine_pending (e : Nat) (x : Engine) (s : State) : (setEngine e x s).pending = s.pending := rfl

@[simp] theorem spreadAdd_recorder (c inc : Nat) (s : State) : (spreadAdd c inc s).recorder = s.recorder := rfl
@[simp] theorem spreadAdd_mgmt (c inc : Nat) (s : State) : (spreadAdd c inc s).mgmt = s.mgmt := rfl
@[simp] theorem spreadAdd_time (c inc : Nat) (s : State) : (spreadAdd c inc s).time = s.time := rfl
@[simp] theorem spreadAdd_heads (c inc : Nat) (s : State) : (spreadAdd c inc s).heads = s.heads := rfl
@[simp] theorem spreadAdd_start (c inc : Nat) (s : State) : (spreadAdd c inc s).start = s.start := rfl
@[simp] theorem spreadAdd_media (c inc : Nat) (s : State) : (spreadAdd c inc s).media = s.media := rfl
@[simp] theorem spreadAdd_ten (c inc : Nat) (s : State) : (spreadAdd c inc s).ten = s.ten := rfl
@[simp] theorem spreadAdd_front (c inc : Nat) (s : State) : (spreadAdd c inc s).front = s.front := rfl
@[simp] theorem spreadAdd_persist (c inc : Nat) (s : State) : (spreadAdd c inc s).persist = s.persist := rfl
@[simp] theorem spreadAdd_back (c inc : Nat) (s : State) : (spreadAdd c inc s).back = s.back := rfl
@[simp] theorem spreadAdd_map (c inc : Nat) (s : State) : (spreadAdd c inc s).map = s.map := rfl
@[simp] theorem spreadAdd_place (c inc : Nat) (s : State) : (spreadAdd c inc s).place = s.place := rfl
@[simp] theorem spreadAdd_drift (c inc : Nat) (s : State) : (spreadAdd c inc s).drift = s.drift := rfl
@[simp] theorem spreadAdd_dram (c inc : Nat) (s : State) : (spreadAdd c inc s).dram = s.dram := rfl
@[simp] theorem spreadAdd_fabric (c inc : Nat) (s : State) : (spreadAdd c inc s).fabric = s.fabric := rfl
@[simp] theorem spreadAdd_epoch (c inc : Nat) (s : State) : (spreadAdd c inc s).epoch = s.epoch := rfl
@[simp] theorem spreadAdd_count (c inc : Nat) (s : State) : (spreadAdd c inc s).count = s.count := rfl
@[simp] theorem spreadAdd_eng (c inc : Nat) (s : State) : (spreadAdd c inc s).eng = s.eng := rfl
@[simp] theorem spreadAdd_power (c inc : Nat) (s : State) : (spreadAdd c inc s).power = s.power := rfl
@[simp] theorem spreadAdd_therm (c inc : Nat) (s : State) : (spreadAdd c inc s).therm = s.therm := rfl
@[simp] theorem spreadAdd_free (c inc : Nat) (s : State) : (spreadAdd c inc s).free = s.free := rfl
@[simp] theorem spreadAdd_pending (c inc : Nat) (s : State) : (spreadAdd c inc s).pending = s.pending := rfl

@[simp] theorem complete_recorder (c op : Nat) (rc : Rc) (out : CmdOut) (s : State) : (complete c op rc out s).recorder = s.recorder := rfl
@[simp] theorem complete_cellar (c op : Nat) (rc : Rc) (out : CmdOut) (s : State) : (complete c op rc out s).cellar = s.cellar := rfl
@[simp] theorem complete_time (c op : Nat) (rc : Rc) (out : CmdOut) (s : State) : (complete c op rc out s).time = s.time := rfl
@[simp] theorem complete_heads (c op : Nat) (rc : Rc) (out : CmdOut) (s : State) : (complete c op rc out s).heads = s.heads := rfl
@[simp] theorem complete_start (c op : Nat) (rc : Rc) (out : CmdOut) (s : State) : (complete c op rc out s).start = s.start := rfl
@[simp] theorem complete_media (c op : Nat) (rc : Rc) (out : CmdOut) (s : State) : (complete c op rc out s).media = s.media := rfl
@[simp] theorem complete_ten (c op : Nat) (rc : Rc) (out : CmdOut) (s : State) : (complete c op rc out s).ten = s.ten := rfl
@[simp] theorem complete_front (c op : Nat) (rc : Rc) (out : CmdOut) (s : State) : (complete c op rc out s).front = s.front := rfl
@[simp] theorem complete_persist (c op : Nat) (rc : Rc) (out : CmdOut) (s : State) : (complete c op rc out s).persist = s.persist := rfl
@[simp] theorem complete_back (c op : Nat) (rc : Rc) (out : CmdOut) (s : State) : (complete c op rc out s).back = s.back := rfl
@[simp] theorem complete_map (c op : Nat) (rc : Rc) (out : CmdOut) (s : State) : (complete c op rc out s).map = s.map := rfl
@[simp] theorem complete_place (c op : Nat) (rc : Rc) (out : CmdOut) (s : State) : (complete c op rc out s).place = s.place := rfl
@[simp] theorem complete_drift (c op : Nat) (rc : Rc) (out : CmdOut) (s : State) : (complete c op rc out s).drift = s.drift := rfl
@[simp] theorem complete_dram (c op : Nat) (rc : Rc) (out : CmdOut) (s : State) : (complete c op rc out s).dram = s.dram := rfl
@[simp] theorem complete_fabric (c op : Nat) (rc : Rc) (out : CmdOut) (s : State) : (complete c op rc out s).fabric = s.fabric := rfl
@[simp] theorem complete_epoch (c op : Nat) (rc : Rc) (out : CmdOut) (s : State) : (complete c op rc out s).epoch = s.epoch := rfl
@[simp] theorem complete_count (c op : Nat) (rc : Rc) (out : CmdOut) (s : State) : (complete c op rc out s).count = s.count := rfl
@[simp] theorem complete_eng (c op : Nat) (rc : Rc) (out : CmdOut) (s : State) : (complete c op rc out s).eng = s.eng := rfl
@[simp] theorem complete_power (c op : Nat) (rc : Rc) (out : CmdOut) (s : State) : (complete c op rc out s).power = s.power := rfl
@[simp] theorem complete_therm (c op : Nat) (rc : Rc) (out : CmdOut) (s : State) : (complete c op rc out s).therm = s.therm := rfl
@[simp] theorem complete_free (c op : Nat) (rc : Rc) (out : CmdOut) (s : State) : (complete c op rc out s).free = s.free := rfl
@[simp] theorem complete_pending (c op : Nat) (rc : Rc) (out : CmdOut) (s : State) : (complete c op rc out s).pending = s.pending := rfl

end Sys2Proof.Machine
end

