-- ==== Sys2Proof/Laws/Tables.lean ====
section
/-!
SUPPORT. Laws of the sparse tables: a read after a write, and that every operation keeps the keys strictly rising.
-/
namespace Sys2Proof.Machine
variable {α β : Type}

/-- A read of the key just written. -/
@[simp] theorem tget_tput_same (t : Tbl α) (k : Nat) (v d : α) : tget (tput t k v) k d = v := by
  induction t with
  | nil => simp [tput, tget]
  | cons a t ih =>
    obtain ⟨k', v'⟩ := a
    simp only [tput]
    split
    · simp [tget]
    · split
      · simp [tget]
      · rw [tget, if_neg (by omega)]; exact ih

/-- A write leaves every other key. -/
theorem tget_tput_other (t : Tbl α) (k j : Nat) (v d : α) (h : j ≠ k) : tget (tput t k v) j d = tget t j d := by
  induction t with
  | nil => simp [tput, tget, Ne.symm h]
  | cons a t ih =>
    obtain ⟨k', v'⟩ := a
    simp only [tput]
    split
    · rw [tget, if_neg (Ne.symm h)]
    · split
      · subst_vars; simp [tget, Ne.symm h]
      · simp only [tget, ih]

/-- A lookup of the key just written. -/
@[simp] theorem tfind_tput_same (t : Tbl α) (k : Nat) (v : α) : tfind (tput t k v) k = some v := by
  induction t with
  | nil => simp [tput, tfind]
  | cons a t ih =>
    obtain ⟨k', v'⟩ := a
    simp only [tput]
    split
    · simp [tfind]
    · split
      · simp [tfind]
      · rw [tfind, if_neg (by omega)]; exact ih

/-- A write leaves the lookup of every other key. -/
theorem tfind_tput_other (t : Tbl α) (k j : Nat) (v : α) (h : j ≠ k) : tfind (tput t k v) j = tfind t j := by
  induction t with
  | nil => simp [tput, tfind, Ne.symm h]
  | cons a t ih =>
    obtain ⟨k', v'⟩ := a
    simp only [tput]
    split
    · rw [tfind, if_neg (Ne.symm h)]
    · split
      · subst_vars; simp [tfind, Ne.symm h]
      · simp only [tfind, ih]

/-- Removing a key leaves the lookup of every other key. -/
theorem tfind_tdel_other (t : Tbl α) (k j : Nat) (h : j ≠ k) : tfind (tdel t k) j = tfind t j := by
  induction t with
  | nil => rfl
  | cons a t ih =>
    obtain ⟨k', v'⟩ := a
    simp only [tdel]
    split
    · rename_i e; subst e; rw [tfind, if_neg (Ne.symm h)]
    · simp only [tfind, ih]

/-- A table's tail is in canonical form. -/
theorem tblWf_tail {a : Nat × α} {t : Tbl α} (h : tblWf (a :: t) = true) : tblWf t = true := by
  cases t with
  | nil => rfl
  | cons b t => obtain ⟨k, v⟩ := a; obtain ⟨k', v'⟩ := b; simp [tblWf] at h; exact h.2

/-- A head key below every listed key keeps the canonical form. -/
theorem tblWf_cons {k : Nat} {v : α} {t : Tbl α} (h : tblWf t = true) (hk : ∀ p ∈ t, k < p.1) : tblWf ((k, v) :: t) = true := by
  cases t with
  | nil => rfl
  | cons b t => obtain ⟨k', v'⟩ := b; simp [tblWf, h]; exact hk (k', v') (by simp)

/-- The head key of a canonical table lies below every later key. -/
theorem tblWf_head {k : Nat} {v : α} {t : Tbl α} (h : tblWf ((k, v) :: t) = true) : ∀ p ∈ t, k < p.1 := by
  induction t generalizing k v with
  | nil => simp
  | cons b t ih =>
    obtain ⟨k', v'⟩ := b
    have h' : k < k' ∧ tblWf ((k', v') :: t) = true := by simpa [tblWf] using h
    intro p hp
    rcases List.mem_cons.mp hp with rfl | hp
    · exact h'.1
    · exact Nat.lt_trans h'.1 (ih h'.2 p hp)

/-- The keys of a table after a write. -/
theorem tput_keys (t : Tbl α) (k : Nat) (v : α) : ∀ p ∈ tput t k v, p.1 = k ∨ ∃ q ∈ t, q.1 = p.1 := by
  induction t with
  | nil => simp [tput]
  | cons a t ih =>
    obtain ⟨k', v'⟩ := a
    intro p hp
    simp only [tput] at hp
    split at hp
    · rcases List.mem_cons.mp hp with rfl | hp
      · exact .inl rfl
      · exact .inr ⟨p, hp, rfl⟩
    · split at hp
      · rcases List.mem_cons.mp hp with rfl | hp
        · exact .inl rfl
        · exact .inr ⟨p, List.mem_cons_of_mem _ hp, rfl⟩
      · rcases List.mem_cons.mp hp with rfl | hp
        · exact .inr ⟨(k', v'), by simp, rfl⟩
        · rcases ih p hp with h | ⟨q, hq, e⟩
          · exact .inl h
          · exact .inr ⟨q, List.mem_cons_of_mem _ hq, e⟩

/-- A write keeps the canonical form. -/
theorem tput_wf (t : Tbl α) (k : Nat) (v : α) (h : tblWf t = true) : tblWf (tput t k v) = true := by
  induction t with
  | nil => rfl
  | cons a t ih =>
    obtain ⟨k', v'⟩ := a
    simp only [tput]
    split
    · rename_i hk; simp [tblWf, hk, h]
    · split
      · rename_i hk; subst hk; exact tblWf_cons (tblWf_tail h) (tblWf_head h)
      · refine tblWf_cons (ih (tblWf_tail h)) fun p hp => ?_
        rcases tput_keys t k v p hp with e | ⟨q, hq, e⟩
        · omega
        · have := tblWf_head h q hq; omega

/-- A removal keeps the canonical form. -/
theorem tdel_wf (t : Tbl α) (k : Nat) (h : tblWf t = true) : tblWf (tdel t k) = true := by
  induction t with
  | nil => rfl
  | cons a t ih =>
    obtain ⟨k', v'⟩ := a
    simp only [tdel]
    split
    · exact tblWf_tail h
    · refine tblWf_cons (ih (tblWf_tail h)) fun p hp => tblWf_head h p ?_
      clear ih h
      induction t with
      | nil => simp [tdel] at hp
      | cons b t ih =>
        obtain ⟨j, w⟩ := b
        simp only [tdel] at hp
        split at hp
        · exact List.mem_cons_of_mem _ hp
        · rcases List.mem_cons.mp hp with rfl | hp
          · simp
          · exact List.mem_cons_of_mem _ (ih hp)

/-- A write that does not list the default keeps the canonical form. -/
theorem tset_wf [DecidableEq α] (t : Tbl α) (k : Nat) (v d : α) (h : tblWf t = true) : tblWf (tset t k v d) = true := by
  unfold tset; split
  · exact tdel_wf t k h
  · exact tput_wf t k v h

/-- A change of one value keeps the canonical form. -/
theorem tmod_wf (t : Tbl α) (k : Nat) (d : α) (f : α → α) (h : tblWf t = true) : tblWf (tmod t k d f) = true :=
  tput_wf t k _ h

/-- A change of every value keeps the canonical form. -/
theorem tmap_wf (t : Tbl α) (f : Nat → α → β) (h : tblWf t = true) : tblWf (tmap t f) = true := by
  induction t with
  | nil => rfl
  | cons a t ih =>
    obtain ⟨k, v⟩ := a
    refine tblWf_cons (ih (tblWf_tail h)) fun p hp => ?_
    obtain ⟨q, hq, rfl⟩ := List.mem_map.mp hp
    exact tblWf_head h q hq

/-- A selection keeps the canonical form. -/
theorem tfilter_wf (t : Tbl α) (p : Nat → α → Bool) (h : tblWf t = true) : tblWf (tfilter t p) = true := by
  induction t with
  | nil => rfl
  | cons a t ih =>
    obtain ⟨k, v⟩ := a
    simp only [tfilter, List.filter_cons]
    split
    · exact tblWf_cons (ih (tblWf_tail h)) fun q hq => tblWf_head h q (List.mem_filter.mp hq).1
    · exact ih (tblWf_tail h)

end Sys2Proof.Machine
end

