-- ==== Sys2Proof/Laws/Mailbox.lean ====
section
/-!
SUPPORT. What the shared operations of the mailbox can do (R522 to R526, R582).
-/
namespace Sys2Proof.Machine
open Sys2Proof.Safety

/-- Every shared operation of the mailbox answers a next state. -/
theorem mailbox_next (c op : Nat) (bg l r : Bool) (body : State → Reply) (s : State) : ∃ t, mailbox c op bg l r body s = .next t := by
  unfold mailbox; repeat' split
  all_goals exact ⟨_, rfl⟩

/-- A closed interface leaves the state as it was. -/
theorem mailbox_closed {s : State} {c op : Nat} (h : cciOpen s c = false) (bg l r : Bool) (body : State → Reply) :
    mailbox c op bg l r body s = .next s := by
  simp [mailbox, h]

/-- An interface that takes a command checks its length, its reserved bytes and the background slot, and runs its body. -/
theorem mailbox_of_takes {s : State} {c : Fin 10} {op : Nat} (h : Takes s c op) {bg l r : Bool} {body : State → Reply} :
    mailbox c op bg l r body s = (if !l then .next (complete c op .invalidPayloadLength .none s)
      else if !r then .next (complete c op .invalidInput .none s)
      else if bg && bgBusy s c then .next (complete c op .busy .none s)
      else .next (settle c op s (body s))) := by
  simp [mailbox, h.1, h.2]

/-- A standard command runs its body. -/
theorem standard_of_takes {s : State} {c : Fin 10} {op : Nat} (h : Takes s c op) {body : State → Reply} :
    standard c op body s = .next (settle c op s (body s)) := by
  simp [standard, mailbox_of_takes h]

/-- A vendor command with the right length and reserved bytes 0 runs its body. -/
theorem vendor_of_takes {s : State} {c : Fin 10} {op : Nat} (h : Takes s c op) {inp : List Byte} {n : Nat}
    {r : List (Nat × Nat)} {body : State → Reply} (hl : inp.length = n) (hr : (r.all fun (o, k) => le inp o k == 0) = true) :
    vendor c op inp n r body s = .next (settle c op s (body s)) := by
  simp only [vendor, mailbox_of_takes h, hr]; simp [hl]

/-- A vendor background command, with no background operation of the interface running, likewise. -/
theorem vendorBg_of_takes {s : State} {c : Fin 10} {op : Nat} (h : Takes s c op) {inp : List Byte} {n : Nat}
    {r : List (Nat × Nat)} {body : State → Reply} (hl : inp.length = n) (hr : (r.all fun (o, k) => le inp o k == 0) = true)
    (hb : bgBusy s c = false) : vendorBg c op inp n r body s = .next (settle c op s (body s)) := by
  simp only [vendorBg, mailbox_of_takes h, hr]; simp [hl, hb]

/-- An interface just written. -/
@[simp] theorem cciOf_setCci_same (c : Nat) (x : CciSt) (s : State) : cciOf (setCci c x s) c = x := by
  simp [cciOf, setCci]

/-- The other interfaces after a write. -/
theorem cciOf_setCci_other (c d : Nat) (x : CciSt) (s : State) (h : d ≠ c) : cciOf (setCci c x s) d = cciOf s d := by
  simp [cciOf, setCci, tget_tput_other _ _ _ _ _ h]

/-- The interface after its answer. -/
theorem cciOf_complete_same (c op : Nat) (rc : Rc) (out : CmdOut) (s : State) :
    cciOf (complete c op rc out s) c = { cciOf s c with lastOp := op, rc := rc, out := out, wait := none } := by
  simp [complete]

/-- A head just written. -/
@[simp] theorem headOf_setHead_same (h : Nat) (x : HeadSt) (s : State) : headOf (setHead h x s) h = x := by
  simp [headOf, setHead]

/-- The other heads after a write. -/
theorem headOf_setHead_other (h k : Nat) (x : HeadSt) (s : State) (e : k ≠ h) : headOf (setHead h x s) k = headOf s k := by
  simp [headOf, setHead, tget_tput_other _ _ _ _ _ e]

/-- The heads are untouched by an answer. -/
@[simp] theorem headOf_complete (h c op : Nat) (rc : Rc) (out : CmdOut) (s : State) : headOf (complete c op rc out s) h = headOf s h := rfl

/-- The number of bytes written. -/
@[simp] theorem leBytes_length (n v : Nat) : (leBytes n v).length = n := by
  induction n generalizing v with
  | zero => rfl
  | succ n ih => simp [leBytes, ih]

/-- The number of reserved bytes written. -/
@[simp] theorem zeros_length (n : Nat) : (zeros n).length = n := by simp [zeros]

end Sys2Proof.Machine
end

