-- ==== Sys2Proof/Laws/Ops.lean ====
section
/-!
SUPPORT. What the shared operations can change, once each: an operation equals its state with only the named parts replaced, so a
proof about any other part rewrites with the equation and closes by rfl, without unfolding the operation.
-/
namespace Sys2Proof.Machine

/-- Posting an event changes the recorder only (R39). -/
theorem raise_eq (src code p0 p1 p2 : Nat) (s : State) :
    raise src code p0 p1 p2 s = { s with recorder := (raise src code p0 p1 p2 s).recorder } := rfl

/-- So does an event with a DPA. -/
theorem raiseDpa_eq (src code dpa head : Nat) (s : State) :
    raiseDpa src code dpa head s = { s with recorder := (raiseDpa src code dpa head s).recorder } := rfl

/-- An answer changes the interface only (R525). -/
theorem complete_eq (c op : Nat) (rc : Rc) (out : CmdOut) (s : State) :
    complete c op rc out s = { s with mgmt := (complete c op rc out s).mgmt } := rfl

/-- An interrupt changes a head only (R98). -/
theorem raiseMsix_eq (h v : Nat) (s : State) : raiseMsix h v s = { s with heads := (raiseMsix h v s).heads } := by
  unfold raiseMsix; split <;> rfl

/-- The end of a background operation changes the interface and a head only (R527). -/
theorem endBgOn_eq (c op : Nat) (rc : Rc) (s : State) :
    endBgOn c op rc s = { s with mgmt := (endBgOn c op rc s).mgmt, heads := (endBgOn c op rc s).heads } := by
  unfold endBgOn
  split
  · rfl
  · dsimp only
    split
    · split
      · rw [raiseMsix_eq]; rfl
      · rfl
    · rfl

/-- Waiting PLLs change the time base's record only (R48). -/
theorem fillLocks_eq (n : Nat) (s : State) : fillLocks n s = { s with time := (fillLocks n s).time } := by
  induction n generalizing s with
  | zero => rfl
  | succ n ih =>
    unfold fillLocks
    split
    · rfl
    · split
      · rw [ih]
      · rfl

/-- Starting a clock domain changes the record of the clocks only (R47, R48). -/
theorem startDom_eq (d : Nat) (s : State) : startDom d s = { s with time := (startDom d s).time } := by
  unfold startDom
  dsimp only
  repeat' split
  all_goals rfl

/-- Stopping a clock domain changes the record of the clocks only (R47, R48). -/
theorem stopDom_eq (d : Nat) (s : State) : stopDom d s = { s with time := (stopDom d s).time } := by
  unfold stopDom
  split
  · rfl
  · dsimp only; rw [fillLocks_eq]; rfl

/-- A change of the power mode changes the power record and the recorder only (R489). -/
theorem setMode_eq (m : PMode) (cause : Nat) (s : State) :
    setMode m cause s = { s with power := (setMode m cause s).power, recorder := (setMode m cause s).recorder } := by
  unfold setMode; split <;> rfl

end Sys2Proof.Machine
end

