-- ==== Sys2Proof/Machine/Registers.lean ====
section
/-!
DEFINITION. What a head's registers read as: the Kunor DVSEC (R102, R103, Table 2-7) and BAR2 (R104 to R106, R108, Tables 2-8,
2-9, 19-5, 19-7 and 19-8). A read changes nothing (R104), so no command stands for one; these are the views of the state that
a host has.
-/
namespace Sys2Proof.Machine

/-! ### The Kunor DVSEC (Table 2-7) -/

/-- CAUSE_STATE (R229): in neither Active nor Idle, or a drain in progress. -/
def causeState (s : State) : Bool := !(s.power.mode == .active || s.power.mode == .idle) || drainRunning s

/-- CAUSE_LINK: the link is up below 64 GT/s or x16. -/
def causeLink (x : HeadSt) : Bool := x.linkUp && !(x.rate == 64 && x.width == 16)

/-- CAUSE_MAP: an added extent has no good map copy (R262). -/
def causeMap (s : State) (h : Nat) : Bool := (addedTo s h).any fun p => s.ten.affected.contains p.1

/-- A tenant with an extent on the head is in Epoch-Mismatch. -/
def headMismatch (s : State) (h : Nat) : Bool := (addedTo s h).any fun p => (tenantOf s p.2.tenant).mismatch

/-- CAUSE_EPOCH: a mismatch on a path that the head uses, which is one to another owner (R447, log entry 179). -/
def causeEpoch (s : State) (h : Nat) : Bool :=
  (addedTo s h).any fun p => p.2.ownerDev != 0xFFF && (tenantOf s p.2.tenant).mismatch

/-- BOUND_CAUSE (R103): bits 6 to 0 of the dword at 30h. -/
def boundCause (s : State) (h : Nat) : Nat :=
  64 * b2n s.ten.overcommit + 32 * b2n (causeEpoch s h) + 16 * b2n (causeLink (headOf s h)) + 8 * b2n (causeMap s h) +
    4 * b2n (s.front.mode != .writeBack) + 2 * b2n (decide (2 ≤ appliedLevel s)) + b2n (causeState s)

/-- The status dword at 14h. -/
def dvsecStatus (s : State) (h : Nat) : Nat :=
  appliedLevel s % 4 * 2 ^ 26 + s.place.cap.code * 2 ^ 24 + s.front.mode.code * 2 ^ 22 + b2n (mapExposed s) * 2 ^ 21 +
    b2n (headMismatch s h) * 2 ^ 20 + b2n (boundCause s h != 0) * 2 ^ 19 +
    b2n ((addedTo s h).any fun p => derivedState s p.1 == 6) * 2 ^ 18 + b2n (headOf s h).viralInternal * 2 ^ 17 +
    s.mgmt.active % 2 * 2 ^ 16 + s.front.budget % 128 * 2 ^ 8

/-- DIES code. -/
def diesCode (n : Nat) : Nat := if n = 16 then 2 else if n = 8 then 1 else 0

/-- Version of the firmware that runs: that of Table 2-7's reset column until an image runs. -/
def fwRunning (s : State) : Nat :=
  match s.mgmt.runSlot.bind (fun k => if k = 0 then s.mgmt.slotA else s.mgmt.slotB) with
  | some x => fwVersion x
  | none => 3 * 2 ^ 24

/-- A dword of a head's DVSEC by its number, offset ÷ 4 (Table 2-7). NEXT_CAP depends on a layout that no rule gives. -/
def dvsecDword (s : State) (h n : Nat) : Nat :=
  let x := headOf s h
  match n with
  | 0 => Config.nextCap.toNat * 2 ^ 20 + 0x10023
  | 1 => 0x04011F9E
  | 2 => b2n (if h < 2 then s.start.hbif0 else s.start.hbif1) * 2 ^ 18 + h % 4 * 2 ^ 16 + 0x0C48
  | 3 => s.fabric.devId % 4096 * 2 ^ 20 + s.epoch.ring.position.getD 0 % 64 * 2 ^ 14 + b2n s.mgmt.gradeFX * 2 ^ 12 +
      s.media.popCh % 64 * 2 ^ 6 + s.media.popPk % 16 * 2 ^ 2 + diesCode s.media.popDies
  | 4 => fwRunning s
  | 5 => dvsecStatus s h
  | 6 => s.ten.epochA % 2 ^ 32
  | 7 => s.ten.epochA / 2 ^ 32 % 2 ^ 32
  | 8 => s.ten.digestA % 2 ^ 32
  | 9 => s.ten.digestA / 2 ^ 32 % 2 ^ 32
  | 10 => s.ten.digestA / 2 ^ 64 % 2 ^ 32
  | 11 => s.ten.digestA / 2 ^ 96 % 2 ^ 32
  | 12 => boundCause s h
  | 13 => 2 * b2n x.vendorEvtEn + b2n x.devloadEn
  | 14 => x.maTime % 2 ^ 32
  | _ => 0

/-- A dword of a head's DVSEC as a configuration read answers it; the configuration space of an absent head does not respond
(R59). -/
def dvsecRead (s : State) (h n : Nat) : Option Nat := if (headOf s h).present then some (dvsecDword s h n) else none

/-! ### CXL's own registers (R67, R86, R12, R101) -/

/-- Memory_Active_Timeout of the CXL device DVSEC: 011b, 64 s (Table 2-2). -/
def memActiveTimeout : Nat := 3

/-- GPF Phase 2 Duration of a head's GPF DVSEC: base 5 in bits [3:0], scale 3h in bits [11:8], 5 ms (R86, Table 2-2; the places
of the two fields are CXL's). -/
def gpfPhase2Duration : Nat := 3 * 2 ^ 8 + 5

/-- GPF Phase 2 Power of a head's GPF DVSEC, in mW (R86). -/
def gpfPhase2Power : Nat := 60000

/-- The CXL memory device status register: Media Status in bits [3:2], 10b Error when R12 or R17 applies, 01b once Memory_Active is
set, otherwise 00b not ready; bit [4] mailbox interfaces ready (R12, R101; the places and codes are CXL's, PRESUMED, log
entry 190). -/
def memDevStatus (s : State) (h : Nat) : Option Nat :=
  if (headOf s h).present then
    some (16 * b2n (s.mgmt.running && s.start.phases.contains 6) +
      4 * (if s.start.mediaError then 2 else if (headOf s h).memActive then 1 else 0))
  else none

/-! ### BAR2 (Table 2-8) -/

/-- PPS_STATE code (Table 2-9). -/
def ppsCode : PpsState → Nat
  | .absent => 0 | .locked => 1 | .holdover => 2 | .noisy => 3

/-- A qword of the time base window, by offset (Table 2-9). -/
def timeWindow (s : State) (off : Nat) : Nat :=
  let t := s.time
  match off with
  | 0x00 => tbRead s % 2 ^ 64
  | 0x08 => t.tbLastPps % 2 ^ 64
  | 0x10 => min t.holdover 0xFFFF * 2 ^ 8 + ppsCode t.pps * 4 + b2n t.timeSet * 2 + b2n t.tbRunning
  | 0x18 => t.tbMinute % 2 ^ 64
  | 0x20 => t.snapSeq % 2 ^ 31 * 2 + b2n t.snapBuf
  | _ => 0

/-- A qword of a check-value unit (Table 19-7); the write-only registers read as zero. -/
def cvWindow (x : CvUnit) (off : Nat) : Nat :=
  match off with
  | 0x00 => b2n x.useSeed * 256 + x.poly
  | 0x08 => x.seed
  | 0x10 => cvResult x
  | 0x18 => x.count % 2 ^ 64
  | 0x20 => b2n x.held.isSome * 2 + b2n (!x.feeds.isEmpty)
  | _ => 0

/-- A qword of a counter window: 64 counts, then at 800h the overflow bits (Table 2-8, R558). -/
def counterWindow (s : State) (set off : Nat) : Nat :=
  if off < 0x200 then (ctrOf s set (off / 8)).count % 2 ^ 64
  else if off = 0x800 then ((List.range 64).map fun n => b2n (ctrOf s set n).ovf * 2 ^ n).sum
  else 0

/-- A qword of a ring's doorbell page (Table 19-8); the write-only bits read as zero. -/
def ringWindow (x : DescRing) (off : Nat) : Nat :=
  match off with
  | 0x00 => x.base
  | 0x08 => x.tailP
  | 0x10 => x.headP
  | 0x18 => x.entries % 2 ^ 16 * 2 ^ 48 + x.st % 4 * 2 ^ 30 + x.lastError % 256 * 2 ^ 8
  | _ => 0

/-- A tenant's metering page is visible to a head: the tenant has an extent added to it, and its page is enabled. -/
def meterVisible (s : State) (h t : Nat) : Bool := tenantOnHead s h t && (tenantOf s t).meterEn

/-- The aligned qword of a head's BAR2 at an offset (Table 2-8); what is reserved or not visible reads zeros (R105). -/
def bar2Qword (s : State) (h off : Nat) : Nat :=
  if off < 0x10000 then timeWindow s off
  else if off < 0x18000 then
    let u := (off - 0x10000) / 0x1000
    if cvVisible s h u then cvWindow (cvOf s u) (off % 0x1000) else 0
  else if off < 0x20000 then 0
  else if off < 0x21000 then counterWindow s h (off % 0x1000)
  else if off < 0x22000 then counterWindow s 4 (off % 0x1000)
  else if off < 0x1000000 then 0
  else if off < 0x11000000 then
    let t := (off - 0x1000000) / 0x1000
    if meterVisible s h t then le (meterPage s t) (off % 0x1000) 8 else 0
  else if off < 0x12000000 then
    match ringSeen s h ((off - 0x11000000) / 0x1000) with
    | some x => ringWindow x (off % 0x1000)
    | none => 0
  else 0

/-- What a present head answers: naturally aligned accesses of 4 or 8 bytes; any other reads zeros (R106). -/
def bar2Value (s : State) (h off size : Nat) : Nat :=
  if size = 8 ∧ off % 8 = 0 then bar2Qword s h off
  else if size = 4 ∧ off % 4 = 0 then bar2Qword s h (off / 8 * 8) / 2 ^ (8 * (off % 8)) % 2 ^ 32
  else 0

/-- A read of BAR2 (R106): naturally aligned accesses of 4 or 8 bytes; any other reads zeros. An absent head does not respond
(R59). -/
def bar2Read (s : State) (h off size : Nat) : Option Nat :=
  if (headOf s h).present then some (bar2Value s h off size) else none

end Sys2Proof.Machine
end

