-- ==== Sys2Proof/WellFormed.lean ====
section
/-!
DEFINITION. Which commands the outside world can send: operands within the widths that the manual gives them.
-/
namespace Sys2Proof

/-- A payload of a command, at most 64 KiB (R522). -/
def payloadOk (inp : List Byte) : Bool := decide (inp.length ≤ 65536)
/-- A die number: channel, package and die index (R8). -/
def dieOk (die : Nat) : Bool := decide (die < 4608)
/-- A local address of 48 bits (R50). -/
def localOk (a : Nat) : Bool := decide (a < 2 ^ 48)
/-- Local addresses (R50). -/
def localsOk (as_ : List Nat) : Bool := as_.all localOk
/-- A logical frame address of 36 bits (Table 1-9). -/
def lfaOk (lfa : Nat) : Bool := decide (lfa < 2 ^ 36)
/-- A front line number: 16 per frame (R50). -/
def lineOk (line : Nat) : Bool := decide (line < 2 ^ 40)
/-- A codeword read: of a front line number, or an internal one. -/
def readOk : ReadId → Bool
  | .fill line => lineOk line
  | .internal _ => true
/-- A tile group number of 19 bits (R51). -/
def groupOk (g : Nat) : Bool := decide (g < 2 ^ 19)
/-- An event source identifier of 12 bits (Table 1-6). -/
def sourceOk (src : Nat) : Bool := decide (src < 4096)
/-- A command opcode of 16 bits (R530). -/
def opcodeOk (op : Nat) : Bool := decide (op < 65536)
/-- A time base value of 64 bits (R452). -/
def timeOk (time : Nat) : Bool := decide (time < 2 ^ 64)
/-- A clock domain of Table 1-8. -/
def domainOk (dom : Nat) : Bool := decide (1 ≤ dom) && decide (dom ≤ 40)
/-- A number of 32 bits. -/
def word32Ok (n : Nat) : Bool := decide (n < 2 ^ 32)
/-- Event record handles of 16 bits (R94). -/
def handlesOk (hs : List Nat) : Bool := hs.all fun h => decide (h < 65536)

/-- A command whose operands are within their widths. -/
def WellFormed : Instr → Bool
  | .memRd _ _ _ _ => true
  | .memRdData _ _ _ _ => true
  | .memSpecRd _ _ _ => true
  | .memWr _ _ _ _ _ _ => true
  | .memWrPtl _ _ _ _ _ _ _ => true
  | .unsupportedM2sOpcode _ _ _ _ => true
  | .arbiterDispatchSlot _ => true
  | .writeStallRelease => true
  | .hostViralSignal _ => true
  | .perstNAssert _ => true
  | .perstNRelease _ => true
  | .hotReset _ => true
  | .linkDown _ => true
  | .linkUp _ _ _ _ => true
  | .cxlReset _ => true
  | .functionLevelReset _ => true
  | .gpfPhase1 _ => true
  | .gpfPhase2 _ => true
  | .ideIntegrityFailure _ => true
  | .ideStart _ => true
  | .cxlIdeKm _ _ _ => true
  | .bar2BadAccess _ _ => true
  | .registerWrite _ _ => true
  | .memoryActiveSet _ => true
  | .identify _ => true
  | .backgroundOperationStatus _ => true
  | .getResponseMessageLimit _ => true
  | .setResponseMessageLimit _ _ => true
  | .requestAbortBackgroundOperation _ => true
  | .getEventRecords _ _ => true
  | .clearEventRecords _ _ _ handles => handlesOk handles
  | .getEventInterruptPolicy _ => true
  | .setEventInterruptPolicy _ _ => true
  | .getFwInfo _ => true
  | .transferFwFull _ _ data => payloadOk data
  | .transferFwInitiate _ _ data => payloadOk data
  | .transferFwContinue _ _ data => payloadOk data
  | .transferFwEnd _ _ data => payloadOk data
  | .transferFwAbort _ => true
  | .fwTransferIdleTimeout => true
  | .activateFwCold _ _ => true
  | .activateFwOnline _ _ => true
  | .onlineActivationWatchdogFail => true
  | .getTimestamp _ => true
  | .setTimestamp _ time => timeOk time
  | .getSupportedLogs _ => true
  | .getLog _ _ _ _ => true
  | .identifyMemoryDevice _ => true
  | .getHealthInfo _ => true
  | .getAlertConfiguration _ => true
  | .setAlertConfiguration _ _ _ _ => true
  | .getShutdownState _ => true
  | .setShutdownState _ _ => true
  | .getPoisonList _ dpa _ => localOk dpa
  | .injectPoison _ dpas => localsOk dpas
  | .clearPoison _ dpa _ => localOk dpa
  | .sanitize _ => true
  | .getDynamicCapacityConfiguration _ => true
  | .getDynamicCapacityExtentList _ _ _ => true
  | .addDynamicCapacityResponse _ extent _ => word32Ok extent
  | .releaseDynamicCapacity _ extent => word32Ok extent
  | .getMultiHeadedInfo _ => true
  | .getDcdInfo _ => true
  | .getHostDcRegionConfiguration _ _ => true
  | .setDcRegionConfiguration _ _ _ _ _ => true
  | .getDcRegionExtentLists _ _ _ _ => true
  | .initiateDynamicCapacityAdd _ _ extent => word32Ok extent
  | .initiateDynamicCapacityRelease _ _ extent => word32Ok extent
  | .unsupportedCommand _ op => opcodeOk op
  | .getExtentEntry _ inp => payloadOk inp
  | .assignExtent _ inp => payloadOk inp
  | .unassignExtent _ inp => payloadOk inp
  | .createTenant _ inp => payloadOk inp
  | .deleteTenant _ inp => payloadOk inp
  | .setTenantProfile _ inp => payloadOk inp
  | .getTenant _ inp => payloadOk inp
  | .getKeyWrappingPublicKey _ inp => payloadOk inp
  | .loadTenantKey _ inp => payloadOk inp
  | .unloadTenantKey _ inp => payloadOk inp
  | .cryptoEraseTenant _ inp => payloadOk inp
  | .cryptoEraseSweepDone _ => true
  | .releaseTrimDone _ => true
  | .setHeadAccess _ inp => payloadOk inp
  | .getHeadAccess _ inp => payloadOk inp
  | .setClassProfile _ inp => payloadOk inp
  | .getClassProfile _ inp => payloadOk inp
  | .getFlowQueueState _ inp => payloadOk inp
  | .getAdmissionTotals _ inp => payloadOk inp
  | .bankCopyDone => true
  | .getFrontCacheState _ inp => payloadOk inp
  | .setFrontCachePartition _ inp => payloadOk inp
  | .setDrainPolicy _ inp => payloadOk inp
  | .cleanRange _ inp => payloadOk inp
  | .invalidateRange _ inp => payloadOk inp
  | .cleanAndInvalidateRange _ inp => payloadOk inp
  | .invalidateAll _ inp => payloadOk inp
  | .maintenanceWalkDone _ => true
  | .disableFrontCache _ inp => payloadOk inp
  | .enableFrontCache _ inp => payloadOk inp
  | .getMaintenanceResults _ inp => payloadOk inp
  | .drainingComplete => true
  | .frontScrubPass _ => true
  | .drainEngineSelect _ _ => true
  | .mergeReadDone _ _ _ => true
  | .frameProgramDone _ => true
  | .frameProgramFail _ => true
  | .pwrFailNAssert => true
  | .supplyMonitorTrip _ => true
  | .drainComplete _ => true
  | .bankAtVCutoff => true
  | .stagingProgram => true
  | .holdupMeasureSchedule => true
  | .holdupLullWaitExpiry => true
  | .holdTestAssert _ => true
  | .holdTestEnd _ => true
  | .holdupRecoveryDone => true
  | .holdupRetry => true
  | .energyRecompute _ => true
  | .getHoldUpStatus _ inp => payloadOk inp
  | .setHoldUpParameters _ inp => payloadOk inp
  | .measureHoldUp _ inp => payloadOk inp
  | .getDrainRecord _ inp => payloadOk inp
  | .mapEntryReadDone line _ => lineOk line
  | .backCacheReadDone rd _ => readOk rd
  | .codewordDecodeDone rd pos _ _ _ => readOk rd && decide (pos < 9)
  | .slowPathSoftReadDone rd pos _ => readOk rd && decide (pos < 9)
  | .fillComplete line _ => lineOk line
  | .promotionReadDone lfa => lfaOk lfa
  | .backCacheEvict => true
  | .quarantineExpiry _ => true
  | .getReadPathState _ inp => payloadOk inp
  | .setBackCachePolicy _ inp => payloadOk inp
  | .checkpointPassStart => true
  | .checkpointPassEnd => true
  | .mapRecovery _ => true
  | .mapRebuildStart => true
  | .mapRebuildDone _ _ => true
  | .frameMetadataScan _ => true
  | .getMapEntry _ inp => payloadOk inp
  | .getJournalState _ inp => payloadOk inp
  | .startCheckpoint _ inp => payloadOk inp
  | .setMapMirroring _ inp => payloadOk inp
  | .getRebuildState _ inp => payloadOk inp
  | .readyQueueRefill _ => true
  | .busySlotFree _ => true
  | .programStatusPoll die _ _ => dieOk die
  | .programOverrun die => dieOk die
  | .rackingStart _ => true
  | .rackingCopyDone _ => true
  | .tileResetStart g => groupOk g
  | .tileResetDone _ => true
  | .wearLevelRacking => true
  | .recoveryRead lfa => lfaOk lfa
  | .criticalWithhold => true
  | .writeLockedEntry => true
  | .healthCounterUpdate => true
  | .getMediaHealth _ inp => payloadOk inp
  | .getGroupInfo _ inp => payloadOk inp
  | .setOverProvisioning _ inp => payloadOk inp
  | .formatMedia _ inp => payloadOk inp
  | .setRelocationPolicy _ inp => payloadOk inp
  | .rackGroup _ inp => payloadOk inp
  | .weatheringTick => true
  | .driftClockWrite => true
  | .packageTempRead _ _ => true
  | .trimWindowEnd g => groupOk g
  | .groupReadsRecord => true
  | .toppingEvaluate => true
  | .toppingStart => true
  | .imageRelocate => true
  | .getDriftState _ inp => payloadOk inp
  | .setDriftPolicy _ inp => payloadOk inp
  | .getDriftTable _ inp => payloadOk inp
  | .readSegSense die _ _ _ _ _ _ => dieOk die
  | .readSegOutput die _ _ _ _ => dieOk die
  | .readSoft die _ _ _ _ _ _ => dieOk die
  | .progSegSetup die _ _ => dieOk die
  | .progSegData die _ _ _ => dieOk die
  | .progSegConfirm die => dieOk die
  | .resetTile die _ => dieOk die
  | .statusPoll _ _ => true
  | .statusDie die => dieOk die
  | .readParamPage die _ => dieOk die
  | .setFeature die _ _ => dieOk die
  | .getFeature die _ => dieOk die
  | .suspend die => dieOk die
  | .resume die => dieOk die
  | .tempRead _ _ => true
  | .calibrate _ _ => true
  | .cmdCheckFail _ _ _ => true
  | .senseLead die _ => dieOk die
  | .senseResultReady die _ => dieOk die
  | .dieProgramEnd die _ => dieOk die
  | .dieTileResetEnd die _ => dieOk die
  | .mresetNAssert _ => true
  | .mresetNRise _ => true
  | .mrdyNFall _ => true
  | .mrdyNRepoll _ => true
  | .channelBringUp _ _ => true
  | .mediaFullTraining _ _ _ => true
  | .mediaRetrain _ _ => true
  | .packageGroupPgLost _ => true
  | .packageGroupReenable _ _ => true
  | .getMediaChannelState _ inp => payloadOk inp
  | .retrainMediaChannel _ inp => payloadOk inp
  | .getDieParameterPage _ inp => payloadOk inp
  | .dramTraining _ _ _ _ _ => true
  | .dramFillDone => true
  | .writeCrcAlert _ _ _ => true
  | .caParityAlert _ _ => true
  | .dramScrub _ _ => true
  | .neighbourRefresh _ => true
  | .sameBankRefresh _ _ => true
  | .refreshRatePoll _ _ => true
  | .dimmTempPoll _ _ => true
  | .frostHoldExpiry _ => true
  | .thawSalvageDone _ _ => true
  | .thawRefillDone _ => true
  | .thawResyncDone _ => true
  | .frozenFailTimeout _ => true
  | .pinnedSlotResolve _ => true
  | .selfRefreshEntry _ => true
  | .selfRefreshExit _ _ _ _ => true
  | .getDramState _ inp => payloadOk inp
  | .setDramPolicy _ inp => payloadOk inp
  | .getFrostRecord _ inp => payloadOk inp
  | .thawDramChannel _ inp => payloadOk inp
  | .fabricPmdTrainingDone _ _ _ => true
  | .fabricLossOfLock _ => true
  | .fabricRetrainTimeout _ => true
  | .fabricDisabledExpiry _ => true
  | .flitReceive _ _ _ _ => true
  | .replayTimer _ => true
  | .nakRepeatTimer _ => true
  | .helloSend _ => true
  | .hello _ => true
  | .helloDeadInterval _ => true
  | .lsa _ => true
  | .lsaAck _ => true
  | .lsaResend _ => true
  | .lsaAgeTick => true
  | .lsaOriginate => true
  | .routeRecompute => true
  | .routeTableSwap => true
  | .autoIdAssign => true
  | .messageRelay _ => true
  | .memRdMessage _ _ => true
  | .memSpecRdMessage _ => true
  | .memWrMessage _ _ => true
  | .memWrPtlMessage _ _ => true
  | .dataMessage _ => true
  | .cmpMessage _ => true
  | .fabTimeoutFirst => true
  | .fabTimeoutSecond => true
  | .getFabricState _ inp => payloadOk inp
  | .setFabricDeviceId _ inp => payloadOk inp
  | .setFabricPolicy _ inp => payloadOk inp
  | .getRouteTable _ inp => payloadOk inp
  | .getLinkStateDatabase _ inp => payloadOk inp
  | .getFabricPortCounters _ inp => payloadOk inp
  | .retrainFabricPort _ inp => payloadOk inp
  | .ringReady => true
  | .ringConditionFail => true
  | .ringLockLost => true
  | .ringLockRegained => true
  | .claim _ => true
  | .roll _ => true
  | .rollReturned _ => true
  | .beaconSend => true
  | .beaconTimeout => true
  | .ringFrameForward _ => true
  | .announceSend => true
  | .announce _ => true
  | .epochStatusSend => true
  | .epochStatus _ => true
  | .arm _ => true
  | .disarm _ => true
  | .ringFrameRepeat => true
  | .storm _ => true
  | .braceExpiry => true
  | .wake _ => true
  | .epochActivate => true
  | .epochAdopt => true
  | .mismatchHoldExpiry => true
  | .getEpochState _ inp => payloadOk inp
  | .stageManifest _ inp => payloadOk inp
  | .getSliceDigest _ inp => payloadOk inp
  | .armEpoch _ inp => payloadOk inp
  | .disarmEpoch _ inp => payloadOk inp
  | .getRingState _ inp => payloadOk inp
  | .setRingAndEpochPolicy _ inp => payloadOk inp
  | .sendRingWake _ inp => payloadOk inp
  | .ppsEdge _ _ => true
  | .ppsWindowClose => true
  | .secondTick => true
  | .snapshotCopyDone => true
  | .halfRateEnd => true
  | .timeAlarmFire => true
  | .refclkLoss _ => true
  | .sysclkReturn => true
  | .oscCompensation _ => true
  | .oscTableWrite => true
  | .getTimeBaseState _ inp => payloadOk inp
  | .setTimeBasePolicy _ inp => payloadOk inp
  | .setTimeAlarm _ inp => payloadOk inp
  | .alwaysOnResetRelease _ _ _ _ => true
  | .seqEnable => true
  | .seqDisable => true
  | .seqWait => true
  | .seqWaitExpiry => true
  | .seqCheck => true
  | .seqJump => true
  | .seqJumpif => true
  | .seqSetout => true
  | .seqEnd => true
  | .seqInvalid => true
  | .seqRunaway => true
  | .dependencyEnable _ => true
  | .dependencyDisable _ => true
  | .orderGuardRelease _ => true
  | .railPgEdge _ _ => true
  | .railSettleExpiry _ => true
  | .railTimeout _ => true
  | .railAdcSample _ => true
  | .safeOffRetry => true
  | .fabricHoldExpiry => true
  | .powerFailClear => true
  | .vauxLowDetect => true
  | .supplyRemoved _ _ => true
  | .idleEntry => true
  | .idleExit => true
  | .dormantAutoEntry => true
  | .dormantExit => true
  | .wakeEvent _ => true
  | .getPowerState _ inp => payloadOk inp
  | .setPowerStateActive _ inp => payloadOk inp
  | .setPowerStateDormant _ inp => payloadOk inp
  | .setPowerStateStandby _ inp => payloadOk inp
  | .setPowerPolicy _ inp => payloadOk inp
  | .getSequencerProgram _ inp => payloadOk inp
  | .setSequencerProgram _ inp => payloadOk inp
  | .getRailStatus _ inp => payloadOk inp
  | .clearRailFaults _ inp => payloadOk inp
  | .diodeSample _ _ => true
  | .ntcSample _ _ => true
  | .sensorRecovered _ => true
  | .zoneFallHoldExpiry _ => true
  | .programPauseEnd _ => true
  | .thermtrip _ => true
  | .thermalRestart => true
  | .tempHistoryUpdate => true
  | .getThermalState _ inp => payloadOk inp
  | .setThermalPolicy _ inp => payloadOk inp
  | .getTemperatureHistory _ inp => payloadOk inp
  | .bootRom => true
  | .bootGood => true
  | .supervisorWatchdogExpiry _ => true
  | .supervisorRestartDone _ => true
  | .mgmtWatchdogExpiry => true
  | .hubRequestDeliver _ => true
  | .ownershipViolation _ _ => true
  | .spdmGetVersion _ => true
  | .spdmGetCapabilities _ => true
  | .spdmNegotiateAlgorithms _ _ => true
  | .spdmGetDigests _ => true
  | .spdmGetCertificate _ _ => true
  | .spdmChallenge _ _ _ => true
  | .spdmGetMeasurements _ _ _ => true
  | .spdmKeyExchange _ _ _ => true
  | .spdmFinish _ _ _ => true
  | .spdmEndSession _ _ => true
  | .spdmKeyUpdate _ _ => true
  | .spdmHeartbeat _ _ => true
  | .setChannelService _ inp => payloadOk inp
  | .issueMediaCommand _ inp => payloadOk inp
  | .getSupervisorState _ inp => payloadOk inp
  | .restartSupervisor _ inp => payloadOk inp
  | .setDebugAccess _ inp => payloadOk inp
  | .getDeviceIdentity _ inp => payloadOk inp
  | .getCellarBookInfo _ inp => payloadOk inp
  | .readCellarRecord _ inp => payloadOk inp
  | .writeCellarRecord _ inp => payloadOk inp
  | .cellarWriteComplete => true
  | .setRegionPasswords _ inp => payloadOk inp
  | .lockoutPersist => true
  | .getSpreadCounter _ inp => payloadOk inp
  | .eventPost src => sourceOk src
  | .criticalRepeatCopy seq => word32Ok seq
  | .eventMarkWrite => true
  | .eventOverflowRecord src => sourceOk src
  | .getEventRecordsVendor _ inp => payloadOk inp
  | .getEventRecorderState _ inp => payloadOk inp
  | .postTestEvent _ inp => payloadOk inp
  | .getCounterConfiguration _ inp => payloadOk inp
  | .setCounterConfiguration _ inp => payloadOk inp
  | .readCounters _ inp => payloadOk inp
  | .setTenantMetering _ inp => payloadOk inp
  | .getTenantMeter _ inp => payloadOk inp
  | .getCounterSample _ inp => payloadOk inp
  | .sampleCapture => true
  | .counterWindowEnd _ _ => true
  | .headCountWrite _ _ _ _ => true
  | .counterOverflowClear _ _ => true
  | .meterOccupancyTick => true
  | .cvConfigWrite _ _ _ => true
  | .cvRestartWrite _ _ => true
  | .cvFeedWrite _ _ _ _ => true
  | .cvResultRead _ _ _ => true
  | .assignCheckValueUnit _ inp => payloadOk inp
  | .getEngineState _ inp => payloadOk inp
  | .createDescriptorRing _ inp => payloadOk inp
  | .deleteDescriptorRing _ inp => payloadOk inp
  | .getRingStateDescriptor _ inp => payloadOk inp
  | .ringBaseWrite _ _ _ _ => true
  | .ringTailDoorbell _ _ _ => true
  | .ringStart _ _ => true
  | .ringStop _ _ => true
  | .ringResume _ _ => true
  | .engineTakeDescriptor _ => true
  | .descCopy _ => true
  | .descFill _ => true
  | .descCompare _ => true
  | .descChecksum _ => true
  | .descMigrate _ => true
  | .descInvalid _ => true
  | .engineStepDone _ => true
  | .shutdownClassDecide => true
  | .holdupBankCharged => true
  | .frontEnableTimeout => true
  | .startFrontEnable => true
  | .aspmL1Entry _ _ => true
  | .aspmL1Exit _ => true
  | .downTimeout _ => true
  | .mgmtRestartDone => true
  | .pllLockDone dom => domainOk dom
  | .dramRetrainDone _ _ => true
  | .trstNAssert => true

end Sys2Proof
end

