-- ==== Sys2Proof/Tests/Slice0.lean ====
section
/-!
SUPPORT. Tests of the model: ill-formed commands, the worked examples of the manual, and for each statement a state and operands
that meet its hypotheses, clause by clause. Expected values of the worked examples are the manual's own.
-/
open Sys2Proof Sys2Proof.Machine Sys2Proof.Safety
namespace Sys2Proof.Tests

set_option Elab.async false

/-- A running supervisor. -/
def up : SupSt := { mode := .running, expiries := [], restarts := 0, slot := 0, version := 0 }
/-- A head at work. -/
def hd : HeadSt := { HeadSt.fresh with present := true, perst := false, linkUp := true, memActive := true, withheld := false, rate := 64, width := 16 }
/-- An extent of tenant 1 on head 0. -/
def ext (e : Nat) (st : EState) : Nat × ExtentEnt := (e, { ExtentEnt.fresh e with st := st, head := 0, tenant := 1 })
/-- An active tenant with key slot 0. -/
def ten1 : TenantSt := { TenantSt.fresh with st := .active, slot := some 0 }
/-- An Active device that serves host commands. -/
def w0 : State := { State.reset with
  mgmt := { State.reset.mgmt with running := true, host := up, media := up, fabric := up, platform := up }, media := { State.reset.media with popCh := 9, popPk := 1, popDies := 2 }, start := { State.reset.start with phases := [1, 2, 3, 4, 5, 6, 7, 8, 9, 10, 11, 12, 13, 14] }, power := { State.reset.power with mode := .active, vaux := true, aon := true }, heads := [(0, hd), (1, HeadSt.fresh)], time := { State.reset.time with tbRunning := true, mono := 1000000000000000 }, map := { State.reset.map with loaded := true, extents := 8 }, ten := { State.reset.ten with tenants := [(1, ten1)], slots := [(0, .loaded 7)], extA := [ext 0 .added, ext 1 .pending, ext 2 .assigned, ext 3 .releasing] } }
/-- A valid firmware image. -/
def img : List Byte := List.replicate 20 0 ++ [2] ++ List.replicate 107 0
/-- An event. -/
def ev : Ev := { src := 16, code := 0x9004, p0 := 0, p1 := 0, p2 := 0, sev := 0 }
/-- A record of that event. -/
def rec0 : EvRec := { src := 16, sev := 5, code := 0x9004, p0 := 0, p1 := 0, p2 := 0, time := 0, seq := 7, rep := 1 }
/-- A running descriptor ring with one descriptor. -/
def ring1 : DescRing := { head := 0, tenant := 1, entries := 256, base := 0, tailP := 1, headP := 0, st := 1, lastError := 0, stopping := false }
/-- A descriptor. -/
def desc (op : Byte) (more : List Byte) : List Byte := [op, 0, 0, 0, 0, 0, 0, 0] ++ more ++ List.replicate 64 0
/-- A COPY descriptor. -/
def copyD : List Byte := [0, 0, 0, 0, 0, 0, 0, 0] ++ [0, 64] ++ [0, 0, 0, 0, 0, 0] ++ [64]
/-- A MIGRATE descriptor. -/
def migD : List Byte := zeros 8 ++ leBytes 8 (2 ^ 31) ++ leBytes 8 (2 ^ 30)
/-- A Clean line. -/
def ln : Line := { Line.fresh with tag := 0, tenant := 1, st := .clean }
/-- An engine that has decoded a descriptor. -/
def wE (d : List Byte) : State := { w0 with eng := { w0.eng with rings := [(0, ring1)], engines := [(0, { Engine.fresh with phase := .decoded, ring := some 0, desc := d })] } }
/-- A read of head 0 in its queue. -/
def rq : Req := { src := .head 0, op := .rd, addr := 0, rtag := 0, data := 0, be := 0, poison := false, badData := false, tenant := 1, cls := 3, within := true, stream := false, level := 1, devload := 0, loc := .queue, at_ := 0, part := 0, quiet := false, outcome := 0 }
/-- Ciphertext. -/
def seal0 : Cipher := List.replicate 16 0
/-- A frame in assembly. -/
def asm0 : Asm := { kind := .clean, lfa := 0, tenant := 1, keyGen := 0, key := 7, image := 0, have_ := 0, cipher := none, lines := [], poisonSet := 0, poisonClr := 0, merging := false, begun := false, wseq := 1, pfa := none, prio := 2, debit := 0, acks := [], resolves := [], ccis := [], limited := false, programming := false }
/-- A range operation. -/
def maint0 : Maint := { op := 0xC206, cci := none, start := 0, len := 4096, status := 0, invalidated := 0, skipped := 0, firstSkip := 0, doneAt := 0, walked := false, fills := [], lines := [], late := [], awaits := [], inOff := false }
/-- One read waits with full buckets. -/
def sched : State := { w0 with ten := { w0.ten with queues := [(7, { FlowQ.mk [1] (Bucket.mk 1000000 1000000) (Bucket.mk 1000000 1000000) (Bucket.mk 1000000 1000000) 0 0 0 0 with at_ := w0.time.mono })], reqs := [(1, rq)] } }
/-- One line in the front cache. -/
def wL (l : Line) : State := { w0 with front := { w0.front with mode := .writeBack, lines := [(0, l)] } }
/-- A Dirty line. -/
def dirtyLn : Line := { ln with st := .dirty, dirtyHl := 1, valid := BitVec.allOnes 256 }
/-- A drain. -/
def dr0 : DrainRun := { triggers := 0, set := 0, seq := 1, startW := 0, at_ := 0, vStart := 0, heads := [], parts := [0], frames := none, left := [], rounds := [], tails := 0, dumps := 0, faults := [] }
/-- A miss-table entry. -/
def miss0 (st : FillStage) : Miss := { idx := none, waiters := [], stage := st, copyB := false, second := false, data := 0, poison := false, latency := false, age := 0, tenant := 1, outcome := 0, newer := none }
/-- One miss. -/
def wM (st : FillStage) : State := { w0 with front := { w0.front with miss := [(5, miss0 st)] } }
/-- A Valid back-cache slot. -/
def slot0 : Slot := { lfa := 0, pfa := 9, tenant := 1, quarantine := 0, ref := false, st := .valid, data := seal0, pinned := false, deferred := false }
/-- A frame in assembly and one ready entry. -/
def wPl : State := { w0 with front := { w0.front with asms := [(0, asm0)] }, place := { w0.place with ready := [(0, [5])] } }
/-- A reserved tenant with a Dirty line. -/
def wRes : State := { w0 with ten := { w0.ten with tenants := [(1, { ten1 with qosA := { TenantSt.fresh.qosA with w20 := 429496729600#64 } })] }, front := { w0.front with lines := [(0, dirtyLn)], dirtyAt := [(0, 0)], budget := 96 }, place := { w0.place with ready := [(0, [5])] } }
/-- A MEDIA map entry. -/
def me0 : MapEnt := { st := .media, poison := 0, loc := 9 }
/-- A map root. -/
def root0 : MapRoot := { popCh := 9, popPk := 1, popDies := 2, drain0 := [0], drain1 := [1], ck0 := [2], ck1 := [3], ja := [4, 5], jb := [6, 7] }
/-- A journal entry. -/
def je0 : JEnt := { seq := 1, spilled := false, at_ := 0, body := .groupFree 9 }
/-- A tile group. -/
def gr (st : GState) : Group := { Group.default 5 with st := st, vintage := 1, valid := 3 }
/-- A racking job. -/
def rack0 : Rack := { group := 5, origin := 1, prio := 4, cci := none, wear := false, evac := false, step := 0, todo := [] }
/-- A full trim window. -/
def win0 : TrimWin := { group := 5, decodes := 5000, up := [0, 0, 0], dn := [0, 0, 0] }
/-- A run record. -/
def run0 : RunRec := { kind := 1, triggers := 0, set := 0, seq := 1, startW := 0, rounds := 1, tail := 1, dump := 1, time := 0, vStart := 0, vEnd := 0 }
/-- A dump entry. -/
def dump0 : DumpEnt := { lfa := 0, line := 0, tenant := 1, valid := 0, poison := false, dirtyHl := 1, data := 0 }
/-- A DIMM. -/
def dimm128 : Dimm := { rate := 6400, ranks := 2, gib := 256, supported := true }
/-- A media channel in service. -/
def chUp : ChanSt := { ChanSt.down with mode := .inService, mreset := false }
/-- A die on its bus. -/
def dieUp : DieSt := { DieSt.absent with present := true }
/-- Media channel 0. -/
def wC (x : ChanSt) : State := { w0 with media := { w0.media with chans := [(0, x)], dies := [(0, dieUp)] } }
/-- Die 0. -/
def wD (x : DieSt) : State := { w0 with media := { w0.media with chans := [(0, chUp)], dies := [(0, x)] } }
/-- DRAM channel 0. -/
def wR (x : DramCh) : State := { w0 with dram := { w0.dram with chans := [(0, x)] } }
/-- A training sweep that passes everywhere. -/
def sweep1 : TrainSweep := { rd0 := BitVec.allOnes 128, rd1 := BitVec.allOnes 128, wr0 := BitVec.allOnes 128, wr1 := BitVec.allOnes 128, mca := BitVec.allOnes 128, vref := 30 }
/-- A DRAM lane that passes everywhere. -/
def lane1 : DramLane := { rd := BitVec.allOnes 128, wr := BitVec.allOnes 128, vref := BitVec.allOnes 256 }
/-- Ten such lanes. -/
def lanes1 : List DramLane := List.replicate 10 lane1
/-- A frame as work of a busy slot. -/
def frame1 : Work := { prio := 2, kind := .frame 0 }
/-- Die 0 and a busy slot. -/
def wB (a : Option ArrayOp) (b : BusySt) : State := { wD { dieUp with array := a } with place := { w0.place with busy := [(0, b)] } }
/-- A busy slot at work. -/
def bs1 : BusySt := { BusySt.idle with cur := some frame1, run := true }
/-- A DRAM channel in service. -/
def dIn : DramCh := { DramCh.down with mode := .inService, spd := true, dimms := [dimm128] }
/-- A frost record. -/
def fr0 : Frost := { cause := 1, subch := 0, rank := 0, bank := 0, row := 0, column := 0, syndrome := 0, time := 0, temp := 0, tail := [] }
/-- Fabric port 0. -/
def wP (x : FabPort) : State := { w0 with fabric := { w0.fabric with ports := [(0, x)] } }
/-- A port Up. -/
def pUp : FabPort := { FabPort.fresh with st := .up, width := 4 }
/-- A flit. -/
def fl0 : Flit := { crcOk := true, payload := true, seq := 0, ackSeq := 4095, nak := false, credits := [], msgs := [] }
/-- A Hello. -/
def hello0 : HelloMsg := { src := 5, serial := 5, epoch := 0, digest := 0, port := 0, relayOk := true, long := false, narrow := false, degraded := false, seen := 0xFFF, lsaSeq := 1, helloMs := 10 }
/-- An LSA. -/
def lsa0 : Lsa := { origin := 5, age := 0, seq := 1, serial := 5, relayOk := true, withdrawn := false, links := [] }
/-- A routed read. -/
def fm0 : FabMsg := { kind := .rd, vc := 0, dst := 9, src := 5, tag := 1, gen := 0, status := 0, poison := false, devload := 0, eng := false, resend := false, pri := false, epoch := 0, addr := 0, be := 0, data := 0 }
/-- An outstanding remote request. -/
def rem0 : Remote := { tag := 1, line := 0, at_ := 0, expired := 0, waits := 0, msg := fm0 }
/-- The ring. -/
def wG (x : RingSt) : State := { w0 with epoch := { w0.epoch with ring := x } }
/-- The ring in a mode. -/
def rg (m : RingMode) : RingSt := { w0.epoch.ring with mode := m }
/-- A ring frame. -/
def rf (typ : Nat) (p : List Byte) : RingFrame := { typ := typ, ttl := 8, src := 2, dst := 0xFF, rseq := 1, payload := p, crcOk := true }
/-- A power-up or power-down sequence. -/
def wS (blob : List Byte) (up flag : Bool) (wait : SeqWait) (steps : Nat) : State := { w0 with power := { w0.power with inUse := some blob, seq := some { up := up, pc := 0, flag := flag, steps := steps, wait := wait, deadline := 0, timers := [], falling := [] } } }
/-- Its state. -/
def q0 (up flag : Bool) (wait : SeqWait) (steps : Nat) : SeqRun := { up := up, pc := 0, flag := flag, steps := steps, wait := wait, deadline := 0, timers := [], falling := [] }
/-- A program of one step. -/
def prog (w : Nat) : List Byte := List.replicate 0x4C0 0 ++ leBytes 4 w
/-- A manifest: EPOCH 1 and the slice digest of device 7. -/
def manTab (v : Nat) : Tbl Byte := (0, 1) :: (List.range 16).map fun i => (128 + i, (leBytes 16 v).getD i 0)
/-- A Lagging device with that manifest staged. -/
def wMan (v : Nat) : State := { w0 with ten := State.reset.ten, fabric := { w0.fabric with devId := 7 }, time := { w0.time with timeSet := true }, epoch := { w0.epoch with slots := [(0, manTab v)], manS := some 0, ring := rg .formed, heard := some (9, 0), st := .lagging } }
/-- The digest of its staging bank. -/
def manD : Nat := sliceDigest (wMan 0) false
/-- The digest of the manifest. -/
def manE : Nat := manDigest (wMan manD) (some 0)

theorem le16 (v : Nat) (h : v < 2 ^ 128) : le (leBytes 16 v) 0 16 = v := by
  simp only [le, leBytes, byteAt, List.getD_cons_zero, List.getD_cons_succ, BitVec.toNat_ofNat]
  omega

theorem manSlice_wMan (v : Nat) (h : v < 2 ^ 128) : manSlice (wMan v) (some 0) 7 = v := by
  have e : manSlice (wMan v) (some 0) 7 = le (leBytes 16 v) 0 16 := rfl
  rw [e, le16 v h]

theorem digest16_lt (b : List Byte) : digest16 b < 2 ^ 128 := Nat.mod_lt _ (by decide)

theorem sliceMatches_wMan (hz : manD ≠ 0) : sliceMatches (wMan manD) = true := by
  have e1 : sliceDigest (wMan manD) false = manD := rfl
  have e2 : manSlice (wMan manD) (some 0) 7 = manD := manSlice_wMan _ (digest16_lt _)
  have e3 : (wMan manD).epoch.manS = some 0 := rfl
  have e4 : (wMan manD).fabric.devId = 7 := rfl
  simp only [sliceMatches, e1, e3, e4, e2, beq_self_eq_true, Bool.true_and, bne_iff_ne, ne_eq]
  exact hz

theorem armCheck_of (s : State) (e d t : Nat) (h1 : s.fabric.devId ≠ 0xFFF) (h2 : s.time.timeSet = true) (h3 : s.epoch.manS = some 0)
    (h4 : manPrev s (some 0) = s.ten.epochA) (h5 : s.ten.epochA < e) (h6 : s.time.tbNow + 2000000000 ≤ t * 1000000000)
    (h7 : t * 1000000000 ≤ s.time.tbNow + 604800 * 1000000000) (h8 : d = manDigest s (some 0)) (h9 : sliceMatches s = true)
    (h10 : changedCovered s = true) (h11 : s.epoch.arm = none) : armCheck s e d t = none := by
  simp only [armCheck, h3]
  rw [if_neg (by simp [h1, h2, h4]), if_neg (by simp only [h8, ne_eq, not_true, or_false]; omega), if_neg (by simp [h9]), if_neg (by simp [h10]), if_neg (by simp [h11])]
/-- An ARM payload of that manifest. -/
def armPay : List Byte := leBytes 8 1 ++ leBytes 16 manE ++ leBytes 8 1000 ++ [0]

theorem armPay_d : le armPay 8 16 = manE := by
  have e : le armPay 8 16 = le (leBytes 16 manE) 0 16 := rfl
  rw [e, le16 manE (by unfold manE manDigest; exact digest16_lt _)]

theorem armOk (hz : manD ≠ 0) : armCheck (wMan manD) (le armPay 0 8) (le armPay 8 16) (le armPay 24 8) = none :=
  armCheck_of _ _ _ _ (by decide) rfl rfl rfl (by decide) (by decide) (by decide) armPay_d (sliceMatches_wMan hz) (by decide +kernel) rfl
/-- Key slot 0 empty. -/
def wKey : State := { w0 with ten := { w0.ten with slots := [(0, .empty)] } }
/-- A program in order mode with one rail. -/
def orderBlob : List Byte := [0, 1, 0, 0, 0, 0, 0, 0, 1, 0, 0, 0, 0, 0, 0, 0, 0, 0, 0, 0, 0, 0, 0, 0, 0, 0, 0, 0, 0, 0, 0, 0, 0, 0, 0, 0, 0, 0, 0, 0, 0, 0, 0, 0, 0, 0, 0, 0, 0, 0, 0, 0, 0, 0, 0, 0, 0, 0, 0, 0, 0, 0, 0, 0, 0, 0, 0, 16]
/-- A sequencer program in step mode that passes the check. -/
def stepBlob : List Byte := leBytes 4 0x00010000 ++ zeros 4 ++ leBytes 8 0xFF ++ zeros 8 ++ leBytes 4 1131783944 ++ builtinRest

set_option maxRecDepth 100000 in
theorem stepBlob_crc : (le stepBlob 0x18 4 == crc32c (stepBlob.take 0x18 ++ zeros 4 ++ stepBlob.drop 0x1C)) = true := by decide +kernel

theorem stepBlob_ok : blobOk stepBlob = true := by
  have h1 : ((List.range 8).all fun i => (railsOfRole stepBlob (i + 1)).length == 1) = true := by decide +kernel
  have h2 : ((List.range 64).all fun r => !(decide (1 ≤ railRole stepBlob r) && decide (railRole stepBlob r ≤ 8) && pgMode stepBlob r == 3)) = true := by decide +kernel
  have h3 : ((List.range 64).all fun r => !railUsed stepBlob r || (decide (railLevel stepBlob r 16 < railLevel stepBlob r 24) && decide (railLevel stepBlob r 8 < railLevel stepBlob r 0))) = true := by decide +kernel
  have h4 : stepMode stepBlob = true := by decide +kernel
  have h5 : le stepBlob 8 8 = 0xFF := by decide +kernel
  have h6 : (((List.range 16).map (groupEntry stepBlob)).filter fun g => bits g 36 1 == 1) = [] := by decide +kernel
  simp only [blobOk, stepBlob_crc, h1, h2, h3, h4, h5, h6]; decide

theorem zeros_bad : blobOk (zeros 3264) = false := by
  have h : ((List.range 8).all fun i => (railsOfRole (zeros 3264) (i + 1)).length == 1) = false := by decide +kernel
  simp [blobOk, h]

theorem armCheck_setRing (s : State) (r : RingSt) (e d n : Nat) : armCheck (setRing r s) e d n = armCheck s e d n := rfl
/-- A locked time base at a time, its PPS delay set against its input delay. -/
def wPps (n : Nat) : State := { w0 with time := { w0.time with pps := .locked, domains := [(2, .running)], tbNow := n, policy := { w0.time.policy with ppsDelay := -Config.ppsInputDelay w0.mgmt.serial } } }

theorem capture_wPps (n : Nat) : captureNow (wPps n) = n := by
  have h : tbRead (wPps n) = n := rfl
  have h2 : (wPps n).time.policy.ppsDelay = -Config.ppsInputDelay w0.mgmt.serial := rfl
  have h3 : (wPps n).mgmt.serial = w0.mgmt.serial := rfl
  simp only [captureNow, h, h2, h3]
  omega
/-- A die read that has started. -/
def rdr0 : DieRead := { rd := .fill 5, pos := 2, pfa := 9, latency := false, shift := 0, started := true, asked := false }
/-- A map entry that reads bad. -/
def wBad : State := { wM .mapRead with map := { w0.map with copyA := { MapCopy.empty with bad := [0] } } }
/-- A back-cache hit. -/
def wBk : State := { w0 with front := { w0.front with miss := [(5, { miss0 (.back 0 9) with latency := true })] }, back := { w0.back with slots := [(0, slot0)] } }
/-- The channel of back-cache slot 0. -/
def slotChan0 : Nat := (slotChans w0 0).headD 0
/-- A miss that ended uncorrectable. -/
def miss2 : Miss := { miss0 .ready with outcome := 2 }
/-- That miss. -/
def wFill : State := { w0 with front := { w0.front with miss := [(5, miss2)] }, map := { w0.map with copyA := { MapCopy.empty with ents := [(0, me0)] } } }
/-- A promotion. -/
def wProm : State := { w0 with back := { w0.back with slots := [(0, { slot0 with st := .filling })], promoting := [(0, 0)] }, map := { w0.map with copyA := { MapCopy.empty with ents := [(0, me0)] } } }
/-- A staged journal record. -/
def wStage : State := { w0 with map := { w0.map with root := some root0, staging := [je0] } }
/-- A checkpoint pass. -/
def pass0 : PassSt := { slot := 0, ck := makeCkpt 1 0 0 w0, wseq := 0 }

theorem pass0_pos : 0 < passFrames pass0.ck := by unfold passFrames; omega
/-- A dump frame. -/
def img1 : ImgFrame := { seq := 1, no := 0, wseq := 1, body := .dump [dump0] }
/-- A drain image to relocate. -/
def wReloc : State := { w0 with map := { w0.map with root := some root0 }, persist := { w0.persist with imageList := [run0], index := [(2 ^ 36, dump0)], image := [(0, img1)] }, drift := { w0.drift with tables := (setDies 0).map fun d => (d, { ea := 1300, retention := 365, source := 2, ents := List.replicate 24 (0, 0, 0, 9) }) }, place := { w0.place with groups := [(0, { gr .metadata with reads := 30000000 }), (1, { gr .metadata with role := 5 }), (5, gr .closed)] } }
/-- Package training. -/
def pt0 : PkgTrain := { rd0 := 0, rd1 := 0, wr0 := 0, wr1 := 0, vref := 0, run := 24, temp := 0 }

theorem scrub_ok : (dramOf (openRow (0 : Fin 8) (dramLoc (dramOf (wR { dIn with crcAlerts := 0 }) (0 : Fin 8)) (64 * 0)) (wR { dIn with crcAlerts := 0 })) (0 : Fin 8)).scrubPos + 1 < chanBursts (dramOf (openRow (0 : Fin 8) (dramLoc (dramOf (wR { dIn with crcAlerts := 0 }) (0 : Fin 8)) (64 * 0)) (wR { dIn with crcAlerts := 0 })) (0 : Fin 8)) := by
  unfold openRow
  dsimp only []
  split <;> decide +kernel
/-- A Hello of the device itself. -/
def wOwn : State := { w0 with fabric := { w0.fabric with devId := 5, ports := [(0, { pUp with inbox := [.hello hello0] })] }, mgmt := { w0.mgmt with serial := 5 } }
/-- A message for device 7. -/
def fmIn (k : MsgKind) : FabMsg := { fm0 with kind := k, dst := 7 }
/-- That message in a buffer of device 7. -/
def wIn (k : MsgKind) : State := { w0 with fabric := { w0.fabric with devId := 7, ports := [(0, { pUp with inbox := [.routed (fmIn k)] })] } }
/-- The state once it is taken. -/
def uIn (k : MsgKind) : State := ((takeLocal 0 k (wIn k)).getD (.lsa lsa0, w0)).2
/-- A response and its request. -/
def wResp (g : Nat) (k : MsgKind) : State := { wIn k with fabric := { (wIn k).fabric with remote := [(1, { rem0 with msg := { fm0 with gen := g } })] }, ten := { w0.ten with reqs := [(1, rq)] } }
/-- The state once the response is taken. -/
def uResp (g : Nat) (k : MsgKind) : State := ((takeLocal 0 k (wResp g k)).getD (.lsa lsa0, w0)).2
/-- A remote request that has expired once. -/
def wExp (r : Req) : State := { w0 with fabric := { w0.fabric with remote := [(1, { rem0 with expired := 1 })] }, ten := { w0.ten with reqs := [(1, r)] } }
/-- A manifest being staged. -/
def wLoad (n : Nat) : State := { w0 with epoch := { w0.epoch with load := some (0, [(0, n)]) } }
/-- The next piece of it. -/
def uLoad (n off len : Nat) : State := { wLoad n with epoch := { (wLoad n).epoch with slots := [(0, putBytes off (List.replicate len 7) [])], load := some (0, [(0, n), (off, len)]) } }
/-- A program with one rail. -/
def bl (w0 w12 : Nat) : List Byte := zeros 8 ++ [1] ++ zeros 55 ++ leBytes 4 w0 ++ zeros 4 ++ leBytes 4 (1000 * 2 ^ 16) ++ leBytes 4 w12
/-- That rail in a state. -/
def wRl (b : List Byte) (x : Rail) : State := { w0 with power := { w0.power with inUse := some b, rails := [(0, x)] } }
/-- An NTC in Standby. -/
def wNtc : State := { w0 with therm := { w0.therm with policy := { w0.therm.policy with ntcMask := 255, ntcWake := 60 } }, power := { w0.power with mode := .standby } }

theorem ntc_w (t : Int) : (sampleSensor 331 (some t) wNtc).power = wNtc.power ∧ (sampleSensor 331 (some t) wNtc).therm.policy = wNtc.therm.policy := by
  have h : takeSample 331 (some t) wNtc = ({ Sensor.fresh with good := some t, last := some t }, wNtc) := rfl
  have d : (devUp wNtc || wNtc.power.seq.isSome) = false := by decide +kernel
  unfold sampleSensor
  simp only [h]
  constructor <;> rfl
/-- An Arm Epoch payload with SPREAD. -/
def armSpread : List Byte := leBytes 8 1 ++ leBytes 16 manE ++ leBytes 8 1000 ++ [1]

/-! ### Commands that the outside world cannot send -/

theorem test_ill_formed_long_payload : WellFormed (.getTenant 8 (zeros 65537)) = false := by
  have h : (zeros 65537).length = 65537 := List.length_replicate ..
  simp only [WellFormed, payloadOk, h]; decide
theorem test_ill_formed_die_number : WellFormed (.dieProgramEnd 4608 true) = false := by decide
theorem test_ill_formed_local_address : WellFormed (.getPoisonList 8 (2 ^ 48) 0) = false := by decide
theorem test_ill_formed_local_addresses : WellFormed (.injectPoison 8 [0, 2 ^ 48]) = false := by decide
theorem test_ill_formed_logical_frame : WellFormed (.promotionReadDone (2 ^ 36)) = false := by decide
theorem test_ill_formed_front_line : WellFormed (.mapEntryReadDone (2 ^ 40) .none) = false := by decide
theorem test_ill_formed_tile_group : WellFormed (.tileResetStart (2 ^ 19)) = false := by decide
theorem test_ill_formed_event_source : WellFormed (.eventPost 4096) = false := by decide
theorem test_ill_formed_opcode : WellFormed (.unsupportedCommand 8 65536) = false := by decide
theorem test_ill_formed_time : WellFormed (.setTimestamp 8 (2 ^ 64)) = false := by decide
theorem test_ill_formed_clock_domain : WellFormed (.pllLockDone 41) = false := by decide
theorem test_ill_formed_extent_number : WellFormed (.addDynamicCapacityResponse 8 (2 ^ 32) true) = false := by decide
theorem test_ill_formed_event_handle : WellFormed (.clearEventRecords 8 0 false [65536]) = false := by decide
/-! ### The manual's worked examples -/

/-- 01_architecture.md, worked example. -/
theorem test_local_address : (extentOf 0xE543210AC0, lfaOf 0xE543210AC0, lfaOf 0xE543210AC0 % 262144, frontLineIn 0xE543210AC0, hostLineIn 0xE543210AC0) = (917, 0xE543210, 12816, 10, 3) := by decide

/-- 01_architecture.md, worked example. -/
theorem test_physical_frame : (groupOf 0xADCD51170, frameIdx 0xADCD51170, dieSetOf 355946, tileOf 355946) = (355946, 70000, 347, 618) := by decide

/-- 01_architecture.md, worked example. -/
theorem test_die_set : (dsK 347, dsP 347, dsD 347, parityQuad 70000, channelAt (parityQuad 70000) 2) = (2, 5, 11, 7, 30) := by decide

/-- 01_architecture.md, worked example. -/
theorem test_segment_channels : ((List.range 8).map fun j => channelAt (dataQuad 70000 j) 2) = [34, 2, 6, 10, 14, 18, 22, 26] := by decide

/-- 02_host_ports.md, worked example. -/
theorem test_decoder : dpaOf { hd with decoders := [{ committed := true, base := 0x10000000000, size := 2 ^ 42, ways := 4, gran := 4096, pos := 2, skip := 0 }] } (.hpa 0x1030002A3C0) = some 0xC000A3C0 := by decide +kernel

/-- 04_front_cache.md, worked example. -/
theorem test_front_set : (lfaOf 0x2DC6C0A40, setOfLine (lineOf 0x2DC6C0A40)) = (3000000, 3082) := by decide

/-- 04_front_cache.md, worked example. -/
theorem test_victim : ((fun r : Option Nat × State => (r.1, r.2.front.urgent, [4, 5, 6, 7].map fun w => (lineAt r.2 (16 * 3082 + w)).age)) (victimSearch 3082 0x00F0 { w0 with front := { w0.front with mode := .writeBack, lines := [(49316, { ln with age := 1 }), (49317, { dirtyLn with tag := 77, age := 2 }), (49318, { ln with age := 0 }), (49319, { ln with age := 2 })] } })) = (some 49319, [77], [2, 3, 1, 3]) := by decide +kernel

/-- 10_media_channel.md, worked example. -/
theorem test_sense_form : parseCmd [0x1B, 0x52, 0x6A, 0x70, 0x11, 0x04, 0x07, 0x0A, 0x00, 0xFA] = some (11, .sense true (.seg 618 70000 4 7 10)) := by decide +kernel

/-- 10_media_channel.md, worked example. -/
theorem test_output_form : parseCmd [0x1B, 0xD0, 0x00, 0x25, 0x00, 0xAF] = some (11, .output true true 0 37) := by decide +kernel

/-- 10_media_channel.md, with its last byte changed, worked example. -/
theorem test_bad_crc_form : parseCmd [0x1B, 0xD0, 0x00, 0x25, 0x00, 0xAE] = none := by decide +kernel

/-- 05_persistence_and_holdup.md, worked example. -/
theorem test_hold_measurement : fitBank { w0.persist.policy with iTest := 500, vCutoff := 9000 } 12000000 ((List.range 501).map fun k => 11990000 - 1250 * k) = (0, 200, 40000) := by decide +kernel

/-- 05_persistence_and_holdup.md, worked example. -/
theorem test_energy : ((energyAt w0.persist.policy 40000 200 11365000 + 500) / 1000, (energyAt w0.persist.policy 40000 200 12000000 + 500) / 1000) = (816, 1113) := by decide +kernel

/-- 09_drift_vintage_and_topping.md, worked example. -/
theorem test_acceleration : ((afFactor 60 1100 * 10000 + 32768) / 65536, (afFactor 70 1100 * 1000 + 32768) / 65536, (afFactor 40 1100 * 100000 + 32768) / 65536, critMinute 95 1100) = (17929, 5476, 15515, 4110) := by decide +kernel

/-- 09_drift_vintage_and_topping.md, worked example. -/
theorem test_drift_bins : (driftBin 4647000, driftBin 5487000, driftBin 8388607, driftBin 8388608) = (17, 17, 17, 18) := by decide

/-- 18_cellar_book_and_event_recorder.md, worked example. -/
theorem test_spread_counter : spreadValue { base0 := some (7, 12), base1 := none, cells := List.replicate 44 (12, 1) } = 51 := by decide

/-- 18_cellar_book_and_event_recorder.md, worked example. -/
theorem test_spread_carry : ((fun p => (spreadValue p, p.base1, (spreadBump p 1).cells.head?)) (spreadBump { base0 := some (7, 12), base1 := none, cells := List.replicate 44 (12, 1) } 1)) = (52, some (52, 13), some (13, 1)) := by decide

/-- 19_counters_metering_and_engines.md, worked example. -/
theorem test_check_value : ((fun x => (cvResult x, x.count)) (cvFeed (cvFeed (cvFeed (cvRestart { CvUnit.fresh with poly := 1 }) [0x31, 0x32, 0x33, 0x34]) [0x35, 0x36, 0x37, 0x38]) [0x39])) = (0xE3069283, 9) := by decide +kernel

/-- 15_supplies_and_sequencing.md, worked example. -/
theorem test_step_word : (stepReady (wS (prog 0x10E000C8) true true .none 0) 1).map (fun p => (bits p.2 22 6, bits p.2 21 1, bits p.2 0 21)) = some (3, 1, 200) := by decide +kernel

/-- 11_dram_subsystem.md (its quotient, rounded down), worked example. -/
theorem test_back_slots : backSlots { w0 with map := { w0.map with extents := 241664 }, dram := { w0.dram with chans := (List.range 8).map fun c => (c, { DramCh.down with dimms := [{ dimm128 with gib := 128 }] }) } } = 85899345920 / 4112 := by decide +kernel

/-- 13_epochs_and_service_ring.md, worked example. -/
theorem test_manifest_bit : manChanged { w0 with epoch := { w0.epoch with slots := [(0, [(65592, 2)])] } } (some 0) 0x141 = true := by decide

/-- Table 19-6, CHECK. -/
theorem test_crc16 : crc16 [0x31, 0x32, 0x33, 0x34, 0x35, 0x36, 0x37, 0x38, 0x39] = 0x29B1 := by decide +kernel

/-- 12_fabric.md, worked example. -/
theorem test_msg_header : msgHeader { fm0 with kind := .rd, dst := 0x2A7, src := 0x135, tag := 0x4F21, gen := 3, pri := true, epoch := 0x2C, addr := 0xE543210AC0 } = 0x102A71354F2130042C0000E543210AC0 := by decide

/-- 05_persistence_and_holdup.md, worked example. -/
theorem test_drain_model (s : State) (h : modelSd s = 480) : (modelTime s 62, modelTime s 63, decide (10 * State.reset.persist.policy.holdPower * modelTime s 62 ≤ 6 * 816000), decide (10 * State.reset.persist.policy.holdPower * modelTime s 63 ≤ 6 * 816000)) = (2714, 2768, true, false) := by
  simp only [modelTime, modelRounds, h]; decide +kernel

/-- 16_thermal.md, worked example. -/
theorem test_thermal_drain_model (s : State) (h : modelSd s = 480) : (modelFrames 70, modelTime s 70) = (22120, 3038) := by
  simp only [modelTime, modelRounds, h]; decide +kernel

/-- Table 2-7, reset column. -/
theorem test_dvsec_reset : ([1, 3, 4, 5, 6, 12, 13, 14].map (dvsecDword State.reset 2)) = [0x04011F9E, 0xFFF00000, 0x03000000, 0x00C80000, 0, 5, 3, 0] := by decide +kernel

/-- Table 2-9, reset column. -/
theorem test_time_window_reset : ([0, 8, 16, 24, 32].map fun o => bar2Read { State.reset with heads := [(0, { HeadSt.fresh with present := true })] } 0 o 8) = List.replicate 5 (some 0) := by decide +kernel

/-- Table 19-7, reset column. -/
theorem test_cv_window_reset : (cvWindow CvUnit.fresh 0, cvWindow CvUnit.fresh 0x18, cvWindow CvUnit.fresh 0x20) = (1, 0, 0) := by decide +kernel

/-! ### The hypotheses of each statement are met -/

/-- A state and operands for each clause of IdentityAndLogCommandsComplete that has hypotheses. -/
theorem wit_IdentityAndLogCommandsComplete :
    (∃ c, ∃ s : State, Takes s c 0x0001) ∧
    (∃ c, ∃ s : State, Takes s c 0x0002 ∧ (cciOf s c).bg = none) ∧
    (∃ c, ∃ s : State, ∃ b, Takes s c 0x0002 ∧ (cciOf s c).bg = some b ∧ b.rc = none) ∧
    (∃ c, ∃ s : State, ∃ b, ∃ r, Takes s c 0x0002 ∧ (cciOf s c).bg = some b ∧ b.rc = some r) ∧
    (∃ c, ∃ s : State, Takes s c 0x0003) ∧
    (∃ c, ∃ e, ∃ s : State, Takes s c 0x0004 ∧ 8 ≤ e ∧ e ≤ 12) ∧
    (∃ c, ∃ e, ∃ s : State, Takes s c 0x0004 ∧ ((e < 8 ∨ 12 < e))) ∧
    (∃ c, ∃ b, ∃ s : State, Takes s c 0x0005 ∧ (cciOf s c).bg = some b ∧ b.rc = none ∧ b.op = 0xC722) ∧
    (∃ c, ∃ s : State, Takes s c 0x0100) ∧
    (∃ c, ∃ s : State, Takes s c 0x0101) ∧
    (∃ c : Fin 10, ∃ h : Nat, ∃ s : State, Takes s c 0x0102 ∧ headOfCci c = some h) ∧
    (∃ c : Fin 10, ∃ h : Nat, ∃ p : List Nat, ∃ s : State, Takes s c 0x0103 ∧ headOfCci c = some h ∧ p.length = 5 ∧
      ((∀ v ∈ p, v ≤ 1))) ∧
    (∃ c, ∃ s : State, Takes s c 0x0400) ∧
    (∃ c : Fin 10, ∃ i : Nat, ∃ n : Nat, ∃ s : State, Takes s c 0x0401 ∧ i + n ≤ (supportedOps c).length ∧
      4 * n ≤ payloadLimit s c) :=
  ⟨⟨8, w0, by decide +kernel⟩,
   ⟨8, w0, by decide +kernel⟩,
   ⟨8, { w0 with mgmt := { w0.mgmt with ccis := [(8, { CciSt.fresh with bg := some { op := 0xC305, pct := 0, rc := none } })] } }, { op := 0xC305, pct := 0, rc := none }, by decide +kernel⟩,
   ⟨8, { w0 with mgmt := { w0.mgmt with ccis := [(8, { CciSt.fresh with bg := some { op := 0xC305, pct := 100, rc := some .success } })] } }, { op := 0xC305, pct := 100, rc := some .success }, .success, by decide +kernel⟩,
   ⟨8, w0, by decide +kernel⟩,
   ⟨8, 12, w0, by decide +kernel⟩,
   ⟨8, 0, w0, by decide +kernel⟩,
   ⟨8, { op := 0xC722, pct := 0, rc := none }, { w0 with mgmt := { w0.mgmt with ccis := [(8, { CciSt.fresh with bg := some { op := 0xC722, pct := 0, rc := none } })] } }, by decide +kernel⟩,
   ⟨8, w0, by decide +kernel⟩,
   ⟨8, w0, by decide +kernel⟩,
   ⟨0, 0, w0, by decide +kernel⟩,
   ⟨0, 0, [0, 0, 1, 1, 0], w0, by decide +kernel⟩,
   ⟨8, w0, by decide +kernel⟩,
   ⟨8, 0, 0, w0, by decide +kernel⟩⟩

/-- A state and operands for each clause of MemoryDeviceCommandsComplete that has hypotheses. -/
theorem wit_MemoryDeviceCommandsComplete :
    (∃ c, ∃ s : State, Takes s c 0x4000) ∧
    (∃ c, ∃ s : State, Takes s c 0x4200) ∧
    (∃ c : Fin 10, ∃ a : Option Int, ∃ b : Option Int, ∃ d : Option Int, ∃ s : State, Takes s c 0x4201 ∧
      s.mgmt.alerts = [a, b, d]) ∧
    (∃ c : Fin 10, ∃ v : Int, ∃ s : State, Takes s c 0x4202 ∧ 0 ≤ v ∧ v ≤ 100) ∧
    (∃ c, ∃ s : State, Takes s c 0x4203) ∧
    (∃ c, ∃ s : State, Takes s c 0x4204) ∧
    (∃ c : Fin 10, ∃ dpa : Nat, ∃ s : State, Takes s c 0x4300 ∧ addedFor s c (extentOf dpa) = true) ∧
    (∃ c : Fin 10, ∃ dpa : Nat, ∃ len : Nat, ∃ s : State, Takes s c 0x4300 ∧ addedFor s c (extentOf dpa) = true ∧ 0 < len) ∧
    (∃ c : Fin 10, ∃ dpa : Nat, ∃ s : State, ∃ i, Takes s c 0x4301 ∧ addedFor s c (extentOf dpa) = true ∧
      (extOf s (extentOf dpa)).ownerDev = 0xFFF ∧ journalFull s = false ∧ findLine s (dpa / 256) = some i ∧
      countsDirty (lineAt s i) = true) ∧
    (∃ c : Fin 10, ∃ dpa : Nat, ∃ i : Nat, ∃ k : Nat, ∃ s : State, Takes s c 0x4302 ∧ addedFor s c (extentOf dpa) = true ∧
      (extOf s (extentOf dpa)).ownerDev = 0xFFF ∧ tenantKey s (extOf s (extentOf dpa)).tenant = some k ∧ s.place.cap = .normal ∧
      s.front.mode = .writeBack ∧ findLine s (dpa / 256) = some i ∧ countsDirty (lineAt s i) = true) ∧
    (∃ c, ∃ s : State, Takes s c 0x4400 ∧ bgBusy s c = false ∧ sanitizeBarred s = false ∧ s.place.format = none ∧
      s.mgmt.sanitize = none ∧ journalFull s = false) :=
  ⟨⟨8, w0, by decide +kernel⟩,
   ⟨8, w0, by decide +kernel⟩,
   ⟨8, none, none, none, w0, by decide +kernel⟩,
   ⟨8, 0, w0, by decide +kernel⟩,
   ⟨8, w0, by decide +kernel⟩,
   ⟨8, w0, by decide +kernel⟩,
   ⟨8, 0, w0, by decide +kernel⟩,
   ⟨8, 0, 1, w0, by decide +kernel⟩,
   ⟨8, 0, { w0 with front := { w0.front with mode := .writeBack, lines := [(0, { ln with st := .dirty, dirtyHl := 1 })] } }, 0, by decide +kernel⟩,
   ⟨8, 0, 0, 7, { w0 with front := { w0.front with mode := .writeBack, lines := [(0, { ln with st := .dirty, dirtyHl := 1 })] } }, by decide +kernel⟩,
   ⟨8, { w0 with ten := { w0.ten with extA := [] } }, by decide +kernel⟩⟩

/-- A state and operands for each clause of DynamicCapacityCommandsComplete that has hypotheses. -/
theorem wit_DynamicCapacityCommandsComplete :
    (∃ c : Fin 10, ∃ h : Nat, ∃ s : State, Takes s c 0x4800 ∧ headOfCci c = some h) ∧
    (∃ c : Fin 10, ∃ h : Nat, ∃ s : State, Takes s c 0x4801 ∧ headOfCci c = some h) ∧
    (∃ c : Fin 10, ∃ h : Nat, ∃ e : Nat, ∃ s : State, Takes s c 0x4802 ∧ headOfCci c = some h ∧ e < 241664 ∧
      (extOf s e).st = .pending ∧ (extOf s e).head = h ∧ journalFull s = false) ∧
    (∃ c : Fin 10, ∃ h : Nat, ∃ e : Nat, ∃ s : State, ∃ t : State, Takes s c 0x4803 ∧ headOfCci c = some h ∧
      (headExtents s h).contains e = true ∧ journalFull s = false ∧ t = dcRecord h 5 e (extOf s e).tenant (releaseExt e s) ∧
      ((t.ten.reqs.any fun p => extentOf p.2.addr == e) = false) ∧ (extOf t e).ownerDev = 0xFFF) ∧
    (∃ c, ∃ s : State, Takes s c 0x5500) ∧
    (∃ c, ∃ s : State, Takes s c 0x5600) ∧
    (∃ c : Fin 10, ∃ h : Nat, ∃ s : State, Takes s c 0x5601 ∧ h ≤ 3 ∧ (headOf s h).present = true) ∧
    (∃ c : Fin 10, ∃ h : Nat, ∃ r : Nat, ∃ base : Nat, ∃ len : Nat, ∃ s : State, Takes s c 0x5602 ∧ h ≤ 3 ∧
      (headOf s h).present = true ∧ r ≤ 7 ∧ base % 2 ^ 30 = 0 ∧ len % 2 ^ 30 = 0 ∧ base + len ≤ 2 ^ 48 ∧
      regionHolds s h r = false) ∧
    (∃ c : Fin 10, ∃ h : Nat, ∃ s : State, Takes s c 0x5603 ∧ h ≤ 3 ∧ (headOf s h).present = true) ∧
    (∃ c : Fin 10, ∃ h : Nat, ∃ e : Nat, ∃ s : State, Takes s c 0x5604 ∧ h ≤ 3 ∧ (headOf s h).present = true ∧ e < 241664 ∧
      (extOf s e).st = .assigned ∧ (extOf s e).accessDev = 0xFFF ∧ (tenantOf s (extOf s e).tenant).st = .active ∧
      inRegion s h e = true ∧ s.ten.withheld.contains e = false ∧ journalFull s = false) ∧
    (∃ c : Fin 10, ∃ e : Nat, ∃ s : State, Takes s c 0x5605 ∧ e < 241664 ∧ (extOf s e).accessDev = 0xFFF ∧
      (extOf s e).st = .added) :=
  ⟨⟨0, 0, w0, by decide +kernel⟩,
   ⟨1, 0, w0, by decide +kernel⟩,
   ⟨0, 0, 1, w0, by decide +kernel⟩,
   ⟨0, 0, 0, w0, dcRecord 0 5 0 1 (releaseExt 0 w0), by decide +kernel⟩,
   ⟨8, w0, by decide +kernel⟩,
   ⟨8, w0, by decide +kernel⟩,
   ⟨8, 0, w0, by decide +kernel⟩,
   ⟨8, 0, 7, (2 ^ 18 - 1) * 2 ^ 30, 2 ^ 30, w0, by decide +kernel⟩,
   ⟨8, 0, w0, by decide +kernel⟩,
   ⟨8, 0, 2, w0, by decide +kernel⟩,
   ⟨8, 0, w0, by decide +kernel⟩⟩

/-- A state and operands for each clause of FirmwareCommandsComplete that has hypotheses. -/
theorem wit_FirmwareCommandsComplete :
    (∃ s : State, s.mgmt.running = false ∧ railsGood s = true ∧ domOf s 10 = .running ∧ s.start.phases.contains 3 = true ∧
      s.start.phases.contains 5 = false ∧ s.mgmt.nextSlot = none) ∧
    (∃ s : State, ∃ t0, ∃ n, ∃ x, s.mgmt.goodSince = some t0 ∧ s.mgmt.runSlot = some n ∧ runImage s = some x ∧
      t0 + 60000000000 ≤ s.time.mono ∧ s.mgmt.running = true ∧ (([1, 2, 3, 4].all fun k => nodeRuns s k) = true) ∧
      s.mgmt.nextSlot = some n ∧ 0 < s.mgmt.tries) ∧
    (∃ c : Fin 10, ∃ slot, ∃ n, ∃ x : List Byte, ∃ s : State, Takes s c 0x0201 ∧ slotNo slot = some n ∧ n ≠ s.mgmt.active ∧
      s.mgmt.transfer = none ∧ s.mgmt.activation = none ∧ x.length ≤ (if c.val < 8 then 65536 else 4096)) ∧
    (∃ c : Fin 10, ∃ slot, ∃ n, ∃ d : List Byte, ∃ s : State, Takes s c 0x0201 ∧ slotNo slot = some n ∧ n ≠ s.mgmt.active ∧
      s.mgmt.transfer = none ∧ s.mgmt.activation = none ∧ d.length ≤ (if c.val < 8 then 65536 else 4096)) ∧
    (∃ c : Fin 10, ∃ x, ∃ off, ∃ d : List Byte, ∃ s : State, Takes s c 0x0201 ∧ s.mgmt.transfer = some x ∧ x.cci = c ∧
      x.data.length = 128 * off ∧ d.length ≤ (if c.val < 8 then 65536 else 4096) ∧ x.data.length + d.length ≤ slotBytes) ∧
    (∃ c : Fin 10, ∃ x, ∃ off, ∃ d : List Byte, ∃ s : State, Takes s c 0x0201 ∧ s.mgmt.transfer = some x ∧ x.cci = c ∧
      x.data.length = 128 * off ∧ d.length ≤ (if c.val < 8 then 65536 else 4096) ∧ x.data.length + d.length ≤ slotBytes ∧
      x.slot ≤ 1) ∧
    (∃ c : Fin 10, ∃ x, ∃ s : State, Takes s c 0x0201 ∧ s.mgmt.transfer = some x ∧ x.cci = c) ∧
    (∃ x, ∃ s : State, s.mgmt.transfer = some x ∧ x.lastTime + 60000000000 ≤ s.time.mono) ∧
    (∃ c, ∃ slot, ∃ n, ∃ s : State, Takes s c 0x0202 ∧ slotNo slot = some n ∧ (slotImage s n).isSome = true) ∧
    (∃ c : Fin 10, ∃ slot, ∃ n, ∃ x, ∃ y, ∃ s : State, Takes s c 0x0202 ∧ bgBusy s c = false ∧ slotNo slot = some n ∧
      slotImage s n = some x ∧ runImage s = some y ∧ fwOnline x = true ∧ byteAt x 15 = byteAt y 15 ∧
      microcodeHash x = microcodeHash y ∧ s.mgmt.activation = none ∧ (([1, 2, 3, 4].all fun k => nodeRuns s k) = true)) ∧
    (∃ a, ∃ s : State, s.mgmt.activation = some a) ∧
    (∃ c, ∃ s : State, Takes s c 0x0200 ∧ s.mgmt.nextSlot = none) :=
  ⟨⟨{ w0 with mgmt := { w0.mgmt with running := false, slotA := some img }, time := { w0.time with domains := [(10, .running)] }, start := { w0.start with phases := [1, 2, 3] } }, by decide +kernel⟩,
   ⟨{ w0 with mgmt := { w0.mgmt with goodSince := some 0, runSlot := some 0, slotA := some img, nextSlot := some 0, tries := 3 } }, 0, 0, img, by decide +kernel⟩,
   ⟨8, 2, 1, img, w0, by decide +kernel⟩,
   ⟨8, 2, 1, [1], w0, by decide +kernel⟩,
   ⟨8, { cci := 8, slot := 1, data := [], lastTime := 0 }, 0, [1], { w0 with mgmt := { w0.mgmt with transfer := some { cci := 8, slot := 1, data := [], lastTime := 0 } } }, by decide +kernel⟩,
   ⟨8, { cci := 8, slot := 1, data := [], lastTime := 0 }, 0, [1], { w0 with mgmt := { w0.mgmt with transfer := some { cci := 8, slot := 1, data := [], lastTime := 0 } } }, by decide +kernel⟩,
   ⟨8, { cci := 8, slot := 1, data := [], lastTime := 0 }, { w0 with mgmt := { w0.mgmt with transfer := some { cci := 8, slot := 1, data := [], lastTime := 0 } } }, by decide +kernel⟩,
   ⟨{ cci := 8, slot := 1, data := [], lastTime := 0 }, { w0 with mgmt := { w0.mgmt with transfer := some { cci := 8, slot := 1, data := [], lastTime := 0 } } }, by decide +kernel⟩,
   ⟨8, 1, 0, { w0 with mgmt := { w0.mgmt with slotA := some img } }, by decide +kernel⟩,
   ⟨8, 1, 0, img, img, { w0 with mgmt := { w0.mgmt with slotA := some img, runSlot := some 0 } }, by decide +kernel⟩,
   ⟨{ cci := 8, slot := 0, todo := [1], prev := [] }, { w0 with mgmt := { w0.mgmt with activation := some { cci := 8, slot := 0, todo := [1], prev := [] } } }, by decide +kernel⟩,
   ⟨8, w0, by decide +kernel⟩⟩

/-- A state and operands for each clause of SupervisorAndHubCommandsComplete that has hypotheses. -/
theorem wit_SupervisorAndHubCommandsComplete :
    (∃ k : Fin 4, ∃ x, ∃ s : State, supOf s (k + 1) = some x ∧ x.mode = .running ∧
      ((x.expiries.filter fun t => decide (s.time.mono < t + 600000000000)).length < 2)) ∧
    (∃ k : Fin 4, ∃ x, ∃ s : State, supOf s (k + 1) = some x ∧ x.mode = .running ∧
      (2 ≤ (x.expiries.filter fun t => decide (s.time.mono < t + 600000000000)).length)) ∧
    (∃ k : Fin 4, ∃ x, ∃ s : State, supOf s (k + 1) = some x ∧ x.mode = .restarting ∧ s.mgmt.activation = none) ∧
    (∃ c, ∃ b : Byte, ∃ x, ∃ s : State, Takes s c 0xCF03 ∧ supOf s (b.toNat + 1) = some x ∧ x.mode = .running ∧
      s.mgmt.activation = none) ∧
    (∃ s : State, s.mgmt.running = true ∧ s.mgmt.restarting = false) ∧
    (∃ c : Fin 10, ∃ op, ∃ out, ∃ s : State, s.mgmt.restarting = true ∧ (cciOf s c).wait = some (op, out)) ∧
    (∃ r, ∃ s : State, s.mgmt.running = true ∧ s.mgmt.hub = [r] ∧ r.item = .thermalPause 2 ∧ r.sender = 4 ∧ r.receiver = 2 ∧
      ((∀ n, inboundOf s n = [])) ∧ nodeRuns s 2 = true) ∧
    (∃ n : Fin 61, ∃ row : Fin 21, rowOwner row ≠ n ∧ rowThrough row n = false) ∧
    (∃ c, ∃ s : State, Takes s c 0xCF02 ∧ 64 ≤ payloadLimit s c) ∧
    (∃ c, ∃ s : State, Takes s c 0xCF04 ∧ s.mgmt.debugLock = false) ∧
    (∃ c, ∃ s : State, Takes s c 0xCF04 ∧ s.mgmt.debugLock = true) ∧
    (∃ c, ∃ s : State, Takes s c 0xCF05 ∧ 16 ≤ payloadLimit s c) :=
  ⟨⟨0, up, w0, by decide +kernel⟩,
   ⟨0, { up with expiries := [999999999999999, 999999999999998] }, { w0 with mgmt := { w0.mgmt with host := { up with expiries := [999999999999999, 999999999999998] } } }, by decide +kernel⟩,
   ⟨2, { up with mode := .restarting }, { w0 with mgmt := { w0.mgmt with fabric := { up with mode := .restarting } } }, by decide +kernel⟩,
   ⟨8, 3, up, w0, by decide +kernel⟩,
   ⟨w0, by decide +kernel⟩,
   ⟨8, 0xC000, .none, { w0 with mgmt := { w0.mgmt with restarting := true, ccis := [(8, { CciSt.fresh with wait := some (0xC000, .none) })] } }, by decide +kernel⟩,
   ⟨{ sender := 4, receiver := 2, marked := true, item := .thermalPause 2 }, { w0 with mgmt := { w0.mgmt with hub := [{ sender := 4, receiver := 2, marked := true, item := .thermalPause 2 }] } }, by refine ⟨rfl, rfl, rfl, rfl, rfl, fun _ => rfl, by decide +kernel⟩⟩,
   ⟨0, 0, by decide +kernel⟩,
   ⟨8, w0, by decide +kernel⟩,
   ⟨8, w0, by decide +kernel⟩,
   ⟨8, { w0 with mgmt := { w0.mgmt with debugLock := true } }, by decide +kernel⟩,
   ⟨8, w0, by decide +kernel⟩⟩

/-- A state and operands for each clause of AttestationMessagesComplete that has hypotheses. -/
theorem wit_AttestationMessagesComplete :
    (∃ e : Fin 6, ∃ s : State, spdmOpen s e = true) ∧
    (∃ e : Fin 6, ∃ s : State, spdmOpen s e = true ∧ (spdmOf s e).versionDone = true) ∧
    (∃ e : Fin 6, ∃ s : State, spdmOpen s e = true ∧ (spdmOf s e).capsDone = true) ∧
    (∃ e : Fin 6, ∃ s : State, spdmOpen s e = true ∧ (spdmOf s e).algsDone = false) ∧
    (∃ e : Fin 6, ∃ s : State, spdmOpen s e = true ∧ (spdmOf s e).algsDone = true) ∧
    (∃ e : Fin 6, ∃ s : State, spdmOpen s e = true ∧ (spdmOf s e).algsDone = true) ∧
    (∃ e : Fin 6, ∃ s : State, spdmOpen s e = true ∧ (spdmOf s e).algsDone = true) ∧
    (∃ e : Fin 6, ∃ i, ∃ s : State, spdmOpen s e = true ∧ (spdmOf s e).algsDone = true ∧ 1 ≤ i ∧ i ≤ 11) ∧
    (∃ e : Fin 6, ∃ s : State, spdmOpen s e = true ∧ (spdmOf s e).algsDone = true) ∧
    (∃ e : Fin 6, ∃ id, ∃ y, ∃ s : State, spdmOpen s e = true ∧ (spdmOf s e).algsDone = true ∧
      sessionOf (spdmOf s e) id = some y ∧ y.established = false) ∧
    (∃ e : Fin 6, ∃ id, ∃ y, ∃ s : State, spdmOpen s e = true ∧ (spdmOf s e).algsDone = true ∧
      sessionOf (spdmOf s e) id = some y ∧ y.established = true) :=
  ⟨⟨0, w0, by decide +kernel⟩,
   ⟨5, { w0 with mgmt := { w0.mgmt with spdm := [(5, { SpdmSt.fresh with versionDone := true })] } }, by decide +kernel⟩,
   ⟨5, { w0 with mgmt := { w0.mgmt with spdm := [(5, { SpdmSt.fresh with capsDone := true })] } }, by decide +kernel⟩,
   ⟨0, w0, by decide +kernel⟩,
   ⟨5, { w0 with mgmt := { w0.mgmt with spdm := [(5, { SpdmSt.fresh with algsDone := true })] } }, by decide +kernel⟩,
   ⟨5, { w0 with mgmt := { w0.mgmt with spdm := [(5, { SpdmSt.fresh with algsDone := true })] } }, by decide +kernel⟩,
   ⟨5, { w0 with mgmt := { w0.mgmt with spdm := [(5, { SpdmSt.fresh with algsDone := true })] } }, by decide +kernel⟩,
   ⟨5, 11, { w0 with mgmt := { w0.mgmt with spdm := [(5, { SpdmSt.fresh with algsDone := true })] } }, by decide +kernel⟩,
   ⟨5, { w0 with mgmt := { w0.mgmt with spdm := [(5, { SpdmSt.fresh with algsDone := true })] } }, by decide +kernel⟩,
   ⟨5, 1, { id := 1, established := false, keyGen := 0, heartbeat := 0 }, { w0 with mgmt := { w0.mgmt with spdm := [(5, { SpdmSt.fresh with algsDone := true, sessions := [{ id := 1, established := false, keyGen := 0, heartbeat := 0 }] })] } }, by decide +kernel⟩,
   ⟨5, 1, { id := 1, established := true, keyGen := 0, heartbeat := 0 }, { w0 with mgmt := { w0.mgmt with spdm := [(5, { SpdmSt.fresh with algsDone := true, sessions := [{ id := 1, established := true, keyGen := 0, heartbeat := 0 }] })] } }, by decide +kernel⟩⟩

/-- A state and operands for each clause of TimeBaseCommandsComplete that has hypotheses. -/
theorem wit_TimeBaseCommandsComplete :
    (∃ rising, ∃ stable, ∃ s : State, s.time.policy.ppsEn = true ∧ s.time.policy.ppsEdge ≠ rising ∧
      10 * s.time.policy.ppsFilter ≤ stable ∧ s.time.tbRunning = true ∧ s.time.pps = .locked ∧ s.time.lastAccept = none ∧
      inWindow s.time (captureNow s) = true) ∧
    (∃ rising, ∃ stable, ∃ s : State, s.time.policy.ppsEn = true ∧ s.time.policy.ppsEdge ≠ rising ∧
      10 * s.time.policy.ppsFilter ≤ stable ∧ s.time.tbRunning = true ∧ s.time.pps = .locked ∧ s.time.lastAccept = none ∧
      inWindow s.time (captureNow s) = false) ∧
    (∃ s : State, s.time.pps = .locked ∧ (s.time.secMark + 1) * 1000000000 + s.time.policy.ppsWindow * 1000 ≤ s.time.tbNow) ∧
    (∃ s : State, s.time.tbRunning = true ∧ s.time.pps ≠ .locked ∧ (s.time.secMark + 1) * 1000000000 ≤ s.time.tbNow) ∧
    (∃ s : State, s.time.halfRun = true ∧ s.time.halfRem = 0) ∧
    (∃ s : State, diode22Broken s = false) ∧
    (∃ s : State, s.mgmt.platform.mode = .running) ∧
    (∃ d, ∃ s : State, s.time.locking = [d] ∧ s.time.lockQueue = []) ∧
    (∃ c, ∃ s : State, Takes s c 0xC600 ∧ 408 ≤ payloadLimit s c) ∧
    (∃ c, ∃ inp : List Byte, ∃ s : State, Takes s c 0xC601 ∧ inp.length = 8 ∧ timePolicyOk (timePolicyOf inp) = true) ∧
    (∃ c, ∃ inp : List Byte, ∃ s : State, Takes s c 0xC601 ∧ inp.length = 8 ∧ timePolicyOk (timePolicyOf inp) = false) ∧
    (∃ c, ∃ inp : List Byte, ∃ s : State, Takes s c 0xC602 ∧ inp.length = 8 ∧ s.time.tbNow < le inp 0 8) ∧
    (∃ s : State, s.time.alarm ≠ 0 ∧ s.time.alarm ≤ s.time.tbNow ∧ s.power.mode = .active) ∧
    (∃ c, ∃ s : State, Takes s c 0x0300) ∧
    (∃ c : Fin 10, ∃ v, ∃ s : State, Takes s c 0x0301 ∧ v < 2 ^ 64 ∧ s.time.pps ≠ .locked ∧ s.time.tbNow + 1000000 < v ∧
      s.time.alarm = 0 ∧ s.drift.provisional = false) ∧
    (∃ c : Fin 10, ∃ v, ∃ s : State, Takes s c 0x0301 ∧ v < 2 ^ 64 ∧ s.time.pps ≠ .locked ∧ s.time.tbNow ≤ v ∧
      v ≤ s.time.tbNow + 1000000 ∧ s.time.alarm = 0 ∧ s.drift.provisional = false) ∧
    (∃ b, ∃ s : State, s.time.snapCopy = some b) :=
  ⟨⟨true, 100, wPps 0, rfl, by decide, by decide, rfl, rfl, rfl, by rw [inWindow, capture_wPps]; decide⟩,
   ⟨true, 100, wPps 500000000, rfl, by decide, by decide, rfl, rfl, rfl, by rw [inWindow, capture_wPps]; decide⟩,
   ⟨{ w0 with time := { w0.time with pps := .locked, tbNow := 1000050000 } }, by decide +kernel⟩,
   ⟨{ w0 with time := { w0.time with tbNow := 1000000000 } }, by decide +kernel⟩,
   ⟨{ w0 with time := { w0.time with halfRun := true } }, by decide +kernel⟩,
   ⟨w0, by decide +kernel⟩,
   ⟨w0, by decide +kernel⟩,
   ⟨3, { w0 with time := { w0.time with locking := [3] } }, by decide +kernel⟩,
   ⟨8, w0, by decide +kernel⟩,
   ⟨8, [1, 0, 0, 0x80, 0, 1, 0, 0], w0, by decide +kernel⟩,
   ⟨8, List.replicate 8 0, w0, by decide +kernel⟩,
   ⟨8, [1, 0, 0, 0, 0, 0, 0, 0], w0, by decide +kernel⟩,
   ⟨{ w0 with time := { w0.time with alarm := 5, tbNow := 5 } }, by decide +kernel⟩,
   ⟨8, w0, by decide +kernel⟩,
   ⟨8, 2 ^ 64 - 1, w0, by decide +kernel⟩,
   ⟨8, 0, w0, by decide +kernel⟩,
   ⟨1, { w0 with time := { w0.time with snapCopy := some 1 } }, by decide +kernel⟩⟩

/-- A state and operands for each clause of CellarCommandsComplete that has hypotheses. -/
theorem wit_CellarCommandsComplete :
    (∃ c, ∃ s : State, Takes s c 0xC800 ∧ 136 ≤ payloadLimit s c) ∧
    (∃ c, ∃ inp : List Byte, ∃ l, ∃ r, ∃ s : State, Takes s c 0xC801 ∧ inp.length = 24 ∧ le inp 1 3 = 0 ∧
      regionLog s.cellar (le inp 0 1) = some l ∧ pwCheck s (le inp 0 1) (lockOf s (le inp 0 1)).readVer (le inp 8 16) = .good ∧
      (lockOf s (le inp 0 1)).fails = 0 ∧ currentRec l.recs (le inp 4 4) = some r ∧ r.data ≠ [] ∧
      8 + r.data.length ≤ payloadLimit s c) ∧
    (∃ c, ∃ inp : List Byte, ∃ s : State, Takes s c 0xC802 ∧ inp.length = 24 + le inp 2 2 ∧ le inp 1 1 = 0 ∧ le inp 0 1 = 7 ∧
      le inp 4 4 ≠ 0xFFFFFFFF ∧ pwCheck s 7 (lockOf s 7).writeVer (le inp 8 16) = .good ∧ (lockOf s 7).fails = 0) ∧
    (∃ c, ∃ inp : List Byte, ∃ s : State, Takes s c 0xC802 ∧ inp.length = 24 + le inp 2 2 ∧ le inp 1 1 = 0 ∧
      ((le inp 0 1 = 2 ∨ le inp 0 1 = 6))) ∧
    (∃ c : Fin 10, ∃ w, ∃ op, ∃ out, ∃ l, ∃ s : State, s.power.vauxLow = false ∧ s.cellar.writes = [w] ∧ w.cci = some c.val ∧
      w.cls ≤ 5 ∧ (cciOf s c).wait = some (op, out) ∧ regionLog s.cellar w.region = some l ∧
      2 * currentPages l.recs w.key w.data.length ≤ l.pages ∧ ((w.region = 2 → w.key ≠ 0x14 ∧ w.key ≠ 0x15))) ∧
    (∃ c : Fin 10, ∃ w, ∃ op, ∃ out, ∃ l, ∃ s : State, s.power.vauxLow = false ∧ s.cellar.writes = [w] ∧ w.cci = some c.val ∧
      w.cls ≤ 5 ∧ (cciOf s c).wait = some (op, out) ∧ regionLog s.cellar w.region = some l ∧
      l.pages < 2 * currentPages l.recs w.key w.data.length) ∧
    (∃ c, ∃ inp : List Byte, ∃ s : State, Takes s c 0xC803 ∧ inp.length = 36 ∧ le inp 2 2 = 0 ∧
      ((le inp 0 1 = 2 ∨ le inp 0 1 = 6 ∨ le inp 0 1 = 7)) ∧
      pwCheck s (le inp 0 1) (lockOf s (le inp 0 1)).writeVer (le inp 4 16) = .good ∧ (lockOf s (le inp 0 1)).fails = 0) ∧
    (∃ r, ∃ s : State, r ∈ [2, 6, 7] ∧ s.time.mono < (lockOf s r).refusal) ∧
    (∃ c, ∃ inp : List Byte, ∃ s : State, Takes s c 0xC804 ∧ inp.length = 2 ∧ le inp 0 2 ≤ 255 ∧ 12 ≤ payloadLimit s c) :=
  ⟨⟨8, w0, by decide +kernel⟩,
   ⟨8, [7] ++ List.replicate 23 0, { pages := 640, tail := 0, seq := 2, recs := [{ key := 0, seq := 1, data := [5] }] }, { key := 0, seq := 1, data := [5] }, { w0 with cellar := { w0.cellar with user := { pages := 640, tail := 0, seq := 2, recs := [{ key := 0, seq := 1, data := [5] }] } } }, by decide +kernel⟩,
   ⟨8, [7] ++ List.replicate 23 0, w0, by decide +kernel⟩,
   ⟨8, [2] ++ List.replicate 23 0, w0, by decide +kernel⟩,
   ⟨8, { cls := 5, region := 7, key := 1, data := [1], cci := some 8 }, 0xC802, .none, State.reset.cellar.user, { w0 with cellar := { w0.cellar with writes := [{ cls := 5, region := 7, key := 1, data := [1], cci := some 8 }] }, mgmt := { w0.mgmt with ccis := [(8, { CciSt.fresh with wait := some (0xC802, .none) })] } }, by decide +kernel⟩,
   ⟨8, { cls := 5, region := 7, key := 1, data := [1], cci := some 8 }, 0xC802, .none, { pages := 1, tail := 0, seq := 2, recs := [] }, { w0 with cellar := { w0.cellar with user := { pages := 1, tail := 0, seq := 2, recs := [] }, writes := [{ cls := 5, region := 7, key := 1, data := [1], cci := some 8 }] }, mgmt := { w0.mgmt with ccis := [(8, { CciSt.fresh with wait := some (0xC802, .none) })] } }, by decide +kernel⟩,
   ⟨8, [7, 2] ++ List.replicate 33 0 ++ [1], w0, by decide +kernel⟩,
   ⟨7, { w0 with cellar := { w0.cellar with locks := [(7, { readVer := none, writeVer := none, fails := 5, refusal := 2000000000000000 })] } }, by decide +kernel⟩,
   ⟨8, List.replicate 2 0, w0, by decide +kernel⟩⟩

/-- A state and operands for each clause of RecorderCommandsComplete that has hypotheses. -/
theorem wit_RecorderCommandsComplete :
    (∃ src, ∃ e, ∃ es, ∃ s : State, (tget s.recorder.units src UnitBuf.empty).evs = e :: es ∧
      (tget s.recorder.units src UnitBuf.empty).lost = 0 ∧ s.recorder.seqReady = true ∧
      ((s.recorder.ringOn = true ∨ s.recorder.held.length < 64))) ∧
    (∃ src, ∃ e, ∃ es, ∃ s : State, (tget s.recorder.units src UnitBuf.empty).evs = e :: es ∧
      (tget s.recorder.units src UnitBuf.empty).lost = 0 ∧ s.recorder.seqReady = false ∧ s.recorder.input.length < 256) ∧
    (∃ src, ∃ n, ∃ s : State, (tget s.recorder.units src UnitBuf.empty).lost = n ∧ 0 < n ∧
      (tget s.recorder.units src UnitBuf.empty).evs.length < 16 ∧ s.recorder.seqReady = false ∧ s.recorder.input.length < 256) ∧
    (∃ seq, ∃ r, ∃ k, ∃ s : State, tfind s.recorder.ring (seq % 65536) = some r ∧ r.seq = seq ∧ r.sev = 5 ∧
      tget s.recorder.copyTime (seq % 4096) 0 + 60000000000 ≤ s.time.mono ∧ tfind s.recorder.events (seq % 4096) = some k ∧
      k.seq = seq ∧ k.rep < r.rep) ∧
    (∃ s : State, s.recorder.seqReady = true) ∧
    (∃ c, ∃ inp : List Byte, ∃ s : State, Takes s c 0xC900 ∧ inp.length = 8 ∧ le inp 1 1 = 0 ∧ le inp 0 1 = 0 ∧
      le inp 2 2 ≤ 2040 ∧ 16 + 32 * (ringFrom s.recorder.ring (le inp 4 4) (le inp 2 2)).length ≤ payloadLimit s c) ∧
    (∃ c, ∃ s : State, Takes s c 0xC901 ∧ 28 ≤ payloadLimit s c) ∧
    (∃ c, ∃ inp : List Byte, ∃ s : State, Takes s c 0xC902 ∧ inp.length = 16 ∧ le inp 3 1 = 0 ∧ le inp 2 1 ≤ 5) :=
  ⟨⟨16, ev, [], { w0 with recorder := { w0.recorder with seqReady := true, units := [(16, { evs := [ev], lost := 0, before := 0 })] } }, by decide +kernel⟩,
   ⟨16, ev, [], { w0 with recorder := { w0.recorder with units := [(16, { evs := [ev], lost := 0, before := 0 })] } }, by decide +kernel⟩,
   ⟨16, 1, { w0 with recorder := { w0.recorder with units := [(16, { evs := [], lost := 1, before := 0 })] } }, by decide +kernel⟩,
   ⟨7, rec0, { rec0 with rep := 0 }, { w0 with recorder := { w0.recorder with ring := [(7, rec0)], events := [(7, { rec0 with rep := 0 })] } }, by decide +kernel⟩,
   ⟨{ w0 with recorder := { w0.recorder with seqReady := true } }, by decide +kernel⟩,
   ⟨8, List.replicate 8 0, w0, by decide +kernel⟩,
   ⟨8, w0, by decide +kernel⟩,
   ⟨8, List.replicate 16 0, w0, by decide +kernel⟩⟩

/-- A state and operands for each clause of CounterCommandsComplete that has hypotheses. -/
theorem wit_CounterCommandsComplete :
    (∃ c, ∃ set : Byte, ∃ s : State, Takes s c 0xCA00 ∧ set.toNat ≤ 4 ∧ 1024 ≤ payloadLimit s c) ∧
    (∃ c, ∃ inp : List Byte, ∃ s : State, Takes s c 0xCA01 ∧ inp.length = 20 ∧ le inp 2 2 = 0 ∧ byteAt inp 0 ≤ 4 ∧
      byteAt inp 1 ≤ 63 ∧ ctrDescOk (ctrDescOf inp 4) = true) ∧
    (∃ c, ∃ set : Byte, ∃ s : State, Takes s c 0xCA02 ∧ set.toNat ≤ 4 ∧ 520 ≤ payloadLimit s c) ∧
    (∃ set : Fin 5, ∃ n : Fin 64, ∃ s : State, (ctrOf s set n).desc.enable = true ∧ (ctrOf s set n).desc.mode = 2 ∧
      windowOf (ctrOf s set n) s.time.tbNow ≠ (ctrOf s set n).winNo) ∧
    (∃ set : Fin 5, ∃ n : Fin 64, ∃ v, ∃ s : State, (ctrOf s set n).ended = some v ∧ (ctrOf s set n).desc.enable = true ∧
      (ctrOf s set n).desc.mode = 2 ∧ windowOf (ctrOf s set n) s.time.tbNow = (ctrOf s set n).winNo) ∧
    (∃ h : Fin 4, ∃ s : State, (headOf s h).present = true ∧ (headOf s h).linkUp = true) ∧
    (∃ h : Fin 4, ∃ s : State, (headOf s h).present = true ∧ (headOf s h).linkUp = true) ∧
    (∃ h : Fin 4, ∃ s : State, (headOf s h).present = true ∧ (headOf s h).linkUp = true) ∧
    (∃ x, ∃ rest, ∃ s : State, s.count.completions = x :: rest) ∧
    (∃ c, ∃ a : Byte, ∃ b : Byte, ∃ y, ∃ s : State, Takes s c 0xCA05 ∧ a.toNat ≤ 4 ∧ b.toNat ≤ 63 ∧
      (ctrOf s a.toNat b.toNat).sample = some y ∧ 32 ≤ payloadLimit s c) ∧
    (∃ s : State, devUp s = true) ∧
    (∃ c, ∃ inp : List Byte, ∃ s : State, Takes s c 0xCA03 ∧ inp.length = 12 ∧ le inp 3 1 = 0 ∧
      (tenantOf s (le inp 0 2)).st ≠ .free ∧ le inp 4 8 = 0 ∧ journalFull s = false) ∧
    (∃ c, ∃ inp : List Byte, ∃ s : State, Takes s c 0xCA04 ∧ inp.length = 3 ∧ (tenantOf s (le inp 0 2)).st ≠ .free ∧
      byteAt inp 2 ≤ 1 ∧ 4096 ≤ payloadLimit s c) :=
  ⟨⟨8, 0, w0, by decide +kernel⟩,
   ⟨8, List.replicate 18 0 ++ [0x01, 0x00], w0, by decide +kernel⟩,
   ⟨8, 0, w0, by decide +kernel⟩,
   ⟨0, 0, { w0 with count := { w0.count with ctrs := [(0, { (ctrOf w0 0 0) with winNo := 5, desc := { (ctrOf w0 0 0).desc with enable := true, mode := 2 } })] } }, by decide +kernel⟩,
   ⟨0, 0, 9, { w0 with count := { w0.count with ctrs := [(0, { (ctrOf w0 0 0) with ended := some 9, desc := { (ctrOf w0 0 0).desc with enable := true, mode := 2 } })] } }, by decide +kernel⟩,
   ⟨0, w0, by decide +kernel⟩,
   ⟨0, w0, by decide +kernel⟩,
   ⟨0, w0, by decide +kernel⟩,
   ⟨{ set := 0, addr := 0, tenant := 1, tag := 0, opcode := 0, cls := 0, origin := 0, source := 0, outcome := 0, latency := 0, time := 0 }, [], { w0 with count := { w0.count with completions := [{ set := 0, addr := 0, tenant := 1, tag := 0, opcode := 0, cls := 0, origin := 0, source := 0, outcome := 0, latency := 0, time := 0 }] } }, by decide +kernel⟩,
   ⟨8, 4, 63, { addr := 0, tenant := 0, tag := 0, opcode := 0, clsOrigin := 0, source := 0, outcome := 0, skid := 0, latency := 0, time := 0, valid := true, lost := false }, { w0 with count := { w0.count with ctrs := [(319, { (ctrOf w0 0 0) with sample := some { addr := 0, tenant := 0, tag := 0, opcode := 0, clsOrigin := 0, source := 0, outcome := 0, skid := 0, latency := 0, time := 0, valid := true, lost := false } })] } }, by decide +kernel⟩,
   ⟨w0, by decide +kernel⟩,
   ⟨8, [1] ++ List.replicate 11 0, w0, by decide +kernel⟩,
   ⟨8, [1, 0, 1], w0, by decide +kernel⟩⟩

/-- A state and operands for each clause of CheckValueUnitCommandsComplete that has hypotheses. -/
theorem wit_CheckValueUnitCommandsComplete :
    (∃ h : Fin 4, ∃ u : Fin 8, ∃ v : W32, ∃ s : State, cvVisible s h u = true ∧ (cvOf s u).held = none ∧ v.toNat % 8 ≤ 3) ∧
    (∃ h : Fin 4, ∃ u : Fin 8, ∃ v : W32, ∃ s : State, cvVisible s h u = true ∧ (cvOf s u).held = none ∧ 3 < v.toNat % 8) ∧
    (∃ h : Fin 4, ∃ u : Fin 8, ∃ s : State, cvVisible s h u = true ∧ (cvOf s u).held = none) ∧
    (∃ h : Fin 4, ∃ u : Fin 8, ∃ o : Fin 4, ∃ b : List Byte, ∃ s : State, cvVisible s h u = true ∧ (cvOf s u).held = none ∧
      ((b.length = 1 ∨ b.length = 2 ∨ b.length = 4)) ∧ o.val % b.length = 0 ∧ (cvOf s u).feeds.length < 64) ∧
    (∃ h : Fin 4, ∃ u : Fin 8, ∃ s : State, cvVisible s h u = true) ∧
    (∃ h : Fin 4, ∃ u : Fin 8, ∃ s : State, cvVisible s h u = false) ∧
    (∃ c, ∃ u : Byte, ∃ h : Byte, ∃ s : State, Takes s c 0xCB03 ∧ u.toNat ≤ 7 ∧ h.toNat ≤ 3 ∧
      (headOf s h.toNat).present = true) :=
  ⟨⟨0, 0, 3, { w0 with eng := { w0.eng with units := [(0, { CvUnit.fresh with head := some 0 })] } }, by decide +kernel⟩,
   ⟨0, 0, 4, { w0 with eng := { w0.eng with units := [(0, { CvUnit.fresh with head := some 0 })] } }, by decide +kernel⟩,
   ⟨0, 0, { w0 with eng := { w0.eng with units := [(0, { CvUnit.fresh with head := some 0 })] } }, by decide +kernel⟩,
   ⟨0, 0, 2, [1, 2], { w0 with eng := { w0.eng with units := [(0, { CvUnit.fresh with head := some 0 })] } }, by decide +kernel⟩,
   ⟨0, 0, { w0 with eng := { w0.eng with units := [(0, { CvUnit.fresh with head := some 0 })] } }, by decide +kernel⟩,
   ⟨0, 0, w0, by decide +kernel⟩,
   ⟨8, 0, 0, w0, by decide +kernel⟩⟩

/-- A state and operands for each clause of DescriptorRingCommandsComplete that has hypotheses. -/
theorem wit_DescriptorRingCommandsComplete :
    (∃ c, ∃ s : State, Takes s c 0xCB00 ∧ 256 ≤ payloadLimit s c) ∧
    (∃ c, ∃ inp : List Byte, ∃ s : State, Takes s c 0xCB01 ∧ inp.length = 8 ∧ le inp 3 1 = 0 ∧ le inp 0 2 ≤ 4095 ∧
      byteAt inp 2 ≤ 3 ∧ (headOf s (byteAt inp 2)).present = true ∧ le inp 6 2 = 256 ∧ tfind s.eng.rings (le inp 0 2) = none ∧
      (tenantOf s (le inp 4 2)).st = .active) ∧
    (∃ c, ∃ inp : List Byte, ∃ s : State, Takes s c 0xCB02 ∧ inp.length = 2 ∧ le inp 0 2 ≤ 4095 ∧
      (tfind s.eng.rings (le inp 0 2)).isSome = true ∧ ringServed s (le inp 0 2) = false) ∧
    (∃ c, ∃ inp : List Byte, ∃ x, ∃ s : State, Takes s c 0xCB04 ∧ inp.length = 2 ∧ le inp 0 2 ≤ 4095 ∧
      tfind s.eng.rings (le inp 0 2) = some x ∧ 8 ≤ payloadLimit s c) ∧
    (∃ h : Fin 4, ∃ r : Fin 4096, ∃ x, ∃ s : State, ringSeen s h r = some x ∧ x.st = 0) ∧
    (∃ h : Fin 4, ∃ r : Fin 4096, ∃ x, ∃ s : State, ringSeen s h r = some x ∧ x.st = 0 ∧ x.base < 2 ^ 48 ∧ x.base % 64 = 0) ∧
    (∃ h : Fin 4, ∃ r : Fin 4096, ∃ x, ∃ s : State, ringSeen s h r = some x ∧ x.st = 0 ∧ x.base < 2 ^ 48 ∧ x.base % 64 = 0) ∧
    (∃ h : Fin 4, ∃ r : Fin 4096, ∃ x, ∃ s : State, ringSeen s h r = some x ∧ x.st ≠ 0) ∧
    (∃ h : Fin 4, ∃ r : Fin 4096, ∃ v : W64, ∃ x, ∃ s : State, ringSeen s h r = some x ∧ v.toNat % 65536 < x.entries) ∧
    (∃ h : Fin 4, ∃ r : Fin 4096, ∃ x, ∃ s : State, ringSeen s h r = some x ∧ x.st = 0 ∧ ringInExtent s x = true) ∧
    (∃ h : Fin 4, ∃ r : Fin 4096, ∃ x, ∃ s : State, ringSeen s h r = some x ∧ x.st = 0 ∧ ringInExtent s x = false) ∧
    (∃ h : Fin 4, ∃ r : Fin 4096, ∃ x, ∃ s : State, ringSeen s h r = some x ∧ ringServed s r = false) ∧
    (∃ h : Fin 4, ∃ r : Fin 4096, ∃ x, ∃ s : State, ringSeen s h r = some x ∧ x.st = 1 ∧ ringServed s r = true) ∧
    (∃ h : Fin 4, ∃ r : Fin 4096, ∃ x, ∃ s : State, ringSeen s h r = some x ∧ x.st = 2) :=
  ⟨⟨8, w0, by decide +kernel⟩,
   ⟨8, [0, 0, 0, 0, 1, 0, 0, 1], w0, by decide +kernel⟩,
   ⟨8, List.replicate 2 0, { w0 with eng := { w0.eng with rings := [(0, ring1)] } }, by decide +kernel⟩,
   ⟨8, List.replicate 2 0, ring1, { w0 with eng := { w0.eng with rings := [(0, ring1)] } }, by decide +kernel⟩,
   ⟨0, 0, { ring1 with st := 0 }, { w0 with eng := { w0.eng with rings := [(0, { ring1 with st := 0 })] } }, by decide +kernel⟩,
   ⟨0, 0, { ring1 with st := 0 }, { w0 with eng := { w0.eng with rings := [(0, { ring1 with st := 0 })] } }, by decide +kernel⟩,
   ⟨0, 0, { ring1 with st := 0 }, { w0 with eng := { w0.eng with rings := [(0, { ring1 with st := 0 })] } }, by decide +kernel⟩,
   ⟨0, 0, ring1, { w0 with eng := { w0.eng with rings := [(0, ring1)] } }, by decide +kernel⟩,
   ⟨0, 0, 255, ring1, { w0 with eng := { w0.eng with rings := [(0, ring1)] } }, by decide +kernel⟩,
   ⟨0, 0, { ring1 with st := 0 }, { w0 with eng := { w0.eng with rings := [(0, { ring1 with st := 0 })] } }, by decide +kernel⟩,
   ⟨0, 0, { ring1 with st := 0, tenant := 2 }, { w0 with eng := { w0.eng with rings := [(0, { ring1 with st := 0, tenant := 2 })] } }, by decide +kernel⟩,
   ⟨0, 0, ring1, { w0 with eng := { w0.eng with rings := [(0, ring1)] } }, by decide +kernel⟩,
   ⟨0, 0, ring1, { w0 with eng := { w0.eng with rings := [(0, ring1)], engines := [(0, { Engine.fresh with ring := some 0 })] } }, by decide +kernel⟩,
   ⟨0, 0, { ring1 with st := 2 }, { w0 with eng := { w0.eng with rings := [(0, { ring1 with st := 2 })] } }, by decide +kernel⟩⟩

/-- A state and operands for each clause of EngineStepsComplete that has hypotheses. -/
theorem wit_EngineStepsComplete :
    (∃ e : Fin 16, ∃ k, ∃ r, ∃ tag, ∃ s : State, s.ten.erasing = [] ∧ engineFree s e = true ∧ drainRunning s = false ∧
      (nextFrom s.eng.rr ((s.eng.rings.filter fun p => p.2.st == 1 && p.2.headP != p.2.tailP && !p.2.stopping && !ringServed s p.1).map (·.1)) = some k) ∧
      tfind s.eng.rings k = some r ∧ tagFor s (.engine e) = some tag) ∧
    (∃ e : Fin 16, ∃ r, ∃ x, ∃ tag, ∃ s : State, engineRing s e = some r ∧ engineOf s e = x ∧ x.phase = .decoded ∧
      descOk x.desc = true ∧ descOp x.desc = 1 ∧ x.code = 0 ∧ x.pos = 0 ∧ tagFor s (.engine e) = some tag) ∧
    (∃ e : Fin 16, ∃ r, ∃ x, ∃ tag, ∃ s : State, engineRing s e = some r ∧ engineOf s e = x ∧ x.phase = .decoded ∧
      descOk x.desc = true ∧ descOp x.desc = 2 ∧ x.code = 0 ∧ x.pos = 0 ∧ tagFor s (.engine e) = some tag) ∧
    (∃ e : Fin 16, ∃ r, ∃ x, ∃ tag, ∃ s : State, engineRing s e = some r ∧ engineOf s e = x ∧ x.phase = .decoded ∧
      descOk x.desc = true ∧ descOp x.desc = 5 ∧ x.code = 0 ∧ x.pos = 0 ∧
      (extOf s (extentOf (descSrc x.desc))).ownerDev = 0xFFF ∧ tagFor s (.engine e) = some tag) ∧
    (∃ e : Fin 16, ∃ r, ∃ x, ∃ c, ∃ tag, ∃ s : State, engineRing s e = some r ∧ engineOf s e = x ∧ x.phase = .decoded ∧
      descOk x.desc = true ∧ descOp x.desc = 4 ∧ x.code = 0 ∧ x.pos = 0 ∧ cvOf s (byteAt x.desc 1) = c ∧ c.held = none ∧
      ((c.head = none ∨ c.head = some r.head)) ∧ tagFor s (.engine e) = some tag) ∧
    (∃ e : Fin 16, ∃ r, ∃ x, ∃ c, ∃ tag, ∃ s : State, engineRing s e = some r ∧ engineOf s e = x ∧ x.phase = .decoded ∧
      descOk x.desc = true ∧ descOp x.desc = 4 ∧ cvOf s (byteAt x.desc 1) = c ∧ ((c.held.isSome = true ∨ ∃ h, c.head = some h ∧
      h ≠ r.head)) ∧ tagFor s (.engine e) = some tag) ∧
    (∃ e : Fin 16, ∃ r, ∃ x, ∃ tag, ∃ s : State, engineRing s e = some r ∧ engineOf s e = x ∧ x.phase = .decoded ∧
      descOk x.desc = true ∧ descOp x.desc = 3 ∧ x.code = 0 ∧ x.pos = 0 ∧ tagFor s (.engine e) = some tag) ∧
    (∃ e : Fin 16, ∃ r, ∃ x, ∃ tag, ∃ s : State, engineRing s e = some r ∧ engineOf s e = x ∧ x.phase = .decoded ∧
      descOk x.desc = false ∧ tagFor s (.engine e) = some tag) ∧
    (∃ e : Fin 16, ∃ r, ∃ p, ∃ s : State, (s.eng.resp.find? (fun q => q.1 == e.val) = some p) ∧ engineRing s e = some r ∧
      (engineOf s e).phase = .fetch ∧ p.2.1 = 0 ∧ slotErased s r.tenant = false ∧ p.2.2.poison = false) ∧
    (∃ e : Fin 16, ∃ k, ∃ r, ∃ p, ∃ s : State, (s.eng.resp.find? (fun q => q.1 == e.val) = some p) ∧
      (engineOf s e).ring = some k ∧ tfind s.eng.engines e = some (engineOf s e) ∧ tfind s.eng.rings k = some r ∧
      (engineOf s e).phase = .writeBack ∧ (engineOf s e).code = 0 ∧ p.2.1 = 0 ∧ slotErased s r.tenant = false ∧
      r.stopping = false) :=
  ⟨⟨0, 0, ring1, 0, { w0 with eng := { w0.eng with rings := [(0, ring1)] } }, by decide +kernel⟩,
   ⟨0, ring1, engineOf (wE (desc 1 copyD)) 0, 0, wE (desc 1 copyD), by decide +kernel⟩,
   ⟨0, ring1, engineOf (wE (desc 2 copyD)) 0, 0, wE (desc 2 copyD), by decide +kernel⟩,
   ⟨0, ring1, engineOf (wE (desc 5 migD)) 0, 0, wE (desc 5 migD), by decide +kernel⟩,
   ⟨0, ring1, engineOf (wE (desc 4 copyD)) 0, CvUnit.fresh, 0, wE (desc 4 copyD), by decide +kernel⟩,
   ⟨0, ring1, engineOf (wE (desc 4 copyD)) 0, { CvUnit.fresh with held := some 3 }, 0, { wE (desc 4 copyD) with eng := { (wE (desc 4 copyD)).eng with units := [(0, { CvUnit.fresh with held := some 3 })] } }, by decide +kernel, by decide +kernel, by decide +kernel, by decide +kernel, by decide +kernel, by decide +kernel, .inl (by decide +kernel), by decide +kernel⟩,
   ⟨0, ring1, engineOf (wE (desc 3 copyD)) 0, 0, wE (desc 3 copyD), by decide +kernel⟩,
   ⟨0, ring1, engineOf (wE (desc 9 [])) 0, 0, wE (desc 9 []), by decide +kernel⟩,
   ⟨0, ring1, (0, 0, { rtag := 0, isData := true, data := 0, poison := false, devload := 0 }), { w0 with eng := { w0.eng with rings := [(0, ring1)], resp := [(0, 0, { rtag := 0, isData := true, data := 0, poison := false, devload := 0 })], engines := [(0, { Engine.fresh with phase := .fetch, ring := some 0 })] } }, by decide +kernel⟩,
   ⟨0, 0, ring1, (0, 0, { rtag := 0, isData := false, data := 0, poison := false, devload := 0 }), { w0 with eng := { w0.eng with rings := [(0, ring1)], resp := [(0, 0, { rtag := 0, isData := false, data := 0, poison := false, devload := 0 })], engines := [(0, { Engine.fresh with phase := .writeBack, ring := some 0 })] } }, by decide +kernel⟩⟩

/-- A state and operands for each clause of HostRequestsAreQueued that has hypotheses. -/
theorem wit_HostRequestsAreQueued :
    (∃ h : Fin 4, ∃ s : State, HeadReady s h) ∧
    (∃ h : Fin 4, ∃ s : State, HeadReady s h) :=
  ⟨⟨0, w0, by decide +kernel⟩,
   ⟨0, w0, by decide +kernel⟩⟩

/-- A state and operands for each clause of HeadDataPathEventsComplete that has hypotheses. -/
theorem wit_HeadDataPathEventsComplete :
    (∃ q, ∃ s : State, drainRunning s = false ∧ gapHolds s = false ∧ s.power.exiting = false ∧
      (pickOne (creditAll s) ((((creditAll s).ten.queues.filter fun p => !p.2.reqs.isEmpty).map (·.1)).filter (levelOne (creditAll s))) = some q)) ∧
    (∃ tag, ∃ at_, ∃ r, ∃ s : State, s.front.stalls = [(tag, at_)] ∧ tfind s.ten.reqs tag = some r ∧ stallFree s r = true) ∧
    (∃ h : Fin 4, ∃ s : State, (headOf s h).linkUp = true ∧ (headOf s h).present = true ∧ (headOf s h).viral = false) ∧
    (∃ h : Fin 4, ∃ s : State, (headOf s h).linkUp = true) ∧
    (∃ h : Fin 4, ∃ s : State, (headOf s h).linkUp = true ∧ (headOf s h).l1 = false ∧ drainArmed s = false) ∧
    (∃ h : Fin 4, ∃ s : State, (headOf s h).linkUp = true ∧ (headOf s h).l1 = false ∧ devUp s = true ∧ drainArmed s = true) ∧
    (∃ h : Fin 4, ∃ s : State, (headOf s h).linkUp = true ∧ (headOf s h).ide.on = true) ∧
    (∃ h : Fin 4, ∃ k, ∃ s : State, (headOf s h).linkUp = true ∧ (headOf s h).ide.pend = some k) ∧
    (∃ h : Fin 4, ∃ p, ∃ s : State, (headOf s h).linkUp = true ∧ tfind s.mgmt.spdm h = some p ∧
      ((p.sessions.any fun q => q.established) = true)) ∧
    (∃ h : Fin 4, ∃ s : State, (headOf s h).linkUp = true) ∧
    (∃ h : Fin 4, ∃ s : State, (headOf s h).present = true ∧ (headOf s h).linkUp = true) ∧
    (∃ h : Fin 4, ∃ s : State, (headOf s h).present = true ∧ (headOf s h).linkUp = true) ∧
    (∃ h : Fin 4, ∃ n : Fin 8, ∃ s : State, (headOf s h).present = true ∧ (headOf s h).linkUp = true ∧
      ((headOf s h).decoders.getD n Decoder.off).committed = false) ∧
    (∃ h : Fin 4, ∃ u : Fin 8, ∃ s : State, (headOf s h).present = true ∧ (headOf s h).linkUp = true ∧
      (cvOf s u).head = some h.val) :=
  ⟨⟨7, sched, by decide +kernel⟩,
   ⟨1, 0, rq, { w0 with front := { w0.front with stalls := [(1, 0)] }, ten := { w0.ten with reqs := [(1, rq)] } }, by decide +kernel⟩,
   ⟨0, w0, by decide +kernel⟩,
   ⟨0, w0, by decide +kernel⟩,
   ⟨0, { w0 with start := { w0.start with phases := [] } }, by decide +kernel⟩,
   ⟨0, { w0 with start := { w0.start with phases := [10] } }, by decide +kernel⟩,
   ⟨0, { w0 with heads := [(0, { hd with ide := { on := true, insecure := false, cur := none, pend := none } })] }, by decide +kernel⟩,
   ⟨0, 1, { w0 with heads := [(0, { hd with ide := { on := true, insecure := false, cur := none, pend := some 1 } })] }, by decide +kernel⟩,
   ⟨0, { SpdmSt.fresh with algsDone := true, sessions := [{ id := 1, established := true, keyGen := 0, heartbeat := 0 }] }, { w0 with mgmt := { w0.mgmt with spdm := [(0, { SpdmSt.fresh with algsDone := true, sessions := [{ id := 1, established := true, keyGen := 0, heartbeat := 0 }] })] } }, by decide +kernel⟩,
   ⟨0, w0, by decide +kernel⟩,
   ⟨0, w0, by decide +kernel⟩,
   ⟨0, w0, by decide +kernel⟩,
   ⟨0, 0, w0, by decide +kernel⟩,
   ⟨0, 0, { w0 with eng := { w0.eng with units := [(0, { CvUnit.fresh with head := some 0 })] } }, by decide +kernel⟩⟩

/-- A state and operands for each clause of HeadLinkAndResetEventsComplete that has hypotheses. -/
theorem wit_HeadLinkAndResetEventsComplete :
    (∃ h : Fin 4, ∃ s : State, (headOf s h).linkUp = true ∧ domOf s (3 + h) = .running) ∧
    (∃ h : Fin 4, ∃ s : State, (headOf s h).linkUp = true) ∧
    (∃ h : Fin 4, ∃ s : State, AtWork s ∧ (headOf s h).linkUp = true ∧ (headOf s h).l1 = true ∧ domOf s (3 + h) = .gated) ∧
    (∃ h : Fin 4, ∃ rate : Fin 65, ∃ width : Fin 17, ∃ flit, ∃ s : State, (headOf s h).present = true ∧
      (headOf s h).perst = false ∧ (headOf s h).linkUp = false ∧ devUp s = true ∧ widthOk s h width = true ∧
      rateOk rate flit = true) ∧
    (∃ h : Fin 4, ∃ s : State, (headOf s h).present = true ∧ (headOf s h).perst = false) ∧
    (∃ h : Fin 4, ∃ s : State, AtWork s ∧ (headOf s h).present = true ∧ (headOf s h).perst = true) ∧
    (∃ h : Fin 4, ∃ s : State, (headOf s h).linkUp = true) ∧
    (∃ h : Fin 4, ∃ s : State, (headOf s h).linkUp = true) ∧
    (∃ h : Fin 4, ∃ s : State, (headOf s h).linkUp = true) ∧
    (∃ h : Fin 4, ∃ s : State, (headOf s h).linkUp = true) ∧
    (∃ h : Fin 4, ∃ s : State, headTakes (headOf s h) = true ∧ (headOf s h).memActive = false ∧ devUp s = true ∧
      s.map.loaded = true ∧ frontEnabled s = true ∧ extentsReady s h = true ∧ s.start.held = false ∧
      s.start.mediaError = false ∧ s.epoch.arm = none) :=
  ⟨⟨0, { w0 with time := { w0.time with domains := [(3, .running)] } }, by decide +kernel⟩,
   ⟨0, w0, by decide +kernel⟩,
   ⟨0, { w0 with heads := [(0, { hd with l1 := true })], time := { w0.time with domains := [(3, .gated)] } }, by decide +kernel⟩,
   ⟨0, 64, 16, .std256, { w0 with heads := [(0, { hd with linkUp := false })] }, by decide +kernel⟩,
   ⟨0, w0, by decide +kernel⟩,
   ⟨0, { w0 with heads := [(0, { hd with perst := true })] }, by decide +kernel⟩,
   ⟨0, w0, by decide +kernel⟩,
   ⟨0, w0, by decide +kernel⟩,
   ⟨0, w0, by decide +kernel⟩,
   ⟨0, w0, by decide +kernel⟩,
   ⟨0, { w0 with heads := [(0, { hd with memActive := false })], front := { w0.front with mode := .writeBack } }, by decide +kernel⟩⟩

/-- A state and operands for each clause of ExtentAndProfileCommandsComplete that has hypotheses. -/
theorem wit_ExtentAndProfileCommandsComplete :
    (∃ c, ∃ inp : List Byte, ∃ s : State, Takes s c 0xC000 ∧ inp.length = 6 ∧ 1 ≤ le inp 4 2 ∧ le inp 4 2 ≤ 256 ∧
      le inp 0 4 + le inp 4 2 ≤ 241664 ∧ 6 + 40 * le inp 4 2 ≤ payloadLimit s c) ∧
    (∃ c, ∃ inp : List Byte, ∃ s : State, Takes s c 0xC001 ∧ inp.length = 16 ∧ assignBad inp s = false ∧
      (extOf s (le inp 0 4)).st = .unassigned ∧ s.ten.withheld.contains (le inp 0 4) = false ∧
      (assignEntry inp s).crosses = false ∧ (extOf s (le inp 0 4)).crosses = false ∧ (extStg s (le inp 0 4)).crosses = false ∧
      journalFull s = false ∧ le inp 14 1 = 0xFF) ∧
    (∃ c, ∃ inp : List Byte, ∃ s : State, Takes s c 0xC002 ∧ inp.length = 4 ∧ le inp 0 4 < 241664 ∧
      (extOf s (le inp 0 4)).st = .assigned ∧ journalFull s = false) ∧
    (∃ e : Fin 241664, ∃ s : State, (extOf s e).st = .releasing ∧ (extOf s e).ownerDev = 0xFFF ∧ extentInFlight s e = false ∧
      journalFull s = false ∧ s.ten.affected.contains e.val = false ∧ s.ten.releaseAsked = []) ∧
    (∃ c, ∃ h : Byte, ∃ a : Byte, ∃ s : State, Takes s c 0xC030 ∧ h.toNat ≤ 3 ∧ a.toNat ≤ 2 ∧
      (headOf s h.toNat).present = true) ∧
    (∃ c, ∃ s : State, Takes s c 0xC031 ∧ 4 ≤ payloadLimit s c) ∧
    (∃ c, ∃ inp : List Byte, ∃ s : State, Takes s c 0xC100 ∧ inp.length = 8 ∧ le inp 1 3 = 0 ∧ bankedBusy s = false ∧
      journalFull s = false) ∧
    (∃ c, ∃ s : State, Takes s c 0xC101 ∧ 8 ≤ payloadLimit s c) ∧
    (∃ c, ∃ inp : List Byte, ∃ s : State, Takes s c 0xC110 ∧ inp.length = 4 ∧ le inp 0 4 < 262144 ∧ 48 ≤ payloadLimit s c) ∧
    (∃ c, ∃ s : State, Takes s c 0xC111 ∧ 48 ≤ payloadLimit s c) ∧
    (∃ s : State, s.ten.bankCopy = true) :=
  ⟨⟨8, [0, 0, 0, 0, 1, 0], w0, by decide +kernel⟩,
   ⟨8, [7, 0, 0, 0, 1, 0, 0xFF, 0xF, 0, 0, 0, 0, 0xFF, 0xF, 0xFF, 0], w0, by decide +kernel⟩,
   ⟨8, [2, 0, 0, 0], w0, by decide +kernel⟩,
   ⟨3, w0, by decide +kernel⟩,
   ⟨8, 0, 0, w0, by decide +kernel⟩,
   ⟨8, w0, by decide +kernel⟩,
   ⟨8, List.replicate 8 0, w0, by decide +kernel⟩,
   ⟨8, w0, by decide +kernel⟩,
   ⟨8, List.replicate 4 0, w0, by decide +kernel⟩,
   ⟨8, w0, by decide +kernel⟩,
   ⟨{ w0 with ten := { w0.ten with bankCopy := true } }, by decide +kernel⟩⟩

/-- A state and operands for each clause of TenantAndKeyCommandsComplete that has hypotheses. -/
theorem wit_TenantAndKeyCommandsComplete :
    (∃ c, ∃ inp : List Byte, ∃ s : State, Takes s c 0xC010 ∧ inp.length = 2 ∧ (tenantOf s (le inp 0 2)).st = .free ∧
      journalFull s = false ∧ bankedBusy s = false ∧ 2 ≤ payloadLimit s c ∧ lowestSlot s < 65536 ∧
      (tenantOf s (le inp 0 2)).keyGen < 65536) ∧
    (∃ c, ∃ inp : List Byte, ∃ k, ∃ s : State, Takes s c 0xC011 ∧ inp.length = 2 ∧ (tenantOf s (le inp 0 2)).st = .active ∧
      extentCount s (le inp 0 2) = 0 ∧ (tenantOf s (le inp 0 2)).slot = some k ∧ journalFull s = false) ∧
    (∃ c, ∃ inp : List Byte, ∃ s : State, Takes s c 0xC012 ∧ inp.length = 48 ∧ le inp 2 6 = 0 ∧
      (tenantOf s (le inp 0 2)).st ≠ .free ∧ bankedBusy s = false ∧ ceilingLow (qosOfBytes (inp.drop 8)) = false ∧
      s.ten.overcommit = false ∧
      withinLimits (setTenant (le inp 0 2) { tenantOf s (le inp 0 2) with qosS := qosOfBytes (inp.drop 8) } s) false = true ∧
      journalFull s = false) ∧
    (∃ c, ∃ inp : List Byte, ∃ s : State, Takes s c 0xC013 ∧ inp.length = 2 ∧ accessOf s c ≠ 0 ∧ 112 ≤ payloadLimit s c) ∧
    (∃ c, ∃ s : State, Takes s c 0xC020 ∧ 200 ≤ payloadLimit s c) ∧
    (∃ c, ∃ inp : List Byte, ∃ n, ∃ rc, ∃ s : State, Takes s c 0xC021 ∧ inp.length = 200 ∧ le inp 2 2 = 0 ∧
      s.start.phases.contains 14 = true ∧ (tenantOf s (le inp 0 2)).refusal ≤ s.time.mono ∧
      checkBlob (le inp 0 2) (inp.drop 4) s = .inl (n, rc)) ∧
    (∃ c, ∃ inp : List Byte, ∃ k, ∃ key, ∃ s : State, Takes s c 0xC022 ∧ inp.length = 2 ∧
      (tenantOf s (le inp 0 2)).st = .active ∧ (tenantOf s (le inp 0 2)).slot = some k ∧ slotOf s k = .loaded key ∧
      s.place.cap = .normal ∧ tenantDirty s (le inp 0 2) = false) ∧
    (∃ c, ∃ inp : List Byte, ∃ k, ∃ s : State, Takes s c 0xC023 ∧ bgBusy s c = false ∧ inp.length = 2 ∧
      (tenantOf s (le inp 0 2)).st = .active ∧ (tenantOf s (le inp 0 2)).slot = some k ∧ s.ten.erasing.length < 16 ∧
      journalFull s = false) ∧
    (∃ n : Fin 65536, ∃ j, ∃ k, ∃ s : State, (s.ten.erasing.find? (fun j => j.tenant == n.val) = some j) ∧ extentCount s n = 0 ∧
      journalFull s = false ∧ sweepHeld s n = true ∧ (tenantOf s n).slot = some k ∧ (tenantOf s n).keyGen < 65536) :=
  ⟨⟨8, List.replicate 2 0, w0, by decide +kernel⟩,
   ⟨8, [1, 0], 0, { w0 with ten := { w0.ten with extA := [] } }, by decide +kernel⟩,
   ⟨8, [1, 0] ++ List.replicate 46 0, w0, by decide +kernel⟩,
   ⟨8, [1, 0], w0, by decide +kernel⟩,
   ⟨8, w0, by decide +kernel⟩,
   ⟨8, List.replicate 200 0, 1, .invalidInput, w0, by decide +kernel⟩,
   ⟨8, [1, 0], 0, 7, w0, by decide +kernel⟩,
   ⟨8, [1, 0], 0, w0, by decide +kernel⟩,
   ⟨1, { tenant := 1, cci := 8 }, 0, { w0 with ten := { w0.ten with extA := [], erasing := [{ tenant := 1, cci := 8 }] }, eng := { w0.eng with engines := [(0, { Engine.fresh with erase := some 1 })] } }, by decide +kernel⟩⟩

/-- A state and operands for each clause of FrontCacheCommandsComplete that has hypotheses. -/
theorem wit_FrontCacheCommandsComplete :
    (∃ s : State, drainRunning s = false) ∧
    (∃ i, ∃ s : State, drainRunning s = false ∧ (lineAt s i).st = .clean) ∧
    (∃ c, ∃ inp : List Byte, ∃ s : State, Takes s c 0xC200 ∧ inp.length = 6 ∧ le inp 4 2 ≤ 256 ∧
      le inp 0 4 + le inp 4 2 ≤ 393216 ∧ 88 + 40 * le inp 4 2 ≤ payloadLimit s c) ∧
    (∃ c, ∃ inp : List Byte, ∃ ms, ∃ s : State, Takes s c 0xC201 ∧ inp.length = 8 ∧ le inp 1 3 = 0 ∧ le inp 0 1 < 8 ∧
      2 ≤ pop16 (BitVec.ofNat 16 (le inp 4 4)) ∧
      ms = (((pendingRec s 0x1B).map partMasksOf).getD s.front.masks).set (le inp 0 1) (BitVec.ofNat 16 (le inp 4 4)) ∧
      ms.foldl (· ||| ·) 0 = 0xFFFF#16) ∧
    (∃ c, ∃ inp : List Byte, ∃ s : State, Takes s c 0xC202 ∧ inp.length = 4 ∧ 50 ≤ bits (le inp 0 4) 24 8 ∧
      bits (le inp 0 4) 24 8 ≤ 90 ∧ bits (le inp 0 4) 16 8 ≠ 0 ∧ bits (le inp 0 4) 0 14 ≤ 10000) ∧
    (∃ c : Fin 10, ∃ inp : List Byte, ∃ s : State, bgBusy s c = false ∧ inp.length = 16 ∧ le inp 0 8 % 256 = 0 ∧
      le inp 8 8 % 256 = 0 ∧ le inp 0 8 < 2 ^ 48 ∧ le inp 8 8 < 2 ^ 48 ∧
      ((s.front.maint.filter fun m => m.status == 0).length < 8) ∧ Takes s c 0xC203) ∧
    (∃ c : Fin 10, ∃ inp : List Byte, ∃ s : State, bgBusy s c = false ∧ inp.length = 16 ∧ le inp 0 8 % 256 = 0 ∧
      le inp 8 8 % 256 = 0 ∧ le inp 0 8 < 2 ^ 48 ∧ le inp 8 8 < 2 ^ 48 ∧
      ((s.front.maint.filter fun m => m.status == 0).length < 8) ∧ Takes s c 0xC204) ∧
    (∃ c : Fin 10, ∃ inp : List Byte, ∃ s : State, bgBusy s c = false ∧ inp.length = 16 ∧ le inp 0 8 % 256 = 0 ∧
      le inp 8 8 % 256 = 0 ∧ le inp 0 8 < 2 ^ 48 ∧ le inp 8 8 < 2 ^ 48 ∧
      ((s.front.maint.filter fun m => m.status == 0).length < 8) ∧ Takes s c 0xC205) ∧
    (∃ c : Fin 10, ∃ s : State, Takes s c 0xC206 ∧ bgBusy s c = false ∧
      ((s.front.maint.filter fun m => m.status == 0).length < 8)) ∧
    (∃ n : Fin 8, ∃ m, ∃ r, ∃ s : State, s.front.maint[n.val]? = some m ∧ m.status = 0 ∧ m.walked = false ∧ m.fills = [] ∧
      (((s.front.maint.drop (n.val + 1)).any fun x => x.status == 0 && rangesMeet x m) = false) ∧ drainRunning s = false ∧
      (r = (if m.op = 0xC203 ∨ m.op = 0xC205 then maintClean m s else maintInvalidate m s))) ∧
    (∃ c, ∃ s : State, Takes s c 0xC209 ∧ 32 * s.front.maint.length ≤ payloadLimit s c) ∧
    (∃ s : State, s.front.mode = .draining ∧ dirtyLines s = 0) ∧
    (∃ c, ∃ s : State, Takes s c 0xC207 ∧ bgBusy s c = false ∧ s.front.mode = .off) ∧
    (∃ c : Fin 10, ∃ s : State, Takes s c 0xC207 ∧ bgBusy s c = false ∧
      ((s.front.mode = .writeBack ∨ s.front.mode = .writeThrough))) ∧
    (∃ c : Fin 10, ∃ s : State, Takes s c 0xC207 ∧ bgBusy s c = false ∧ s.front.mode = .draining) ∧
    (∃ c, ∃ s : State, Takes s c 0xC208 ∧ s.front.mode = .off ∧ s.front.invAllDone = true) ∧
    (∃ c, ∃ s : State, Takes s c 0xC208 ∧ s.front.mode = .off ∧ s.front.invAllDone = false) ∧
    (∃ l, ∃ s : State, drainRunning s = false ∧ urgentFrame s = some l) ∧
    (∃ l, ∃ s : State, drainRunning s = false ∧ urgentFrame s = none ∧ drainPlace s = true ∧ reservedFrame s = some l) ∧
    (∃ n, ∃ a, ∃ pfa, ∃ u, ∃ s : State, tfind s.front.asms n = some a ∧ a.pfa = none ∧ drainRunning s = false ∧
      asmEarlier s n a.lfa = false ∧ a.merging = false ∧ journalFull s = false ∧ place (asmRole a) s = some (pfa, u)) ∧
    (∃ n, ∃ a, ∃ par, ∃ again, ∃ r, ∃ u, ∃ s : State, tfind s.front.asms n = some a ∧ a.pfa = none ∧ drainRunning s = false ∧
      asmEarlier s n a.lfa = false ∧ a.merging = true ∧ a.begun = true ∧ readsDone s (.merge n) = true ∧
      r = asmParity (mergeImage n a s) par again s ∧ u = dropReads (.merge n) (poisonFront a.lfa (readsBad s (.merge n)) r.2)) ∧
    (∃ n, ∃ a, ∃ ds, ∃ s : State, tfind s.front.asms n = some a ∧ slotOfAsm s n = some ds ∧ ((∀ o g, a.kind ≠ .copy o g)) ∧
      asmDone s n = true ∧ journalFull s = false) ∧
    (∃ n, ∃ a, ∃ ds, ∃ q, ∃ qs, ∃ p, ∃ s : State, tfind s.front.asms n = some a ∧ slotOfAsm s n = some ds ∧
      (busyOf s ds).failed = q :: qs ∧ a.pfa = some p ∧ drainRunning s = false ∧ journalFull s = false) :=
  ⟨⟨w0, by decide +kernel⟩,
   ⟨0, wL ln, by decide +kernel⟩,
   ⟨8, List.replicate 6 0, w0, by decide +kernel⟩,
   ⟨8, [0, 0, 0, 0, 0xFF, 0xFF, 0, 0], w0.front.masks.set 0 0xFFFF#16, w0, by decide +kernel⟩,
   ⟨8, [0x10, 0x27, 1, 90], w0, by decide +kernel⟩,
   ⟨8, List.replicate 16 0, w0, by decide +kernel⟩,
   ⟨8, List.replicate 16 0, w0, by decide +kernel⟩,
   ⟨8, List.replicate 16 0, w0, by decide +kernel⟩,
   ⟨8, w0, by decide +kernel⟩,
   ⟨0, maint0, (maintInvalidate maint0 { w0 with front := { w0.front with maint := [maint0] } }), { w0 with front := { w0.front with maint := [maint0] } }, by decide +kernel⟩,
   ⟨8, w0, by decide +kernel⟩,
   ⟨{ w0 with front := { w0.front with mode := .draining } }, by decide +kernel⟩,
   ⟨8, w0, by decide +kernel⟩,
   ⟨8, { w0 with front := { w0.front with mode := .writeBack } }, by decide +kernel⟩,
   ⟨8, { w0 with front := { w0.front with mode := .draining } }, by decide +kernel⟩,
   ⟨8, { w0 with front := { w0.front with mode := .off, invAllDone := true } }, by decide +kernel⟩,
   ⟨8, w0, by decide +kernel⟩,
   ⟨0, { w0 with front := { w0.front with lines := [(0, dirtyLn)], urgent := [0] }, place := { w0.place with ready := [(0, [5])] } }, by decide +kernel⟩,
   ⟨0, wRes, by decide +kernel⟩,
   ⟨0, asm0, ((place (asmRole asm0) wPl).map (·.1)).getD 0, ((place (asmRole asm0) wPl).map (·.2)).getD w0, wPl, by decide +kernel⟩,
   ⟨0, { asm0 with merging := true, begun := true }, 0, 0, asmParity (mergeImage 0 { asm0 with merging := true, begun := true } { w0 with front := { w0.front with asms := [(0, { asm0 with merging := true, begun := true })] } }) 0 0 { w0 with front := { w0.front with asms := [(0, { asm0 with merging := true, begun := true })] } }, dropReads (.merge 0) (poisonFront 0 0 (asmParity (mergeImage 0 { asm0 with merging := true, begun := true } { w0 with front := { w0.front with asms := [(0, { asm0 with merging := true, begun := true })] } }) 0 0 { w0 with front := { w0.front with asms := [(0, { asm0 with merging := true, begun := true })] } }).2), { w0 with front := { w0.front with asms := [(0, { asm0 with merging := true, begun := true })] } }, by decide +kernel⟩,
   ⟨0, asm0, 0, { w0 with front := { w0.front with asms := [(0, asm0)] }, place := { w0.place with busy := [(0, { BusySt.idle with cur := some { prio := 2, kind := .frame 0 }, quad := 9 })] } }, by decide +kernel, by decide +kernel, nofun, by decide +kernel, by decide +kernel⟩,
   ⟨0, { asm0 with pfa := some 9 }, 0, 2, [], 9, { w0 with front := { w0.front with asms := [(0, { asm0 with pfa := some 9 })] }, place := { w0.place with busy := [(0, { BusySt.idle with cur := some { prio := 2, kind := .frame 0 }, quad := 9, failed := [2] })] } }, by decide +kernel⟩⟩

/-- A state and operands for each clause of PersistenceCommandsComplete that has hypotheses. -/
theorem wit_PersistenceCommandsComplete :
    (∃ s : State, s.persist.pwrFail = false ∧ s.power.seq = none ∧ s.power.hold = none ∧ devUp s = true ∧
      drainRunning s = false ∧ drainArmed s = true) ∧
    (∃ s : State, s.persist.pwrFail = false ∧ s.power.seq = none ∧ s.power.hold = none ∧ devUp s = true ∧
      drainRunning s = false ∧ drainArmed s = false) ∧
    (∃ v, ∃ s : State, s.power.mode ≠ .off ∧ v < s.persist.policy.supplyTrip ∧ 1 ≤ s.persist.lowSamples ∧
      s.persist.pwrFail = false ∧ s.power.seq = none ∧ s.power.hold = none ∧ devUp s = true ∧ drainRunning s = false ∧
      drainArmed s = true) ∧
    (∃ v, ∃ s : State, s.power.mode ≠ .off ∧ v < s.persist.policy.supplyTrip ∧ s.persist.lowSamples = 0) ∧
    (∃ v, ∃ s : State, s.power.mode ≠ .off ∧ s.persist.policy.supplyTrip ≠ 0 ∧ s.persist.policy.supplyTrip ≤ v) ∧
    (∃ d, ∃ t : State, ∃ s : State, drainKick s = t ∧ t.persist.drain = some d ∧ imageWritten d t = true ∧
      imageWhole d = true) ∧
    (∃ d, ∃ t : State, ∃ s : State, drainKick s = t ∧ t.persist.drain = some d ∧ imageWritten d t = true ∧
      imageWhole d = false) ∧
    (∃ d, ∃ s : State, s.persist.drain = some d ∧ bits d.triggers 4 1 = 1) ∧
    (∃ d, ∃ s : State, s.persist.drain = some d ∧ bits d.triggers 4 1 = 0) ∧
    (∃ s : State, mayMeasure s = true ∧ s.persist.phase = .idle ∧ s.start.phases.contains 13 = true ∧
      s.persist.phaseAt + s.persist.policy.measurePeriod * 3600000000000 ≤ s.time.mono) ∧
    (∃ s : State, s.persist.phase = .lowering ∧ s.persist.phaseAt + s.persist.policy.lullWait * 60000000000 ≤ s.time.mono) ∧
    (∃ s : State, ((s.persist.phase = .lowering ∨ s.persist.phase = .forced)) ∧
      dirtyLines s ≤ 4096 * s.persist.testCap.getD 0) ∧
    (∃ l, ∃ s : State, s.persist.phase = .test ∧ (fitBank s.persist.policy s.persist.v0New l).1 = 0) ∧
    (∃ l, ∃ s : State, s.persist.phase = .test ∧ (fitBank s.persist.policy s.persist.v0New l).1 ≠ 0 ∧
      s.persist.measureCci = none) ∧
    (∃ s : State, s.persist.phase = .recovering ∧ s.persist.phaseAt + 10000000000 ≤ s.time.mono ∧ s.persist.measureCci = none) ∧
    (∃ at_, ∃ s : State, s.persist.retryAt = some at_ ∧ at_ ≤ s.time.mono ∧ mayMeasure s = true) ∧
    (∃ s : State, devUp s = true ∧ s.start.phases.contains 6 = true) ∧
    (∃ c, ∃ s : State, Takes s c 0xC720 ∧ 32 ≤ payloadLimit s c) ∧
    (∃ c, ∃ inp : List Byte, ∃ s : State, Takes s c 0xC721 ∧ inp.length = 16 ∧ holdPolicyOk (holdPolicyOf inp) = true) ∧
    (∃ c : Fin 10, ∃ s : State, Takes s c 0xC722 ∧ bgBusy s c = false ∧ mayMeasure s = true) ∧
    (∃ c, ∃ s : State, Takes s c 0xC723 ∧ 64 ≤ payloadLimit s c) :=
  ⟨⟨w0, by decide +kernel⟩,
   ⟨{ w0 with start := { w0.start with phases := [] } }, by decide +kernel⟩,
   ⟨100, { w0 with start := { w0.start with phases := [10] }, persist := { w0.persist with lowSamples := 1, policy := { w0.persist.policy with supplyTrip := 9000 } } }, by decide +kernel⟩,
   ⟨100, { w0 with persist := { w0.persist with policy := { w0.persist.policy with supplyTrip := 9000 } } }, by decide +kernel⟩,
   ⟨9000, { w0 with persist := { w0.persist with policy := { w0.persist.policy with supplyTrip := 9000 } } }, by decide +kernel⟩,
   ⟨{ dr0 with frames := some [] }, drainKick { w0 with persist := { w0.persist with drain := some { dr0 with frames := some [] } } }, { w0 with persist := { w0.persist with drain := some { dr0 with frames := some [] } } }, by decide +kernel⟩,
   ⟨{ dr0 with frames := some [{ seq := 1, no := 0, wseq := 1, body := .dump [] }] }, drainKick { w0 with persist := { w0.persist with drain := some { dr0 with frames := some [{ seq := 1, no := 0, wseq := 1, body := .dump [] }] } } }, { w0 with persist := { w0.persist with drain := some { dr0 with frames := some [{ seq := 1, no := 0, wseq := 1, body := .dump [] }] } } }, by decide +kernel⟩,
   ⟨{ dr0 with triggers := 16 }, { w0 with persist := { w0.persist with drain := some { dr0 with triggers := 16 } } }, by decide +kernel⟩,
   ⟨dr0, { w0 with persist := { w0.persist with drain := some dr0 } }, by decide +kernel⟩,
   ⟨w0, by decide +kernel⟩,
   ⟨{ w0 with persist := { w0.persist with phase := .lowering }, time := { w0.time with mono := 3600000000000 } }, by decide +kernel⟩,
   ⟨{ w0 with persist := { w0.persist with phase := .lowering } }, by decide +kernel⟩,
   ⟨(List.range 600).map (fun k => 11990000 - 500 * k), { w0 with persist := { w0.persist with phase := .test, v0New := 12000000 } }, by decide +kernel⟩,
   ⟨[], { w0 with persist := { w0.persist with phase := .test } }, by decide +kernel⟩,
   ⟨{ w0 with persist := { w0.persist with phase := .recovering } }, by decide +kernel⟩,
   ⟨0, { w0 with persist := { w0.persist with retryAt := some 0 } }, by decide +kernel⟩,
   ⟨w0, by decide +kernel⟩,
   ⟨8, w0, by decide +kernel⟩,
   ⟨8, [0xE8, 3, 10, 0, 0xE8, 3, 50, 0, 0, 0, 0, 0, 0, 0, 1, 168], w0, by decide +kernel⟩,
   ⟨8, w0, by decide +kernel⟩,
   ⟨8, w0, by decide +kernel⟩⟩

/-- A state and operands for each clause of ReadPathCommandsComplete that has hypotheses. -/
theorem wit_ReadPathCommandsComplete :
    (∃ line, ∃ m, ∃ r, ∃ s : State, tfind s.front.miss line = some m ∧ m.stage = .mapRead ∧
      copyUp s m.copyB (line / 16) = true ∧ r = openRow (mapChan s m.copyB (line / 16)) (entryLoc s m.copyB (line / 16)) s ∧
      copyBad s m.copyB (line / 16) = false) ∧
    (∃ line, ∃ m, ∃ r, ∃ s : State, tfind s.front.miss line = some m ∧ m.stage = .mapRead ∧
      copyUp s m.copyB (line / 16) = true ∧ r = openRow (mapChan s m.copyB (line / 16)) (entryLoc s m.copyB (line / 16)) s ∧
      copyBad s m.copyB (line / 16) = true) ∧
    (∃ line, ∃ m, ∃ l, ∃ c, ∃ r, ∃ s : State, tfind s.front.miss line = some m ∧ m.stage = .mapRead ∧
      copyUp s m.copyB (line / 16) = true ∧ c = mapChan s m.copyB (line / 16) ∧ l = entryLoc s m.copyB (line / 16) ∧
      r = openRow c l s) ∧
    (∃ rd, ∃ f, ∃ n, ∃ pfa, ∃ l, ∃ r, ∃ s : State, fetchOf s rd = some f ∧ f.stage = .back n pfa ∧
      (slotChans s n).any (dramOut s) = false ∧ f.latency = true ∧ slotLoc s n (lineOfRead s rd % 16 * 256) = some l ∧
      r = openRow (chunkChan s n (lineOfRead s rd % 16 * 256)) l s) ∧
    (∃ rd, ∃ f, ∃ n, ∃ pfa, ∃ s : State, fetchOf s rd = some f ∧ f.stage = .back n pfa ∧
      (slotChans s n).any (dramOut s) = true ∧ dramOut s (dirChan s n) = false) ∧
    (∃ rd, ∃ f, ∃ pos, ∃ pfa, ∃ s : State, ∃ up : List Nat, ∃ dn : List Nat, fetchOf s rd = some f ∧
      stagePfa f.stage = some pfa ∧ hardRead f.stage pos = true ∧ inEngine s rd pfa pos = true ∧ (up ++ dn).sum = 0) ∧
    (∃ rd, ∃ f, ∃ pos, ∃ pfa, ∃ s : State, ∃ up : List Nat, ∃ dn : List Nat, fetchOf s rd = some f ∧
      stagePfa f.stage = some pfa ∧ hardRead f.stage pos = true ∧ inEngine s rd pfa pos = true ∧ 0 < (up ++ dn).sum) ∧
    (∃ rd, ∃ f, ∃ pos, ∃ pfa, ∃ q, ∃ soft, ∃ w, ∃ lost, ∃ k, ∃ s : State, fetchOf s rd = some f ∧
      f.stage = .slow pfa q soft w lost ∧ ((soft.find? fun p => p.1 == pos) = some (pos, k)) ∧ inEngine s rd pfa pos = true) ∧
    (∃ line, ∃ m, ∃ a, ∃ r, ∃ u, ∃ s : State, tfind s.front.miss line = some m ∧ m.stage = .ready ∧
      a = { s with front := { s.front with miss := tdel s.front.miss line } } ∧ r = fillMerge line m a ∧
      (u = fillEnds line (m.waiters.foldl (fun s t => answerRead r.1 r.2.1 m.outcome t s) r.2.2)) ∧
      (m.outcome < 2 ∨ 5 < m.outcome)) ∧
    (∃ line, ∃ m, ∃ a, ∃ r, ∃ u, ∃ s : State, ∃ e, tfind s.front.miss line = some m ∧ m.stage = .ready ∧
      a = { s with front := { s.front with miss := tdel s.front.miss line } } ∧ r = fillMerge line m a ∧
      (u = fillEnds line (m.waiters.foldl (fun s t => answerRead r.1 r.2.1 m.outcome t s) r.2.2)) ∧ 2 ≤ m.outcome ∧
      m.outcome ≤ 5 ∧ mapEntry u (line / 16) = some e ∧ e.st = .media) ∧
    (∃ line, ∃ m, ∃ a, ∃ r, ∃ s : State, tfind s.front.miss line = some m ∧ m.stage = .ready ∧ (m.outcome < 2 ∨ 5 < m.outcome) ∧
      a = raiseParity 0x033 1 (line * 256) { s with front := { s.front with miss := tdel s.front.miss line } } ∧
      r = fillMerge line m a) ∧
    (∃ lfa, ∃ n, ∃ r, ∃ e, ∃ x, ∃ s : State, ((s.back.promoting.find? fun p => p.1 == lfa) = some (lfa, n)) ∧
      readsDone s (.promote lfa) = true ∧
      (r = dropReads (.promote lfa) { s with back := { s.back with promoting := s.back.promoting.filter fun p => p.1 != lfa } }) ∧
      mapEntry r lfa = some e ∧ tfind r.back.slots n = some x ∧ e.st = .media ∧ e.loc = x.pfa ∧ readsBad s (.promote lfa) = 0 ∧
      slotUp r n = true) ∧
    (∃ lfa, ∃ n, ∃ r, ∃ e, ∃ x, ∃ s : State, ((s.back.promoting.find? fun p => p.1 == lfa) = some (lfa, n)) ∧
      readsDone s (.promote lfa) = true ∧
      (r = dropReads (.promote lfa) { s with back := { s.back with promoting := s.back.promoting.filter fun p => p.1 != lfa } }) ∧
      mapEntry r lfa = some e ∧ tfind r.back.slots n = some x ∧ (e.st ≠ .media ∨ e.loc ≠ x.pfa)) ∧
    (∃ n, ∃ r, ∃ s : State, s.back.wanted = true ∧
      (r = sweepSlots ((s.back.slots.filter fun p => decide (s.back.hand ≤ p.1)) ++ (s.back.slots.filter fun p => decide (p.1 < s.back.hand))) s) ∧
      r.1 = some n) ∧
    (∃ n, ∃ x, ∃ s : State, tfind s.back.slots n = some x ∧ x.st = .quarantined ∧ quarantineOver s x.quarantine = true) ∧
    (∃ c, ∃ inp : List Byte, ∃ s : State, Takes s c 0xC330 ∧ inp.length = 1 ∧ ((le inp 0 1 < 36 ∨ le inp 0 1 = 0xFF)) ∧
      240 ≤ payloadLimit s c) ∧
    (∃ c, ∃ inp : List Byte, ∃ s : State, Takes s c 0xC331 ∧ inp.length = 4 ∧ bits (le inp 0 4) 24 8 ≠ 0 ∧
      2 ≤ bits (le inp 0 4) 20 4) :=
  ⟨⟨5, miss0 .mapRead, openRow (mapChan (wM .mapRead) false 0) (entryLoc (wM .mapRead) false 0) (wM .mapRead), wM .mapRead, by decide +kernel, rfl, by decide +kernel, rfl, by decide +kernel⟩,
   ⟨5, miss0 .mapRead, openRow (mapChan wBad false 0) (entryLoc wBad false 0) wBad, wBad, by decide +kernel, rfl, by decide +kernel, rfl, by decide +kernel⟩,
   ⟨5, miss0 .mapRead, _, _, _, wM .mapRead, by decide +kernel, rfl, by decide +kernel, rfl, rfl, rfl⟩,
   ⟨.fill 5, { (miss0 (.back 0 9)).toFetch with latency := true }, 0, 9, _, _, wBk, rfl, rfl, by decide +kernel, rfl, rfl, rfl⟩,
   ⟨.fill 5, (miss0 (.back 0 9)).toFetch, 0, 9, { wM (.back 0 9) with dram := { w0.dram with chans := [(slotChan0, { DramCh.down with mode := .frozen })] } }, by decide +kernel⟩,
   ⟨.fill 5, (miss0 (.direct 9 2)).toFetch, 2, 9, { wM (.direct 9 2) with front := { (wM (.direct 9 2)).front with dieReads := [(posDie 9 2, [rdr0])] } }, [], [], by decide +kernel⟩,
   ⟨.fill 5, (miss0 (.direct 9 2)).toFetch, 2, 9, { wM (.direct 9 2) with front := { (wM (.direct 9 2)).front with dieReads := [(posDie 9 2, [rdr0])] } }, [1], [], by decide +kernel⟩,
   ⟨.fill 5, (miss0 (.slow 9 2 [(2, 5)] [] [])).toFetch, 2, 9, 2, [(2, 5)], [], [], 5, { wM (.slow 9 2 [(2, 5)] [] []) with front := { (wM (.slow 9 2 [(2, 5)] [] [])).front with dieReads := [(posDie 9 2, [rdr0])] } }, by decide +kernel⟩,
   ⟨5, miss0 .ready, _, _, _, wM .ready, by decide +kernel, rfl, rfl, rfl, rfl, by decide +kernel⟩,
   ⟨5, miss2, _, _, _, wFill, me0, by decide +kernel, rfl, rfl, rfl, rfl, by decide +kernel, by decide +kernel, by decide +kernel, rfl⟩,
   ⟨5, miss0 .ready, _, _, wM .ready, by decide +kernel, rfl, by decide +kernel, rfl, rfl⟩,
   ⟨0, 0, _, me0, { slot0 with st := .filling }, wProm, by decide +kernel, by decide +kernel, rfl, by decide +kernel, by decide +kernel, rfl, rfl, by decide +kernel, by decide +kernel⟩,
   ⟨0, 0, _, { me0 with loc := 8 }, { slot0 with st := .filling }, { wProm with map := { w0.map with copyA := { MapCopy.empty with ents := [(0, { me0 with loc := 8 })] } } }, by decide +kernel, by decide +kernel, rfl, by decide +kernel, by decide +kernel, by decide +kernel⟩,
   ⟨0, sweepSlots [(0, slot0)] { w0 with back := { w0.back with slots := [(0, slot0)], wanted := true } }, { w0 with back := { w0.back with slots := [(0, slot0)], wanted := true } }, by decide +kernel⟩,
   ⟨0, { slot0 with st := .quarantined }, { w0 with back := { w0.back with slots := [(0, { slot0 with st := .quarantined })] }, time := { w0.time with tbNow := 20000 } }, by decide +kernel⟩,
   ⟨8, List.replicate 1 0, w0, by decide +kernel⟩,
   ⟨8, [0, 0, 0x20, 1], w0, by decide +kernel⟩⟩

/-- A state and operands for each clause of MapAndJournalCommandsComplete that has hypotheses. -/
theorem wit_MapAndJournalCommandsComplete :
    (∃ r, ∃ fs, ∃ s : State, drainRunning s = false ∧ s.map.root.isSome = true ∧ stagingDue s = true ∧ r = replaceMetas s ∧
      fs = cutFrames (unprogrammed r).length (unprogrammed r) ∧ journalFits r fs.length = true) ∧
    (∃ r, ∃ s : State, r = replaceMetas s ∧ passFree r = true ∧
      ((2 * journalArea r ≤ 5 * journalKept r ∨ r.map.passEnd + 3600000000000 ≤ r.time.mono ∨ r.map.passDue = true))) ∧
    (∃ x, ∃ s : State, s.map.pass = some x ∧ drainRunning s = false ∧ journalFull s = false ∧
      s.map.passDone < passFrames x.ck) ∧
    (∃ x, ∃ s : State, ∃ r, s.map.pass = some x ∧ drainRunning s = false ∧ journalFull s = false ∧
      passFrames x.ck ≤ s.map.passDone ∧ s.map.passCci = none ∧ r = commit (.ckptEnd x.slot x.ck.seq) s) ∧
    (∃ c : Fin 10, ∃ r, ∃ s : State, Takes s c 0xC342 ∧ bgBusy s c = false ∧ s.map.pass = none ∧ s.map.rebuild = [] ∧
      r = replaceMetas s ∧ passFree r = true) ∧
    (∃ s : State, recoveryDue s = true ∧ rootFits (recoveryBase s) = false) ∧
    (∃ f, ∃ r, ∃ s : State, recoveryDue s = true ∧ rootFits (recoveryBase s) = true ∧ r = recoverMedium f (recoveryBase s) ∧
      imageLost r f.image = false) ∧
    (∃ f, ∃ r, ∃ s : State, recoveryDue s = true ∧ rootFits (recoveryBase s) = true ∧ r = recoverMedium f (recoveryBase s) ∧
      imageLost r f.image = true) ∧
    (∃ x, ∃ r, ∃ s : State, x = s.ten.affected.filter (regionBack s) ∧ x ≠ [] ∧ s.map.rebuild = [] ∧ drainRunning s = false ∧
      r = abandonPass .success s) ∧
    (∃ s : State, s.map.loaded = true ∧ s.drift.activeAt.isSome = true ∧ drainRunning s = false ∧
      (s.map.markAll = true ∨ s.map.marked ≠ [])) ∧
    (∃ xs, ∃ s : State, s.map.rebuild ≠ [] ∧ drainRunning s = false ∧ xs = s.map.rebuild.foldr insertAsc []) ∧
    (∃ c, ∃ inp : List Byte, ∃ s : State, Takes s c 0xC340 ∧ inp.length = 6 ∧ le inp 0 5 < 262144 * s.map.extents ∧
      152 ≤ payloadLimit s c) ∧
    (∃ c, ∃ s : State, Takes s c 0xC341 ∧ 60 ≤ payloadLimit s c) ∧
    (∃ c, ∃ inp : List Byte, ∃ s : State, Takes s c 0xC343 ∧ inp.length = 1 ∧ le inp 0 1 ≤ 1 ∧
      dramMeets s (le inp 0 1 == 1) s.map.extents = true) ∧
    (∃ c, ∃ s : State, Takes s c 0xC344 ∧ 25 ≤ payloadLimit s c) :=
  ⟨⟨replaceMetas wStage, cutFrames 1 [je0], wStage, by decide +kernel⟩,
   ⟨replaceMetas { w0 with map := { w0.map with root := some root0, passDue := true } }, { w0 with map := { w0.map with root := some root0, passDue := true } }, by decide +kernel⟩,
   ⟨pass0, { w0 with map := { w0.map with pass := some pass0 } }, rfl, by decide +kernel, by decide +kernel, pass0_pos⟩,
   ⟨pass0, { w0 with map := { w0.map with pass := some pass0, passDone := passFrames pass0.ck } }, commit (.ckptEnd 0 1) { w0 with map := { w0.map with pass := some pass0, passDone := passFrames pass0.ck } }, rfl, by decide +kernel, by decide +kernel, Nat.le_refl _, rfl, rfl⟩,
   ⟨8, replaceMetas { w0 with map := { w0.map with root := some root0 } }, { w0 with map := { w0.map with root := some root0 } }, by decide +kernel⟩,
   ⟨{ w0 with map := { w0.map with loaded := false }, dram := { w0.dram with filled := true } }, by decide +kernel⟩,
   ⟨⟨[], [], [], [], []⟩, _, { w0 with map := { w0.map with loaded := false, root := some root0 }, dram := { w0.dram with filled := true }, media := { w0.media with popCh := 9, popPk := 1, popDies := 2 } }, by decide +kernel, by decide +kernel, rfl, rfl⟩,
   ⟨⟨[], [], [], [2 ^ 32], []⟩, _, { w0 with map := { w0.map with loaded := false, root := some root0 }, dram := { w0.dram with filled := true }, media := { w0.media with popCh := 9, popPk := 1, popDies := 2 }, persist := { w0.persist with imageList := [run0] } }, by decide +kernel, by decide +kernel, rfl, by decide +kernel⟩,
   ⟨[0], abandonPass .success { w0 with ten := { w0.ten with affected := [0] } }, { w0 with ten := { w0.ten with affected := [0] } }, by decide +kernel⟩,
   ⟨{ w0 with drift := { w0.drift with activeAt := some 0 }, map := { w0.map with marked := [4] } }, by decide +kernel⟩,
   ⟨[0], { w0 with map := { w0.map with rebuild := [0] } }, by decide +kernel⟩,
   ⟨8, List.replicate 6 0, w0, by decide +kernel⟩,
   ⟨8, w0, by decide +kernel⟩,
   ⟨8, [1], { w0 with dram := { w0.dram with chans := [(0, { DramCh.down with dimms := [dimm128, dimm128] })] } }, by decide +kernel⟩,
   ⟨8, w0, by decide +kernel⟩⟩

/-- A state and operands for each clause of PlacementCommandsComplete that has hypotheses. -/
theorem wit_PlacementCommandsComplete :
    (∃ ds : Fin 512, ∃ r, ∃ s : State, mediaUp s = true ∧ drainRunning s = false ∧ (liveSets s).contains ds.val = true ∧
      s.map.loaded = true ∧ journalFull s = false ∧ r = replaceMetas s) ∧
    (∃ ds : Fin 512, ∃ r, ∃ s : State, mediaUp s = true ∧ drainRunning s = false ∧ (liveSets s).contains ds.val = true ∧
      s.map.loaded = true ∧ journalFull s = false ∧ r = replaceMetas s ∧ r.front.asms = [] ∧ r.mgmt.sanitize = none ∧
      r.place.format = none) ∧
    (∃ ds : Fin 512, ∃ w, ∃ d, ∃ s : State, isDegraded s ds.val = false ∧ setTraining s ds.val = false ∧
      drainRunning s = false ∧ (busyOf s ds.val).cur = none ∧ nextWork s ds.val (busyOf s ds.val) = some (w, d)) ∧
    (∃ ds : Fin 512, ∃ w, ∃ s : State, isDegraded s ds.val = false ∧ setTraining s ds.val = false ∧
      (busyOf s ds.val).cur = some w) ∧
    (∃ g, ∃ check, ∃ s : State, (groupAt s g).st = (if check = true then .resetSuspect else .pendingReset) ∧
      fillHolds s g = false ∧ isDegraded s (dieSetOf g) = false ∧ drainRunning s = false ∧ mediaUp s = true ∧
      (busyOf s (dieSetOf g)).waiting = [] ∧ rackOf s g = none) ∧
    (∃ ds : Fin 512, ∃ g, ∃ p, ∃ check, ∃ s : State, (busyOf s ds).cur = some { prio := p, kind := .reset g check } ∧
      (busyOf s ds).quad = 9 ∧ journalFull s = false ∧ drainRunning s = false) ∧
    (∃ ds : Fin 512, ∃ g, ∃ p, ∃ check, ∃ s : State, (busyOf s ds).cur = some { prio := p, kind := .reset g check } ∧
      (busyOf s ds).quad = 9 ∧ journalFull s = false ∧ drainRunning s = false ∧ (busyOf s ds).failed = [] ∧
      isDegraded s ds = false ∧ failedQuad s g = none) ∧
    (∃ ds : Fin 512, ∃ g, ∃ q, ∃ p, ∃ check, ∃ s : State, (busyOf s ds).cur = some { prio := p, kind := .spare g q check } ∧
      (busyOf s ds).quad = 9 ∧ journalFull s = false ∧ drainRunning s = false) ∧
    (∃ ds : Fin 512, ∃ r, ∃ s : State, racksRun s = true ∧ drainRunning s = false ∧
      ((s.place.racks.any fun r => dieSetOf r.group == ds.val && r.step != 0) = false) ∧ s.map.loaded = true ∧
      journalFull s = false ∧ queuedRack s ds = some r) ∧
    (∃ ds : Fin 512, ∃ g, ∃ r, ∃ s : State, racksRun s = true ∧ drainRunning s = false ∧
      ((s.place.racks.any fun r => dieSetOf r.group == ds.val && r.step != 0) = false) ∧ s.map.loaded = true ∧
      journalFull s = false ∧ queuedRack s ds = none ∧ isDegraded s ds = false ∧
      freeIn s ds ≤ rackThreshold s s.place.rackUrgent ∧
      r = { s with place := { s.place with racking := ds.val :: s.place.racking.filter (· != ds.val) } } ∧
      victim r ds 5 = some g) ∧
    (∃ n, ∃ a, ∃ ds, ∃ c, ∃ d, ∃ s : State, tfind s.front.asms n = some a ∧ slotOfAsm s n = some ds ∧ a.kind = .copy c d ∧
      asmDone s n = true ∧ journalFull s = false) ∧
    (∃ g, ∃ x, ∃ s : State, s.place.groups = [(g, x)] ∧ x.st = .closed) ∧
    (∃ g, ∃ h, ∃ x, ∃ y, ∃ s : State, s.place.groups = [(g, x), (h, y)] ∧ x.st = .closed ∧ ((y.st = .closed ∨ y.st = .free)) ∧
      x.cycles + s.place.wearSpread < y.cycles ∧ racksRun s = true ∧ drainRunning s = false ∧ s.place.racks = []) ∧
    (∃ lfa, ∃ pfa, ∃ s : State, ((s.place.reported.find? fun p => p.1 == lfa) = some (lfa, pfa)) ∧ racksRun s = true ∧
      drainRunning s = false ∧ journalFull s = false ∧ readsOf s (.recovery lfa) = [] ∧
      (mapEntry s lfa).bind (entPfa s) = some pfa) ∧
    (∃ lfa, ∃ pfa, ∃ s : State, ((s.place.reported.find? fun p => p.1 == lfa) = some (lfa, pfa)) ∧ racksRun s = true ∧
      drainRunning s = false ∧ journalFull s = false ∧ readsOf s (.recovery lfa) ≠ []) ∧
    (∃ r, ∃ s : State, s.place.cap = .critical ∧ ((s.place.withholdAt = 0 ∨ s.place.withholdAt + 60000000000 ≤ s.time.mono)) ∧
      journalFull s = false ∧ r = askNow (withholdNow s)) ∧
    (∃ s : State, s.place.cap ≠ .writeLocked ∧ s.map.loaded = true ∧ s.map.root.isSome = true ∧ journalFull s = false ∧
      (chooseSet s 1).isNone = true ∧ waited50 s = true) ∧
    (∃ s : State, s.place.cap ≠ .writeLocked ∧ s.map.loaded = true ∧ s.map.root.isSome = true ∧ journalFull s = false ∧
      s.mgmt.media.mode = .halted ∧ ((s.place.ready.all fun p => p.2.isEmpty) = true)) ∧
    (∃ r, ∃ s : State, r = flushHealth s) ∧
    (∃ c, ∃ s : State, Takes s c 0xC300 ∧ 96 ≤ payloadLimit s c) ∧
    (∃ c, ∃ inp : List Byte, ∃ s : State, Takes s c 0xC301 ∧ inp.length = 5 ∧ 1 ≤ byteAt inp 4 ∧ byteAt inp 4 ≤ 64 ∧
      le inp 0 4 + byteAt inp 4 ≤ 2 ^ 19 ∧ (dieSets s).contains (dieSetOf (le inp 0 4)) = true ∧
      (dieSets s).contains (dieSetOf (le inp 0 4 + byteAt inp 4 - 1)) = true ∧ 16 + 32 * byteAt inp 4 ≤ payloadLimit s c) ∧
    (∃ c, ∃ inp : List Byte, ∃ s : State, Takes s c 0xC302 ∧ inp.length = 4 ∧ s.place.format = none ∧
      overProvisionOk s (le inp 0 4) = true) ∧
    (∃ c : Fin 10, ∃ inp : List Byte, ∃ s : State, Takes s c 0xC303 ∧ bgBusy s c = false ∧ inp.length = 4 ∧
      le inp 0 4 = 0x544D5246 ∧ ((s.ten.extA.any fun p => p.2.st != .unassigned) = false) ∧ pendingImages s = 0 ∧
      s.place.format = none ∧ drainRunning s = false) ∧
    (∃ c, ∃ inp : List Byte, ∃ s : State, Takes s c 0xC304 ∧ inp.length = 8 ∧ 10 ≤ bits (le inp 0 4) 24 8 ∧
      bits (le inp 0 4) 24 8 ≤ 90 ∧ 5 ≤ bits (le inp 0 4) 16 8 ∧ bits (le inp 0 4) 16 8 + 5 ≤ bits (le inp 0 4) 24 8 ∧
      bits (le inp 0 4) 12 4 ≠ 0 ∧ bits (le inp 0 4) 8 4 ≠ 0 ∧ bits (le inp 0 4) 4 4 ≠ 0 ∧ 500 ≤ le inp 6 2 ∧
      le inp 6 2 ≤ 20000) ∧
    (∃ c : Fin 10, ∃ inp : List Byte, ∃ s : State, Takes s c 0xC305 ∧ bgBusy s c = false ∧ inp.length = 4 ∧
      le inp 0 4 < 2 ^ 19 ∧ (dieSets s).contains (dieSetOf (le inp 0 4)) = true ∧ (groupAt s (le inp 0 4)).st = .closed) :=
  ⟨⟨0, replaceMetas w0, w0, by decide +kernel⟩,
   ⟨0, replaceMetas w0, w0, by decide +kernel⟩,
   ⟨0, frame1, BusySt.idle.defs, { w0 with place := { w0.place with busy := [(0, { BusySt.idle with waiting := [frame1] })] }, media := { w0.media with chans := (List.range 36).map fun c => (c, chUp) }, front := { w0.front with asms := [(0, { asm0 with pfa := some 9, prio := 2 })] } }, by decide +kernel⟩,
   ⟨0, frame1, { w0 with place := { w0.place with busy := [(0, { BusySt.idle with cur := some frame1 })] }, media := { w0.media with chans := (List.range 36).map fun c => (c, chUp) } }, by decide +kernel⟩,
   ⟨5, false, { w0 with place := { w0.place with groups := [(5, gr .pendingReset)] } }, by decide +kernel⟩,
   ⟨0, 5, 3, false, { w0 with place := { w0.place with busy := [(0, { BusySt.idle with cur := some { prio := 3, kind := .reset 5 false }, quad := 9 })] } }, by decide +kernel⟩,
   ⟨0, 5, 3, false, { w0 with place := { w0.place with busy := [(0, { BusySt.idle with cur := some { prio := 3, kind := .reset 5 false }, quad := 9 })] } }, by decide +kernel⟩,
   ⟨0, 5, 2, 3, false, { w0 with place := { w0.place with busy := [(0, { BusySt.idle with cur := some { prio := 3, kind := .spare 5 2 false }, quad := 9 })] } }, by decide +kernel⟩,
   ⟨0, rack0, { w0 with place := { w0.place with racks := [rack0], groups := [(5, gr .closed)] } }, by decide +kernel⟩,
   ⟨0, 5, { w0 with place := { w0.place with racking := [0], rackUrgent := 100000, groups := [(5, gr .closed)] } }, { w0 with place := { w0.place with rackUrgent := 100000, groups := [(5, gr .closed)] } }, by decide +kernel⟩,
   ⟨0, { asm0 with kind := .copy 9 1 }, 0, 9, 1, { w0 with front := { w0.front with asms := [(0, { asm0 with kind := .copy 9 1 })] }, place := { w0.place with busy := [(0, { BusySt.idle with cur := some { prio := 4, kind := .frame 0 }, quad := 9 })] } }, by decide +kernel⟩,
   ⟨5, gr .closed, { w0 with place := { w0.place with groups := [(5, gr .closed)] } }, by decide +kernel⟩,
   ⟨5, 6, gr .closed, { gr .closed with cycles := 2001 }, { w0 with place := { w0.place with groups := [(5, gr .closed), (6, { gr .closed with cycles := 2001 })] } }, by decide +kernel⟩,
   ⟨0, 9, { w0 with place := { w0.place with reported := [(0, 9)] }, map := { w0.map with copyA := { MapCopy.empty with ents := [(0, me0)] } } }, by decide +kernel⟩,
   ⟨0, 9, { w0 with place := { w0.place with reported := [(0, 9)] }, front := { w0.front with ireads := [(0, { Fetch.start with use_ := .recovery 0, line := 0 })] } }, by decide +kernel⟩,
   ⟨askNow (withholdNow { w0 with place := { w0.place with cap := .critical } }), { w0 with place := { w0.place with cap := .critical } }, by decide +kernel⟩,
   ⟨{ w0 with map := { w0.map with root := some root0 }, front := { w0.front with stalls := [(1, 0)] } }, by decide +kernel⟩,
   ⟨{ w0 with map := { w0.map with root := some root0 }, mgmt := { w0.mgmt with media := { up with mode := .halted } } }, by decide +kernel⟩,
   ⟨flushHealth w0, w0, by decide +kernel⟩,
   ⟨8, w0, by decide +kernel⟩,
   ⟨8, [0, 0, 0, 0, 64], w0, by decide +kernel⟩,
   ⟨8, leBytes 4 482, { w0 with dram := { w0.dram with chans := [(0, { DramCh.down with dimms := [dimm128, dimm128] })] } }, by decide +kernel⟩,
   ⟨8, leBytes 4 0x544D5246, { w0 with ten := { w0.ten with extA := [] } }, by decide +kernel⟩,
   ⟨8, [0x10, 0x11, 5, 10, 0, 0, 0xF4, 1], w0, by decide +kernel⟩,
   ⟨8, [5, 0, 0, 0], { w0 with place := { w0.place with groups := [(5, gr .closed)] } }, by decide +kernel⟩⟩

/-- A state and operands for each clause of DriftCommandsComplete that has hypotheses. -/
theorem wit_DriftCommandsComplete :
    (∃ s : State, s.map.loaded = true ∧ devUp s = true ∧ s.drift.sweepDue = false) ∧
    (∃ r, ∃ s : State, s.map.loaded = true ∧ devUp s = true ∧ s.drift.sweepDue = true ∧ s.drift.activeAt.isSome = true ∧
      mediaUp s = true ∧ r = (dieSets s).foldl (weatherOne true) s) ∧
    (∃ s : State, s.map.loaded = true ∧ devUp s = true ∧ s.mgmt.media.mode = .running) ∧
    (∃ c : Fin 36, ∃ s : State, (chanOf s c).mode ≠ .down ∧ (chanOf s c).mreset = false) ∧
    (∃ g, ∃ w, ∃ r, ∃ s : State, ((s.drift.windows.find? fun w => w.group == g) = some w) ∧
      s.drift.trimWindow * 256 ≤ w.decodes ∧ journalFull s = false ∧
      r = stepTrims g (trimStep (w.up.getD 0 0) (w.dn.getD 0 0)) (trimStep (w.up.getD 1 0) (w.dn.getD 1 0)) (trimStep (w.up.getD 2 0) (w.dn.getD 2 0)) s) ∧
    (∃ xs, ∃ r, ∃ s : State, s.drift.readDue ≠ [] ∧ journalFull s = false ∧
      (xs = (s.drift.readDue.map fun g => (g, (groupAt s g).reads))) ∧
      r = commitAll ((inSixes xs.length xs).map .groupReads) s) ∧
    (∃ s : State, s.map.loaded = true ∧ mediaUp s = true) ∧
    (∃ g, ∃ s : State, racksRun s = true ∧ drainRunning s = false ∧ s.map.loaded = true ∧ journalFull s = false ∧
      topFirst s .overdue = some g) ∧
    (∃ g, ∃ s : State, racksRun s = true ∧ drainRunning s = false ∧ s.map.loaded = true ∧ journalFull s = false ∧
      topFirst s .overdue = none ∧ topFirst s .due = some g) ∧
    (∃ x, ∃ n, ∃ w, ∃ k, ∃ u, ∃ v, ∃ s : State, drainRunning s = false ∧ journalFull s = false ∧ s.map.loaded = true ∧
      imageDue s = some x ∧ n = (drainParts s).length ∧ n ≠ 0 ∧ s.persist.setReset.contains (1 - x.set) = false ∧
      w = setW s (1 - x.set) ∧ (k = ((imageOn s x).map fun f => f.no / max 1 n + 1).foldl max 0) ∧ w + k ≤ 131072 ∧
      u = putW (1 - x.set) (w + k) (copyImage (imageOn s x) (1 - x.set) w (drainParts s) s) ∧
      (v = writeImageList (u.persist.imageList.map fun y => if y.seq = x.seq then { y with set := 1 - x.set, startW := w, rounds := k } else y) { u with persist := { u.persist with relocAt := none } })) ∧
    (∃ x, ∃ s : State, drainRunning s = false ∧ journalFull s = false ∧ s.map.loaded = true ∧ imageDue s = some x ∧
      drainParts s = []) ∧
    (∃ c, ∃ inp : List Byte, ∃ s : State, Takes s c 0xC310 ∧ inp.length = 4 ∧ 1 ≤ le inp 2 2 ∧ le inp 2 2 ≤ 64 ∧
      le inp 0 2 + le inp 2 2 ≤ 512 ∧ 32 + 16 * le inp 2 2 ≤ payloadLimit s c) ∧
    (∃ c, ∃ inp : List Byte, ∃ s : State, Takes s c 0xC311 ∧ inp.length = 8 ∧
      driftPolicyOk (driftPolicyOf inp s.drift) = true) ∧
    (∃ c, ∃ inp : List Byte, ∃ s : State, Takes s c 0xC312 ∧ inp.length = 3 ∧ byteAt inp 0 < 36 ∧ byteAt inp 1 < 8 ∧
      byteAt inp 2 < 16 ∧ (dieOf s (dieId (byteAt inp 0) (byteAt inp 1) (byteAt inp 2))).present = true ∧
      105 ≤ payloadLimit s c) :=
  ⟨⟨w0, by decide +kernel⟩,
   ⟨(dieSets { w0 with drift := { w0.drift with sweepDue := true, activeAt := some 0 } }).foldl (weatherOne true) { w0 with drift := { w0.drift with sweepDue := true, activeAt := some 0 } }, { w0 with drift := { w0.drift with sweepDue := true, activeAt := some 0 } }, rfl, by decide +kernel, rfl, rfl, by decide +kernel, rfl⟩,
   ⟨w0, by decide +kernel⟩,
   ⟨0, { w0 with media := { w0.media with chans := [(0, chUp)] } }, by decide +kernel⟩,
   ⟨5, win0, _, { w0 with drift := { w0.drift with windows := [win0] }, place := { w0.place with groups := [(5, gr .closed)] } }, by decide +kernel, by decide +kernel, by decide +kernel, rfl⟩,
   ⟨_, _, { w0 with drift := { w0.drift with readDue := [5] }, place := { w0.place with groups := [(5, gr .closed)] } }, by decide +kernel, by decide +kernel, rfl, rfl⟩,
   ⟨w0, by decide +kernel⟩,
   ⟨5, { w0 with drift := { w0.drift with top := [(5, .overdue)] }, place := { w0.place with groups := [(5, gr .closed)] } }, by decide +kernel⟩,
   ⟨5, { w0 with drift := { w0.drift with top := [(5, .due)] }, place := { w0.place with groups := [(5, gr .closed)] } }, by decide +kernel⟩,
   ⟨run0, _, _, _, _, _, wReloc, by decide +kernel, by decide +kernel, by decide +kernel, by decide +kernel, rfl, by decide +kernel, by decide +kernel, rfl, rfl, by decide +kernel, rfl, rfl⟩,
   ⟨run0, { wReloc with place := { wReloc.place with degraded := (List.range 512).map fun d => (d, 0) } }, by decide +kernel⟩,
   ⟨8, [0, 0, 64, 0], w0, by decide +kernel⟩,
   ⟨8, [55, 0x41, 20, 180, 0, 16, 0, 0], w0, by decide +kernel⟩,
   ⟨8, [0, 0, 0], { w0 with media := { w0.media with dies := [(0, dieUp)] } }, by decide +kernel⟩⟩

/-- A state and operands for each clause of MediaChannelCommandsComplete that has hypotheses. -/
theorem wit_MediaChannelCommandsComplete :
    (∃ c : Fin 36, ∃ found : List (List (List Byte × List Byte)), ∃ pk, ∃ dies, ∃ s : State, (chanOf s c).mode = .down ∧
      (chanOf s c).mreset = false ∧ (chanOf s c).probed = false ∧ s.start.phases.contains 6 = true ∧
      (pk = ((found.take 8).map fun l => l.take 16)) ∧
      (dies = (pk.zipIdx.flatMap fun a => a.1.zipIdx.map fun b => (dieId c a.2 b.2, b.1)))) ∧
    (∃ c : Fin 36, ∃ first, ∃ r, ∃ s : State, (chanOf s c).mode = .training ∧ trainAll (beginTraining c s) c first = some r) ∧
    (∃ c : Fin 36, ∃ first, ∃ second, ∃ r, ∃ s : State, (chanOf s c).mode = .training ∧
      trainAll (beginTraining c s) c first = none ∧ trainAll (beginTraining c s) c second = some r) ∧
    (∃ c : Fin 36, ∃ first, ∃ second, ∃ r, ∃ s : State, (chanOf s c).mode = .training ∧ r = beginTraining c s ∧
      trainAll r c first = none ∧ trainAll r c second = none ∧ (chanOf s c).trainCci = none) ∧
    (∃ c : Fin 36, ∃ sweep : List TrainSweep, ∃ x, ∃ news, ∃ s : State, (chanOf s c).mode = .inService ∧ retrainDue s c = true ∧
      lull s c = true ∧ otherTrains s c = false ∧ drainRunning s = false ∧
      x = { noteRetrain (chanOf s c) with retrains := (chanOf s c).retrains + 1, wantRetrain := false, checkTimes := [] } ∧
      (news = (x.pkgs.map fun p => (p.1, retrainPkg s c p.1 p.2 (sweepOf sweep p.1)))) ∧
      ((news.any fun p => p.2.isNone) = false)) ∧
    (∃ c : Fin 36, ∃ sweep : List TrainSweep, ∃ x, ∃ news, ∃ s : State, (chanOf s c).mode = .inService ∧ retrainDue s c = true ∧
      lull s c = true ∧ otherTrains s c = false ∧ drainRunning s = false ∧
      x = { noteRetrain (chanOf s c) with retrains := (chanOf s c).retrains + 1, wantRetrain := false, checkTimes := [] } ∧
      (news = (x.pkgs.map fun p => (p.1, retrainPkg s c p.1 p.2 (sweepOf sweep p.1)))) ∧
      ((news.any fun p => p.2.isNone) = true)) ∧
    (∃ c : Fin 36, ∃ r, ∃ s : State, (chanOf s c).probed = true ∧ r = assertMreset c (loseWork c s) ∧
      (chanOf r c).mode ≠ .failed) ∧
    (∃ c : Fin 36, ∃ n, ∃ s : State, (chanOf s c).pgLost = some n ∧ n + 100000000 ≤ s.time.mono ∧
      (((List.range 64).filter fun r => (railRole (blobOf s) r == 9 || railRole (blobOf s) r == 10) && (railChannels (blobOf s) r).any fun d => [c].any fun e => e.val == d) = []) ∧
      (chanOf s c).reenabled = false) ∧
    (∃ d, ∃ ds, ∃ s : State, slotOfDie s d = some ds) ∧
    (∃ d, ∃ ds, ∃ r, ∃ u, ∃ s : State, slotOfDie s d = some ds ∧ r = busDone (chanOfDie d) (.status d) s ∧
      u = setChan (chanOfDie d) { chanOf r (chanOfDie d) with invalid := tdel (chanOf r (chanOfDie d)).invalid (16 * pkgOfDie d + idxOfDie d), retrained := (chanOf r (chanOfDie d)).retrained.filter (· != 16 * pkgOfDie d + idxOfDie d) } r ∧
      (dieOf u d).array.isSome = true) ∧
    (∃ d, ∃ ds, ∃ r, ∃ u, ∃ s : State, ∃ w, slotOfDie s d = some ds ∧ r = busDone (chanOfDie d) (.status d) s ∧
      u = setChan (chanOfDie d) { chanOf r (chanOfDie d) with invalid := tdel (chanOf r (chanOfDie d)).invalid (16 * pkgOfDie d + idxOfDie d), retrained := (chanOf r (chanOfDie d)).retrained.filter (· != 16 * pkgOfDie d + idxOfDie d) } r ∧
      (dieOf u d).array = none ∧ (busyOf u ds).cur = some w) ∧
    (∃ d, ∃ ds, ∃ w, ∃ s : State, slotOfDie s d = some ds ∧ (dieOf s d).array.isSome = true ∧ (busyOf s ds).cur = some w ∧
      w.kind.isReset = false ∧ journalFull s = false ∧ 10 * (dieMax (dieOf s d)).1 < s.time.mono - (busyOf s ds).opAt) ∧
    (∃ d, ∃ ds, ∃ w, ∃ s : State, slotOfDie s d = some ds ∧ (dieOf s d).array.isSome = true ∧ (busyOf s ds).cur = some w ∧
      w.kind.isReset = false ∧ 2 * (dieMax (dieOf s d)).1 < s.time.mono - (busyOf s ds).opAt ∧
      s.time.mono - (busyOf s ds).opAt ≤ 10 * (dieMax (dieOf s d)).1 ∧
      (busyOf s ds).failed.contains (busyOf s ds).quad = false) ∧
    (∃ d, ∃ ds, ∃ w, ∃ s : State, slotOfDie s d = some ds ∧ (dieOf s d).array.isSome = true ∧ (busyOf s ds).cur = some w ∧
      w.kind.isReset = true ∧ journalFull s = false ∧ 10 * (dieMax (dieOf s d)).2 < s.time.mono - (busyOf s ds).opAt) ∧
    (∃ c, ∃ inp : List Byte, ∃ s : State, Takes s c 0xC350 ∧ inp.length = 1 ∧ byteAt inp 0 < 36 ∧
      24 + 16 * (chanPkgs s (byteAt inp 0)).length ≤ payloadLimit s c) ∧
    (∃ c : Fin 10, ∃ inp : List Byte, ∃ s : State, Takes s c 0xC351 ∧ bgBusy s c = false ∧ inp.length = 1 ∧ byteAt inp 0 < 36 ∧
      otherTrains s (byteAt inp 0) = false ∧ (chanOf s (byteAt inp 0)).trainCci = none ∧
      (chanOf s (byteAt inp 0)).mode = .inService) ∧
    (∃ c, ∃ inp : List Byte, ∃ s : State, Takes s c 0xC352 ∧ inp.length = 3 ∧ byteAt inp 0 < 36 ∧ byteAt inp 1 < 8 ∧
      byteAt inp 2 < 16 ∧ (dieOf s (dieId (byteAt inp 0) (byteAt inp 1) (byteAt inp 2))).present = true ∧
      1028 ≤ payloadLimit s c) ∧
    (∃ c, ∃ inp : List Byte, ∃ s : State, Takes s c 0xCF00 ∧ inp.length = 2 ∧ byteAt inp 0 < 36 ∧ byteAt inp 1 = 0 ∧
      (chanOf s (byteAt inp 0)).mode = .inService ∧ (chanOf s (byteAt inp 0)).pgLost = none ∧
      otherTrains s (byteAt inp 0) = false ∧ (chanOf s (byteAt inp 0)).trainCci = none ∧ chanBusy s (byteAt inp 0) = false) ∧
    (∃ c, ∃ inp : List Byte, ∃ s : State, Takes s c 0xCF00 ∧ inp.length = 2 ∧ byteAt inp 0 < 36 ∧ byteAt inp 1 = 1 ∧
      (chanOf s (byteAt inp 0)).mode = .outOfService ∧ (chanOf s (byteAt inp 0)).pgLost = none ∧ s.power.mode ≠ .dormant) ∧
    (∃ c, ∃ inp : List Byte, ∃ d, ∃ k, ∃ ch, ∃ n, ∃ u, ∃ s : State, Takes s c 0xCF01 ∧ inp.length = 14 + le inp 12 2 ∧
      ch = byteAt inp 0 ∧ ch < 36 ∧ n = byteAt inp 1 ∧ ((n = 4 ∨ n = 6 ∨ n = 10)) ∧ le inp 12 2 ≤ 1184 ∧
      (chanOf s ch).mode = .outOfService ∧ (chanOf s ch).pgLost = none ∧
      parseCmd ((inp.drop 2).take (n - 1) ++ [BitVec.ofNat 8 (crc8 ((inp.drop 2).take (n - 1)))]) = some (d, k) ∧
      ((∀ st len b, k ≠ .data st len b)) ∧
      u = dieRun (dieId ch ((drawNat s).1 % 8) d) k (setChan ch { chanOf s ch with resp := [] } (drawNat s).2) ∧
      (mediaCommandOut u (some (d, k)) (chanOf u ch).resp).1.length ≤ payloadLimit s c) :=
  ⟨⟨0, [[([], [])]], [[([], [])]], [(0, ([], []))], wC { ChanSt.down with mreset := false }, by decide +kernel⟩,
   ⟨0, [sweep1], (63, [(0, { rd0 := 63, rd1 := 63, wr0 := 63, wr1 := 63, vref := 30, run := 128, temp := 0 })]), wC { chUp with mode := .training, found := [1] }, by decide +kernel⟩,
   ⟨0, [], [sweep1], (63, [(0, { rd0 := 63, rd1 := 63, wr0 := 63, wr1 := 63, vref := 30, run := 128, temp := 0 })]), wC { chUp with mode := .training, found := [1] }, by decide +kernel⟩,
   ⟨0, [], [], beginTraining (0 : Fin 36) (wC { chUp with mode := .training, found := [1] }), wC { chUp with mode := .training, found := [1] }, by decide +kernel⟩,
   ⟨0, [], { noteRetrain { chUp with wantRetrain := true } with retrains := 1, wantRetrain := false, checkTimes := [] }, [], wC { chUp with wantRetrain := true }, by decide +kernel⟩,
   ⟨0, [], { noteRetrain { chUp with wantRetrain := true, pkgs := [(0, pt0)] } with retrains := 1, wantRetrain := false, checkTimes := [] }, [(0, none)], wC { chUp with wantRetrain := true, pkgs := [(0, pt0)] }, by decide +kernel⟩,
   ⟨0, assertMreset (0 : Fin 36) (loseWork (0 : Fin 36) (wC { chUp with probed := true })), wC { chUp with probed := true }, by decide +kernel⟩,
   ⟨0, 0, { wC { chUp with pgLost := some 0 } with power := { w0.power with inUse := some [] } }, by decide +kernel⟩,
   ⟨(0 : Nat), (0 : Nat), wB (some (.prog 0 0)) bs1, by decide +kernel⟩,
   ⟨(0 : Nat), (0 : Nat), _, _, wB (some (.prog 0 0)) bs1, by decide +kernel, rfl, rfl, by decide +kernel⟩,
   ⟨(0 : Nat), (0 : Nat), _, _, wB none bs1, frame1, by decide +kernel, rfl, rfl, by decide +kernel, by decide +kernel⟩,
   ⟨0, 0, frame1, wB (some (.prog 0 0)) bs1, by decide +kernel⟩,
   ⟨0, 0, frame1, wB (some (.prog 0 0)) { bs1 with opAt := w0.time.mono - 60000 }, by decide +kernel⟩,
   ⟨0, 0, { prio := 5, kind := .reset 5 false }, wB (some (.reset 5)) { bs1 with cur := some { prio := 5, kind := .reset 5 false } }, by decide +kernel⟩,
   ⟨8, List.replicate 1 0, w0, by decide +kernel⟩,
   ⟨8, [0], wC chUp, by decide +kernel⟩,
   ⟨8, [0, 0, 0], wC chUp, by decide +kernel⟩,
   ⟨8, [0, 0], wC chUp, by decide +kernel⟩,
   ⟨8, [0, 1], wC { chUp with mode := .outOfService }, by decide +kernel⟩,
   ⟨8, [0, 4] ++ [0x50, 0, 0] ++ List.replicate 9 0, 0, .status, 0, 4, _, { w0 with media := { w0.media with chans := [(0, { chUp with mode := .outOfService })] } }, by decide +kernel, by decide +kernel, by decide +kernel, by decide, by decide +kernel, by decide, by decide +kernel, by decide +kernel, by decide +kernel, by decide +kernel, (by intro _ _ _ h; cases h), rfl, by decide +kernel⟩⟩

/-- A state and operands for each clause of DieReadCommandsComplete that has hypotheses. -/
theorem wit_DieReadCommandsComplete :
    (∃ d, ∃ e, ∃ s : State, DieReady s d ∧ (dieOf s d).array = none ∧ (engOf (dieOf s d) e).st = .idle) ∧
    (∃ d, ∃ s : State, DieReady s d ∧ (dieOf s d).array.isSome = true ∧ (dieOf s d).suspended = false) ∧
    (∃ d, ∃ s : State, DieReady s d ∧ (dieOf s d).array = none ∧ (dieOf s d).e0.st = .idle) ∧
    (∃ d, ∃ e, ∃ st, ∃ len, ∃ s : State, DieReady s d ∧ (engOf (dieOf s d) e).full = true ∧
      st + len ≤ (engOf (dieOf s d) e).valid) ∧
    (∃ d, ∃ e, ∃ st, ∃ len, ∃ s : State, DieReady s d ∧ (engOf (dieOf s d) e).full = true ∧
      (engOf (dieOf s d) e).valid < st + len) ∧
    (∃ d, ∃ e, ∃ s : State, (engOf (dieOf s d) e).st = .sensing) ∧
    (∃ d, ∃ e, ∃ s : State, (engOf (dieOf s d) e).st = .lead ∧ (engOf (dieOf s d) e).full = true) ∧
    (∃ d, ∃ e, ∃ s : State, (engOf (dieOf s d) e).st = .lead ∧ (engOf (dieOf s d) e).full = false) ∧
    (∃ d, ∃ s : State, DieReady s d) ∧
    (∃ c : Fin 36, ∃ s : State, mrdyLow s c = true) :=
  ⟨⟨0, true, wD dieUp, by decide +kernel⟩,
   ⟨0, wD { dieUp with array := some (.prog 0 0) }, by decide +kernel⟩,
   ⟨0, wD dieUp, by decide +kernel⟩,
   ⟨0, true, 60, 4, wD { dieUp with e1 := { SenseEng.idle with full := true, valid := 64 } }, by decide +kernel⟩,
   ⟨0, true, 60, 5, wD { dieUp with e1 := { SenseEng.idle with full := true, valid := 64 } }, by decide +kernel⟩,
   ⟨0, true, wD { dieUp with e1 := { SenseEng.idle with st := .sensing } }, by decide +kernel⟩,
   ⟨0, true, wD { dieUp with e1 := { SenseEng.idle with st := .lead, full := true } }, by decide +kernel⟩,
   ⟨0, true, wD { dieUp with e1 := { SenseEng.idle with st := .lead } }, by decide +kernel⟩,
   ⟨0, wD dieUp, by decide +kernel⟩,
   ⟨0, wD { dieUp with e0 := { dieUp.e0 with st := .lead } }, by decide +kernel⟩⟩

/-- A state and operands for each clause of DieArrayCommandsComplete that has hypotheses. -/
theorem wit_DieArrayCommandsComplete :
    (∃ d, ∃ s : State, DieReady s d ∧ arrayFree (dieOf s d) = true) ∧
    (∃ d, ∃ s : State, DieReady s d ∧ arrayFree (dieOf s d) = false) ∧
    (∃ d, ∃ st, ∃ len, ∃ s : State, DieReady s d ∧ (dieOf s d).setup.isSome = true ∧ 8 * st + 8 * len ≤ 592) ∧
    (∃ d, ∃ tile, ∃ seg, ∃ s : State, DieReady s d ∧ (dieOf s d).setup = some (tile, seg) ∧
      (dieOf s d).bufSet = BitVec.allOnes 592 ∧ (dieOf s d).trainMode ≠ 2) ∧
    (∃ d, ∃ s : State, DieReady s d ∧ arrayFree (dieOf s d) = true) ∧
    (∃ d, ∃ f, ∃ v, ∃ s : State, DieReady s d ∧ (dieOf s d).array = none ∧ enginesIdle (dieOf s d) = true ∧
      featureOk f v = true ∧ ((4 ≤ f ∨ idxOfDie d = 0))) ∧
    (∃ d, ∃ s : State, DieReady s d) ∧
    (∃ d, ∃ s : State, DieReady s d ∧ (dieOf s d).array.isSome = true ∧ (dieOf s d).suspended = false) ∧
    (∃ d, ∃ s : State, DieReady s d ∧ (dieOf s d).suspended = true) ∧
    (∃ c : Fin 36, ∃ p : Fin 8, ∃ s : State, DieReady s (dieId c p 0)) ∧
    (∃ c : Fin 36, ∃ p : Fin 8, ∃ s : State, DieReady s (dieId c p 0) ∧
      (((pkgDies (chanOfDie (dieId c p 0)) (pkgOfDie (dieId c p 0))).all fun i => (dieOf s i).array.isNone && enginesIdle (dieOf s i)) = true)) ∧
    (∃ c : Fin 36, ∃ cmd, ∃ s : State, parseCmd cmd = none ∧ (chanOf s c).mreset = false) ∧
    (∃ d, ∃ tile, ∃ seg, ∃ s : State, (dieOf s d).array = some (.prog tile seg) ∧ (dieOf s d).suspended = false ∧
      segBlank (dieOf s d) tile seg = true) ∧
    (∃ d, ∃ tile, ∃ s : State, (dieOf s d).array = some (.reset tile) ∧ (dieOf s d).suspended = false) :=
  ⟨⟨0, wD dieUp, by decide +kernel⟩,
   ⟨0, wD { dieUp with suspended := true }, by decide +kernel⟩,
   ⟨0, 0, 74, wD { dieUp with setup := some (0, 0) }, by decide +kernel⟩,
   ⟨0, 1, 131071, wD { dieUp with setup := some (1, 131071), bufSet := BitVec.allOnes 592 }, by decide +kernel⟩,
   ⟨0, wD dieUp, by decide +kernel⟩,
   ⟨0, 3, 60, wD dieUp, by decide +kernel⟩,
   ⟨0, wD dieUp, by decide +kernel⟩,
   ⟨0, wD { dieUp with array := some (.reset 3) }, by decide +kernel⟩,
   ⟨0, wD { dieUp with suspended := true }, by decide +kernel⟩,
   ⟨0, 0, wD dieUp, by decide +kernel⟩,
   ⟨0, 0, wD dieUp, by decide +kernel⟩,
   ⟨0, [0, 0, 0], wD dieUp, by decide +kernel⟩,
   ⟨0, 1, 2, wD { dieUp with array := some (.prog 1 2) }, by decide +kernel⟩,
   ⟨0, 1, wD { dieUp with array := some (.reset 1) }, by decide +kernel⟩⟩

/-- A state and operands for each clause of DramChannelEventsComplete that has hypotheses. -/
theorem wit_DramChannelEventsComplete :
    (∃ c : Fin 8, ∃ first, ∃ second, ∃ l, ∃ s : State, (dramOf s c).cci = none ∧ (dramOf s c).mode = .training ∧
      drainRunning s = false ∧ (dramOf s c).thaw = false ∧ (dramOf s c).spd = false ∧ s.start.phases.contains 6 = true ∧
      dramTrain first second = some l) ∧
    (∃ c : Fin 8, ∃ first, ∃ second, ∃ s : State, (dramOf s c).cci = none ∧ (dramOf s c).mode = .training ∧
      drainRunning s = false ∧ (dramOf s c).thaw = false ∧ (dramOf s c).spd = false ∧ s.start.phases.contains 6 = true ∧
      dramTrain first second = none) ∧
    (∃ s : State, s.start.phases.contains 8 = true ∧ s.start.held = false ∧ s.dram.filled = false) ∧
    (∃ c : Fin 8, ∃ s : State, (dramOf s c).mode = .inService ∧ 2 ≤ (dramOf s c).crcAlerts) ∧
    (∃ c : Fin 8, ∃ s : State, (dramOf s c).mode = .inService) ∧
    (∃ c : Fin 8, ∃ l, ∃ r, ∃ u, ∃ s : State, (dramOf s c).mode = .inService ∧ s.dram.scrubEn = true ∧
      l = dramLoc (dramOf s c) (64 * (dramOf s c).scrubPos) ∧ r = openRow c l s ∧
      (dramOf r c).scrubPos + 1 < chanBursts (dramOf r c) ∧
      u = setDram c { dramOf r c with scrubPos := (dramOf r c).scrubPos + 1 } r) ∧
    (∃ c : Fin 8, ∃ x, ∃ xs, ∃ s : State, (dramOf s c).mode = .inService ∧ (dramOf s c).nbrQueue = x :: xs) ∧
    (∃ c : Fin 8, ∃ b : Fin 4, ∃ s : State, (dramOf s c).mode = .inService ∧ bankRead s c b = false ∧
      refreshing s ((c.val + 4) % 8) b = false) ∧
    (∃ c : Fin 8, ∃ s : State, (dramOf s c).mode = .inService) ∧
    (∃ c : Fin 8, ∃ s : State, (dramOf s c).spd = true ∧ (dramOf s c).dimms = []) ∧
    (∃ c : Fin 8, ∃ s : State, (dramOf s c).mode = .inService ∧ (dramOf s c).retrain = true ∧ (dramOf s c).lanes = [] ∧
      hottest (dramOf s c).temps = none) ∧
    (∃ c : Fin 8, ∃ s : State, (dramOf s c).mode = .inService ∧ s.power.mode = .dormant) ∧
    (∃ c : Fin 8, ∃ temp, ∃ s : State, (dramOf s c).mode = .selfRefresh ∧ s.power.mode = .active ∧
      (16 * temp - (dramOf s c).trainTemp).natAbs < 160) :=
  ⟨⟨0, [], lanes1, (dramTrain [] lanes1).getD [], wR DramCh.down, by decide +kernel⟩,
   ⟨0, [], [], wR DramCh.down, by decide +kernel⟩,
   ⟨w0, by decide +kernel⟩,
   ⟨0, wR { dIn with crcAlerts := 2 }, by decide +kernel⟩,
   ⟨0, wR dIn, by decide +kernel⟩,
   ⟨0, _, _, _, wR { dIn with crcAlerts := 0 }, by decide +kernel, by decide +kernel, rfl, rfl, scrub_ok, rfl⟩,
   ⟨0, (0, 0, 1), [], wR { dIn with nbrQueue := [(0, 0, 1)] }, by decide +kernel⟩,
   ⟨0, 3, wR dIn, by decide +kernel⟩,
   ⟨0, wR dIn, by decide +kernel⟩,
   ⟨0, wR { DramCh.down with spd := true }, by decide +kernel⟩,
   ⟨0, wR { dIn with retrain := true }, by decide +kernel⟩,
   ⟨0, { wR dIn with power := { w0.power with mode := .dormant } }, by decide +kernel⟩,
   ⟨0, 9, wR { dIn with mode := .selfRefresh }, by decide +kernel⟩⟩

/-- A state and operands for each clause of FrostAndThawCommandsComplete that has hypotheses. -/
theorem wit_FrostAndThawCommandsComplete :
    (∃ c : Fin 8, ∃ s : State, s.dram.frostHold ≠ 0 ∧ thawDue s (dramOf s c) ≤ s.time.mono ∧ thawsSpent s (dramOf s c) = false ∧
      mayThaw s c = true) ∧
    (∃ c : Fin 8, ∃ u, ∃ s : State, (dramOf s c).mode = .thawing ∧ (dramOf s c).step = 2 ∧ drainRunning s = false ∧
      u = setDram c { dramOf s c with step := 3 } s) ∧
    (∃ c : Fin 8, ∃ s : State, (dramOf s c).mode = .thawing ∧ (dramOf s c).step = 3 ∧ drainRunning s = false) ∧
    (∃ c : Fin 8, ∃ s : State, (dramOf s c).mode = .thawing ∧ (dramOf s c).step = 4 ∧ drainRunning s = false ∧
      s.map.mirror = false ∧ (dramOf s c).cci = none) ∧
    (∃ c : Fin 8, ∃ s : State, (dramOf s c).mode = .frozen ∧ (dramOf s c).cci = none ∧ s.dram.frostHold ≠ 0 ∧
      thawDue s (dramOf s c) + 86400000000000 ≤ s.time.mono ∧ thawsSpent s (dramOf s c) = true) ∧
    (∃ n, ∃ x, ∃ s : State, tfind s.back.slots n = some x ∧ x.pinned = true ∧ drainRunning s = false ∧ x.deferred = true ∧
      (dramOf s (dirChan s n)).mode = .failed) ∧
    (∃ n, ∃ x, ∃ s : State, tfind s.back.slots n = some x ∧ x.pinned = true ∧ drainRunning s = false ∧ x.deferred = false ∧
      (dramOf s (dirChan s n)).mode = .failed) ∧
    (∃ c, ∃ inp : List Byte, ∃ s : State, Takes s c 0xC360 ∧ inp.length = 1 ∧ byteAt inp 0 < 8 ∧ 152 ≤ payloadLimit s c) ∧
    (∃ c, ∃ inp : List Byte, ∃ s : State, Takes s c 0xC361 ∧ inp.length = 4 ∧ dramPolicyOk (dramPolicyOf inp s.dram) = true) ∧
    (∃ c, ∃ inp : List Byte, ∃ f, ∃ s : State, Takes s c 0xC362 ∧ inp.length = 12 ∧ le inp 1 3 = 0 ∧ byteAt inp 0 < 8 ∧
      le inp 8 4 ≤ 4096 ∧ le inp 4 4 + le inp 8 4 ≤ 12320 ∧ (dramOf s (byteAt inp 0)).frost = some f ∧
      le inp 8 4 ≤ payloadLimit s c) ∧
    (∃ c : Fin 10, ∃ inp : List Byte, ∃ s : State, Takes s c 0xC363 ∧ bgBusy s c = false ∧ inp.length = 1 ∧ byteAt inp 0 < 8 ∧
      (dramOf s (byteAt inp 0)).mode = .failed) ∧
    (∃ c : Fin 10, ∃ inp : List Byte, ∃ u, ∃ s : State, Takes s c 0xC363 ∧ bgBusy s c = false ∧ inp.length = 1 ∧
      byteAt inp 0 < 8 ∧ (dramOf s (byteAt inp 0)).mode = .frozen ∧ (dramOf s (byteAt inp 0)).cci = none ∧
      u = setDram (byteAt inp 0) { dramOf s (byteAt inp 0) with cci := some c.val } s ∧ mayThaw u (byteAt inp 0) = true) :=
  ⟨⟨0, wR { dIn with mode := .frozen }, by decide +kernel⟩,
   ⟨0, setDram 0 { ({ dIn with mode := .thawing, step := 2 } : DramCh) with step := 3 } (wR { dIn with mode := .thawing, step := 2 }), wR { dIn with mode := .thawing, step := 2 }, by decide +kernel⟩,
   ⟨0, wR { dIn with mode := .thawing, step := 3 }, by decide +kernel⟩,
   ⟨0, { wR { dIn with mode := .thawing, step := 4 } with map := { w0.map with mirror := false } }, by decide +kernel⟩,
   ⟨0, wR { dIn with mode := .frozen, autoThaws := [1000000000000000] }, by decide +kernel⟩,
   ⟨0, { slot0 with pinned := true, deferred := true }, { w0 with back := { w0.back with slots := [(0, { slot0 with pinned := true, deferred := true })] }, dram := { w0.dram with chans := [(4, { dIn with mode := .failed })] } }, by decide +kernel⟩,
   ⟨0, { slot0 with pinned := true }, { w0 with back := { w0.back with slots := [(0, { slot0 with pinned := true })] }, dram := { w0.dram with chans := [(4, { dIn with mode := .failed })] } }, by decide +kernel⟩,
   ⟨8, List.replicate 1 0, w0, by decide +kernel⟩,
   ⟨8, [1, 0, 0, 0xC0], w0, by decide +kernel⟩,
   ⟨8, [0, 0, 0, 0, 32, 32, 0, 0, 0, 16, 0, 0], fr0, wR { dIn with frost := some fr0 }, by decide +kernel⟩,
   ⟨8, [0], wR { dIn with mode := .failed }, by decide +kernel⟩,
   ⟨8, [0], setDram 0 { ({ dIn with mode := .frozen } : DramCh) with cci := some 8 } (wR { dIn with mode := .frozen }), wR { dIn with mode := .frozen }, by decide +kernel⟩⟩

/-- A state and operands for each clause of FabricPortEventsComplete that has hypotheses. -/
theorem wit_FabricPortEventsComplete :
    (∃ p : Fin 8, ∃ w : Fin 5, ∃ s : State, (((portOf s p).st = .training ∨ (portOf s p).st = .retraining)) ∧
      ((w.val = 4 ∨ w.val = 2 ∨ w.val = 1))) ∧
    (∃ p : Fin 8, ∃ s : State, (portOf s p).st.flits = true) ∧
    (∃ p : Fin 8, ∃ s : State, (portOf s p).st = .retraining ∧ (portOf s p).since + 100000000 ≤ s.time.mono) ∧
    (∃ p : Fin 8, ∃ s : State, (portOf s p).st = .disabled ∧ (portOf s p).byRetrain = true ∧
      (portOf s p).since + 60000000000 ≤ s.time.mono) ∧
    (∃ p : Fin 8, ∃ f : Flit, ∃ s : State, (portOf s p).st.flits = true ∧ f.crcOk = false) ∧
    (∃ p : Fin 8, ∃ f : Flit, ∃ a, ∃ b, ∃ s : State, ∃ z, (portOf s p).st.flits = true ∧ f.crcOk = true ∧ f.nak = false ∧
      z = readFlit f (noteFlit s.time.mono a b (portOf s p)) ∧ f.payload = true ∧ f.seq = z.rxNext) ∧
    (∃ p : Fin 8, ∃ f : Flit, ∃ a, ∃ b, ∃ s : State, ∃ z, (portOf s p).st.flits = true ∧ f.crcOk = true ∧ f.nak = false ∧
      z = readFlit f (noteFlit s.time.mono a b (portOf s p)) ∧ f.payload = true ∧ f.seq ≠ z.rxNext) ∧
    (∃ p : Fin 8, ∃ f : Flit, ∃ a, ∃ b, ∃ s : State, ∃ z, (portOf s p).st.flits = true ∧ f.crcOk = true ∧ f.nak = false ∧
      z = readFlit f (noteFlit s.time.mono a b (portOf s p)) ∧ f.payload = false) ∧
    (∃ p : Fin 8, ∃ f : Flit, ∃ s : State, (portOf s p).st.flits = true ∧ f.crcOk = true ∧ f.nak = true ∧ f.payload = false) ∧
    (∃ p : Fin 8, ∃ f, ∃ fs, ∃ s : State, (portOf s p).retry = f :: fs ∧ f.at_ + 2000 ≤ s.time.mono) ∧
    (∃ p : Fin 8, ∃ n, ∃ s : State, (portOf s p).nakAt = some n ∧ (portOf s p).st.flits = true ∧ n + 1000 ≤ s.time.mono) ∧
    (∃ p : Fin 8, ∃ s : State, (portOf s p).st.flits = true ∧
      (portOf s p).helloAt + (portOf s p).helloMs * 1000000 ≤ s.time.mono) ∧
    (∃ p : Fin 8, ∃ h, ∃ s : State, ∃ u, takeMsg p WireMsg.isHello s = some (.hello h, u) ∧ h.src ≠ u.fabric.devId) ∧
    (∃ p : Fin 8, ∃ h, ∃ s : State, ∃ u, takeMsg p WireMsg.isHello s = some (.hello h, u) ∧ h.src = u.fabric.devId ∧
      h.serial = u.mgmt.serial ∧ h.src ≠ 0xFFF) ∧
    (∃ p : Fin 8, ∃ h, ∃ n, ∃ s : State, (portOf s p).hello = some (h, n) ∧ (portOf s p).st.flits = true ∧
      n + (portOf s p).deadMult * (portOf s p).helloMs * 1000000 ≤ s.time.mono) ∧
    (∃ p : Fin 8, ∃ l, ∃ s : State, ∃ u, takeMsg p WireMsg.isLsa s = some (.lsa l, u)) ∧
    (∃ p : Fin 8, ∃ o, ∃ q, ∃ n, ∃ s : State, ∃ u, takeMsg p WireMsg.isAck s = some (.ack o q n, u)) ∧
    (∃ p : Fin 8, ∃ l, ∃ n, ∃ s : State, s.fabric.unacked = [(p.val, l, n)] ∧ n + 100000000 ≤ s.time.mono) ∧
    (∃ o, ∃ l, ∃ s : State, s.fabric.db = [(o, l)] ∧ l.age + 1 < 1800) ∧
    (∃ o, ∃ l, ∃ s : State, s.fabric.db = [(o, l)] ∧ 1800 ≤ l.age + 1) ∧
    (∃ s : State, s.fabric.devId ≠ 0xFFF ∧
      ((tfind s.fabric.db s.fabric.devId = none ∨ s.fabric.lsaAt + 600000000000 ≤ s.time.mono))) ∧
    (∃ s : State, s.mgmt.fabric.mode = .running ∧ s.fabric.policy.autoId = true ∧ s.fabric.devId = 0xFFF ∧
      (((List.range 8).any fun p => (portOf s p).st.flits) = true) ∧ s.fabric.dbAt + 2000000000 ≤ s.time.mono ∧
      tfind s.fabric.db (crc16 (leBytes 8 s.mgmt.serial) % 4095) = none) ∧
    (∃ s : State, s.fabric.dirty = true ∧ s.fabric.dbAt + 5000000 ≤ s.time.mono ∧ s.mgmt.fabric.mode = .running ∧
      s.fabric.devId ≠ 0xFFF) ∧
    (∃ r, ∃ s : State, s.fabric.standby = some r ∧ s.mgmt.fabric.mode = .running) :=
  ⟨⟨0, 4, wP { pUp with st := .training }, by decide +kernel⟩,
   ⟨0, wP pUp, by decide +kernel⟩,
   ⟨0, wP { pUp with st := .retraining }, by decide +kernel⟩,
   ⟨0, wP { pUp with st := .disabled, byRetrain := true }, by decide +kernel⟩,
   ⟨0, { fl0 with crcOk := false }, wP pUp, by decide +kernel⟩,
   ⟨0, fl0, 0, 0, wP pUp, readFlit fl0 (noteFlit (wP pUp).time.mono 0 0 pUp), by decide +kernel⟩,
   ⟨0, { fl0 with seq := 5 }, 0, 0, wP pUp, readFlit ({ fl0 with seq := 5 } : Flit) (noteFlit (wP pUp).time.mono 0 0 pUp), by decide +kernel⟩,
   ⟨0, { fl0 with payload := false }, 0, 0, wP pUp, readFlit ({ fl0 with payload := false } : Flit) (noteFlit (wP pUp).time.mono 0 0 pUp), by decide +kernel⟩,
   ⟨0, { fl0 with nak := true, payload := false }, wP pUp, by decide +kernel⟩,
   ⟨0, { seq := 0, msg := .hello hello0, at_ := 0 }, [], wP { pUp with retry := [{ seq := 0, msg := .hello hello0, at_ := 0 }] }, by decide +kernel⟩,
   ⟨0, 0, wP { pUp with nakAt := some 0 }, by decide +kernel⟩,
   ⟨0, wP pUp, by decide +kernel⟩,
   ⟨0, hello0, wP { pUp with inbox := [.hello hello0] }, ((takeMsg 0 WireMsg.isHello (wP { pUp with inbox := [.hello hello0] })).getD (.hello hello0, w0)).2, by decide +kernel⟩,
   ⟨0, hello0, wOwn, ((takeMsg 0 WireMsg.isHello wOwn).getD (.hello hello0, w0)).2, by decide +kernel⟩,
   ⟨0, hello0, 0, wP { pUp with hello := some (hello0, 0) }, by decide +kernel⟩,
   ⟨0, lsa0, wP { pUp with inbox := [.lsa lsa0] }, ((takeMsg 0 WireMsg.isLsa (wP { pUp with inbox := [.lsa lsa0] })).getD (.lsa lsa0, w0)).2, by decide +kernel⟩,
   ⟨0, 5, 1, 5, wP { pUp with inbox := [.ack 5 1 5] }, ((takeMsg 0 WireMsg.isAck (wP { pUp with inbox := [.ack 5 1 5] })).getD (.lsa lsa0, w0)).2, by decide +kernel⟩,
   ⟨0, lsa0, 0, { w0 with fabric := { w0.fabric with unacked := [(0, lsa0, 0)] } }, by decide +kernel⟩,
   ⟨5, lsa0, { w0 with fabric := { w0.fabric with db := [(5, lsa0)] } }, by decide +kernel⟩,
   ⟨5, { lsa0 with age := 1799 }, { w0 with fabric := { w0.fabric with db := [(5, { lsa0 with age := 1799 })] } }, by decide +kernel⟩,
   ⟨{ w0 with fabric := { w0.fabric with devId := 7 } }, by decide +kernel⟩,
   ⟨wP pUp, by decide +kernel⟩,
   ⟨{ w0 with fabric := { w0.fabric with devId := 7, dirty := true } }, by decide +kernel⟩,
   ⟨[], { w0 with fabric := { w0.fabric with standby := some [] } }, by decide +kernel⟩⟩

/-- A state and operands for each clause of FabricMessagesAndCommandsComplete that has hypotheses. -/
theorem wit_FabricMessagesAndCommandsComplete :
    (∃ p : Fin 8, ∃ m, ∃ n, ∃ s : State, (portOf s p).inbox.find? (relayable s.fabric.devId (drainRunning s)) = some (.routed m) ∧
      m.dst ≠ 0xFFF ∧ s.fabric.devId ≠ 0xFFF ∧ s.fabric.policy.relayEn = true ∧ n = { m with vc := m.vc + 1 }) ∧
    (∃ p : Fin 8, ∃ m, ∃ s : State, ∃ u, (portOf s p).inbox.find? (relayable s.fabric.devId (drainRunning s)) = some (.routed m) ∧
      (takeMsg p (fun w => w == .routed m) s = some (.routed m, u)) ∧ m.dst = 0xFFF) ∧
    (∃ p : Fin 8, ∃ m, ∃ s : State, ∃ u, (portOf s p).inbox.find? (relayable s.fabric.devId (drainRunning s)) = some (.routed m) ∧
      (takeMsg p (fun w => w == .routed m) s = some (.routed m, u)) ∧ m.dst ≠ 0xFFF ∧
      ((s.fabric.devId = 0xFFF ∨ s.fabric.policy.relayEn = false))) ∧
    (∃ p : Fin 8, ∃ bad : Bool, ∃ m, ∃ v, ∃ n, ∃ w, ∃ s : State, ∃ u, takeLocal p .rd s = some (.routed m, u) ∧
      w = (if bad then 1 else 0) ∧ v = noteIngress .rd w m u ∧ tagFor v (.fabric m.src) = some n) ∧
    (∃ p : Fin 8, ∃ m, ∃ v, ∃ n, ∃ s : State, ∃ u, takeLocal p .specRd s = some (.routed m, u) ∧ v = noteIngress .specRd 0 m u ∧
      tagFor v (.fabric m.src) = some n) ∧
    (∃ p : Fin 8, ∃ bad, ∃ m, ∃ v, ∃ n, ∃ s : State, ∃ u, takeLocal p .wr s = some (.routed m, u) ∧
      v = noteIngress .wr bad m u ∧ tagFor v (.fabric m.src) = some n) ∧
    (∃ p : Fin 8, ∃ bad, ∃ m, ∃ v, ∃ n, ∃ s : State, ∃ u, takeLocal p .wrPtl s = some (.routed m, u) ∧
      v = noteIngress .wrPtl bad m u ∧ tagFor v (.fabric m.src) = some n) ∧
    (∃ p : Fin 8, ∃ m, ∃ x, ∃ r, ∃ v, ∃ s : State, ∃ u, takeLocal p .data s = some (.routed m, u) ∧
      tfind u.fabric.remote m.tag = some x ∧ tfind u.ten.reqs m.tag = some r ∧
      (v = modReq m.tag (fun r => { r with devload := m.devload }) u) ∧ tagMatches v m.epoch = true ∧ x.waits = 0 ∧
      x.msg.gen = m.gen) ∧
    (∃ p : Fin 8, ∃ m, ∃ x, ∃ r, ∃ v, ∃ s : State, ∃ u, takeLocal p .data s = some (.routed m, u) ∧
      tfind u.fabric.remote m.tag = some x ∧ tfind u.ten.reqs m.tag = some r ∧
      (v = modReq m.tag (fun r => { r with devload := m.devload }) u) ∧ tagMatches v m.epoch = true ∧ x.msg.gen ≠ m.gen) ∧
    (∃ p : Fin 8, ∃ m, ∃ x, ∃ r, ∃ v, ∃ s : State, ∃ u, takeLocal p .cmp s = some (.routed m, u) ∧
      tfind u.fabric.remote m.tag = some x ∧ tfind u.ten.reqs m.tag = some r ∧
      (v = modReq m.tag (fun r => { r with devload := m.devload }) u) ∧ tagMatches v m.epoch = true ∧ x.waits = 0 ∧
      x.msg.gen = m.gen) ∧
    (∃ p : Fin 8, ∃ m, ∃ x, ∃ r, ∃ v, ∃ s : State, ∃ u, takeLocal p .cmp s = some (.routed m, u) ∧
      tfind u.fabric.remote m.tag = some x ∧ tfind u.ten.reqs m.tag = some r ∧
      (v = modReq m.tag (fun r => { r with devload := m.devload }) u) ∧ tagMatches v m.epoch = true ∧ x.msg.gen ≠ m.gen) ∧
    (∃ n, ∃ x, ∃ m, ∃ s : State, expiredReq s 0 = some (n, x) ∧ m = { x.msg with resend := true, epoch := epochTag s }) ∧
    (∃ n, ∃ x, ∃ r, ∃ h, ∃ v, ∃ w, ∃ s : State, expiredReq s 1 = some (n, x) ∧ tfind s.ten.reqs n = some r ∧
      r.op.isWrite = true ∧ r.src = .head h ∧
      v = dropHeld x.msg { s with fabric := { s.fabric with timeouts := s.fabric.timeouts + 1 } } ∧
      (w = modReq n (fun r => { r with devload := plainLoad v }) v)) ∧
    (∃ n, ∃ x, ∃ r, ∃ h, ∃ v, ∃ w, ∃ d, ∃ s : State, expiredReq s 1 = some (n, x) ∧ tfind s.ten.reqs n = some r ∧
      r.op.isWrite = false ∧ r.src = .head h ∧
      v = dropHeld x.msg { s with fabric := { s.fabric with timeouts := s.fabric.timeouts + 1 } } ∧
      (w = modReq n (fun r => { r with devload := plainLoad v }) v) ∧
      d = drawBits 512 (raiseDpa 0x030 0x6003 r.addr h (raiseDpa 0x030 0x3002 r.addr h w))) ∧
    (∃ c, ∃ s : State, Takes s c 0xC400 ∧ 280 ≤ payloadLimit s c) ∧
    (∃ c, ∃ inp : List Byte, ∃ s : State, Takes s c 0xC401 ∧ inp.length = 3 ∧ le inp 0 2 < 0xFFF ∧ s.fabric.devId = 0xFFF ∧
      tfind s.fabric.db (le inp 0 2) = none ∧ tfind s.fabric.db 0xFFF = none) ∧
    (∃ c, ∃ inp : List Byte, ∃ s : State, Takes s c 0xC401 ∧ inp.length = 3 ∧ le inp 0 2 ≤ 0xFFF ∧ s.fabric.devId ≠ 0xFFF ∧
      byteAt inp 2 % 2 = 0) ∧
    (∃ c, ∃ inp : List Byte, ∃ s : State, Takes s c 0xC402 ∧ inp.length = 8 ∧ fabPolicyOk (fabPolicyOf inp) = true) ∧
    (∃ c, ∃ inp : List Byte, ∃ s : State, Takes s c 0xC403 ∧ inp.length = 4 ∧ 1 ≤ le inp 2 2 ∧ le inp 2 2 ≤ 256 ∧
      le inp 0 2 + le inp 2 2 ≤ 4096 ∧ 8 + 4 * le inp 2 2 ≤ payloadLimit s c) ∧
    (∃ c, ∃ inp : List Byte, ∃ s : State, Takes s c 0xC404 ∧ inp.length = 3 ∧ 1 ≤ byteAt inp 2 ∧ byteAt inp 2 ≤ 63 ∧
      (4 + 64 * ((s.fabric.db.filter fun p => decide (le inp 0 2 ≤ p.1)).take (byteAt inp 2)).length ≤ payloadLimit s c)) ∧
    (∃ c, ∃ inp : List Byte, ∃ s : State, Takes s c 0xC405 ∧ inp.length = 1 ∧ byteAt inp 0 = 0xFF ∧ 24 ≤ payloadLimit s c) ∧
    (∃ c, ∃ inp : List Byte, ∃ s : State, Takes s c 0xC405 ∧ inp.length = 1 ∧ byteAt inp 0 < 8 ∧
      8 * (portOf s (byteAt inp 0)).counts.length ≤ payloadLimit s c) ∧
    (∃ c : Fin 10, ∃ inp : List Byte, ∃ s : State, Takes s c 0xC406 ∧ bgBusy s c = false ∧ inp.length = 1 ∧ byteAt inp 0 < 8 ∧
      (((portOf s (byteAt inp 0)).st = .up ∨ (portOf s (byteAt inp 0)).st = .linked))) :=
  ⟨⟨0, fm0, { fm0 with vc := 1 }, { w0 with fabric := { w0.fabric with devId := 7, ports := [(0, { pUp with inbox := [.routed fm0] })] } }, by decide +kernel⟩,
   ⟨0, { fm0 with dst := 0xFFF }, { w0 with fabric := { w0.fabric with devId := 7, ports := [(0, { pUp with inbox := [.routed { fm0 with dst := 0xFFF }] })] } }, ((takeMsg 0 (fun w => w == .routed { fm0 with dst := 0xFFF }) { w0 with fabric := { w0.fabric with devId := 7, ports := [(0, { pUp with inbox := [.routed { fm0 with dst := 0xFFF }] })] } }).getD (.lsa lsa0, w0)).2, by decide +kernel⟩,
   ⟨0, fm0, wP { pUp with inbox := [.routed fm0] }, ((takeMsg 0 (fun w => w == .routed fm0) (wP { pUp with inbox := [.routed fm0] })).getD (.lsa lsa0, w0)).2, by decide +kernel⟩,
   ⟨0, true, fmIn .rd, noteIngress .rd 1 (fmIn .rd) (uIn .rd), 0, 1, wIn .rd, uIn .rd, by decide +kernel⟩,
   ⟨0, fmIn .specRd, noteIngress .specRd 0 (fmIn .specRd) (uIn .specRd), 0, wIn .specRd, uIn .specRd, by decide +kernel⟩,
   ⟨0, 5, fmIn .wr, noteIngress .wr 5 (fmIn .wr) (uIn .wr), 0, wIn .wr, uIn .wr, by decide +kernel⟩,
   ⟨0, 5, fmIn .wrPtl, noteIngress .wrPtl 5 (fmIn .wrPtl) (uIn .wrPtl), 0, wIn .wrPtl, uIn .wrPtl, by decide +kernel⟩,
   ⟨0, fmIn .data, { rem0 with msg := { fm0 with gen := 0 } }, rq, modReq 1 (fun r => { r with devload := 0 }) (uResp 0 .data), wResp 0 .data, uResp 0 .data, by decide +kernel⟩,
   ⟨0, fmIn .data, { rem0 with msg := { fm0 with gen := 3 } }, rq, modReq 1 (fun r => { r with devload := 0 }) (uResp 3 .data), wResp 3 .data, uResp 3 .data, by decide +kernel⟩,
   ⟨0, fmIn .cmp, { rem0 with msg := { fm0 with gen := 0 } }, rq, modReq 1 (fun r => { r with devload := 0 }) (uResp 0 .cmp), wResp 0 .cmp, uResp 0 .cmp, by decide +kernel⟩,
   ⟨0, fmIn .cmp, { rem0 with msg := { fm0 with gen := 3 } }, rq, modReq 1 (fun r => { r with devload := 0 }) (uResp 3 .cmp), wResp 3 .cmp, uResp 3 .cmp, by decide +kernel⟩,
   ⟨1, rem0, { fm0 with resend := true, epoch := 0 }, { w0 with fabric := { w0.fabric with remote := [(1, rem0)] } }, by decide +kernel⟩,
   ⟨1, { rem0 with expired := 1 }, { rq with op := .wr }, 0, (dropHeld fm0 { (wExp ({ rq with op := .wr })) with fabric := { (wExp ({ rq with op := .wr })).fabric with timeouts := (wExp ({ rq with op := .wr })).fabric.timeouts + 1 } }), modReq 1 (fun r => { r with devload := plainLoad (dropHeld fm0 { (wExp ({ rq with op := .wr })) with fabric := { (wExp ({ rq with op := .wr })).fabric with timeouts := (wExp ({ rq with op := .wr })).fabric.timeouts + 1 } }) }) (dropHeld fm0 { (wExp ({ rq with op := .wr })) with fabric := { (wExp ({ rq with op := .wr })).fabric with timeouts := (wExp ({ rq with op := .wr })).fabric.timeouts + 1 } }), (wExp ({ rq with op := .wr })), by decide +kernel⟩,
   ⟨1, { rem0 with expired := 1 }, rq, 0, _, _, _, wExp rq, by decide +kernel, by decide +kernel, rfl, rfl, rfl, rfl, rfl⟩,
   ⟨8, w0, by decide +kernel⟩,
   ⟨8, [5, 0, 0], w0, by decide +kernel⟩,
   ⟨8, [0xFF, 0xF, 0], { w0 with fabric := { w0.fabric with devId := 7 } }, by decide +kernel⟩,
   ⟨8, [1, 0, 3, 1, 0, 0, 0, 0], w0, by decide +kernel⟩,
   ⟨8, [0, 15, 0, 1], w0, by decide +kernel⟩,
   ⟨8, [0, 0, 63], w0, by decide +kernel⟩,
   ⟨8, [255], w0, by decide +kernel⟩,
   ⟨8, [7], w0, by decide +kernel⟩,
   ⟨8, [0], wP pUp, by decide +kernel⟩⟩

/-- A state and operands for each clause of RingEventsComplete that has hypotheses. -/
theorem wit_RingEventsComplete :
    (∃ s : State, s.epoch.ring.mode = .bypassed ∧ s.power.mode ≠ .off ∧ s.epoch.policy.ringEn = true) ∧
    (∃ s : State, ((s.epoch.ring.mode = .formed ∨ s.epoch.ring.mode = .electing))) ∧
    (∃ s : State, s.epoch.ring.mode = .broken) ∧
    (∃ f : RingFrame, ∃ s : State, ((s.epoch.ring.mode = .electing ∨ s.epoch.ring.mode = .formed)) ∧ f.typ = 1 ∧
      f.crcOk = true ∧ le f.payload 0 8 = s.mgmt.serial) ∧
    (∃ f : RingFrame, ∃ s : State, ((s.epoch.ring.mode = .electing ∨ s.epoch.ring.mode = .formed)) ∧ f.typ = 1 ∧
      f.crcOk = true ∧ le f.payload 0 8 ≠ s.mgmt.serial ∧ le f.payload 0 8 < s.epoch.ring.lowest) ∧
    (∃ f : RingFrame, ∃ s : State, ((s.epoch.ring.mode = .electing ∨ s.epoch.ring.mode = .formed)) ∧ f.typ = 1 ∧
      f.crcOk = true ∧ le f.payload 0 8 ≠ s.mgmt.serial ∧ s.epoch.ring.lowest ≤ le f.payload 0 8) ∧
    (∃ f : RingFrame, ∃ s : State, ((s.epoch.ring.mode = .electing ∨ s.epoch.ring.mode = .formed)) ∧ f.typ = 2 ∧
      f.crcOk = true ∧ s.epoch.ring.isHead = false ∧ byteAt f.payload 0 ≤ 63) ∧
    (∃ f : RingFrame, ∃ s : State, ((s.epoch.ring.mode = .electing ∨ s.epoch.ring.mode = .formed)) ∧ f.typ = 2 ∧
      f.crcOk = true ∧ s.epoch.ring.isHead = false ∧ 63 < byteAt f.payload 0) ∧
    (∃ f, ∃ s : State, RingHears s 2 f ∧ s.epoch.ring.isHead = true) ∧
    (∃ s : State, s.epoch.ring.mode = .formed ∧ s.epoch.ring.isHead = true ∧ s.epoch.ring.members ≠ 0 ∧
      s.epoch.ring.beaconSent + 10000000 ≤ s.time.mono) ∧
    (∃ s : State, ((s.epoch.ring.mode = .formed ∨ s.epoch.ring.mode = .electing)) ∧
      s.epoch.ring.beaconAt + 30000000 ≤ s.time.mono) ∧
    (∃ f, ∃ s : State, RingHears s f.typ f ∧ ownFrame s f = false ∧ s.epoch.ring.position ≠ some f.dst ∧
      ringTypes.contains f.typ = true ∧ ((s.epoch.policy.spreadArm = true ∨ f.typ ≠ 0x12 ∧ f.typ ≠ 0x13))) ∧
    (∃ f, ∃ s : State, RingHears s f.typ f ∧ ownFrame s f = true) ∧
    (∃ s : State, s.epoch.ring.mode = .formed ∧ s.epoch.ring.announceAt + 1000000000 ≤ s.time.mono) ∧
    (∃ f, ∃ m : RingMember, ∃ u, ∃ s : State, RingActs s 0x10 f ∧ u = ringActed f s ∧
      m = { serial := le f.payload 0 8, devId := le f.payload 8 2 % 4096, flags := byteAt f.payload 10, at_ := u.time.mono }) ∧
    (∃ s : State, s.epoch.ring.mode = .formed ∧ s.epoch.ring.statusAt + 1000000000 ≤ s.time.mono) ∧
    (∃ f, ∃ m, ∃ u, ∃ s : State, RingActs s 0x11 f ∧ u = ringActed f s ∧ tfind u.epoch.ring.table f.src = some m) ∧
    (∃ f, ∃ u, ∃ s : State, ∃ n, ∃ rc, RingActs s 0x12 f ∧ s.epoch.policy.spreadArm = true ∧
      (ringActed f s).mgmt.fabric.mode = .running ∧
      firstTime (0x12, le f.payload 0 8, le f.payload 8 16) (ringActed f s) = (true, u) ∧
      armCheck u (le f.payload 0 8) (le f.payload 8 16) (le f.payload 24 8) = some (n, rc)) ∧
    (∃ f, ∃ n, ∃ u, ∃ s : State, RingActs s 0x13 f ∧ s.epoch.policy.spreadArm = true ∧
      (ringActed f s).mgmt.fabric.mode = .running ∧
      firstTime (0x13, le f.payload 0 8, le f.payload 8 16) (ringActed f s) = (true, u) ∧
      armedIs u (le f.payload 0 8) (le f.payload 8 16) = some (n, true)) ∧
    (∃ x, ∃ s : State, s.epoch.ring.repeats = [x] ∧ x.2.2.1 ≤ s.time.mono ∧ s.epoch.ring.mode = .formed ∧ x.2.1 ≤ 1) ∧
    (∃ x, ∃ s : State, s.epoch.ring.repeats = [x] ∧ x.2.2.1 ≤ s.time.mono ∧ s.epoch.ring.mode = .formed ∧ 1 < x.2.1) ∧
    (∃ f, ∃ u, ∃ s : State, RingActs s 0x20 f ∧
      firstTime (0x20, le f.payload 0 8, le f.payload 13 4) (ringActed f s) = (true, u) ∧
      (ringActed f s).epoch.policy.stormObey = true ∧ (ringActed f s).power.mode = .active ∧
      drainRunning (ringActed f s) = false) ∧
    (∃ n, ∃ s : State, s.epoch.braceEnd = some n ∧ n ≤ s.time.mono) ∧
    (∃ f, ∃ s : State, RingHears s 0x21 f ∧ s.epoch.ring.position = some f.dst) ∧
    (∃ f : RingFrame, ∃ s : State, RingHears s 0x21 f ∧ s.epoch.ring.position ≠ some f.dst ∧ ownFrame s f = false) :=
  ⟨⟨w0, by decide +kernel⟩,
   ⟨wG (rg .formed), by decide +kernel⟩,
   ⟨wG (rg .broken), by decide +kernel⟩,
   ⟨rf 1 [], wG (rg .electing), by decide +kernel⟩,
   ⟨rf 1 [4], { wG { rg .electing with lowest := 5 } with mgmt := { w0.mgmt with serial := 9 } }, by decide +kernel⟩,
   ⟨rf 1 [7], { wG { rg .electing with lowest := 5 } with mgmt := { w0.mgmt with serial := 9 } }, by decide +kernel⟩,
   ⟨rf 2 [63], wG (rg .electing), by decide +kernel⟩,
   ⟨rf 2 [64], wG (rg .electing), by decide +kernel⟩,
   ⟨rf 2 [3], wG { rg .formed with isHead := true }, by decide +kernel⟩,
   ⟨wG { rg .formed with isHead := true, members := 3 }, by decide +kernel⟩,
   ⟨wG (rg .formed), by decide +kernel⟩,
   ⟨rf 3 [], wG { rg .formed with position := some 3 }, by decide +kernel⟩,
   ⟨rf 3 [], wG { rg .formed with position := some 2 }, by decide +kernel⟩,
   ⟨wG (rg .formed), by decide +kernel⟩,
   ⟨rf 0x10 [], { serial := 0, devId := 0, flags := 0, at_ := w0.time.mono }, ringActed (rf 0x10 []) (wG (rg .formed)), wG (rg .formed), by decide +kernel⟩,
   ⟨wG (rg .formed), by decide +kernel⟩,
   ⟨rf 0x11 [], { serial := 5, devId := 5, flags := 0, at_ := 0 }, ringActed (rf 0x11 []) (wG { rg .formed with table := [(2, { serial := 5, devId := 5, flags := 0, at_ := 0 })] }), (wG { rg .formed with table := [(2, { serial := 5, devId := 5, flags := 0, at_ := 0 })] }), by decide +kernel⟩,
   ⟨rf 0x12 [], (firstTime (0x12, 0, 0) (ringActed (rf 0x12 []) (wG (rg .formed)))).2, wG (rg .formed), 1, .invalidState, by decide +kernel⟩,
   ⟨rf 0x13 [], 1000, (firstTime (0x13, 0, 0) (ringActed (rf 0x13 []) { wG (rg .formed) with epoch := { w0.epoch with ring := rg .formed, arm := some (0, 0, 1000) } })).2, { wG (rg .formed) with epoch := { w0.epoch with ring := rg .formed, arm := some (0, 0, 1000) } }, by decide +kernel⟩,
   ⟨(rf 0x20 [], 1, 0, 0), wG { rg .formed with repeats := [(rf 0x20 [], 1, 0, 0)] }, by decide +kernel⟩,
   ⟨(rf 0x20 [], 2, 0, 0), wG { rg .formed with repeats := [(rf 0x20 [], 2, 0, 0)] }, by decide +kernel⟩,
   ⟨rf 0x20 [], (firstTime (0x20, 0, 0) (ringActed (rf 0x20 []) (wG (rg .formed)))).2, wG (rg .formed), by decide +kernel⟩,
   ⟨0, { w0 with epoch := { w0.epoch with braceEnd := some 0 } }, by decide +kernel⟩,
   ⟨{ rf 0x21 [] with dst := 1 }, wG { rg .formed with position := some 1 }, by decide +kernel⟩,
   ⟨{ rf 0x21 [] with dst := 9 }, wG { rg .formed with position := some 1 }, by decide +kernel⟩⟩

/-- A state and operands for each clause of EpochCommandsComplete that has hypotheses. -/
theorem wit_EpochCommandsComplete :
    (∃ e, ∃ d, ∃ n, ∃ s : State, s.epoch.arm = some (e, d, n) ∧ armDue n s = true ∧ canSwap s = true ∧ s.epoch.late = false ∧
      s.epoch.stepAt = none ∧ s.drift.activeAt.isSome = true ∧ n = s.time.secMark) ∧
    (∃ e, ∃ d, ∃ n, ∃ s : State, s.epoch.arm = some (e, d, n) ∧ armDue n s = true ∧ canSwap s = true ∧
      ((s.epoch.late = true ∨ n < s.time.secMark))) ∧
    (∃ e, ∃ d, ∃ n, ∃ s : State, s.epoch.arm = some (e, d, n) ∧ armDue n s = true ∧ pathRuns s = false) ∧
    (∃ n, ∃ x, ∃ u, ∃ s : State, ((s.epoch.st = .settled ∨ s.epoch.st = .armed)) ∧ s.epoch.tagFlags = [(n, x)] ∧
      max x s.epoch.actAt + s.epoch.policy.mismatchHold * 1000000 ≤ s.time.mono ∧
      u = { s with epoch := { s.epoch with tagFlags := [] } }) ∧
    (∃ c, ∃ s : State, Takes s c 0xC500 ∧ 104 ≤ payloadLimit s c) ∧
    (∃ c, ∃ inp : List Byte, ∃ u, ∃ s : State, Takes s c 0xC501 ∧ le inp 4 4 + 8 = inp.length ∧ s.epoch.arm = none ∧
      le inp 0 4 = 0 ∧ 0 < le inp 4 4 ∧ le inp 4 4 ≤ 4096 ∧
      u = { s with epoch := { s.epoch with slots := tput s.epoch.slots (freeManSlot s) (putBytes 0 (inp.drop 8) []), load := some (freeManSlot s, [(0, le inp 4 4)]) } }) ∧
    (∃ c, ∃ inp : List Byte, ∃ k, ∃ ps, ∃ u, ∃ v, ∃ s : State, Takes s c 0xC501 ∧ le inp 4 4 + 8 = inp.length ∧
      s.epoch.arm = none ∧ le inp 0 4 ≠ 0 ∧ le inp 0 4 % 4096 = 0 ∧ 0 < le inp 4 4 ∧ le inp 4 4 ≤ 4096 ∧
      le inp 0 4 + le inp 4 4 ≤ manifestLen ∧ s.epoch.load = some (k, ps) ∧
      u = { s with epoch := { s.epoch with slots := tput s.epoch.slots k (putBytes (le inp 0 4) (inp.drop 8) (tget s.epoch.slots k [])), load := some (k, ps ++ [(le inp 0 4, le inp 4 4)]) } } ∧
      v = { u with epoch := { u.epoch with load := none } } ∧
      manifestLen ≤ coveredTo (ps ++ [(le inp 0 4, le inp 4 4)]) (ps ++ [(le inp 0 4, le inp 4 4)]).length 0) ∧
    (∃ c, ∃ inp : List Byte, ∃ k, ∃ ps, ∃ u, ∃ v, ∃ s : State, Takes s c 0xC501 ∧ le inp 4 4 + 8 = inp.length ∧
      s.epoch.arm = none ∧ le inp 0 4 ≠ 0 ∧ le inp 0 4 % 4096 = 0 ∧ 0 < le inp 4 4 ∧ le inp 4 4 ≤ 4096 ∧
      le inp 0 4 + le inp 4 4 ≤ manifestLen ∧ s.epoch.load = some (k, ps) ∧
      u = { s with epoch := { s.epoch with slots := tput s.epoch.slots k (putBytes (le inp 0 4) (inp.drop 8) (tget s.epoch.slots k [])), load := some (k, ps ++ [(le inp 0 4, le inp 4 4)]) } } ∧
      v = { u with epoch := { u.epoch with load := none } } ∧
      coveredTo (ps ++ [(le inp 0 4, le inp 4 4)]) (ps ++ [(le inp 0 4, le inp 4 4)]).length 0 < manifestLen) ∧
    (∃ c, ∃ inp : List Byte, ∃ s : State, Takes s c 0xC502 ∧ inp.length = 4 ∧ le inp 2 2 ≤ 2040 ∧
      (40 + 2 * (((changedTenants s).filter fun t => decide (le inp 0 2 ≤ t)).take (le inp 2 2)).length ≤ payloadLimit s c)) ∧
    (∃ c, ∃ inp : List Byte, ∃ n, ∃ u, ∃ s : State, Takes s c 0xC504 ∧ inp.length = 24 ∧
      armedIs s (le inp 0 8) (le inp 8 16) = some (n, true) ∧ u = disarmEpoch (le inp 0 8) (le inp 8 16) n s ∧
      u.epoch.policy.spreadArm = false) ∧
    (∃ c, ∃ inp : List Byte, ∃ n, ∃ u, ∃ s : State, Takes s c 0xC504 ∧ inp.length = 24 ∧
      armedIs s (le inp 0 8) (le inp 8 16) = some (n, true) ∧ u = disarmEpoch (le inp 0 8) (le inp 8 16) n s ∧
      u.epoch.policy.spreadArm = true ∧ u.epoch.ring.mode = .formed) ∧
    (∃ c, ∃ inp : List Byte, ∃ n, ∃ s : State, Takes s c 0xC504 ∧ inp.length = 24 ∧
      armedIs s (le inp 0 8) (le inp 8 16) = some (n, false)) ∧
    (∃ c, ∃ s : State, Takes s c 0xC510 ∧ 32 + 16 * s.epoch.ring.table.length ≤ payloadLimit s c) ∧
    (∃ c, ∃ inp : List Byte, ∃ s : State, Takes s c 0xC511 ∧ inp.length = 8 ∧ ringPolicyOk (ringPolicyOf inp) = true) ∧
    (∃ c, ∃ inp : List Byte, ∃ s : State, Takes s c 0xC512 ∧ inp.length = 1 ∧ s.epoch.ring.mode = .formed ∧ byteAt inp 0 ≤ 63) :=
  ⟨⟨1, 0, 0, { w0 with epoch := { w0.epoch with arm := some (1, 0, 0) }, drift := { w0.drift with activeAt := some 0 } }, by decide +kernel⟩,
   ⟨1, 0, 0, { w0 with epoch := { w0.epoch with arm := some (1, 0, 0), late := true }, drift := { w0.drift with activeAt := some 0 } }, by decide +kernel⟩,
   ⟨1, 0, 0, { w0 with epoch := { w0.epoch with arm := some (1, 0, 0) }, drift := { w0.drift with activeAt := some 0 }, map := { w0.map with loaded := false } }, by decide +kernel⟩,
   ⟨5, 0, { w0 with epoch := { w0.epoch with tagFlags := [] } }, { w0 with epoch := { w0.epoch with tagFlags := [(5, 0)] } }, by decide +kernel⟩,
   ⟨8, w0, by decide +kernel⟩,
   ⟨8, leBytes 4 0 ++ leBytes 4 1 ++ [7], { w0 with epoch := { w0.epoch with slots := [(0, [(0, 7)])], load := some (0, [(0, 1)]) } }, w0, by decide +kernel⟩,
   ⟨8, leBytes 4 73728 ++ leBytes 4 16 ++ List.replicate 16 7, 0, [(0, 73728)], uLoad 73728 73728 16, { uLoad 73728 73728 16 with epoch := { (uLoad 73728 73728 16).epoch with load := none } }, wLoad 73728, by decide +kernel⟩,
   ⟨8, leBytes 4 4096 ++ leBytes 4 16 ++ List.replicate 16 7, 0, [(0, 4096)], uLoad 4096 4096 16, { uLoad 4096 4096 16 with epoch := { (uLoad 4096 4096 16).epoch with load := none } }, wLoad 4096, by decide +kernel⟩,
   ⟨8, List.replicate 4 0, w0, by decide +kernel⟩,
   ⟨8, List.replicate 24 0, 5, disarmEpoch 0 0 5 { w0 with epoch := { w0.epoch with arm := some (0, 0, 5), policy := { w0.epoch.policy with spreadArm := false } } }, { w0 with epoch := { w0.epoch with arm := some (0, 0, 5), policy := { w0.epoch.policy with spreadArm := false } } }, by decide +kernel⟩,
   ⟨8, List.replicate 24 0, 5, disarmEpoch 0 0 5 { w0 with epoch := { w0.epoch with arm := some (0, 0, 5), ring := rg .formed } }, { w0 with epoch := { w0.epoch with arm := some (0, 0, 5), ring := rg .formed } }, by decide +kernel⟩,
   ⟨8, List.replicate 24 0, 0, { w0 with epoch := { w0.epoch with arm := some (0, 0, 0) } }, by decide +kernel⟩,
   ⟨8, w0, by decide +kernel⟩,
   ⟨8, [0, 0x20, 0, 0x80, 0, 1, 100, 0], w0, by decide +kernel⟩,
   ⟨8, [63], wG (rg .formed), by decide +kernel⟩⟩

/-- A state and operands for each clause of SequencerStepsComplete that has hypotheses. -/
theorem wit_SequencerStepsComplete :
    (∃ q, ∃ w, ∃ s : State, stepReady s 1 = some (q, w) ∧ bits w 21 1 = 0) ∧
    (∃ q, ∃ w, ∃ s : State, stepReady s 1 = some (q, w) ∧ bits w 21 1 = 1) ∧
    (∃ q, ∃ w, ∃ s : State, stepReady s 2 = some (q, w) ∧ bits w 21 1 = 0) ∧
    (∃ q, ∃ w, ∃ s : State, stepReady s 2 = some (q, w) ∧ bits w 21 1 = 1) ∧
    (∃ q, ∃ w, ∃ s : State, stepReady s 3 = some (q, w)) ∧
    (∃ q, ∃ n, ∃ s : State, s.power.seq = some q ∧ q.wait = .until_ n ∧ n ≤ s.time.mono) ∧
    (∃ q, ∃ w, ∃ s : State, stepReady s 4 = some (q, w)) ∧
    (∃ q, ∃ w, ∃ s : State, stepReady s 5 = some (q, w)) ∧
    (∃ q, ∃ w, ∃ s : State, stepReady s 6 = some (q, w) ∧ ((q.flag = true ↔ bits w 27 1 = 1))) ∧
    (∃ q, ∃ w, ∃ s : State, stepReady s 6 = some (q, w) ∧ (¬(q.flag = true ↔ bits w 27 1 = 1))) ∧
    (∃ q, ∃ w, ∃ u, ∃ s : State, stepReady s 7 = some (q, w) ∧ u = goTo q (q.pc + 1) s ∧
      railRole (blobOf u) (bits w 22 6) = 11) ∧
    (∃ q, ∃ w, ∃ u, ∃ s : State, stepReady s 7 = some (q, w) ∧ u = goTo q (q.pc + 1) s ∧
      railRole (blobOf u) (bits w 22 6) ≠ 11) ∧
    (∃ q, ∃ w, ∃ s : State, stepReady s 15 = some (q, w) ∧ bits w 0 16 = 0 ∧ q.up = true) ∧
    (∃ q, ∃ w, ∃ s : State, stepReady s 15 = some (q, w) ∧ bits w 0 16 = 0 ∧ q.up = false) ∧
    (∃ q, ∃ w, ∃ s : State, stepReady s 15 = some (q, w) ∧ bits w 0 16 ≠ 0 ∧ q.up = true) ∧
    (∃ q, ∃ w, ∃ s : State, stepReady s 15 = some (q, w) ∧ bits w 0 16 ≠ 0 ∧ q.up = false) ∧
    (∃ q, ∃ s : State, s.power.seq = some q ∧ stepMode (blobOf s) = true ∧ q.wait = .none ∧ q.steps < 4096 ∧
      ((bits (stepWord (blobOf s) q.pc) 28 4 = 0 ∨ 8 ≤ bits (stepWord (blobOf s) q.pc) 28 4 ∧
      bits (stepWord (blobOf s) q.pc) 28 4 ≤ 14))) ∧
    (∃ q, ∃ s : State, s.power.seq = some q ∧ stepMode (blobOf s) = true ∧ 4096 ≤ q.steps) ∧
    (∃ q, ∃ r : Fin 64, ∃ s : State, s.power.seq = some q ∧ q.up = true ∧ stepMode (blobOf s) = false ∧
      (supplyRails (blobOf s)).contains r.val = true ∧ (railOf s r).enabled = false ∧ (railOf s r).held = false ∧
      (railOf s r).lost = false ∧ predsGood s r = true) ∧
    (∃ q, ∃ r : Fin 64, ∃ s : State, s.power.seq = some q ∧ q.up = false ∧ stepMode (blobOf s) = false ∧
      (railOf s r).enabled = true ∧ usersOff s q r = true ∧ offHeld s r = false) ∧
    (∃ q, ∃ r : Fin 64, ∃ s : State, s.power.seq = some q ∧ (railOf s r).held = true ∧ (railOf s r).enabled = false ∧
      orderTime s r ≤ s.time.mono) :=
  ⟨⟨q0 true true .none 0, 2 ^ 28, wS (prog (2 ^ 28)) true true .none 0, by decide +kernel⟩,
   ⟨q0 true true .none 0, 2 ^ 28 + 2 ^ 21, wS (prog (2 ^ 28 + 2 ^ 21)) true true .none 0, by decide +kernel⟩,
   ⟨q0 true true .none 0, 2 * 2 ^ 28, wS (prog (2 * 2 ^ 28)) true true .none 0, by decide +kernel⟩,
   ⟨q0 true true .none 0, 2 * 2 ^ 28 + 2 ^ 21, wS (prog (2 * 2 ^ 28 + 2 ^ 21)) true true .none 0, by decide +kernel⟩,
   ⟨q0 true true .none 0, 3 * 2 ^ 28, wS (prog (3 * 2 ^ 28)) true true .none 0, by decide +kernel⟩,
   ⟨q0 true true (.until_ 5) 0, 5, wS [] true true (.until_ 5) 0, by decide +kernel⟩,
   ⟨q0 true true .none 0, 4 * 2 ^ 28, wS (prog (4 * 2 ^ 28)) true true .none 0, by decide +kernel⟩,
   ⟨q0 true true .none 0, 5 * 2 ^ 28, wS (prog (5 * 2 ^ 28)) true true .none 0, by decide +kernel⟩,
   ⟨q0 true true .none 0, 6 * 2 ^ 28 + 2 ^ 27, wS (prog (6 * 2 ^ 28 + 2 ^ 27)) true true .none 0, by decide +kernel⟩,
   ⟨q0 true true .none 0, 6 * 2 ^ 28, wS (prog (6 * 2 ^ 28)) true true .none 0, by decide +kernel⟩,
   ⟨q0 true true .none 0, 7 * 2 ^ 28, goTo (q0 true true .none 0) 1 (wS (zeros 8 ++ [1] ++ zeros 55 ++ leBytes 4 (11 * 2 ^ 28) ++ zeros 1148 ++ leBytes 4 (7 * 2 ^ 28)) true true .none 0), wS (zeros 8 ++ [1] ++ zeros 55 ++ leBytes 4 (11 * 2 ^ 28) ++ zeros 1148 ++ leBytes 4 (7 * 2 ^ 28)) true true .none 0, by decide +kernel⟩,
   ⟨q0 true true .none 0, 7 * 2 ^ 28, goTo (q0 true true .none 0) 1 (wS (prog (7 * 2 ^ 28)) true true .none 0), wS (prog (7 * 2 ^ 28)) true true .none 0, by decide +kernel⟩,
   ⟨q0 true true .none 0, 15 * 2 ^ 28, wS (prog (15 * 2 ^ 28)) true true .none 0, by decide +kernel⟩,
   ⟨q0 false true .none 0, 15 * 2 ^ 28, wS (prog (15 * 2 ^ 28)) false true .none 0, by decide +kernel⟩,
   ⟨q0 true true .none 0, 15 * 2 ^ 28 + 1, wS (prog (15 * 2 ^ 28 + 1)) true true .none 0, by decide +kernel⟩,
   ⟨q0 false true .none 0, 15 * 2 ^ 28 + 1, wS (prog (15 * 2 ^ 28 + 1)) false true .none 0, by decide +kernel⟩,
   ⟨q0 true true .none 0, wS [] true true .none 0, by decide +kernel⟩,
   ⟨q0 true true .none 4096, wS [] true true .none 4096, by decide +kernel⟩,
   ⟨q0 true true .none 0, 0, wS orderBlob true true .none 0, by decide +kernel⟩,
   ⟨q0 false true .none 0, 0, { wS orderBlob false true .none 0 with power := { (wS orderBlob false true .none 0).power with rails := [(0, { Rail.off with enabled := true })] } }, by decide +kernel⟩,
   ⟨q0 false true .none 0, 0, { wS orderBlob false true .none 0 with power := { (wS orderBlob false true .none 0).power with rails := [(0, { Rail.off with held := true })] } }, by decide +kernel⟩⟩

/-- A state and operands for each clause of RailAndSupplyEventsComplete that has hypotheses. -/
theorem wit_RailAndSupplyEventsComplete :
    (∃ r : Fin 64, ∃ k : Bool, ∃ s : State, (railOf s r).pg ≠ k ∧ s.power.mode ≠ .off ∧
      ((railRole (blobOf s) r = 0 ∨ railRole (blobOf s) r = 11))) ∧
    (∃ r : Fin 64, ∃ k : Bool, ∃ s : State, (railOf s r).pg ≠ k ∧ s.power.mode ≠ .off ∧ railRole (blobOf s) r ≠ 0 ∧
      railRole (blobOf s) r ≠ 11 ∧ (railOf s r).enabled = false) ∧
    (∃ r : Fin 64, ∃ k : Bool, ∃ s : State, (railOf s r).pg ≠ k ∧ s.power.mode ≠ .off ∧ railRole (blobOf s) r ≠ 0 ∧
      railRole (blobOf s) r ≠ 11 ∧ (railOf s r).enabled = true ∧ chatterMax (blobOf s) r < (pgEdge s r k).edges.length) ∧
    (∃ r : Fin 64, ∃ k : Bool, ∃ s : State, (railOf s r).pg ≠ k ∧ s.power.mode ≠ .off ∧ railRole (blobOf s) r ≠ 0 ∧
      railRole (blobOf s) r ≠ 11 ∧ (railOf s r).enabled = true ∧ (pgEdge s r k).edges.length ≤ chatterMax (blobOf s) r ∧
      k = false ∧ (railOf s r).good = true) ∧
    (∃ r : Fin 64, ∃ s : State, (railOf s r).enabled = true ∧ (railOf s r).good = false ∧ goodNow s r = true) ∧
    (∃ q, ∃ r : Fin 64, ∃ s : State, s.power.seq = some q ∧ q.up = true ∧ (railOf s r).enabled = true ∧
      (railOf s r).good = false ∧ goodDue s q r = true) ∧
    (∃ q, ∃ r : Fin 64, ∃ s : State, s.power.seq = some q ∧ fallDue s q r = true) ∧
    (∃ codes : List (Fin 32 × Fin 4096), ∃ s : State, (((adcHits (blobOf s) codes).all fun p => sampleFault (takeAdc codes s) p.1 == 0) = true)) ∧
    (∃ codes : List (Fin 32 × Fin 4096), ∃ r, ∃ v, ∃ s : State, adcHits (blobOf s) codes = [(r, v)] ∧
      sampleFault (takeAdc codes s) r ≠ 0) ∧
    (∃ n, ∃ s : State, s.power.retryAt = some n ∧ s.power.mode = .standby ∧ n ≤ s.time.mono ∧ s.persist.pwrFail = false ∧
      s.therm.barred = false) ∧
    (∃ n, ∃ u, ∃ s : State, s.power.hold = some n ∧ n ≤ s.time.mono ∧
      u = stopFabric { s with power := { s.power with hold := none } } ∧ u.power.entering ≠ some 3) ∧
    (∃ n, ∃ u, ∃ s : State, s.power.hold = some n ∧ n ≤ s.time.mono ∧
      u = stopFabric { s with power := { s.power with hold := none } } ∧ u.power.entering = some 3) ∧
    (∃ u, ∃ s : State, s.persist.pwrFail = true ∧ drainRunning s = false ∧
      u = { s with persist := { s.persist with pwrFail := false, pwrFailPin := false, lowSamples := 0 } } ∧
      s.power.policy.autoOn = false) ∧
    (∃ u, ∃ s : State, s.persist.pwrFail = true ∧ drainRunning s = false ∧
      u = { s with persist := { s.persist with pwrFail := false, pwrFailPin := false, lowSamples := 0 } } ∧
      s.power.policy.autoOn = true ∧ s.power.mode = .standby ∧ s.power.seq = none) ∧
    (∃ u, ∃ s : State, u = { s with cellar := { s.cellar with writes := [] } } ∧ s.persist.drain = none) ∧
    (∃ u, ∃ s : State, ∃ d, ∃ v, u = { s with cellar := { s.cellar with writes := [] } } ∧ s.persist.drain = some d ∧
      v = endDrain 4 s.persist.vNow { d with faults := [] } u) ∧
    (∃ v, ∃ a, ∃ s : State, (v && a) = false ∧ (a && s.power.aon) = true) ∧
    (∃ v, ∃ a, ∃ s : State, (v && a) = false ∧ (a && s.power.aon) = false) ∧
    (∃ h0, ∃ h1, ∃ sb, ∃ st, ∃ u, ∃ s : State, s.power.mode = .off ∧ u = startAon h0 h1 sb st s ∧
      u.power.policy.autoOn = true) ∧
    (∃ h0, ∃ h1, ∃ sb, ∃ st, ∃ u, ∃ s : State, s.power.mode = .off ∧ u = startAon h0 h1 sb st s ∧
      u.power.policy.autoOn = false) :=
  ⟨⟨0, true, wRl (bl (11 * 2 ^ 28) 0) Rail.off, by decide +kernel⟩,
   ⟨0, true, wRl (bl (12 * 2 ^ 28) 0) Rail.off, by decide +kernel⟩,
   ⟨0, true, wRl (bl (12 * 2 ^ 28) 0) { Rail.off with enabled := true }, by decide +kernel⟩,
   ⟨0, false, wRl (bl (12 * 2 ^ 28) (15 * 2 ^ 12)) { Rail.off with enabled := true, good := true, pg := true }, by decide +kernel⟩,
   ⟨0, wRl (bl (12 * 2 ^ 28 + 3 * 2 ^ 26) 0) { Rail.off with enabled := true }, by decide +kernel⟩,
   ⟨q0 true true (.good 0) 0, 0, { wS [] true true (.good 0) 0 with power := { (wS [] true true (.good 0) 0).power with rails := [(0, { Rail.off with enabled := true })] } }, by decide +kernel⟩,
   ⟨q0 true true (.off 0) 0, 0, wS [] true true (.off 0) 0, by decide +kernel⟩,
   ⟨[(5, 7)], wRl (bl (12 * 2 ^ 28 + 5 * 2 ^ 18) 0) Rail.off, by decide +kernel⟩,
   ⟨[(5, 7)], 0, 7, wRl (bl (12 * 2 ^ 28 + 5 * 2 ^ 18) 0) { Rail.off with enabled := true, ovBad := 1 }, by decide +kernel⟩,
   ⟨0, { w0 with power := { w0.power with mode := .standby, retryAt := some 0 } }, by decide +kernel⟩,
   ⟨0, stopFabric w0, { w0 with power := { w0.power with hold := some 0 } }, by decide +kernel⟩,
   ⟨0, stopFabric { w0 with power := { w0.power with entering := some 3 } }, { w0 with power := { w0.power with hold := some 0, entering := some 3 } }, by decide +kernel⟩,
   ⟨{ w0 with power := { w0.power with policy := { w0.power.policy with autoOn := false } } }, { w0 with persist := { w0.persist with pwrFail := true }, power := { w0.power with policy := { w0.power.policy with autoOn := false } } }, by decide +kernel⟩,
   ⟨{ w0 with power := { w0.power with mode := .standby } }, { w0 with persist := { w0.persist with pwrFail := true }, power := { w0.power with mode := .standby } }, by decide +kernel⟩,
   ⟨w0, w0, by decide +kernel⟩,
   ⟨{ w0 with persist := { w0.persist with drain := some dr0 } }, { w0 with persist := { w0.persist with drain := some dr0 } }, dr0, endDrain 4 w0.persist.vNow { dr0 with faults := [] } { w0 with persist := { w0.persist with drain := some dr0 } }, by decide +kernel⟩,
   ⟨false, true, w0, by decide +kernel⟩,
   ⟨true, false, w0, by decide +kernel⟩,
   ⟨true, true, 3, false, startAon true true 3 false { w0 with power := { w0.power with mode := .off } }, { w0 with power := { w0.power with mode := .off } }, by decide +kernel⟩,
   ⟨true, true, 3, false, startAon true true 3 false { w0 with power := { w0.power with mode := .off, policy := { w0.power.policy with autoOn := false } } }, { w0 with power := { w0.power with mode := .off, policy := { w0.power.policy with autoOn := false } } }, by decide +kernel⟩⟩

/-- A state and operands for each clause of PowerStateCommandsComplete that has hypotheses. -/
theorem wit_PowerStateCommandsComplete :
    (∃ s : State, s.power.mode = .active ∧ s.power.seq = none ∧ s.power.entering = none ∧
      s.power.lastReq + s.power.policy.idleDelay * 1000 ≤ s.time.mono) ∧
    (∃ s : State, s.power.mode = .idle) ∧
    (∃ s : State, ((s.power.mode = .active ∨ s.power.mode = .idle)) ∧ s.power.policy.autoDormant = true ∧
      s.power.entering = none ∧ drainRunning s = false ∧ (List.range 4).all (headQuiet s) = true ∧
      s.power.quietSince + s.power.policy.dormantDelay * 1000000000 ≤ s.time.mono) ∧
    (∃ s : State, s.power.mode = .dormant) ∧
    (∃ s : State, s.power.mode = .dormant ∧ s.power.entering = none ∧ s.power.seq = none) ∧
    (∃ s : State, s.power.mode = .standby ∧ s.power.entering = none ∧ s.power.seq = none ∧ s.therm.barred = false) ∧
    (∃ c, ∃ s : State, Takes s c 0xC700 ∧ 12 ≤ payloadLimit s c) ∧
    (∃ c, ∃ s : State, Takes s c 0xC701 ∧ drainRunning s = false ∧ s.power.seq = none ∧ s.power.entering = none ∧
      s.power.hold = none ∧ s.power.exiting = false ∧ s.power.mode = .idle) ∧
    (∃ c, ∃ s : State, Takes s c 0xC701 ∧ drainRunning s = false ∧ s.power.seq = none ∧ s.power.entering = none ∧
      s.power.hold = none ∧ s.power.exiting = false ∧ s.power.mode = .dormant) ∧
    (∃ c, ∃ s : State, Takes s c 0xC701 ∧ drainRunning s = false ∧ s.power.seq = none ∧ s.power.entering = none ∧
      s.power.hold = none ∧ s.power.exiting = false ∧ s.power.mode = .active) ∧
    (∃ c, ∃ s : State, Takes s c 0xC701 ∧ drainRunning s = false ∧ s.power.seq = none ∧ s.power.entering = none ∧
      s.power.hold = none ∧ s.power.exiting = false ∧ s.power.mode = .dormant) ∧
    (∃ c, ∃ s : State, Takes s c 0xC701 ∧ drainRunning s = true) ∧
    (∃ c, ∃ inp : List Byte, ∃ s : State, Takes s c 0xC702 ∧ inp.length = 8 ∧ powerPolicyOk (powerPolicyOf inp) = true) ∧
    (∃ c, ∃ inp : List Byte, ∃ s : State, Takes s c 0xC710 ∧ inp.length = 1 ∧ byteAt inp 0 = 1 ∧
      (blobRead (blobOf s)).length ≤ payloadLimit s c) ∧
    (∃ c, ∃ inp : List Byte, ∃ s : State, Takes s c 0xC711 ∧ inp.length = 3264 ∧ blobOk inp = true) ∧
    (∃ c, ∃ inp : List Byte, ∃ s : State, Takes s c 0xC711 ∧ inp.length = 3264 ∧ blobOk inp = false) ∧
    (∃ c, ∃ s : State, Takes s c 0xC712 ∧ 576 ≤ payloadLimit s c) ∧
    (∃ c, ∃ s : State, Takes s c 0xC713) :=
  ⟨⟨w0, by decide +kernel⟩,
   ⟨{ w0 with power := { w0.power with mode := .idle } }, by decide +kernel⟩,
   ⟨{ w0 with power := { w0.power with mode := .idle, policy := { w0.power.policy with autoDormant := true } }, heads := [(0, { hd with perst := true })] }, by decide +kernel⟩,
   ⟨{ w0 with power := { w0.power with mode := .dormant } }, by decide +kernel⟩,
   ⟨{ w0 with power := { w0.power with mode := .dormant } }, by decide +kernel⟩,
   ⟨{ w0 with power := { w0.power with mode := .standby } }, by decide +kernel⟩,
   ⟨8, w0, by decide +kernel⟩,
   ⟨8, { w0 with power := { w0.power with mode := .idle } }, by decide +kernel⟩,
   ⟨8, { w0 with power := { w0.power with mode := .dormant } }, by decide +kernel⟩,
   ⟨8, { w0 with power := { w0.power with mode := .active } }, by decide +kernel⟩,
   ⟨8, { w0 with power := { w0.power with mode := .dormant } }, by decide +kernel⟩,
   ⟨8, { w0 with persist := { w0.persist with drain := some dr0 } }, by decide +kernel⟩,
   ⟨8, powerPolicyBytes w0.power.policy, w0, by decide +kernel⟩,
   ⟨8, [1], w0, by decide +kernel⟩,
   ⟨8, stepBlob, w0, by decide +kernel, by decide +kernel, stepBlob_ok⟩,
   ⟨8, zeros 3264, w0, by decide +kernel, by decide +kernel, zeros_bad⟩,
   ⟨8, w0, by decide +kernel⟩,
   ⟨8, w0, by decide +kernel⟩⟩

/-- A state and operands for each clause of ThermalCommandsComplete that has hypotheses. -/
theorem wit_ThermalCommandsComplete :
    (∃ n : Fin 8, ∃ mv, ∃ u, ∃ s : State, bits s.therm.policy.ntcMask n 1 = 1 ∧ u = sampleSensor (328 + n) (ntcReading s mv) s ∧
      u.power.mode = .active) ∧
    (∃ n : Fin 8, ∃ mv, ∃ u, ∃ s : State, ∃ v, bits s.therm.policy.ntcMask n 1 = 1 ∧
      u = sampleSensor (328 + n) (ntcReading s mv) s ∧ ((u.power.mode = .standby ∨ u.power.mode = .dormant)) ∧
      ntcReading s mv = some v ∧ 0 < u.therm.policy.ntcWake) ∧
    (∃ n : Fin 8, ∃ s : State, bits s.therm.policy.ntcMask n 1 = 0) ∧
    (∃ n : Fin 336, ∃ x, ∃ s : State, (sensorOf s n).goodSince = some x ∧ (sensorOf s n).broken = true ∧
      x + 60000000000 ≤ s.time.mono) ∧
    (∃ z : Fin 4, ∃ x, ∃ s : State, s.therm.belowSince.getD z none = some x ∧ x + 10000000000 ≤ s.time.mono ∧
      1 ≤ zoneLevel s z ∧ zoneLevel s z < 3) ∧
    (∃ ds : Fin 512, ∃ x, ∃ s : State, (busyOf s ds).pause = some x ∧ x ≤ s.time.mono) ∧
    (∃ d : Fin 24, ∃ s : State, s.power.mode ≠ .off ∧ drainRunning (tripNoted d s) = false) ∧
    (∃ d : Fin 24, ∃ s : State, s.power.mode ≠ .off ∧ drainRunning (tripNoted d s) = true) ∧
    (∃ n, ∃ u, ∃ s : State, s.therm.coolSince = some n ∧ s.therm.barred = true ∧ s.power.mode = .standby ∧
      n + 60000000000 ≤ s.time.mono ∧
      u = { s with therm := { s.therm with barred := false, wakeHeld := false }, power := { s.power with retryAt := none } } ∧
      s.therm.wakeHeld = true) ∧
    (∃ n, ∃ u, ∃ s : State, s.therm.coolSince = some n ∧ s.therm.barred = true ∧ s.power.mode = .standby ∧
      n + 60000000000 ≤ s.time.mono ∧
      u = { s with therm := { s.therm with barred := false, wakeHeld := false }, power := { s.power with retryAt := none } } ∧
      s.therm.wakeHeld = false ∧ s.power.policy.autoOn = true ∧ recentStops s < s.therm.policy.autoRestarts) ∧
    (∃ n, ∃ u, ∃ s : State, s.therm.coolSince = some n ∧ s.therm.barred = true ∧ s.power.mode = .standby ∧
      n + 60000000000 ≤ s.time.mono ∧
      u = { s with therm := { s.therm with barred := false, wakeHeld := false }, power := { s.power with retryAt := none } } ∧
      s.therm.wakeHeld = false ∧ s.power.policy.autoOn = false) ∧
    (∃ c, ∃ s : State, Takes s c 0xC730 ∧ 1352 ≤ payloadLimit s c) ∧
    (∃ c, ∃ inp : List Byte, ∃ s : State, Takes s c 0xC731 ∧ inp.length = 28 ∧ thermPolicyOk (thermPolicyOf inp) = true) ∧
    (∃ c, ∃ s : State, Takes s c 0xC732 ∧ 652 ≤ payloadLimit s c) :=
  ⟨⟨3, 1600, sampleSensor 331 (ntcReading { w0 with therm := { w0.therm with policy := { w0.therm.policy with ntcMask := 255 } } } 1600) { w0 with therm := { w0.therm with policy := { w0.therm.policy with ntcMask := 255 } } }, { w0 with therm := { w0.therm with policy := { w0.therm.policy with ntcMask := 255 } } }, by decide +kernel⟩,
   ⟨3, 700, _, wNtc, Config.ntcTemp w0.therm.policy.ntcBeta 700, by decide +kernel, rfl, .inl ((congrArg PowerSt.mode (ntc_w (Config.ntcTemp w0.therm.policy.ntcBeta 700)).1).trans rfl), rfl, (congrArg (fun p => 0 < ThermPolicy.ntcWake p) (ntc_w (Config.ntcTemp w0.therm.policy.ntcBeta 700)).2).mpr (by decide +kernel)⟩,
   ⟨0, w0, by decide +kernel⟩,
   ⟨335, 0, { w0 with therm := { w0.therm with sensors := [(335, { Sensor.fresh with goodSince := some 0, broken := true })] } }, by decide +kernel⟩,
   ⟨3, 0, { w0 with therm := { w0.therm with belowSince := [none, none, none, some 0], levels := [0, 0, 0, 2] } }, by decide +kernel⟩,
   ⟨5, 0, { w0 with place := { w0.place with busy := [(5, { BusySt.idle with pause := some 0 })] } }, by decide +kernel⟩,
   ⟨0, w0, by decide +kernel⟩,
   ⟨5, { w0 with persist := { w0.persist with drain := some dr0 } }, by decide +kernel⟩,
   ⟨0, { w0 with therm := { w0.therm with coolSince := some 0, stops := [], policy := { w0.therm.policy with autoRestarts := 3 }, barred := false, wakeHeld := false }, power := { w0.power with mode := .standby, policy := { w0.power.policy with autoOn := true } } }, { w0 with therm := { w0.therm with coolSince := some 0, stops := [], policy := { w0.therm.policy with autoRestarts := 3 }, barred := true, wakeHeld := true }, power := { w0.power with mode := .standby, policy := { w0.power.policy with autoOn := true } } }, by decide +kernel⟩,
   ⟨0, { w0 with therm := { w0.therm with coolSince := some 0, stops := [], policy := { w0.therm.policy with autoRestarts := 3 }, barred := false, wakeHeld := false }, power := { w0.power with mode := .standby, policy := { w0.power.policy with autoOn := true } } }, { w0 with therm := { w0.therm with coolSince := some 0, stops := [], policy := { w0.therm.policy with autoRestarts := 3 }, barred := true, wakeHeld := false }, power := { w0.power with mode := .standby, policy := { w0.power.policy with autoOn := true } } }, by decide +kernel⟩,
   ⟨0, { w0 with therm := { w0.therm with coolSince := some 0, stops := [], policy := { w0.therm.policy with autoRestarts := 3 }, barred := false, wakeHeld := false }, power := { w0.power with mode := .standby, policy := { w0.power.policy with autoOn := false } } }, { w0 with therm := { w0.therm with coolSince := some 0, stops := [], policy := { w0.therm.policy with autoRestarts := 3 }, barred := true, wakeHeld := false }, power := { w0.power with mode := .standby, policy := { w0.power.policy with autoOn := false } } }, by decide +kernel⟩,
   ⟨8, w0, by decide +kernel⟩,
   ⟨8, thermPolicyBytes w0.therm.policy, w0, by decide +kernel⟩,
   ⟨8, w0, by decide +kernel⟩⟩

/-- A state and operands for each clause of StartPhasesComplete that has hypotheses. -/
theorem wit_StartPhasesComplete :
    (∃ u, ∃ s : State, s.start.phases.contains 5 = true ∧ s.start.phases.contains 6 = false ∧ s.mgmt.recovery = false ∧
      s.mgmt.running = true ∧ u = markPhase 6 (shutdownClass (loadPolicies s)) ∧ ringWaits u = false) ∧
    (∃ u, ∃ s : State, s.start.phases.contains 5 = true ∧ s.start.phases.contains 6 = false ∧ s.mgmt.recovery = false ∧
      s.mgmt.running = true ∧ u = markPhase 6 (shutdownClass (loadPolicies s)) ∧ ringWaits u = true) ∧
    (∃ s : State, s.start.phases.contains 6 = true ∧ s.start.phases.contains 13 = false ∧ mayMeasure s = true) ∧
    (∃ s : State, s.start.phases.contains 11 = true ∧ s.start.phases.contains 12 = true ∧ s.start.phases.contains 13 = true ∧
      s.start.phases.contains 14 = false ∧ s.start.held = false ∧ s.front.mode = .off ∧ journalFull s = false) ∧
    (∃ n, ∃ s : State, s.start.phase12 = some n ∧ s.start.phases.contains 11 = true ∧ s.start.phases.contains 12 = true ∧
      s.start.phases.contains 13 = false ∧ s.start.phases.contains 14 = false ∧ s.start.held = false ∧ s.front.mode = .off ∧
      journalFull s = false ∧ n + 10000000000 ≤ s.time.mono) :=
  ⟨⟨markPhase 6 (shutdownClass (loadPolicies { w0 with start := { w0.start with phases := [1, 2, 3, 5] } })), { w0 with start := { w0.start with phases := [1, 2, 3, 5] } }, by decide +kernel⟩,
   ⟨markPhase 6 (shutdownClass (loadPolicies { w0 with start := { w0.start with phases := [1, 2, 3, 5] }, epoch := { w0.epoch with ring := { w0.epoch.ring with lock := true, selfTest := true } } })), { w0 with start := { w0.start with phases := [1, 2, 3, 5] }, epoch := { w0.epoch with ring := { w0.epoch.ring with lock := true, selfTest := true } } }, by decide +kernel⟩,
   ⟨{ w0 with start := { w0.start with phases := [1, 2, 3, 4, 5, 6] } }, by decide +kernel⟩,
   ⟨{ w0 with start := { w0.start with phases := [1, 2, 3, 4, 5, 6, 7, 8, 9, 10, 11, 12, 13] } }, by decide +kernel⟩,
   ⟨0, { w0 with start := { w0.start with phases := [1, 2, 3, 4, 5, 6, 7, 8, 9, 10, 11, 12], phase12 := some 0 } }, by decide +kernel⟩⟩

/-- A state and operands for each clause of StepRunsTheFrontCommand that has hypotheses. -/
theorem wit_StepRunsTheFrontCommand :
    (∃ c : Instr, ∃ rest : List Instr, ∃ s : State, s.pending = c :: rest) :=
  ⟨.bootGood, [.hotReset 1], { w0 with pending := [.bootGood, .hotReset 1] }, by decide +kernel⟩

/-- A state and operands for each clause of StepOnAnEmptyQueueTicks that has hypotheses. -/
theorem wit_StepOnAnEmptyQueueTicks :
    (∃ s : State, s.pending = []) :=
  ⟨w0, by decide +kernel⟩

/-- A state and operands for each clause of StepNeverRestoresAFuse that has hypotheses. -/
theorem wit_StepNeverRestoresAFuse :
    (∃ f, ∃ k, ∃ s : State, ∃ t : State, FusesHold f k s ∧ step s = .next t) :=
  ⟨(false, 0, 0, false), 1, { w0 with mgmt := { w0.mgmt with revoked := 3 } }, tick { w0 with mgmt := { w0.mgmt with revoked := 3 } }, (by decide), rfl⟩

/-- A state and operands for each clause of UnlistedOpcodeIsUnsupported that has hypotheses. -/
theorem wit_UnlistedOpcodeIsUnsupported :
    (∃ c : Fin 10, ∃ op, ∃ s : State, listedOps.contains op = false ∧ cciOpen s c = true) :=
  ⟨8, 0, w0, by decide +kernel⟩

/-- A state and operands for each clause of MailboxRefusals that has hypotheses. -/
theorem wit_MailboxRefusals :
    (∃ c, ∃ op, c < 8 ∧ c % 2 = 1 ∧ ((op = 0x0201 ∨ op = 0x0202 ∨ op = 0x4400))) ∧
    (∃ c, ∃ op, ∃ s : State, listedOps.contains op = true ∧ s.mgmt.recovery = true ∧ recoveryOps.contains op = false ∧
      ((8 ≤ c ∨ (mctpOnly op = false ∧ c % 2 = 0)))) ∧
    (∃ c : Fin 8, ∃ op, ∃ s : State, listedOps.contains op = true ∧ s.mgmt.recovery = false ∧
      s.mgmt.access.getD (c.val / 2) 2 = 1 ∧ 0xC000 ≤ op ∧ vendorGets.contains op = false) ∧
    (∃ c : Fin 8, ∃ op, ∃ s : State, listedOps.contains op = true ∧ s.mgmt.recovery = false ∧
      s.mgmt.access.getD (c.val / 2) 2 = 0 ∧ headScope.contains op = false ∧ op ≠ 0xC013) ∧
    (∃ c : Fin 10, ∃ op, ∃ s : State, listedOps.contains op = true ∧ 8 ≤ c.val ∧ s.mgmt.recovery = false ∧ s.start.held = true ∧
      dataPathOp op = true) ∧
    (∃ c, ∃ op, ∃ s : State, ∃ rc, cciOpen s c = true ∧ gate s c op = some rc) :=
  ⟨⟨7, 0x4400, by decide +kernel⟩,
   ⟨9, 0xC100, { w0 with mgmt := { w0.mgmt with recovery := true } }, by decide +kernel⟩,
   ⟨7, 0xC001, { w0 with mgmt := { w0.mgmt with access := [2, 2, 2, 1] } }, by decide +kernel⟩,
   ⟨7, 0xC000, { w0 with mgmt := { w0.mgmt with access := [2, 2, 2, 0] } }, by decide +kernel⟩,
   ⟨8, 0xC001, { w0 with start := { w0.start with held := true } }, by decide +kernel⟩,
   ⟨8, 0xC100, { w0 with mgmt := { w0.mgmt with recovery := true } }, .mediaDisabled, by decide +kernel⟩⟩

/-- A state and operands for each clause of BootGoodBlowsTheNamedFuses that has hypotheses. -/
theorem wit_BootGoodBlowsTheNamedFuses :
    (∃ t0, ∃ n, ∃ x, ∃ s : State, s.mgmt.goodSince = some t0 ∧ s.mgmt.runSlot = some n ∧ runImage s = some x ∧
      t0 + 60000000000 ≤ s.time.mono ∧ (([1, 2, 3, 4].all fun k => nodeRuns s k) = true) ∧ s.mgmt.running = true) :=
  ⟨0, 0, img, { w0 with mgmt := { w0.mgmt with goodSince := some 0, runSlot := some 0, slotA := some img } }, by decide +kernel⟩

/-- A state and operands for each clause of DriftBinOfAnEffectiveAge that has hypotheses. -/
theorem wit_DriftBinOfAnEffectiveAge :
    (∃ a, a < 64) ∧
    (∃ a, 64 ≤ a) ∧
    (∃ a, ∃ b, 1 ≤ b ∧ b ≤ 22 ∧ 64 * 2 ^ (b - 1) ≤ a ∧ a < 64 * 2 ^ b) ∧
    (∃ a, 268435456 ≤ a) :=
  ⟨⟨0, by decide +kernel⟩,
   ⟨64, by decide +kernel⟩,
   ⟨64, 1, by decide +kernel⟩,
   ⟨268435456, by decide +kernel⟩⟩

/-- A state and operands for each clause of MeterAddsFrontCacheOccupancy that has hypotheses. -/
theorem wit_MeterAddsFrontCacheOccupancy :
    (∃ n, ∃ m, ∃ s : State, devUp s = true ∧ tfind s.count.meters n = some m ∧ (tenantOf s n).st ≠ .free) ∧
    (∃ m : MeterBlock, m.fcByteMs / 1000 < 2 ^ 64) :=
  ⟨⟨1, { buf0 := MeterBlock.zero 0, buf1 := MeterBlock.zero 0, live := MeterBlock.zero 0, held := none, groups := [] }, { w0 with count := { w0.count with meters := [(1, { buf0 := MeterBlock.zero 0, buf1 := MeterBlock.zero 0, live := MeterBlock.zero 0, held := none, groups := [] })] } }, by decide +kernel⟩,
   ⟨MeterBlock.zero 0, by decide +kernel⟩⟩

/-- A state and operands for each clause of RepeatedEventsFold that has hypotheses. -/
theorem wit_RepeatedEventsFold :
    (∃ e : Ev, ∃ r, ∃ k, ∃ s : State, s.recorder.ringOn = true ∧ s.recorder.newest = some k ∧ tfind s.recorder.ring k = some r ∧
      r.code = e.code ∧ r.src = e.src ∧ r.p0 = e.p0 ∧ r.p1 = e.p1 ∧ r.p2 = e.p2 ∧ r.rep < 0xFFFF) ∧
    (∃ e : Ev, ∃ r, ∃ k, ∃ s : State, s.recorder.ringOn = true ∧ s.recorder.newest = some k ∧ tfind s.recorder.ring k = some r ∧
      ((r.code ≠ e.code ∨ r.src ≠ e.src ∨ r.p0 ≠ e.p0 ∨ r.p1 ≠ e.p1 ∨ r.p2 ≠ e.p2 ∨ 0xFFFF ≤ r.rep))) ∧
    (∃ s : State, s.recorder.ringOn = true ∧ newestRec s = none) :=
  ⟨⟨ev, rec0, 7, { w0 with recorder := { w0.recorder with ringOn := true, newest := some 7, ring := [(7, rec0)] } }, by decide +kernel⟩,
   ⟨ev, { rec0 with rep := 0xFFFF }, 7, { w0 with recorder := { w0.recorder with ringOn := true, newest := some 7, ring := [(7, { rec0 with rep := 0xFFFF })] } }, by decide +kernel⟩,
   ⟨{ w0 with recorder := { w0.recorder with ringOn := true } }, by decide +kernel⟩⟩

/-- A state and operands for each clause of CellarLogReadsAfterWrite that has hypotheses. -/
theorem wit_CellarLogReadsAfterWrite :
    (∃ l, ∃ k, ∃ d, ∃ l', ∃ j, logWrite l k d = some l' ∧ j ≠ k) :=
  ⟨w0.cellar.user, 5, [1, 2], (logWrite w0.cellar.user 5 [1, 2]).getD w0.cellar.user, 0, by decide +kernel⟩

/-- A state and operands for each clause of HeadsAreIndependent that has hypotheses. -/
theorem wit_HeadsAreIndependent :
    (∃ h : Fin 4, ∃ k : Fin 4, ∃ c : Instr, h ≠ k ∧
      ((c = .perstNAssert h ∨ c = .hotReset h ∨ c = .linkDown h ∨ c = .cxlReset h ∨ c = .functionLevelReset h ∨ c = .ideIntegrityFailure h ∨ c = .hostViralSignal h))) :=
  ⟨0, 3, .hotReset 0, by decide +kernel⟩

/-- A state and operands for each clause of FailedKeyLoadsAreHeldOff that has hypotheses. -/
theorem wit_FailedKeyLoadsAreHeldOff :
    (∃ t, ∃ s : State, (tenantOf s t).fails + 1 < 8) ∧
    (∃ t, ∃ s : State, 8 ≤ (tenantOf s t).fails + 1) ∧
    (∃ c, ∃ inp : List Byte, ∃ s : State, Takes s c 0xC021 ∧ inp.length = 200 ∧ le inp 2 2 = 0 ∧
      s.time.mono < (tenantOf s (le inp 0 2)).refusal) ∧
    (∃ c, ∃ inp : List Byte, ∃ n, ∃ rc, ∃ s : State, Takes s c 0xC021 ∧ inp.length = 200 ∧ le inp 2 2 = 0 ∧
      s.start.phases.contains 14 = true ∧ (tenantOf s (le inp 0 2)).refusal ≤ s.time.mono ∧
      checkBlob (le inp 0 2) (inp.drop 4) s = .inl (n, rc)) :=
  ⟨⟨0, w0, by decide +kernel⟩,
   ⟨1, { w0 with ten := { w0.ten with tenants := [(1, { ten1 with fails := 7 })] } }, by decide +kernel⟩,
   ⟨8, [1] ++ List.replicate 199 0, { w0 with ten := { w0.ten with tenants := [(1, { ten1 with fails := 8, refusal := 2000000000000000 })] } }, by decide +kernel⟩,
   ⟨8, List.replicate 200 0, 1, .invalidInput, w0, by decide +kernel⟩⟩

/-- A state and operands for each clause of LineStoresOnlyTheMaskedBytes that has hypotheses. -/
theorem wit_LineStoresOnlyTheMaskedBytes :
    (∃ n : Nat, n < 256) :=
  ⟨0, by decide +kernel⟩

/-- A state and operands for each clause of DieArrayWorkKeepsOtherSegments that has hypotheses. -/
theorem wit_DieArrayWorkKeepsOtherSegments :
    (∃ d, ∃ tile, ∃ seg, ∃ tile', ∃ seg', ∃ s : State, (dieOf s d).array = some (.prog tile seg) ∧ seg < 131072 ∧
      seg' < 131072 ∧ (tile', seg') ≠ (tile, seg)) ∧
    (∃ d, ∃ tile, ∃ tile', ∃ seg', ∃ s : State, (dieOf s d).array = some (.reset tile) ∧ seg' < 131072 ∧ tile' ≠ tile) ∧
    (∃ d : Nat, ∃ e : Nat, e ≠ d) ∧
    (∃ d, ∃ tile, ∃ seg, ∃ tile', ∃ seg', ∃ s : State, (dieOf s d).array = some (.prog tile seg) ∧ seg < 131072 ∧
      seg' < 131072 ∧ (tile', seg') ≠ (tile, seg)) ∧
    (∃ d, ∃ tile, ∃ seg, ∃ s : State, (dieOf s d).array = some (.reset tile) ∧ (dieOf s d).suspended = false ∧ seg < 131072 ∧
      tblWf (dieOf s d).undefTiles = true) :=
  ⟨⟨0, 1, 131071, 1, 131070, { w0 with media := { w0.media with dies := [(0, { dieUp with array := some (.prog 1 131071) })] } }, by decide +kernel⟩,
   ⟨0, 1, 0, 131071, { w0 with media := { w0.media with dies := [(0, { dieUp with array := some (.reset 1) })] } }, by decide +kernel⟩,
   ⟨0, 1, by decide +kernel⟩,
   ⟨0, 1, 131071, 1, 131070, { w0 with media := { w0.media with dies := [(0, { dieUp with array := some (.prog 1 131071) })] } }, by decide +kernel⟩,
   ⟨0, 1, 131071, { w0 with media := { w0.media with dies := [(0, { dieUp with array := some (.reset 1) })] } }, by decide +kernel⟩⟩

/-- A state and operands for each clause of AtMostFourPllsLock that has hypotheses. -/
theorem wit_AtMostFourPllsLock :
    (∃ s : State, pllCount s.time.locking ≤ 4) ∧
    (∃ d, ∃ s : State, domOf s d = .stopped ∧ pllRuns s d = false ∧ pllCount s.time.locking = 4 ∧
      s.time.locking.contains d = false ∧ s.time.lockQueue.contains d = false ∧
      ((s.time.locking.any fun x => pllOf x == pllOf d) = false)) :=
  ⟨⟨w0, by decide +kernel⟩,
   ⟨6, { w0 with time := { w0.time with domains := [(6, .stopped)], locking := [0, 1, 2, 3] } }, by decide +kernel⟩⟩

/-- A state and operands for each clause of SpreadCounterAddsExactly that has hypotheses. -/
theorem wit_SpreadCounterAddsExactly :
    (∃ c : Nat, ∃ d : Nat, d ≠ c) :=
  ⟨0, 1, by decide +kernel⟩

/-- A state and operands for each clause of CommandsLeaveTheQueueAlone that has hypotheses. -/
theorem wit_CommandsLeaveTheQueueAlone :
    (∃ c : Instr, ∃ s : State, ∃ t : State, exec c s = .next t) :=
  ⟨.bootGood, w0, _, rfl⟩

/-- EpochCommandsComplete, Arm Epoch, for a digest other than 0: SHA-256 is outside the model (log entry 3). -/
theorem wit_armEpoch (hz : manD ≠ 0) :
    ∃ c, ∃ inp : List Byte, ∃ u, ∃ s : State, Takes s c 0xC503 ∧ inp.length = 33 ∧
      armCheck s (le inp 0 8) (le inp 8 16) (le inp 24 8) = none ∧ u = armEpoch (le inp 0 8) (le inp 8 16) (le inp 24 8) s ∧
      byteAt inp 32 % 2 = 0 :=
  ⟨8, armPay, _, wMan manD, by decide +kernel, rfl, armOk hz, rfl, rfl⟩

/-- EpochCommandsComplete, Arm Epoch with SPREAD, likewise. -/
theorem wit_armEpochSpread (hz : manD ≠ 0) :
    ∃ c, ∃ inp : List Byte, ∃ u, ∃ s : State, Takes s c 0xC503 ∧ inp.length = 33 ∧
      armCheck s (le inp 0 8) (le inp 8 16) (le inp 24 8) = none ∧ u = armEpoch (le inp 0 8) (le inp 8 16) (le inp 24 8) s ∧
      byteAt inp 32 % 2 = 1 ∧ u.epoch.policy.spreadArm = true ∧ u.epoch.ring.mode = .formed := by
  have e : armSpread.take 32 = armPay.take 32 := rfl
  have e0 : le armSpread 0 8 = le armPay 0 8 := rfl
  have e1 : le armSpread 8 16 = le armPay 8 16 := rfl
  have e2 : le armSpread 24 8 = le armPay 24 8 := rfl
  exact ⟨8, armSpread, _, wMan manD, by decide +kernel, rfl, by rw [e0, e1, e2]; exact armOk hz, rfl, rfl, rfl, rfl⟩

/-- EpochCommandsComplete, adoption, likewise. -/
theorem wit_adopt (hz : manD ≠ 0) :
    ∃ dev, ∃ x, ∃ s : State, s.epoch.heard = some (dev, x) ∧ ((s.epoch.st = .lagging ∨ s.epoch.st = .divergent)) ∧
      adoptable s (manEpoch s s.epoch.manS) (manDigest s s.epoch.manS) = true ∧ canSwap s = true ∧
      s.time.tbNow % 1000000000 ≤ s.time.mono - x := by
  refine ⟨9, 0, wMan manD, rfl, .inl rfl, ?_, by decide +kernel, by decide +kernel⟩
  have e1 : changedCovered (wMan manD) = true := by decide +kernel
  have e2 : (manPrev (wMan manD) (wMan manD).epoch.manS == (wMan manD).ten.epochA) = true := by decide +kernel
  simp only [adoptable, sliceMatches_wMan hz, e1, e2, beq_self_eq_true, Bool.and_true]; decide +kernel

/-- RingEventsComplete, the ARM frame, likewise. -/
theorem wit_armFrame (hz : manD ≠ 0) :
    ∃ f, ∃ u, ∃ s : State, RingActs s 0x12 f ∧ s.epoch.policy.spreadArm = true ∧ (ringActed f s).mgmt.fabric.mode = .running ∧
      firstTime (0x12, le f.payload 0 8, le f.payload 8 16) (ringActed f s) = (true, u) ∧
      armCheck u (le f.payload 0 8) (le f.payload 8 16) (le f.payload 24 8) = none := by
  refine ⟨rf 0x12 armPay, (firstTime (0x12, le armPay 0 8, le armPay 8 16) (ringActed (rf 0x12 armPay) (wMan manD))).2, wMan manD, ?_, rfl, rfl, rfl, ?_⟩
  · exact ⟨⟨rfl, rfl, rfl⟩, rfl, .inl rfl⟩
  · have e : (rf 0x12 armPay).payload = armPay := rfl
    have l : ∀ k : Nat × Nat × Nat, (firstTime k (ringActed (rf 0x12 armPay) (wMan manD))).2
        = setRing (firstTime k (ringActed (rf 0x12 armPay) (wMan manD))).2.epoch.ring (wMan manD) := fun _ => rfl
    rw [l, armCheck_setRing, e]; exact armOk hz

/-- TenantAndKeyCommandsComplete, Load Tenant Key, for a blob that the unwrapping takes: ECDH and GCM are outside the model (log
entry 3). -/
theorem wit_loadTenantKey (blob : List Byte) (pair : Nat) (hl : blob.length = 196) (hv : le blob 0 2 = 1) (ht : le blob 4 2 = 1)
    (hg : le blob 6 2 = 0) (hp : pair % 2 ^ 256 ≠ pair / 2 ^ 256) (hu : unwrapKey 0 blob = some pair) :
    ∃ c, ∃ inp : List Byte, ∃ pair, ∃ t : State, ∃ s : State, Takes s c 0xC021 ∧ inp.length = 200 ∧ le inp 2 2 = 0 ∧
      s.start.phases.contains 14 = true ∧ (tenantOf s (le inp 0 2)).refusal ≤ s.time.mono ∧
      checkBlob (le inp 0 2) (inp.drop 4) s = .inr pair ∧ s.persist.drain = none ∧ s.place.cap = .normal ∧
      journalFull s = false ∧ restoreTenant (le inp 0 2) (acceptKey (le inp 0 2) pair s) = t := by
  have e0 : le ([1, 0, 0, 0] ++ blob) 0 2 = 1 := rfl
  have e3 : ([1, 0, 0, 0] ++ blob).drop 4 = blob := rfl
  have k0 : (tenantOf wKey 1).keyCheck = 0 := by decide +kernel
  have k1 : (tenantOf wKey 1).st = .active := by decide +kernel
  have k2 : (tenantOf wKey 1).keyGen = 0 := by decide +kernel
  have k3 : (tenantOf wKey 1).slot = some 0 := by decide +kernel
  have k4 : slotOf wKey 0 = .empty := by decide +kernel
  have k5 : wKey.mgmt.serial = 0 := rfl
  refine ⟨8, [1, 0, 0, 0] ++ blob, pair, _, wKey, by decide +kernel, by simp [hl], rfl, by decide +kernel, ?_, ?_, rfl, rfl, by decide +kernel, rfl⟩
  · rw [e0]; decide +kernel
  · rw [e0, e3]; simp [checkBlob, hv, ht, hg, k0, k1, k2, k3, k4, k5, hu]; exact hp

end Sys2Proof.Tests
end

/-!
What an interface answers from its gate: an opcode of no table is refused before anything else is looked at (R26), and a refusal
settles the command whatever its payload and its meaning.
-/
namespace Sys2Proof.Machine

/-- An opcode of no table is refused with Unsupported, before the mailbox, recovery mode, the access level, a held start and the
supervisors are looked at (R26). -/
theorem gate_of_unlisted {op : Nat} (hop : listedOps.contains op = false) (s : State) (c : Nat) :
    gate s c op = some .unsupported := by
  unfold gate
  rw [hop]
  rfl

/-- A command the gate refuses only completes, with the gate's return code. -/
theorem mailbox_of_gate_some {s : State} {c op : Nat} {rc : Rc} (hopen : cciOpen s c = true) (hgate : gate s c op = some rc)
    (bg lenOk reservedOk : Bool) (body : State → Reply) :
    mailbox c op bg lenOk reservedOk body s = .next (complete c op rc .none s) := by
  unfold mailbox
  rw [if_pos hopen, hgate]

/-- UNSUPPORTED_COMMAND on an opcode of no table runs as a standard command. -/
theorem exec_unsupportedCommand_of_unlisted {op : Nat} (hop : listedOps.contains op = false) (c : Fin 10) (s : State) :
    exec (.unsupportedCommand c op) s = standard c op (fun _ => .fail .unsupported) s := by
  change execUnsupportedCommand c op s = _
  unfold execUnsupportedCommand
  rw [hop]
  rfl

/-- Settles O46: the command reaches the gate, and the gate refuses an unlisted opcode first (R26). -/
theorem unlistedOpcodeIsUnsupported : Obligations.UnlistedOpcodeIsUnsupported := by
  intro c op s hop hopen
  rw [exec_unsupportedCommand_of_unlisted hop]
  exact mailbox_of_gate_some hopen (gate_of_unlisted hop s c) false true true _

end Sys2Proof.Machine

/-!
Independence of the heads (R65): what an update of one head keeps of the other heads and of the requests that are not its own. One
rule for each shared update that a reset, a link failure, an IDE failure or viral runs; the updates compose by transitivity.
-/
namespace Sys2Proof.Machine
open Sys2Proof.Safety

/-- From `s` to `t` every head other than `h`, and every request that `h` did not send, stays as it was (R65). -/
structure KeepsOtherHeads (h : Nat) (s t : State) : Prop where
  head_eq : ∀ k, k ≠ h → headOf t k = headOf s k
  req_kept : ∀ tag r, tfind s.ten.reqs tag = some r → r.src ≠ .head h → tfind t.ten.reqs tag = some r

namespace KeepsOtherHeads

theorem trans {h : Nat} {s t u : State} (hst : KeepsOtherHeads h s t) (htu : KeepsOtherHeads h t u) : KeepsOtherHeads h s u where
  head_eq k hk := (htu.head_eq k hk).trans (hst.head_eq k hk)
  req_kept tag r hr hsrc := htu.req_kept tag r (hst.req_kept tag r hr hsrc) hsrc

/-- An update of other parts of the state touches no head and no request. -/
theorem of_eq (h : Nat) {s t : State} (hheads : t.heads = s.heads) (hten : t.ten = s.ten) : KeepsOtherHeads h s t where
  head_eq k _ := by rw [headOf, hheads, ← headOf]
  req_kept tag r hr _ := by rw [hten, hr]

theorem refl (h : Nat) (s : State) : KeepsOtherHeads h s s := of_eq h rfl rfl

end KeepsOtherHeads

/-! ### The shared updates -/

/-- A lookup in a table whose values were all changed. -/
theorem tfind_tmap {α β : Type} (t : Tbl α) (f : Nat → α → β) (k : Nat) : tfind (tmap t f) k = (tfind t k).map (f k) := by
  induction t with
  | nil => rfl
  | cons a t ih =>
    obtain ⟨k', v⟩ := a
    change (if k' = k then some (f k' v) else tfind (tmap t f) k) = (if k' = k then some v else tfind t k).map (f k)
    split
    · next e => subst e; rfl
    · exact ih

theorem setHead_keepsOtherHeads (h : Nat) (x : HeadSt) (s : State) : KeepsOtherHeads h s (setHead h x s) where
  head_eq k hk := headOf_setHead_other h k x s hk
  req_kept _ _ hr _ := hr

/-- Only the requests of the head itself are marked quiet (R99). -/
theorem quietRequests_keepsOtherHeads (h : Nat) (s : State) : KeepsOtherHeads h s (quietRequests h s) where
  head_eq _ _ := rfl
  req_kept tag r hr hsrc := by simp [quietRequests, tfind_tmap, hr, hsrc]

theorem forgetGpf_keepsOtherHeads (h g : Nat) (s : State) : KeepsOtherHeads h s (forgetGpf g s) := .of_eq h rfl rfl

theorem touchQuiet_keepsOtherHeads (h : Nat) (s : State) : KeepsOtherHeads h s (touchQuiet s) := .of_eq h rfl rfl

theorem resetMailbox_keepsOtherHeads (h c : Nat) (s : State) : KeepsOtherHeads h s (resetMailbox c s) := .of_eq h rfl rfl

theorem raise_keepsOtherHeads (h src code p0 p1 p2 : Nat) (s : State) : KeepsOtherHeads h s (raise src code p0 p1 p2 s) :=
  .of_eq h (raise_heads src code p0 p1 p2 s) (raise_ten src code p0 p1 p2 s)

theorem stopDom_keepsOtherHeads (h d : Nat) (s : State) : KeepsOtherHeads h s (stopDom d s) :=
  .of_eq h (by rw [stopDom_eq]) (by rw [stopDom_eq])

/-- PERST_N, hot reset and link down change the state through their own head alone (R99). -/
theorem resetHead_keepsOtherHeads (h : Nat) (s : State) : KeepsOtherHeads h s (resetHead h s) :=
  (setHead_keepsOtherHeads h _ s).trans <|
    (quietRequests_keepsOtherHeads h _).trans <|
    (forgetGpf_keepsOtherHeads h h _).trans <|
    (touchQuiet_keepsOtherHeads h _).trans <|
    (resetMailbox_keepsOtherHeads h (2 * h + 1) _).trans
    (resetMailbox_keepsOtherHeads h (2 * h) _)

theorem enterViral_keepsOtherHeads (trigger h : Nat) (s : State) : KeepsOtherHeads h s (enterViral trigger h s) := by
  unfold enterViral
  dsimp only
  split
  · exact .refl h s
  · exact (setHead_keepsOtherHeads h _ s).trans (raise_keepsOtherHeads h _ _ _ _ _ _)

/-! ### The commands -/

/-- A command with a guard keeps what its effect keeps: without the guard it does nothing. -/
theorem after_keepsOtherHeads_of_guard {i : Instr} {h : Nat} {s t : State} {b : Prop} [Decidable b]
    (hexec : exec i s = if b then .next t else .next s) (hkeeps : KeepsOtherHeads h s t) :
    After i s (KeepsOtherHeads h s) := by
  by_cases hb : b
  · exact ⟨t, by rw [hexec, if_pos hb], hkeeps⟩
  · exact ⟨s, by rw [hexec, if_neg hb], .refl h s⟩

theorem hotReset_keepsOtherHeads (h : Fin 4) (s : State) : After (.hotReset h) s (KeepsOtherHeads h s) :=
  after_keepsOtherHeads_of_guard rfl (resetHead_keepsOtherHeads h s)

theorem linkDown_keepsOtherHeads (h : Fin 4) (s : State) : After (.linkDown h) s (KeepsOtherHeads h s) :=
  after_keepsOtherHeads_of_guard rfl (resetHead_keepsOtherHeads h s)

/-- The reset of the head, and then the stop of its clock domain unless that has no power. -/
theorem perstNAssert_keepsOtherHeads (h : Fin 4) (s : State) : After (.perstNAssert h) s (KeepsOtherHeads h s) := by
  change ∃ t, execPerstNAssert h s = .next t ∧ KeepsOtherHeads h s t
  have hreset : KeepsOtherHeads h s (resetHead h (setHead h { headOf s h with perst := true } s)) :=
    (setHead_keepsOtherHeads h _ s).trans (resetHead_keepsOtherHeads h _)
  unfold execPerstNAssert
  dsimp only
  split
  · exact ⟨s, rfl, .refl h s⟩
  · split
    · refine ⟨_, rfl, ?_⟩
      split
      · exact hreset
      · exact hreset.trans (stopDom_keepsOtherHeads h _ _)
    · exact ⟨s, rfl, .refl h s⟩

theorem cxlReset_keepsOtherHeads (h : Fin 4) (s : State) : After (.cxlReset h) s (KeepsOtherHeads h s) :=
  after_keepsOtherHeads_of_guard rfl <|
    (setHead_keepsOtherHeads h _ s).trans <|
    (quietRequests_keepsOtherHeads h _).trans
    (forgetGpf_keepsOtherHeads h h _)

theorem functionLevelReset_keepsOtherHeads (h : Fin 4) (s : State) :
    After (.functionLevelReset h) s (KeepsOtherHeads h s) :=
  after_keepsOtherHeads_of_guard rfl (setHead_keepsOtherHeads h _ s)

theorem ideIntegrityFailure_keepsOtherHeads (h : Fin 4) (s : State) :
    After (.ideIntegrityFailure h) s (KeepsOtherHeads h s) :=
  after_keepsOtherHeads_of_guard rfl <|
    (setHead_keepsOtherHeads h _ s).trans (raise_keepsOtherHeads h _ _ _ _ _ _)

theorem hostViralSignal_keepsOtherHeads (h : Fin 4) (s : State) : After (.hostViralSignal h) s (KeepsOtherHeads h s) :=
  after_keepsOtherHeads_of_guard rfl (enterViral_keepsOtherHeads 0 h s)

/-- Settles O54: each of the seven commands runs updates that keep the other heads and the requests of others (R65). -/
theorem headsAreIndependent : Obligations.HeadsAreIndependent := by
  intro h k s c hne hc
  have hafter : After c s (KeepsOtherHeads h s) := by
    rcases hc with rfl | rfl | rfl | rfl | rfl | rfl | rfl
    · exact perstNAssert_keepsOtherHeads h s
    · exact hotReset_keepsOtherHeads h s
    · exact linkDown_keepsOtherHeads h s
    · exact cxlReset_keepsOtherHeads h s
    · exact functionLevelReset_keepsOtherHeads h s
    · exact ideIntegrityFailure_keepsOtherHeads h s
    · exact hostViralSignal_keepsOtherHeads h s
  obtain ⟨t, hexec, hkeeps⟩ := hafter
  exact ⟨t, hexec, hkeeps.head_eq k (Fin.val_ne_of_ne hne.symm), hkeeps.req_kept⟩

end Sys2Proof.Machine

/-!
Failed key loads (R135): the two writes of a tenant's hold-off, and the two answers of Load Tenant Key that leave the key out.
-/
namespace Sys2Proof.Machine
open Sys2Proof.Safety

/-- A tenant just written. -/
@[simp] theorem tenantOf_setTenant_same (t : Nat) (x : TenantSt) (s : State) : tenantOf (setTenant t x s) t = x := by
  simp [tenantOf, setTenant]

/-- The tenants are untouched by an event. -/
@[simp] theorem tenantOf_raise (src code p0 p1 p2 t : Nat) (s : State) :
    tenantOf (raise src code p0 p1 p2 s) t = tenantOf s t := rfl

/-- The tenants are untouched by a write of a key slot. -/
@[simp] theorem tenantOf_setSlot (k : Nat) (x : SlotState) (t : Nat) (s : State) :
    tenantOf (setSlot k x s) t = tenantOf s t := rfl

/-- The tenant after a failed load: one failure more, and a hold-off from the eighth on (R135). -/
theorem tenantOf_loadFail_same (t n : Nat) (s : State) :
    tenantOf (loadFail t n s) t = { tenantOf s t with
      fails := (tenantOf s t).fails + 1
      refusal := if (tenantOf s t).fails + 1 < 8 then 0
        else s.time.mono + min (2 ^ ((tenantOf s t).fails - 7)) 64 * 1000000000 } := by
  simp [loadFail]

/-- The tenant after an accepted key: no failures and no hold-off, whatever its slot does (R134, R135). -/
theorem tenantOf_acceptKey_same (t pair : Nat) (s : State) :
    tenantOf (acceptKey t pair s) t = { tenantOf s t with fails := 0, refusal := 0 } := by
  unfold acceptKey
  dsimp only
  split
  · exact tenantOf_setTenant_same t _ s
  · split
    · exact tenantOf_setTenant_same t _ s
    · rw [tenantOf_setSlot, tenantOf_setTenant_same]

section
variable {c : Fin 10} {inp : List Byte} {s : State}

/-- Load Tenant Key in the hold-off of its tenant answers Busy and changes nothing else (R135). -/
theorem exec_loadTenantKey_of_heldOff (htakes : Takes s c 0xC021) (hlen : inp.length = 200) (hres : le inp 2 2 = 0)
    (hheld : s.time.mono < (tenantOf s (le inp 0 2)).refusal) :
    exec (.loadTenantKey c inp) s = .next (complete c 0xC021 .busy .none s) := by
  change execLoadTenantKey c inp s = _
  rw [execLoadTenantKey, vendor_of_takes htakes hlen (by simp [hres])]
  dsimp only
  rw [if_pos (Or.inr hheld)]
  rfl

/-- Load Tenant Key out of the hold-off, with a blob that fails a check, answers the check's return code and counts the failure
(R134, R135). -/
theorem exec_loadTenantKey_of_checkBlob_fails {n : Nat} {rc : Rc} (htakes : Takes s c 0xC021) (hlen : inp.length = 200)
    (hres : le inp 2 2 = 0) (hphase : s.start.phases.contains 14 = true)
    (hfree : (tenantOf s (le inp 0 2)).refusal ≤ s.time.mono)
    (hcheck : checkBlob (le inp 0 2) (inp.drop 4) s = .inl (n, rc)) :
    exec (.loadTenantKey c inp) s = .next (complete c 0xC021 rc .none (loadFail (le inp 0 2) n s)) := by
  have hgo : ¬((!s.start.phases.contains 14) = true ∨ s.time.mono < (tenantOf s (le inp 0 2)).refusal) := by
    rw [hphase]
    exact not_or.mpr ⟨Bool.false_ne_true, Nat.not_lt.mpr hfree⟩
  change execLoadTenantKey c inp s = _
  rw [execLoadTenantKey, vendor_of_takes htakes hlen (by simp [hres])]
  dsimp only
  rw [if_neg hgo, hcheck]
  rfl

end

/-- Settles O55: a failed load counts and sets the hold-off, an accepted key clears both, and Load Tenant Key answers Busy until
the hold-off is over (R135). -/
theorem failedKeyLoadsAreHeldOff : Obligations.FailedKeyLoadsAreHeldOff := by
  refine ⟨fun t n s => ?count, fun t n s hfew => ?noHold, fun t n s hmany => ?hold,
    fun c inp s => exec_loadTenantKey_of_heldOff, fun c inp n rc s => exec_loadTenantKey_of_checkBlob_fails,
    fun t p s => ?reset⟩
  case count => rw [tenantOf_loadFail_same]
  case noHold =>
    rw [tenantOf_loadFail_same]
    exact if_pos hfew
  case hold =>
    rw [tenantOf_loadFail_same]
    exact if_neg (Nat.not_lt.mpr hmany)
  case reset =>
    rw [tenantOf_acceptKey_same]
    exact ⟨rfl, rfl⟩

end Sys2Proof.Machine

/-!
The bin of an effective age (R305): where each bin starts and that 23 is the last one. The range of a bin is between its start and
the next one's.
-/
namespace Sys2Proof.Machine

theorem driftBin_of_lt {a : Nat} (ha : a < 64) : driftBin a = 0 := if_pos ha

theorem driftBin_of_le {a : Nat} (ha : 64 ≤ a) : driftBin a = min 23 (1 + Nat.log2 (a / 64)) :=
  if_neg (Nat.not_lt.mpr ha)

theorem le_log2_age_iff {a k : Nat} (ha : 64 ≤ a) : k ≤ Nat.log2 (a / 64) ↔ 64 * 2 ^ k ≤ a := by
  have hquot : a / 64 ≠ 0 := by omega
  rw [Nat.le_log2 hquot, Nat.le_div_iff_mul_le (by decide), Nat.mul_comm]

/-- Every bin but 0 starts at its own doubling of 64. -/
theorem le_driftBin_iff {a b : Nat} (hb : 1 ≤ b) (hb' : b ≤ 23) : b ≤ driftBin a ↔ 64 * 2 ^ (b - 1) ≤ a := by
  obtain ha | ha := Nat.lt_or_ge a 64
  · have hpow : 1 ≤ 2 ^ (b - 1) := Nat.one_le_two_pow
    rw [driftBin_of_lt ha]
    omega
  · rw [driftBin_of_le ha, ← le_log2_age_iff ha]
    omega

theorem driftBin_le (a : Nat) : driftBin a ≤ 23 := by
  obtain ha | ha := Nat.lt_or_ge a 64
  · simp [driftBin_of_lt ha]
  · rw [driftBin_of_le ha]
    exact Nat.min_le_left _ _

/-- Bins 1 to 22: the age has reached the start of the bin and not the start of the next. -/
theorem driftBin_of_mem_range {a b : Nat} (hb : 1 ≤ b) (hb' : b ≤ 22) (hlo : 64 * 2 ^ (b - 1) ≤ a)
    (hhi : a < 64 * 2 ^ b) : driftBin a = b := by
  have hle : b ≤ driftBin a := (le_driftBin_iff hb (by omega)).mpr hlo
  have hnext : ¬ b + 1 ≤ driftBin a := by
    rw [le_driftBin_iff (by omega) (by omega)]
    exact Nat.not_le.mpr hhi
  omega

/-- Bin 23 starts at 64 × 2^22 and has no end. -/
theorem driftBin_of_last_range {a : Nat} (ha : 268435456 ≤ a) : driftBin a = 23 :=
  Nat.le_antisymm (driftBin_le a) ((le_driftBin_iff (by decide) (by decide)).mpr ha)

/-- Settles O50: the bins by the branches of their definition and by the ranges R305 gives them; the table entry of a read is
looked up at that bin by definition (R305, R307). -/
theorem driftBinOfAnEffectiveAge : Obligations.DriftBinOfAnEffectiveAge :=
  ⟨fun _ => driftBin_of_lt, fun _ => driftBin_of_le, fun _ _ => driftBin_of_mem_range, fun _ => driftBin_of_last_range,
    fun _ _ _ => rfl⟩

end Sys2Proof.Machine

/-!
What the recorder does with a post while the SRAM ring has power (R547, R549): a repeat of the newest record is folded into it, any
other post becomes a record of its own. The host logs that a new record then reaches are no part of the recorder.
-/
namespace Sys2Proof.Machine

/-- A head's log is no part of the recorder. -/
@[simp] theorem logToHead_recorder (h : Nat) (k : CxlRec) (i : LogId) (r : EvRec) (s : State) :
    (logToHead h k i r s).recorder = s.recorder := by
  unfold logToHead
  dsimp only
  split
  · rfl
  · exact setHead_recorder h _ s

theorem foldl_logToHead_recorder (heads : List Nat) (k : CxlRec) (i : LogId) (r : EvRec) (s : State) :
    (heads.foldl (fun s h => logToHead h k i r s) s).recorder = s.recorder := by
  induction heads generalizing s with
  | nil => rfl
  | cons h heads ih => rw [List.foldl_cons, ih, logToHead_recorder]

/-- Reporting a record to the hosts leaves the recorder as it was. -/
@[simp] theorem toHostLogs_recorder (r : EvRec) (s : State) : (toHostLogs r s).recorder = s.recorder := by
  unfold toHostLogs
  split
  · exact foldl_logToHead_recorder _ _ _ r s
  · rfl

/-- The condition of R547 as a proposition. -/
theorem isRepeat_iff (e : Ev) (r : EvRec) : isRepeat e r = true ↔
    r.code = e.code ∧ r.src = e.src ∧ r.p0 = e.p0 ∧ r.p1 = e.p1 ∧ r.p2 = e.p2 ∧ r.rep < 0xFFFF := by
  simp only [isRepeat, Bool.and_eq_true, beq_iff_eq, decide_eq_true_eq, and_assoc]

theorem newestRec_of_slot {s : State} {k : Nat} {r : EvRec} (hnewest : s.recorder.newest = some k)
    (hslot : tfind s.recorder.ring k = some r) : newestRec s = some r := by
  rw [newestRec, hnewest]
  exact hslot

/-- The record that a post becomes when it is no repeat: it takes the next SEQUENCE. -/
def newRec (e : Ev) (s : State) : EvRec :=
  { src := e.src, sev := evSeverity e, code := e.code, p0 := e.p0, p1 := e.p1, p2 := e.p2, time := s.time.tbNow,
    seq := s.recorder.nextSeq, rep := 0, ext := e.ext }

theorem recordPost_of_repeat {e : Ev} {r : EvRec} {s : State} (hon : s.recorder.ringOn = true)
    (hnewest : newestRec s = some r) (hrep : isRepeat e r = true) :
    recordPost e s = { s with recorder := { s.recorder with
      ring := tput s.recorder.ring (r.seq % 65536) { r with rep := r.rep + 1, time := s.time.tbNow },
      folded := s.recorder.folded + 1 } } := by
  unfold recordPost
  dsimp only
  rw [if_pos hon, hnewest]
  exact if_pos hrep

/-- A post that repeats nothing, because the ring is empty or because its newest record differs, enters the ring as a new record and
moves the sequence counter on. -/
theorem recordPost_of_new {e : Ev} {s : State} (hon : s.recorder.ringOn = true)
    (hnew : ∀ r, newestRec s = some r → isRepeat e r = false) :
    (recordPost e s).recorder.nextSeq = (s.recorder.nextSeq + 1) % 2 ^ 32 ∧
    (recordPost e s).recorder.ring = tput s.recorder.ring (s.recorder.nextSeq % 65536) (newRec e s) := by
  unfold recordPost
  dsimp only
  rw [if_pos hon]
  cases hnewest : newestRec s with
  | none =>
    dsimp only
    rw [toHostLogs_recorder]
    exact ⟨rfl, rfl⟩
  | some r =>
    dsimp only
    rw [if_neg (Bool.eq_false_iff.mp (hnew r hnewest)), toHostLogs_recorder]
    exact ⟨rfl, rfl⟩

/-- Settles O52: a powered ring folds a post when R547's condition holds of its newest record, and otherwise writes the post as a
record with the next SEQUENCE (R549). -/
theorem repeatedEventsFold : Obligations.RepeatedEventsFold := by
  refine ⟨fun e r k s hon hnewest hslot hcode hsrc hp0 hp1 hp2 hrep => ?fold,
    fun e r k s hon hnewest hslot hdiff => ?other, fun e s hon hempty => ?first⟩
  case fold =>
    exact recordPost_of_repeat hon (newestRec_of_slot hnewest hslot)
      ((isRepeat_iff e r).mpr ⟨hcode, hsrc, hp0, hp1, hp2, hrep⟩)
  case other =>
    have hnot : isRepeat e r = false := by
      rw [Bool.eq_false_iff, ne_eq, isRepeat_iff]
      omega
    have hnew : ∀ r', newestRec s = some r' → isRepeat e r' = false := by
      rw [newestRec_of_slot hnewest hslot]
      rintro _ ⟨⟩
      exact hnot
    obtain ⟨hseq, hring⟩ := recordPost_of_new hon hnew
    exact ⟨hseq, by rw [hring, tfind_tput_same, newRec]⟩
  case first =>
    exact (recordPost_of_new hon (by simp [hempty])).1

end Sys2Proof.Machine

/-!
Occupancy of the front cache on a tenant's meter (R561): what the millisecond tick does with each metering page, and how FC_BYTE_SECONDS
is read back from a metering block (Table 19-4). A field of a payload laid out by `leBytes` is read back by one rule for all layouts.
-/
namespace Sys2Proof.Machine
open Sys2Proof.Safety

/-! ### Fields of a payload (R526) -/

theorem byteAt_append_right (pre b : List Byte) (off : Nat) : byteAt (pre ++ b) (pre.length + off) = byteAt b off := by
  rw [byteAt, List.getD_eq_getElem?_getD, List.getElem?_append_right (Nat.le_add_right _ _), Nat.add_sub_cancel_left,
    ← List.getD_eq_getElem?_getD, byteAt]

theorem le_append_right (pre b : List Byte) (off n : Nat) : le (pre ++ b) (pre.length + off) n = le b off n := by
  induction n generalizing off with
  | zero => rfl
  | succ n ih => rw [le, byteAt_append_right, Nat.add_assoc, ih, ← le]

/-- A number written at the front of a payload is read back from there. -/
theorem le_leBytes_append {n v : Nat} (post : List Byte) (hv : v < 256 ^ n) : le (leBytes n v ++ post) 0 n = v := by
  induction n generalizing v with
  | zero =>
    rw [Nat.pow_zero] at hv
    exact (Nat.lt_one_iff.mp hv).symm
  | succ n ih =>
    have hquot : v / 256 < 256 ^ n := Nat.div_lt_of_lt_mul (by rwa [← Nat.pow_succ'])
    calc le (leBytes (n + 1) v ++ post) 0 (n + 1)
        = (BitVec.ofNat 8 v).toNat +
            256 * le ([BitVec.ofNat 8 v] ++ (leBytes n (v / 256) ++ post)) ([BitVec.ofNat 8 v].length + 0) n := rfl
      _ = v % 256 + 256 * (v / 256) := by rw [le_append_right, ih hquot, BitVec.toNat_ofNat]
      _ = v := Nat.mod_add_div v 256

/-- A number written behind other fields is read back at their length. -/
theorem le_field {off n v : Nat} {pre : List Byte} (post : List Byte) (hoff : pre.length = off) (hv : v < 256 ^ n) :
    le (pre ++ (leBytes n v ++ post)) off n = v := by
  rw [← hoff, ← Nat.add_zero pre.length, le_append_right, le_leBytes_append post hv]

/-! ### The meter -/

/-- FC_BYTE_SECONDS stands behind MINUTE, SEQ with BUF, 4 reserved bytes and the three counters before it (Table 19-4). -/
theorem le_meterBytes_fcByteSeconds (minute seq buf : Nat) {m : MeterBlock} (hm : m.fcByteMs / 1000 < 2 ^ 64) :
    le (meterBytes minute seq buf m) 40 8 = m.fcByteMs / 1000 := by
  have hoff : (leBytes 8 minute ++ leBytes 4 (seq % 2 ^ 31 * 2 + buf) ++ zeros 4 ++ leBytes 8 m.bytesRead ++
      leBytes 8 m.bytesWritten ++ leBytes 8 m.frames).length = 40 := by simp
  have hfield := le_field (n := 8)
    (leBytes 8 m.remote ++ leBytes 8 m.exceeded ++ leBytes 8 m.start ++ zeros 56) hoff hm
  rw [meterBytes]
  simpa only [List.append_assoc] using hfield

/-- The number of a tenant's front lines that are not Invalid (R561, Table 4-2). -/
def validFrontLines (s : State) (n : Nat) : Nat :=
  (s.front.lines.filter fun p => p.2.st != .invalid && p.2.tenant == n).length

/-- The page of a tenant that is not Free after a millisecond: only the accumulator has moved. -/
theorem tfind_meterMs {n : Nat} {m : Meter} {s : State} (hm : tfind s.count.meters n = some m)
    (hlive : (tenantOf s n).st ≠ .free) :
    tfind (meterMs s).count.meters n =
      some { m with live := { m.live with fcByteMs := m.live.fcByteMs + 256 * validFrontLines s n } } := by
  rw [meterMs, tfind_tmap, hm, Option.map_some, if_neg hlive, validFrontLines]

/-- The millisecond tick of a device at work is the meter's. -/
theorem exec_meterOccupancyTick_of_devUp {s : State} (hup : devUp s = true) :
    exec .meterOccupancyTick s = .next (meterMs s) :=
  if_pos hup

/-- Settles O51: the tick runs the meter, which moves the accumulator of each listed page of a tenant that is not Free (R561), and
FC_BYTE_SECONDS is the field at 28h of the block (Table 19-4). -/
theorem meterAddsFrontCacheOccupancy : Obligations.MeterAddsFrontCacheOccupancy :=
  ⟨fun _ _ s hup hm hlive => ⟨meterMs s, exec_meterOccupancyTick_of_devUp hup, tfind_meterMs hm hlive⟩,
    fun minute seq buf _ hm => le_meterBytes_fcByteSeconds minute seq buf hm⟩

end Sys2Proof.Machine

/-!
What outlasts every command: the queue of waiting commands, the fuses, and the revoked keys (R7, R514, R520, log entry 10). One rule
for each operation and each meaning, in the order of the model's files, by the rules of what it calls; BOOT_GOOD alone adds to the
revoked keys. That a meaning has a rule also says that it answers a next state.
-/
namespace Sys2Proof.Machine
open Sys2Proof.Safety

/-- The queue, the fuses and the revoked keys, from the two fields of the state that hold them. -/
def lastingRec (m : MgmtSt) (q : List Instr) : List Instr × (Bool × Nat × Nat × Bool) × BitVec 4 :=
  (q, (m.gradeFX, m.serial, m.romVersion, m.debugLock), m.revoked)

/-- What outlasts every command but a boot-good: the queue, the fuses and the revoked keys (R7, R514, R520). -/
def lasting (s : State) : List Instr × (Bool × Nat × Nat × Bool) × BitVec 4 := lastingRec s.mgmt s.pending

/-- The same of what a command answers; none if it stops. -/
def lastingOf : Res → Option (List Instr × (Bool × Nat × Nat × Bool) × BitVec 4)
  | .next t => some (lasting t)
  | .fault _ | .refused _ => none

/-- The same of a command's reply: a reply without an effect leaves the state as it was. -/
def lastingReply (s : State) : Reply → List Instr × (Bool × Nat × Nat × Bool) × BitVec 4
  | .fail _ | .stall => lasting s
  | .failWith _ t | .done _ t | .commit _ t | .background t | .wait _ t => lasting t

@[simp] theorem lasting_mk (recorder cellar mgmt time heads start media ten front persist back map place drift dram fabric epoch
    count eng power therm free pending) :
    lasting ⟨recorder, cellar, mgmt, time, heads, start, media, ten, front, persist, back, map, place, drift, dram, fabric, epoch,
      count, eng, power, therm, free, pending⟩ = lastingRec mgmt pending := rfl

@[simp] theorem lastingRec_self (s : State) : lastingRec s.mgmt s.pending = lasting s := rfl

@[simp] theorem lastingRec_mk (running restarting recovery slotA slotB active nextSlot tries runSlot goodSince transfer activation
    revoked debugLock debugAccess gradeFX serial romVersion access ccis devLogs devPolicy host media fabric platform hub inbound
    hubDone ucode items spdm sanitize shutdownState alerts q) :
    lastingRec ⟨running, restarting, recovery, slotA, slotB, active, nextSlot, tries, runSlot, goodSince, transfer, activation,
      revoked, debugLock, debugAccess, gradeFX, serial, romVersion, access, ccis, devLogs, devPolicy, host, media, fabric, platform,
      hub, inbound, hubDone, ucode, items, spdm, sanitize, shutdownState, alerts⟩ q =
      (q, (gradeFX, serial, romVersion, debugLock), revoked) := rfl

@[simp] theorem lasting_fields (s : State) :
    (s.pending, (s.mgmt.gradeFX, s.mgmt.serial, s.mgmt.romVersion, s.mgmt.debugLock), s.mgmt.revoked) = lasting s := rfl

@[simp] theorem lasting_ite (c : Prop) [Decidable c] (s t : State) :
    lasting (if c then s else t) = if c then lasting s else lasting t := apply_ite lasting c s t

@[simp] theorem lastingOf_next (t : State) : lastingOf (.next t) = some (lasting t) := rfl

@[simp] theorem lastingOf_ite (c : Prop) [Decidable c] (r r' : Res) :
    lastingOf (if c then r else r') = if c then lastingOf r else lastingOf r' := apply_ite lastingOf c r r'

@[simp] theorem lastingReply_ite (s : State) (c : Prop) [Decidable c] (r r' : Reply) :
    lastingReply s (if c then r else r') = if c then lastingReply s r else lastingReply s r' := apply_ite (lastingReply s) c r r'

@[simp] theorem lastingReply_fail (s : State) (rc : Rc) : lastingReply s (.fail rc) = lasting s := rfl
@[simp] theorem lastingReply_stall (s : State) : lastingReply s .stall = lasting s := rfl
@[simp] theorem lastingReply_failWith (s t : State) (rc : Rc) : lastingReply s (.failWith rc t) = lasting t := rfl
@[simp] theorem lastingReply_done (s t : State) (out : CmdOut) : lastingReply s (.done out t) = lasting t := rfl
@[simp] theorem lastingReply_commit (s t : State) (out : CmdOut) : lastingReply s (.commit out t) = lasting t := rfl
@[simp] theorem lastingReply_background (s t : State) : lastingReply s (.background t) = lasting t := rfl
@[simp] theorem lastingReply_wait (s t : State) (out : CmdOut) : lastingReply s (.wait out t) = lasting t := rfl

/-- A fold of updates that keep the lasting part keeps it. -/
theorem lasting_foldl {α : Type} (l : List α) (f : State → α → State) (hf : ∀ s a, lasting (f s a) = lasting s) (s : State) :
    lasting (l.foldl f s) = lasting s := by
  induction l generalizing s with
  | nil => rfl
  | cons a l ih => rw [List.foldl_cons, ih, hf]

/-- The same of a fold that carries a value beside the state. -/
theorem lasting_foldl_snd {α β : Type} (l : List α) (f : β × State → α → β × State)
    (hf : ∀ p a, lasting (f p a).2 = lasting p.2) (p : β × State) : lasting (l.foldl f p).2 = lasting p.2 := by
  induction l generalizing p with
  | nil => rfl
  | cons a l ih => rw [List.foldl_cons, ih, hf]

/-- What an operation that may give nothing leaves in place of the state it would have changed. -/
theorem lasting_getD {o : Option State} {s : State} (h : ∀ t, o = some t → lasting t = lasting s) :
    lasting (o.getD s) = lasting s := by
  cases o with
  | none => rfl
  | some t => exact h t rfl


/-! ### Machine/Ops.lean -/

@[simp] theorem drawBits_lasting (w : Nat) (s : State) : lasting (drawBits w s).2 = lasting s := by simp [drawBits]
@[simp] theorem drawNat_lasting (s : State) : lasting (drawNat s).2 = lasting s := by simp [drawNat]
@[simp] theorem raiseEv_lasting (e : Ev) (s : State) : lasting (raiseEv e s) = lasting s := by simp [raiseEv]

@[simp] theorem raise_lasting (src code p0 p1 p2 : Nat) (s : State) : lasting (raise src code p0 p1 p2 s) = lasting s := by
  simp [raise]

@[simp] theorem raiseParity_lasting (src row addr : Nat) (s : State) : lasting (raiseParity src row addr s) = lasting s := by
  simp [raiseParity]

@[simp] theorem raiseDpa_lasting (src code dpa head : Nat) (s : State) : lasting (raiseDpa src code dpa head s) = lasting s := by
  simp [raiseDpa]

@[simp] theorem markPhase_lasting (n : Nat) (s : State) : lasting (markPhase n s) = lasting s := by simp [markPhase]

@[simp] theorem cellarWrite_lasting (cls region key : Nat) (data : List Byte) (cci : Option Nat) (s : State) :
    lasting (cellarWrite cls region key data cci s) = lasting s := by
  simp [cellarWrite]

@[simp] theorem cellarCommitNow_lasting (region key : Nat) (data : List Byte) (s : State) :
    lasting (cellarCommitNow region key data s) = lasting s := by
  unfold cellarCommitNow
  repeat' split
  all_goals simp

@[simp] theorem spreadAdd_lasting (c inc : Nat) (s : State) : lasting (spreadAdd c inc s) = lasting s := by simp [spreadAdd]
@[simp] theorem setCci_lasting (c : Nat) (x : CciSt) (s : State) : lasting (setCci c x s) = lasting s := by simp [setCci]

@[simp] theorem complete_lasting (c op : Nat) (rc : Rc) (out : CmdOut) (s : State) :
    lasting (complete c op rc out s) = lasting s := by
  simp [complete]

@[simp] theorem completeWaiting_lasting (c op : Nat) (rc : Rc) (out : CmdOut) (s : State) :
    lasting (completeWaiting c op rc out s) = lasting s := by
  unfold completeWaiting
  split <;> simp

@[simp] theorem awaitCommit_lasting (c op : Nat) (out : CmdOut) (s : State) : lasting (awaitCommit c op out s) = lasting s := by
  simp [awaitCommit]

@[simp] theorem startBg_lasting (c op : Nat) (s : State) : lasting (startBg c op s) = lasting s := by simp [startBg]

@[simp] theorem raiseMsix_lasting (h v : Nat) (s : State) : lasting (raiseMsix h v s) = lasting s := by
  unfold raiseMsix
  split <;> simp

@[simp] theorem endBgOn_lasting (c op : Nat) (rc : Rc) (s : State) : lasting (endBgOn c op rc s) = lasting s := by
  unfold endBgOn
  repeat' split
  all_goals simp

@[simp] theorem endBg_lasting (op : Nat) (rc : Rc) (s : State) : lasting (endBg op rc s) = lasting s := by
  simp [endBg, lasting_foldl]

/-! ### Machine/Domains.lean -/

@[simp] theorem setDom_lasting (d : Nat) (x : DomState) (s : State) : lasting (setDom d x s) = lasting s := by simp [setDom]

@[simp] theorem startDom_lasting (d : Nat) (s : State) : lasting (startDom d s) = lasting s := by
  unfold startDom
  dsimp only
  split <;> simp

@[simp] theorem gateDom_lasting (d : Nat) (s : State) : lasting (gateDom d s) = lasting s := by simp [gateDom]
@[simp] theorem fillLocks_lasting (n : Nat) (s : State) : lasting (fillLocks n s) = lasting s := by rw [fillLocks_eq]; simp
@[simp] theorem stopDom_lasting (d : Nat) (s : State) : lasting (stopDom d s) = lasting s := by simp [stopDom]
@[simp] theorem releaseStops_lasting (s : State) : lasting (releaseStops s) = lasting s := by simp [releaseStops, lasting_foldl]
@[simp] theorem unpowerDom_lasting (d : Nat) (s : State) : lasting (unpowerDom d s) = lasting s := by simp [unpowerDom]

/-! ### Machine/Mailbox.lean -/

@[simp] theorem setSup_lasting (n : Nat) (x : SupSt) (s : State) : lasting (setSup n x s) = lasting s := by simp [setSup]
@[simp] theorem setHead_lasting (h : Nat) (x : HeadSt) (s : State) : lasting (setHead h x s) = lasting s := by simp [setHead]

@[simp] theorem tieCommit_lasting (c : Nat) (s : State) : lasting (tieCommit c s) = lasting s := by
  unfold tieCommit
  split <;> simp

theorem settle_lasting {c op : Nat} {s : State} {r : Reply} (h : lastingReply s r = lasting s) :
    lasting (settle c op s r) = lasting s := by
  cases r with
  | done out t =>
    have ht : lasting t = lasting s := h
    simp only [settle]
    split <;> simp [ht]
  | fail _ => simp [settle]
  | stall => rfl
  | failWith _ t => simpa [settle] using h
  | commit _ t => simpa [settle] using h
  | background t => simpa [settle] using h
  | wait _ t => simpa [settle] using h

/-- A command of an interface keeps the lasting part if its body does. -/
theorem mailbox_lasting {c op : Nat} {bg l r : Bool} {body : State → Reply} {s : State}
    (h : ∀ s, lastingReply s (body s) = lasting s) : lastingOf (mailbox c op bg l r body s) = some (lasting s) := by
  unfold mailbox
  split
  · split
    · simp
    · simp [settle_lasting (h s)]
  · rfl

theorem vendor_lasting {c : Fin 10} {op : Nat} {inp : List Byte} {len : Nat} {resv : List (Nat × Nat)} {body : State → Reply}
    {s : State} (h : ∀ s, lastingReply s (body s) = lasting s) :
    lastingOf (vendor c op inp len resv body s) = some (lasting s) := mailbox_lasting h

theorem vendorBg_lasting {c : Fin 10} {op : Nat} {inp : List Byte} {len : Nat} {resv : List (Nat × Nat)} {body : State → Reply}
    {s : State} (h : ∀ s, lastingReply s (body s) = lasting s) :
    lastingOf (vendorBg c op inp len resv body s) = some (lasting s) := mailbox_lasting h

theorem standard_lasting {c : Fin 10} {op : Nat} {body : State → Reply} {s : State}
    (h : ∀ s, lastingReply s (body s) = lasting s) : lastingOf (standard c op body s) = some (lasting s) := mailbox_lasting h

@[simp] theorem storeSetting_lasting (key : Nat) (r : Option (List Byte)) (s : State) :
    lastingReply s (storeSetting key r s) = lasting s := by
  unfold storeSetting
  split <;> simp

@[simp] theorem answer_lasting (s : State) (b : List Byte) : lastingReply s (answer s b) = lasting s := by simp [answer]

/-! ### Machine/Die.lean -/

@[simp] theorem setDie_lasting (d : Nat) (x : DieSt) (s : State) : lasting (setDie d x s) = lasting s := by simp [setDie]
@[simp] theorem setChan_lasting (c : Nat) (x : ChanSt) (s : State) : lasting (setChan c x s) = lasting s := by simp [setChan]
@[simp] theorem respond_lasting (c : Nat) (b : List Byte) (s : State) : lasting (respond c b s) = lasting s := by simp [respond]

@[simp] theorem senseSeg_lasting (x : DieSt) (tile seg : Nat) (s : State) : lasting (senseSeg x tile seg s).2 = lasting s := by
  unfold senseSeg
  split <;> simp

@[simp] theorem senseData_lasting (x : DieSt) (f : SenseForm) (s : State) : lasting (senseData x f s).2.2 = lasting s := by
  unfold senseData
  split <;> simp

@[simp] theorem moveResult_lasting (d : Nat) (e : Bool) (s : State) : lasting (moveResult d e s) = lasting s := by
  unfold moveResult
  dsimp only
  split <;> simp

@[simp] theorem reject_lasting (d : Nat) (s : State) : lasting (reject d s) = lasting s := by simp [reject]
@[simp] theorem pollPkg_lasting (c p : Nat) (s : State) : lasting (pollPkg c p s) = lasting s := by simp [pollPkg]

@[simp] theorem dieRun_lasting (d : Nat) (c : DieCmd) (s : State) : lasting (dieRun d c s) = lasting s := by
  unfold dieRun
  dsimp only
  repeat' split
  all_goals simp

@[simp] theorem undefSeg_lasting (d tile seg : Nat) (s : State) : lasting (undefSeg d tile seg s) = lasting s := by
  simp [undefSeg]

@[simp] theorem undefTile_lasting (d tile : Nat) (s : State) : lasting (undefTile d tile s) = lasting s := by simp [undefTile]

@[simp] theorem endProgram_lasting (d : Nat) (good : Bool) (s : State) : lasting (endProgram d good s) = lasting s := by
  unfold endProgram
  dsimp only
  split <;> simp

@[simp] theorem endReset_lasting (d : Nat) (good : Bool) (s : State) : lasting (endReset d good s) = lasting s := by
  unfold endReset
  dsimp only
  split <;> simp

@[simp] theorem resetDie_lasting (d : Nat) (s : State) : lasting (resetDie d s) = lasting s := by
  unfold resetDie
  split <;> simp

@[simp] theorem assertMreset_lasting (c : Nat) (s : State) : lasting (assertMreset c s) = lasting s := by
  simp [assertMreset, lasting_foldl]

@[simp] theorem cmdCheckAll_lasting (c p : Nat) (s : State) : lasting (cmdCheckAll c p s) = lasting s := by
  simp [cmdCheckAll, lasting_foldl]

@[simp] theorem busGrant_lasting (c : Nat) (s : State) : lasting (busGrant c s) = lasting s := by
  unfold busGrant
  dsimp only
  repeat' split
  all_goals simp

@[simp] theorem busAdd_lasting (c : Nat) (ts : List BusXfer) (s : State) : lasting (busAdd c ts s) = lasting s := by simp [busAdd]

@[simp] theorem busDrop_lasting (c : Nat) (p : BusXfer → Bool) (s : State) : lasting (busDrop c p s) = lasting s := by
  simp [busDrop]

@[simp] theorem busDone_lasting (c : Nat) (f : BusForm) (s : State) : lasting (busDone c f s) = lasting s := by
  unfold busDone
  dsimp only
  repeat' split
  all_goals simp

@[simp] theorem leadBus_lasting (die : Nat) (s : State) : lasting (leadBus die s) = lasting s := by
  unfold leadBus
  dsimp only
  split <;> simp

@[simp] theorem sendAgain_lasting (c p : Nat) (s : State) : lasting (sendAgain c p s) = lasting s := by
  unfold sendAgain
  dsimp only
  split <;> simp

@[simp] theorem execReadSegSense_lasting (die : Nat) (eng : Bool) (tile seg : Nat) (o0 o1 o2 : Int) (s : State) :
    lastingOf (execReadSegSense die eng tile seg o0 o1 o2 s) = some (lasting s) := by
  simp [execReadSegSense]

@[simp] theorem execReadSegOutput_lasting (die : Nat) (eng free : Bool) (start len : Nat) (s : State) :
    lastingOf (execReadSegOutput die eng free start len s) = some (lasting s) := by
  simp [execReadSegOutput]

@[simp] theorem execReadSoft_lasting (die : Nat) (eng : Bool) (tile seg : Nat) (o0 o1 o2 : Int) (s : State) :
    lastingOf (execReadSoft die eng tile seg o0 o1 o2 s) = some (lasting s) := by
  simp [execReadSoft]

@[simp] theorem execProgSegSetup_lasting (die tile seg : Nat) (s : State) :
    lastingOf (execProgSegSetup die tile seg s) = some (lasting s) := by
  simp [execProgSegSetup]

@[simp] theorem execProgSegData_lasting (die start len : Nat) (data : List Byte) (s : State) :
    lastingOf (execProgSegData die start len data s) = some (lasting s) := by
  simp [execProgSegData]

@[simp] theorem execProgSegConfirm_lasting (die : Nat) (s : State) :
    lastingOf (execProgSegConfirm die s) = some (lasting s) := by
  simp [execProgSegConfirm]

@[simp] theorem execResetTile_lasting (die tile : Nat) (s : State) :
    lastingOf (execResetTile die tile s) = some (lasting s) := by
  simp [execResetTile]

@[simp] theorem execStatusPoll_lasting (ch : Fin 36) (pkg : Fin 8) (s : State) :
    lastingOf (execStatusPoll ch pkg s) = some (lasting s) := by
  simp [execStatusPoll]

@[simp] theorem execStatusDie_lasting (die : Nat) (s : State) : lastingOf (execStatusDie die s) = some (lasting s) := by
  simp [execStatusDie]

@[simp] theorem execReadParamPage_lasting (die : Nat) (copy : Bool) (s : State) :
    lastingOf (execReadParamPage die copy s) = some (lasting s) := by
  simp [execReadParamPage]

@[simp] theorem execSetFeature_lasting (die feature value : Nat) (s : State) :
    lastingOf (execSetFeature die feature value s) = some (lasting s) := by
  simp [execSetFeature]

@[simp] theorem execGetFeature_lasting (die feature : Nat) (s : State) :
    lastingOf (execGetFeature die feature s) = some (lasting s) := by
  simp [execGetFeature]

@[simp] theorem execSuspend_lasting (die : Nat) (s : State) : lastingOf (execSuspend die s) = some (lasting s) := by
  simp [execSuspend]

@[simp] theorem execResume_lasting (die : Nat) (s : State) : lastingOf (execResume die s) = some (lasting s) := by
  simp [execResume]

@[simp] theorem execTempRead_lasting (ch : Fin 36) (pkg : Fin 8) (s : State) :
    lastingOf (execTempRead ch pkg s) = some (lasting s) := by
  simp [execTempRead]

@[simp] theorem execCalibrate_lasting (ch : Fin 36) (pkg : Fin 8) (s : State) :
    lastingOf (execCalibrate ch pkg s) = some (lasting s) := by
  simp [execCalibrate]

@[simp] theorem execCmdCheckFail_lasting (ch : Fin 36) (pkg : Fin 8) (cmd : List Byte) (s : State) :
    lastingOf (execCmdCheckFail ch pkg cmd s) = some (lasting s) := by
  simp [execCmdCheckFail]

@[simp] theorem execSenseLead_lasting (die : Nat) (eng : Bool) (s : State) :
    lastingOf (execSenseLead die eng s) = some (lasting s) := by
  simp [execSenseLead]

@[simp] theorem execSenseResultReady_lasting (die : Nat) (eng : Bool) (s : State) :
    lastingOf (execSenseResultReady die eng s) = some (lasting s) := by
  simp [execSenseResultReady]

@[simp] theorem execDieTileResetEnd_lasting (die : Nat) (good : Bool) (s : State) :
    lastingOf (execDieTileResetEnd die good s) = some (lasting s) := by
  simp [execDieTileResetEnd]

@[simp] theorem execMresetNRise_lasting (ch : Fin 36) (s : State) : lastingOf (execMresetNRise ch s) = some (lasting s) := by
  simp [execMresetNRise]

@[simp] theorem pollOutstanding_lasting (c : Nat) (s : State) : lasting (pollOutstanding c s) = lasting s := by
  simp [pollOutstanding, lasting_foldl]

@[simp] theorem execMrdyNFall_lasting (ch : Fin 36) (s : State) : lastingOf (execMrdyNFall ch s) = some (lasting s) := by
  simp [execMrdyNFall]

@[simp] theorem execMrdyNRepoll_lasting (ch : Fin 36) (s : State) : lastingOf (execMrdyNRepoll ch s) = some (lasting s) := by
  simp [execMrdyNRepoll]

/-! ### Machine/Cellar.lean -/

@[simp] theorem setLock_lasting (region : Nat) (l : RegionLock) (s : State) : lasting (setLock region l s) = lasting s := by
  simp [setLock]

@[simp] theorem putPasswords_lasting (d : List Byte) (s : State) : lasting (putPasswords d s) = lasting s := by
  simp [putPasswords]

@[simp] theorem pwFail_lasting (region : Nat) (s : State) : lasting (pwFail region s) = lasting s := by simp [pwFail]
@[simp] theorem pwGood_lasting (region : Nat) (s : State) : lasting (pwGood region s) = lasting s := by simp [pwGood]

@[simp] theorem execGetCellarBookInfo_lasting (cci : Fin 10) (inp : List Byte) (s : State) :
    lastingOf (execGetCellarBookInfo cci inp s) = some (lasting s) := by
  refine vendor_lasting fun s => ?_
  simp

@[simp] theorem execReadCellarRecord_lasting (cci : Fin 10) (inp : List Byte) (s : State) :
    lastingOf (execReadCellarRecord cci inp s) = some (lasting s) := by
  refine vendor_lasting fun s => ?_
  dsimp only
  repeat' split
  all_goals simp

@[simp] theorem execWriteCellarRecord_lasting (cci : Fin 10) (inp : List Byte) (s : State) :
    lastingOf (execWriteCellarRecord cci inp s) = some (lasting s) := by
  refine vendor_lasting fun s => ?_
  dsimp only
  repeat' split
  all_goals simp

@[simp] theorem withPasswords_lasting (region flags pw : Nat) (s : State) :
    lasting (withPasswords region flags pw s) = lasting s := by
  unfold withPasswords
  dsimp only
  rw [setLock_lasting]
  refine lasting_getD fun t ht => ?_
  obtain ⟨d, -, rfl⟩ := Option.map_eq_some_iff.mp ht
  simp

@[simp] theorem execSetRegionPasswords_lasting (cci : Fin 10) (inp : List Byte) (s : State) :
    lastingOf (execSetRegionPasswords cci inp s) = some (lasting s) := by
  refine vendor_lasting fun s => ?_
  dsimp only
  split
  · rfl
  · split
    · rfl
    · simp
    · simp [storeSetting]

@[simp] theorem execLockoutPersist_lasting (s : State) : lastingOf (execLockoutPersist s) = some (lasting s) := by
  simp [execLockoutPersist]

@[simp] theorem execGetSpreadCounter_lasting (cci : Fin 10) (inp : List Byte) (s : State) :
    lastingOf (execGetSpreadCounter cci inp s) = some (lasting s) := by
  refine vendor_lasting fun s => ?_
  simp

/-! ### Machine/MapOps.lean -/

@[simp] theorem setDram_lasting (c : Nat) (x : DramCh) (s : State) : lasting (setDram c x s) = lasting s := by simp [setDram]

@[simp] theorem setBad_lasting (copyB : Bool) (lfa : Nat) (s : State) : lasting (setBad copyB lfa s) = lasting s := by
  simp [setBad]

@[simp] theorem openRow_lasting (c : Nat) (l : DramLoc) (s : State) : lasting (openRow c l s) = lasting s := by simp [openRow]

@[simp] theorem postEntry_lasting (lfa : Nat) (e : MapEnt) (s : State) : lasting (postEntry lfa e s) = lasting s := by
  simp [postEntry]

@[simp] theorem setGroup_lasting (g : Nat) (x : Group) (s : State) : lasting (setGroup g x s) = lasting s := by simp [setGroup]

@[simp] theorem modGroup_lasting (g : Nat) (f : Group → Group) (s : State) : lasting (modGroup g f s) = lasting s := by
  simp [modGroup]

@[simp] theorem addValid_lasting (pfa : Nat) (n : Int) (s : State) : lasting (addValid pfa n s) = lasting s := by simp [addValid]

@[simp] theorem releaseSlot_lasting (n : Nat) (s : State) : lasting (releaseSlot n s) = lasting s := by
  unfold releaseSlot
  split <;> simp

@[simp] theorem dropEntry_lasting (lfa : Nat) (s : State) : lasting (dropEntry lfa s) = lasting s := by
  unfold dropEntry
  repeat' split
  all_goals simp

@[simp] theorem setEntry_lasting (lfa : Nat) (e : MapEnt) (s : State) : lasting (setEntry lfa e s) = lasting s := by
  simp [setEntry]

@[simp] theorem setTenant_lasting (t : Nat) (x : TenantSt) (s : State) : lasting (setTenant t x s) = lasting s := by
  simp [setTenant]

@[simp] theorem setExt_lasting (e : Nat) (act stg : Bool) (x : ExtentEnt) (s : State) :
    lasting (setExt e act stg x s) = lasting s := by
  simp [setExt]

@[simp] theorem setEState_lasting (e : Nat) (st : EState) (s : State) : lasting (setEState e st s) = lasting s := by
  simp [setEState]

@[simp] theorem swapBanks_lasting (s : State) : lasting (swapBanks s) = lasting s := by simp [swapBanks]

@[simp] theorem writeImageList_lasting (l : List RunRec) (s : State) : lasting (writeImageList l s) = lasting s := by
  simp [writeImageList]

@[simp] theorem applyRec_lasting (r : JRec) (s : State) : lasting (applyRec r s) = lasting s := by
  unfold applyRec
  repeat' split
  all_goals simp [lasting_foldl]

@[simp] theorem stage_lasting (r : JRec) (s : State) : lasting (stage r s) = lasting s := by simp [stage]
@[simp] theorem commit_lasting (r : JRec) (s : State) : lasting (commit r s) = lasting s := by simp [commit]

@[simp] theorem drainWaiting_lasting (n : Nat) (s : State) : lasting (drainWaiting n s) = lasting s := by
  induction n generalizing s with
  | zero => rfl
  | succ n ih =>
    unfold drainWaiting
    split <;> simp [ih]

@[simp] theorem journaled_lasting {s : State} {r : Reply} (h : lastingReply s r = lasting s) :
    lastingReply s (journaled s r) = lasting s := by
  unfold journaled
  split
  · rfl
  · exact h

@[simp] theorem commitAll_lasting (rs : List JRec) (s : State) : lasting (commitAll rs s) = lasting s := by
  simp [commitAll, lasting_foldl]

@[simp] theorem setCap_lasting (c : CapState) (s : State) : lasting (setCap c s) = lasting s := by simp [setCap]

@[simp] theorem returnWithheld_lasting (n : Nat) (s : State) : lasting (returnWithheld n s) = lasting s := by
  induction n generalizing s with
  | zero => rfl
  | succ n ih =>
    unfold returnWithheld
    split <;> simp [ih]

@[simp] theorem spareRecompute_lasting (s : State) : lasting (spareRecompute s) = lasting s := by simp [spareRecompute]

@[simp] theorem setOpen_lasting (role ds : Nat) (g : Option Nat) (s : State) : lasting (setOpen role ds g s) = lasting s := by
  simp [setOpen]

@[simp] theorem keepShare_lasting (ds : Nat) (s : State) : lasting (keepShare ds s) = lasting s := by simp [keepShare]

@[simp] theorem openGroup_lasting (role ds : Nat) (s : State) : lasting (openGroup role ds s) = lasting s := by
  unfold openGroup
  split <;> simp

@[simp] theorem closeGroup_lasting (g : Nat) (s : State) : lasting (closeGroup g s) = lasting s := by simp [closeGroup]
@[simp] theorem setBusy_lasting (ds : Nat) (b : BusySt) (s : State) : lasting (setBusy ds b s) = lasting s := by simp [setBusy]

theorem place_lasting {role : Nat} {s t : State} {n : Nat} (h : place role s = some (n, t)) : lasting t = lasting s := by
  unfold place at h
  dsimp only at h
  split at h
  · cases h
  · split at h
    · cases h
    · cases h
      simp

@[simp] theorem addWork_lasting (ds : Nat) (w : Work) (s : State) : lasting (addWork ds w s) = lasting s := by simp [addWork]

/-! ### Machine/CounterOps.lean -/

@[simp] theorem countEvent_lasting (code n : Nat) (a : EvAttr) (s : State) : lasting (countEvent code n a s) = lasting s := by
  simp [countEvent]

@[simp] theorem meterLive_lasting (t : Nat) (f : MeterBlock → MeterBlock) (s : State) :
    lasting (meterLive t f s) = lasting s := by
  simp [meterLive]

@[simp] theorem countReq_lasting (code n : Nat) (r : Req) (s : State) : lasting (countReq code n r s) = lasting s := by
  simp [countReq]

@[simp] theorem showCompletion_lasting (tag outcome : Nat) (r : Req) (s : State) :
    lasting (showCompletion tag outcome r s) = lasting s := by
  simp [showCompletion]

@[simp] theorem startSnapshot_lasting (s : State) : lasting (startSnapshot s) = lasting s := by simp [startSnapshot]

@[simp] theorem endSnapshot_lasting (s : State) : lasting (endSnapshot s) = lasting s := by
  unfold endSnapshot
  split <;> simp

@[simp] theorem meterMs_lasting (s : State) : lasting (meterMs s) = lasting s := by simp [meterMs]

/-! ### Machine/FabSend.lean -/

@[simp] theorem setPort_lasting (p : Nat) (x : FabPort) (s : State) : lasting (setPort p x s) = lasting s := by simp [setPort]

@[simp] theorem countPortData_lasting (code : Nat) (m : WireMsg) (s : State) : lasting (countPortData code m s) = lasting s := by
  unfold countPortData
  split <;> simp

@[simp] theorem freeRelay_lasting (drain : Bool) (m : WireMsg) (s : State) : lasting (freeRelay drain m s) = lasting s := by
  unfold freeRelay
  repeat' split
  all_goals simp

@[simp] theorem pumpPort_lasting (p : Nat) (s : State) : lasting (pumpPort p s) = lasting s := by simp [pumpPort, lasting_foldl]
@[simp] theorem enqueue_lasting (p : Nat) (m : WireMsg) (s : State) : lasting (enqueue p m s) = lasting s := by simp [enqueue]

@[simp] theorem dropMsg_lasting (p reason dst : Nat) (s : State) : lasting (dropMsg p reason dst s) = lasting s := by
  simp [dropMsg]

@[simp] theorem originate_lasting (m : FabMsg) (s : State) : lasting (originate m s) = lasting s := by
  unfold originate
  dsimp only
  split <;> simp

@[simp] theorem retryEgress_lasting (s : State) : lasting (retryEgress s) = lasting s := by simp [retryEgress, lasting_foldl]

@[simp] theorem forward_lasting (ingress : Nat) (m : FabMsg) (s : State) : lasting (forward ingress m s) = lasting s := by
  unfold forward
  split <;> simp

@[simp] theorem sendHello_lasting (p : Nat) (s : State) : lasting (sendHello p s) = lasting s := by simp [sendHello]
@[simp] theorem sendLsa_lasting (p : Nat) (l : Lsa) (s : State) : lasting (sendLsa p l s) = lasting s := by simp [sendLsa]

@[simp] theorem floodLsa_lasting (but : Option Nat) (l : Lsa) (s : State) : lasting (floodLsa but l s) = lasting s := by
  simp [floodLsa, lasting_foldl]

@[simp] theorem storeLsa_lasting (l : Lsa) (s : State) : lasting (storeLsa l s) = lasting s := by simp [storeLsa]

@[simp] theorem originateLsa_lasting (withdrawn : Bool) (s : State) : lasting (originateLsa withdrawn s) = lasting s := by
  simp [originateLsa]

@[simp] theorem enterPort_lasting (p : Nat) (st : FPort) (s : State) : lasting (enterPort p st s) = lasting s := by
  unfold enterPort
  dsimp only
  repeat' split
  all_goals simp

@[simp] theorem leaveLink_lasting (p : Nat) (s : State) : lasting (leaveLink p s) = lasting s := by
  unfold leaveLink
  dsimp only
  split
  · rfl
  · refine (lasting_foldl _ _ (fun s m => ?_) _).trans ?_
    · split <;> simp
    · simp

@[simp] theorem dropPort_lasting (p : Nat) (st : FPort) (s : State) : lasting (dropPort p st s) = lasting s := by simp [dropPort]

/-! ### Machine/DriftOps.lean -/

@[simp] theorem touchWindow_lasting (g : Nat) (s : State) : lasting (touchWindow g s) = lasting s := by simp [touchWindow]
@[simp] theorem countRead_lasting (g : Nat) (s : State) : lasting (countRead g s) = lasting s := by simp [countRead]

@[simp] theorem sendRead_lasting (pfa quad : Nat) (shift : Int) (s : State) :
    lasting (sendRead pfa quad shift s) = lasting s := by
  simp [sendRead]

@[simp] theorem noteDecode_lasting (g : Nat) (up dn : List Nat) (s : State) : lasting (noteDecode g up dn s) = lasting s := by
  simp [noteDecode]

@[simp] theorem stepTrims_lasting (g : Nat) (d0 d1 d2 : Int) (s : State) : lasting (stepTrims g d0 d1 d2 s) = lasting s := by
  simp [stepTrims]

@[simp] theorem weatherSet_lasting (ds gain : Nat) (s : State) : lasting (weatherSet ds gain s) = lasting s := by
  simp [weatherSet]

@[simp] theorem sweepSet_lasting (ds : Nat) (s : State) : lasting (sweepSet ds s) = lasting s := by simp [sweepSet]

/-! ### Machine/DramOps.lean -/

@[simp] theorem evictSlot_lasting (n : Nat) (s : State) : lasting (evictSlot n s) = lasting s := by
  unfold evictSlot
  repeat' split
  all_goals simp

@[simp] theorem markAffected_lasting (es : List Nat) (s : State) : lasting (markAffected es s) = lasting s := by
  simp [markAffected]

@[simp] theorem exposedEvent_lasting (before : Bool) (c : Nat) (s : State) : lasting (exposedEvent before c s) = lasting s := by
  simp [exposedEvent]

@[simp] theorem frostSlot_lasting (s : State) (n : Nat) : lasting (frostSlot s n) = lasting s := by
  unfold frostSlot
  split <;> simp

@[simp] theorem freeze_lasting (c cause : Nat) (f : FrostIn) (s : State) : lasting (freeze c cause f s) = lasting s := by
  unfold freeze
  dsimp only
  repeat' split
  all_goals simp [lasting_foldl]

@[simp] theorem correctable_lasting (c rank row col : Nat) (s : State) : lasting (correctable c rank row col s) = lasting s := by
  simp [correctable]

/-! ### Machine/MediaRead.lean -/

@[simp] theorem setDieQueue_lasting (die : Nat) (q : List DieRead) (s : State) : lasting (setDieQueue die q s) = lasting s := by
  simp [setDieQueue]

@[simp] theorem startRead_lasting (die : Nat) (s : State) : lasting (startRead die s) = lasting s := by
  unfold startRead
  dsimp only
  repeat' split
  all_goals simp

@[simp] theorem startReads_lasting (die : Nat) (s : State) : lasting (startReads die s) = lasting s := by simp [startReads]

@[simp] theorem sendReads_lasting (rd : ReadId) (pfa : Nat) (latency : Bool) (shift : Int) (qs : List Nat) (s : State) :
    lasting (sendReads rd pfa latency shift qs s) = lasting s := by
  simp [sendReads, lasting_foldl]

@[simp] theorem endRead_lasting (rd : ReadId) (pfa q : Nat) (s : State) : lasting (endRead rd pfa q s) = lasting s := by
  simp [endRead]

@[simp] theorem endReads_lasting (rd : ReadId) (s : State) : lasting (endReads rd s) = lasting s := by
  simp [endReads, lasting_foldl]

@[simp] theorem setFetch_lasting (rd : ReadId) (f : Fetch) (s : State) : lasting (setFetch rd f s) = lasting s := by
  unfold setFetch
  repeat' split
  all_goals simp

@[simp] theorem bumpRead_lasting (i : Nat) (s : State) : lasting (bumpRead i s) = lasting s := by simp [bumpRead]
@[simp] theorem bumpFill_lasting (rd : ReadId) (i : Nat) (s : State) : lasting (bumpFill rd i s) = lasting s := by simp [bumpFill]
@[simp] theorem bumpHealth_lasting (i : Nat) (s : State) : lasting (bumpHealth i s) = lasting s := by simp [bumpHealth]

@[simp] theorem bumpFillHealth_lasting (rd : ReadId) (i : Nat) (s : State) : lasting (bumpFillHealth rd i s) = lasting s := by
  simp [bumpFillHealth]

@[simp] theorem fetchReady_lasting (rd : ReadId) (x : Option FrontLine) (f : Fetch) (s : State) :
    lasting (fetchReady rd x f s) = lasting s := by
  unfold fetchReady
  split <;> simp

@[simp] theorem mediaReady_lasting (rd : ReadId) (pfa q : Nat) (rebuilt : Bool) (f : Fetch) (s : State) :
    lasting (mediaReady rd pfa q rebuilt f s) = lasting s := by
  simp [mediaReady]

@[simp] theorem notePoison_lasting (key : Nat) (src : PoisonSrc) (s : State) : lasting (notePoison key src s) = lasting s := by
  simp [notePoison]

@[simp] theorem slowDecide_lasting (rd : ReadId) (pfa q : Nat) (soft : List (Nat × Nat)) (waiting lost : List Nat) (f : Fetch) (s : State) :
    lasting (slowDecide rd pfa q soft waiting lost f s) = lasting s := by
  simp [slowDecide]

@[simp] theorem enterSlow_lasting (rd : ReadId) (pfa q : Nat) (failed sent have_ : List Nat) (f : Fetch) (s : State) :
    lasting (enterSlow rd pfa q failed sent have_ f s) = lasting s := by
  simp [enterSlow]

@[simp] theorem issueMedia_lasting (rd : ReadId) (pfa : Nat) (f : Fetch) (s : State) :
    lasting (issueMedia rd pfa f s) = lasting s := by
  simp [issueMedia]

@[simp] theorem reconstruct_lasting (rd : ReadId) (pfa q : Nat) (f : Fetch) (s : State) :
    lasting (reconstruct rd pfa q f s) = lasting s := by
  simp [reconstruct]

@[simp] theorem decodeDone_lasting (rd : ReadId) (pos : Nat) (good : Bool) (f : Fetch) (s : State) :
    lasting (decodeDone rd pos good f s) = lasting s := by
  unfold decodeDone
  split <;> simp

@[simp] theorem softDone_lasting (rd : ReadId) (pos n : Nat) (good : Bool) (f : Fetch) (s : State) :
    lasting (softDone rd pos n good f s) = lasting s := by
  unfold softDone
  split <;> simp

@[simp] theorem addIRead_lasting (u : ReadUse) (line : Nat) (st : FillStage) (s : State) :
    lasting (addIRead u line st s).2 = lasting s := by
  simp [addIRead]

@[simp] theorem readMedia_lasting (u : ReadUse) (pfa line : Nat) (s : State) : lasting (readMedia u pfa line s) = lasting s := by
  simp [readMedia]

@[simp] theorem readFrame_lasting (u : ReadUse) (lfa pfa : Nat) (s : State) : lasting (readFrame u lfa pfa s) = lasting s := by
  simp [readFrame, lasting_foldl]

@[simp] theorem dropReads_lasting (u : ReadUse) (s : State) : lasting (dropReads u s) = lasting s := by
  simp [dropReads, lasting_foldl]

/-! ### Machine/FrontOps.lean -/

@[simp] theorem reply_lasting (src : Src) (rtag : Nat) (isData : Bool) (data : HostLine) (poison : Bool) (status load addr : Nat) (s : State) :
    lasting (reply src rtag isData data poison status load addr s) = lasting s := by
  unfold reply
  split <;> simp

@[simp] theorem checkReleases_lasting (s : State) : lasting (checkReleases s) = lasting s := by
  simp [checkReleases, lasting_foldl]

@[simp] theorem finish_lasting (tag : Nat) (data : HostLine) (poison : Bool) (status outcome : Nat) (s : State) :
    lasting (finish tag data poison status outcome s) = lasting s := by
  unfold finish
  repeat' split
  all_goals simp

@[simp] theorem modReq_lasting (tag : Nat) (f : Req → Req) (s : State) : lasting (modReq tag f s) = lasting s := by
  unfold modReq
  split <;> simp

@[simp] theorem countWritten_lasting (r : Req) (s : State) : lasting (countWritten r s) = lasting s := by simp [countWritten]
@[simp] theorem putLine_lasting (i : Nat) (l : Line) (s : State) : lasting (putLine i l s) = lasting s := by simp [putLine]

@[simp] theorem allocLine_lasting (i key : Nat) (l : Line) (s : State) : lasting (allocLine i key l s) = lasting s := by
  simp [allocLine]

@[simp] theorem noteDirty_lasting (lfa : Nat) (s : State) : lasting (noteDirty lfa s) = lasting s := by simp [noteDirty]
@[simp] theorem markUrgent_lasting (lfa : Nat) (s : State) : lasting (markUrgent lfa s) = lasting s := by simp [markUrgent]
@[simp] theorem urgentAll_lasting (s : State) : lasting (urgentAll s) = lasting s := by simp [urgentAll, lasting_foldl]
@[simp] theorem dropLine_lasting (i : Nat) (s : State) : lasting (dropLine i s) = lasting s := by simp [dropLine]

@[simp] theorem victimPasses_lasting (ways : List Nat) (n : Nat) (s : State) : lasting (victimPasses ways n s).2 = lasting s := by
  induction n generalizing s with
  | zero => rfl
  | succ n ih =>
    unfold victimPasses
    dsimp only
    split <;> simp [ih, lasting_foldl]

@[simp] theorem victimSearch_lasting (set : Nat) (m : W16) (s : State) : lasting (victimSearch set m s).2 = lasting s := by
  unfold victimSearch
  split <;> simp

@[simp] theorem joinMiss_lasting (key : Nat) (idx : Option Nat) (tag : Nat) (r : Req) (s : State) :
    lasting (joinMiss key idx tag r s) = lasting s := by
  unfold joinMiss
  dsimp only
  split <;> simp

@[simp] theorem readHit_lasting (i tag : Nat) (r : Req) (s : State) : lasting (readHit i tag r s) = lasting s := by simp [readHit]
@[simp] theorem waitFront_lasting (tag : Nat) (s : State) : lasting (waitFront tag s) = lasting s := by simp [waitFront]

@[simp] theorem frontRead_lasting (tag : Nat) (r : Req) (s : State) : lasting (frontRead tag r s) = lasting s := by
  unfold frontRead
  dsimp only
  repeat' split
  all_goals simp

@[simp] theorem storeBytes_lasting (i : Nat) (data : FrontLine) (m : ByteMask) (hl : BitVec 4) (poison : Option PoisonSrc) (s : State) :
    lasting (storeBytes i data m hl poison s) = lasting s := by
  unfold storeBytes
  split <;> simp

@[simp] theorem storeReq_lasting (i : Nat) (r : Req) (s : State) : lasting (storeReq i r s) = lasting s := by simp [storeReq]
@[simp] theorem takeWseq_lasting (s : State) : lasting (takeWseq s).2 = lasting s := by simp [takeWseq]
@[simp] theorem addAsm_lasting (a : Asm) (s : State) : lasting (addAsm a s) = lasting s := by simp [addAsm]

@[simp] theorem mergeRead_lasting (id lfa f : Nat) (e : MapEnt) (s : State) : lasting (mergeRead id lfa f e s) = lasting s := by
  unfold mergeRead
  repeat' split
  all_goals simp

@[simp] theorem startMerge_lasting (id : Nat) (s : State) : lasting (startMerge id s) = lasting s := by
  unfold startMerge
  repeat' split
  all_goals simp [lasting_foldl]

@[simp] theorem startMerges_lasting (s : State) : lasting (startMerges s) = lasting s := by simp [startMerges, lasting_foldl]

@[simp] theorem mergeWrite_lasting (key tenant : Nat) (data : FrontLine) (m : ByteMask) (poison : Option Bool) (tag : Option Nat) (resolves : List (Nat × Nat × Nat)) (ccis : List (Nat × Nat)) (s : State) :
    lasting (mergeWrite key tenant data m poison tag resolves ccis s) = lasting s := by
  unfold mergeWrite
  split <;> simp

@[simp] theorem ackWrite_lasting (tag : Nat) (r : Req) (s : State) : lasting (ackWrite tag r s) = lasting s := by simp [ackWrite]

@[simp] theorem stallWrite_lasting (tag : Nat) (r : Req) (s : State) : lasting (stallWrite tag r s) = lasting s := by
  simp [stallWrite]

@[simp] theorem lineFor_lasting (key tenant part age : Nat) (s : State) :
    lasting (lineFor key tenant part age s).2 = lasting s := by
  unfold lineFor
  dsimp only
  repeat' split
  all_goals simp

@[simp] theorem tryStore_lasting (r : Req) (s : State) : lasting (tryStore r s).2 = lasting s := by
  unfold tryStore
  dsimp only
  split <;> simp

@[simp] theorem lockedDiscard_lasting (tag : Nat) (r : Req) (s : State) : lasting (lockedDiscard tag r s) = lasting s := by
  unfold lockedDiscard
  dsimp only
  repeat' split
  all_goals simp

@[simp] theorem frontWrite_lasting (tag : Nat) (r : Req) (s : State) : lasting (frontWrite tag r s) = lasting s := by
  unfold frontWrite
  repeat' split
  all_goals simp

@[simp] theorem queueAsm_lasting (id : Nat) (s : State) : lasting (queueAsm id s) = lasting s := by
  unfold queueAsm
  repeat' split
  all_goals simp

@[simp] theorem placeAsm_lasting (id : Nat) (s : State) : lasting (placeAsm id s) = lasting s := by
  unfold placeAsm
  split
  · rfl
  · split
    · rfl
    · split
      · rfl
      · next h => simp [place_lasting h]

@[simp] theorem poisonFront_lasting (lfa : Nat) (m : BitVec 16) (s : State) : lasting (poisonFront lfa m s) = lasting s := by
  unfold poisonFront
  dsimp only
  refine lasting_foldl _ _ (fun s a => ?_) _
  split <;> simp

@[simp] theorem asmParity_lasting (a : Asm) (parity again : BitVec 16) (s : State) :
    lasting (asmParity a parity again s).2 = lasting s := by
  unfold asmParity
  dsimp only
  split <;> simp

@[simp] theorem gather_lasting (lfa prio : Nat) (limited : Bool) (parity again : BitVec 16) (s : State) :
    lasting (gather lfa prio limited parity again s) = lasting s := by
  unfold gather
  dsimp only
  repeat' split
  all_goals simp [lasting_foldl]

/-- The definition is unfolded as a function, not at its arguments: the kernel would otherwise evaluate the search of `freeSlot`. -/
@[simp] theorem backInstall_lasting (lfa pfa tenant : Nat) (d : Cipher) (s : State) :
    lasting (backInstall lfa pfa tenant d s) = lasting s := by
  have h : ∀ f, f = @backInstall → lasting (f lfa pfa tenant d s) = lasting s := by
    intro f hf
    delta backInstall at hf
    rw [congrFun (congrFun (congrFun (congrFun (congrFun hf lfa) pfa) tenant) d) s]
    split
    · rfl
    · split
      · rfl
      · split
        · exact postEntry_lasting ..
        · rfl
  exact h _ rfl

@[simp] theorem dropAsm_lasting (id : Nat) (s : State) : lasting (dropAsm id s) = lasting s := by simp [dropAsm]
@[simp] theorem keepUrgent_lasting (lfa : Nat) (s : State) : lasting (keepUrgent lfa s) = lasting s := by simp [keepUrgent]

@[simp] theorem settleLines_lasting (a : Asm) (s : State) : lasting (settleLines a s) = lasting s := by
  simp [settleLines, lasting_foldl]

@[simp] theorem refresh_lasting (a : Asm) (po : BitVec 16) (s : State) : lasting (refresh a po s) = lasting s := by
  unfold refresh
  repeat' split
  all_goals simp [lasting_foldl]

@[simp] theorem creditDrains_lasting (s : State) : lasting (creditDrains s) = lasting s := by simp [creditDrains]

@[simp] theorem debitDrain_lasting (t bytes : Nat) (s : State) : lasting (debitDrain t bytes s) = lasting s := by
  simp [debitDrain]

@[simp] theorem commitAsm_lasting (id : Nat) (s : State) : lasting (commitAsm id s) = lasting s := by
  unfold commitAsm
  repeat' split
  all_goals simp [lasting_foldl]

/-! ### Machine/ReadPath.lean -/

@[simp] theorem setMiss_lasting (key : Nat) (m : Miss) (s : State) : lasting (setMiss key m s) = lasting s := by simp [setMiss]

@[simp] theorem setStage_lasting (key : Nat) (st : FillStage) (outcome : Nat) (m : Miss) (s : State) :
    lasting (setStage key st outcome m s) = lasting s := by
  simp [setStage]

@[simp] theorem fillByEntry_lasting (key : Nat) (e : MapEnt) (m : Miss) (s : State) :
    lasting (fillByEntry key e m s) = lasting s := by
  unfold fillByEntry
  repeat' split
  all_goals simp

@[simp] theorem loseEntry_lasting (key : Nat) (m : Miss) (s : State) : lasting (loseEntry key m s) = lasting s := by
  simp [loseEntry]

@[simp] theorem serveEntry_lasting (key : Nat) (m : Miss) (s : State) : lasting (serveEntry key m s) = lasting s := by
  unfold serveEntry
  dsimp only
  split <;> simp

@[simp] theorem otherCopy_lasting (key : Nat) (m : Miss) (s : State) : lasting (otherCopy key m s) = lasting s := by
  simp [otherCopy]

@[simp] theorem checkFails_lasting (key : Nat) (m : Miss) (s : State) : lasting (checkFails key m s) = lasting s := by
  simp [checkFails]

@[simp] theorem execMapEntryReadDone_lasting (line : Nat) (err : DramErr) (s : State) :
    lastingOf (execMapEntryReadDone line err s) = some (lasting s) := by
  unfold execMapEntryReadDone
  repeat' split
  all_goals simp

@[simp] theorem startPromotion_lasting (lfa pfa : Nat) (s : State) : lasting (startPromotion lfa pfa s) = lasting s := by
  unfold startPromotion
  repeat' split
  all_goals simp

@[simp] theorem promote_lasting (lfa pfa : Nat) (latency : Bool) (s : State) :
    lasting (promote lfa pfa latency s) = lasting s := by
  simp [promote]

@[simp] theorem freeTaken_lasting (n : Nat) (s : State) : lasting (freeTaken n s) = lasting s := by simp [freeTaken]

@[simp] theorem execPromotionReadDone_lasting (lfa : Nat) (s : State) :
    lastingOf (execPromotionReadDone lfa s) = some (lasting s) := by
  unfold execPromotionReadDone
  dsimp only
  repeat' split
  all_goals simp

@[simp] theorem sweepSlots_lasting (l : List (Nat × Slot)) (s : State) : lasting (sweepSlots l s).2 = lasting s := by
  induction l generalizing s with
  | nil => rfl
  | cons p l ih =>
    obtain ⟨n, x⟩ := p
    unfold sweepSlots
    dsimp only
    repeat' split
    all_goals simp [ih]

@[simp] theorem execBackCacheEvict_lasting (s : State) : lastingOf (execBackCacheEvict s) = some (lasting s) := by
  unfold execBackCacheEvict
  dsimp only
  repeat' split
  all_goals simp

@[simp] theorem execQuarantineExpiry_lasting (slot : Nat) (s : State) :
    lastingOf (execQuarantineExpiry slot s) = some (lasting s) := by
  unfold execQuarantineExpiry
  split <;> simp

@[simp] theorem execGetReadPathState_lasting (cci : Fin 10) (inp : List Byte) (s : State) :
    lastingOf (execGetReadPathState cci inp s) = some (lasting s) := by
  refine vendor_lasting fun s => ?_
  simp

@[simp] theorem execSetBackCachePolicy_lasting (cci : Fin 10) (inp : List Byte) (s : State) :
    lastingOf (execSetBackCachePolicy cci inp s) = some (lasting s) := by
  refine vendor_lasting fun s => ?_
  simp

/-! ### Machine/Recorder.lean -/

@[simp] theorem logToHead_lasting (h : Nat) (k : CxlRec) (i : LogId) (r : EvRec) (s : State) :
    lasting (logToHead h k i r s) = lasting s := by
  simp [logToHead]

@[simp] theorem toHostLogs_lasting (r : EvRec) (s : State) : lasting (toHostLogs r s) = lasting s := by
  simp [toHostLogs, lasting_foldl]

@[simp] theorem countLost_lasting (e : Ev) (s : State) : lasting (countLost e s) = lasting s := by simp [countLost]

@[simp] theorem recordPost_lasting (e : Ev) (s : State) : lasting (recordPost e s) = lasting s := by
  unfold recordPost
  split <;> simp

@[simp] theorem acceptPost_lasting (e : Ev) (s : State) : lasting (acceptPost e s) = lasting s := by simp [acceptPost]

@[simp] theorem execEventPost_lasting (src : Nat) (s : State) : lastingOf (execEventPost src s) = some (lasting s) := by
  unfold execEventPost
  dsimp only
  split <;> simp

@[simp] theorem execEventOverflowRecord_lasting (src : Nat) (s : State) :
    lastingOf (execEventOverflowRecord src s) = some (lasting s) := by
  simp [execEventOverflowRecord]

@[simp] theorem copyCritical_lasting (r : EvRec) (s : State) : lasting (copyCritical r s) = lasting s := by
  unfold copyCritical
  split <;> simp

@[simp] theorem execCriticalRepeatCopy_lasting (seq : Nat) (s : State) :
    lastingOf (execCriticalRepeatCopy seq s) = some (lasting s) := by
  unfold execCriticalRepeatCopy
  split <;> simp

@[simp] theorem writeEventMark_lasting (s : State) : lasting (writeEventMark s) = lasting s := by simp [writeEventMark]

@[simp] theorem execEventMarkWrite_lasting (s : State) : lastingOf (execEventMarkWrite s) = some (lasting s) := by
  simp [execEventMarkWrite]

@[simp] theorem copyAllCritical_lasting (s : State) : lasting (copyAllCritical s) = lasting s := by
  simp [copyAllCritical, lasting_foldl]

@[simp] theorem execGetEventRecordsVendor_lasting (cci : Fin 10) (inp : List Byte) (s : State) :
    lastingOf (execGetEventRecordsVendor cci inp s) = some (lasting s) := by
  refine vendor_lasting fun s => ?_
  simp

@[simp] theorem execGetEventRecorderState_lasting (cci : Fin 10) (inp : List Byte) (s : State) :
    lastingOf (execGetEventRecorderState cci inp s) = some (lasting s) := by
  refine vendor_lasting fun s => ?_
  simp

@[simp] theorem execPostTestEvent_lasting (cci : Fin 10) (inp : List Byte) (s : State) :
    lastingOf (execPostTestEvent cci inp s) = some (lasting s) := by
  refine vendor_lasting fun s => ?_
  simp

@[simp] theorem resumeSequence_lasting (s : State) : lasting (resumeSequence s) = lasting s := by
  simp [resumeSequence, lasting_foldl]

@[simp] theorem powerRing_lasting (s : State) : lasting (powerRing s) = lasting s := by simp [powerRing]

/-! ### Machine/TenantOps.lean -/

@[simp] theorem setSlot_lasting (k : Nat) (x : SlotState) (s : State) : lasting (setSlot k x s) = lasting s := by simp [setSlot]
@[simp] theorem journalExt_lasting (e : Nat) (s : State) : lasting (journalExt e s) = lasting s := by simp [journalExt]
@[simp] theorem moveExt_lasting (e : Nat) (st : EState) (s : State) : lasting (moveExt e st s) = lasting s := by simp [moveExt]
@[simp] theorem journalTenant_lasting (t : Nat) (s : State) : lasting (journalTenant t s) = lasting s := by simp [journalTenant]
@[simp] theorem setCv_lasting (u : Nat) (x : CvUnit) (s : State) : lasting (setCv u x s) = lasting s := by simp [setCv]

@[simp] theorem setEngine_lasting (e : Nat) (x : Engine) (s : State) : lasting (setEngine e x s) = lasting s := by
  simp [setEngine]

@[simp] theorem takeSweeps_lasting (s : State) : lasting (takeSweeps s) = lasting s := by
  refine lasting_foldl _ _ (fun s a => ?_) _
  repeat' split
  all_goals simp

@[simp] theorem endSweep_lasting (t : Nat) (s : State) : lasting (endSweep t s) = lasting s := by simp [endSweep]
@[simp] theorem limitsRecompute_lasting (s : State) : lasting (limitsRecompute s) = lasting s := by simp [limitsRecompute]

@[simp] theorem limitsAtActivation_lasting (s : State) : lasting (limitsAtActivation s) = lasting s := by
  simp [limitsAtActivation]

@[simp] theorem setQueue_lasting (q : Nat) (x : FlowQ) (s : State) : lasting (setQueue q x s) = lasting s := by simp [setQueue]
@[simp] theorem creditAll_lasting (s : State) : lasting (creditAll s) = lasting s := by simp [creditAll, lasting_foldl]

@[simp] theorem freshQueues_lasting (t : Nat) (s : State) : lasting (freshQueues t s) = lasting s := by
  simp [freshQueues, lasting_foldl]

@[simp] theorem dcRecord_lasting (h action e tenant : Nat) (s : State) : lasting (dcRecord h action e tenant s) = lasting s := by
  simp [dcRecord]

@[simp] theorem bumpGen_lasting (h : Nat) (s : State) : lasting (bumpGen h s) = lasting s := by simp [bumpGen]
@[simp] theorem initiateAdd_lasting (e h : Nat) (s : State) : lasting (initiateAdd e h s) = lasting s := by simp [initiateAdd]

@[simp] theorem retireDrainGroups_lasting (s : State) : lasting (retireDrainGroups s) = lasting s := by
  unfold retireDrainGroups
  repeat' split
  all_goals simp [lasting_foldl]

@[simp] theorem retireImages_lasting (s : State) : lasting (retireImages s) = lasting s := by simp [retireImages, lasting_foldl]

@[simp] theorem discardEntries_lasting (p : DumpEnt → Bool) (s : State) : lasting (discardEntries p s) = lasting s := by
  simp [discardEntries, lasting_foldl]

@[simp] theorem dropLines_lasting (p : Line → Bool) (s : State) : lasting (dropLines p s) = lasting s := by
  simp [dropLines, lasting_foldl]

@[simp] theorem releaseExt_lasting (e : Nat) (s : State) : lasting (releaseExt e s) = lasting s := by simp [releaseExt]

@[simp] theorem restoreEntry_lasting (key k : Nat) (d : DumpEnt) (s : State) : lasting (restoreEntry key k d s) = lasting s := by
  unfold restoreEntry
  dsimp only
  repeat' split
  all_goals simp

@[simp] theorem restoreTenant_lasting (t : Nat) (s : State) : lasting (restoreTenant t s) = lasting s := by
  unfold restoreTenant
  repeat' split
  all_goals simp [lasting_foldl]

@[simp] theorem finishLoad_lasting (t : Nat) (s : State) : lasting (finishLoad t s) = lasting s := by
  unfold finishLoad
  dsimp only
  repeat' split
  all_goals simp

@[simp] theorem checkLoads_lasting (s : State) : lasting (checkLoads s) = lasting s := by simp [checkLoads, lasting_foldl]

@[simp] theorem unloadSlot_lasting (t : Nat) (s : State) : lasting (unloadSlot t s) = lasting s := by
  unfold unloadSlot
  dsimp only
  split <;> simp

@[simp] theorem checkUnloads_lasting (s : State) : lasting (checkUnloads s) = lasting s := by simp [checkUnloads, lasting_foldl]

/-! ### Machine/PersistOps.lean -/

@[simp] theorem writeRun_lasting (r : RunRec) (s : State) : lasting (writeRun r s) = lasting s := by simp [writeRun]

@[simp] theorem openRun_lasting (s : State) : lasting (openRun s) = lasting s := by
  unfold openRun
  split <;> simp

@[simp] theorem checkRunClosed_lasting (s : State) : lasting (checkRunClosed s) = lasting s := by
  unfold checkRunClosed
  split <;> simp

@[simp] theorem countUnsafe_lasting (s : State) : lasting (countUnsafe s) = lasting s := by simp [countUnsafe]

@[simp] theorem frameLanded_lasting (n : Nat) (f : JFrame) (s : State) : lasting (frameLanded n f s) = lasting s := by
  simp [frameLanded]

@[simp] theorem journalPut_lasting (n : Nat) (ringB : Bool) (s : State) : lasting (journalPut n ringB s) = lasting s := by
  unfold journalPut
  split <;> simp

@[simp] theorem putW_lasting (i w : Nat) (s : State) : lasting (putW i w s) = lasting s := by simp [putW]

@[simp] theorem resetDrainSet_lasting (i : Nat) (s : State) : lasting (resetDrainSet i s) = lasting s := by
  simp [resetDrainSet, lasting_foldl]

@[simp] theorem drainSetReset_lasting (s : State) : lasting (drainSetReset s) = lasting s := by
  simp [drainSetReset, lasting_foldl]

@[simp] theorem armDrain_lasting (s : State) : lasting (armDrain s) = lasting s := by simp [armDrain]
@[simp] theorem modeByBudget_lasting (s : State) : lasting (modeByBudget s) = lasting s := by simp [modeByBudget]
@[simp] theorem budgetLow_lasting (s : State) : lasting (budgetLow s) = lasting s := by simp [budgetLow]
@[simp] theorem setBudget_lasting (b : Nat) (s : State) : lasting (setBudget b s) = lasting s := by simp [setBudget]
@[simp] theorem budgetUpdate_lasting (s : State) : lasting (budgetUpdate s) = lasting s := by simp [budgetUpdate]
@[simp] theorem energyUpdate_lasting (s : State) : lasting (energyUpdate s) = lasting s := by simp [energyUpdate]

@[simp] theorem abandonMeasure_lasting (s : State) : lasting (abandonMeasure s) = lasting s := by
  unfold abandonMeasure
  dsimp only
  repeat' split
  all_goals simp

@[simp] theorem repeatMeasure_lasting (s : State) : lasting (repeatMeasure s) = lasting s := by simp [repeatMeasure]

@[simp] theorem undoLines_lasting (a : Asm) (s : State) : lasting (undoLines a s) = lasting s := by
  simp [undoLines, lasting_foldl]

@[simp] theorem abandonAsm_lasting (id : Nat) (s : State) : lasting (abandonAsm id s) = lasting s := by
  unfold abandonAsm
  repeat' split
  all_goals simp

@[simp] theorem withholdAll_lasting (b : Bool) (s : State) : lasting (withholdAll b s) = lasting s := by simp [withholdAll]

@[simp] theorem abandonPass_lasting (rc : Rc) (s : State) : lasting (abandonPass rc s) = lasting s := by
  unfold abandonPass
  dsimp only
  repeat' split
  all_goals simp

@[simp] theorem answerGpf_lasting (phase h : Nat) (s : State) : lasting (answerGpf phase h s) = lasting s := by simp [answerGpf]
@[simp] theorem answerPhase2_lasting (s : State) : lasting (answerPhase2 s) = lasting s := by simp [answerPhase2]
@[simp] theorem stopTraining_lasting (s : State) : lasting (stopTraining s) = lasting s := by simp [stopTraining, lasting_foldl]
@[simp] theorem drainClocks_lasting (s : State) : lasting (drainClocks s) = lasting s := by simp [drainClocks, lasting_foldl]

@[simp] theorem drainStart_lasting (bit : Nat) (heads : List Nat) (s : State) :
    lasting (drainStart bit heads s) = lasting s := by
  unfold drainStart
  repeat' split
  all_goals simp [lasting_foldl]

@[simp] theorem drainFaults_lasting (faults : List (Nat × Nat)) (s : State) : lasting (drainFaults faults s) = lasting s := by
  simp [drainFaults]

@[simp] theorem endDrain_lasting (kind vEnd : Nat) (d : DrainRun) (s : State) :
    lasting (endDrain kind vEnd d s) = lasting s := by
  simp [endDrain]

@[simp] theorem abortDrain_lasting (bit : Nat) (s : State) : lasting (abortDrain bit s) = lasting s := by
  unfold abortDrain
  split <;> simp

@[simp] theorem reachOff_lasting (s : State) : lasting (reachOff s) = lasting s := by simp [reachOff, lasting_foldl]
@[simp] theorem enableFront_lasting (s : State) : lasting (enableFront s) = lasting s := by simp [enableFront]

/-! ### Machine/PlaceOps.lean -/

@[simp] theorem workFrame_lasting (s : State) (x1 : WorkKind) : lasting (workFrame s x1).2 = lasting s := by
  unfold workFrame
  repeat' split
  all_goals simp

@[simp] theorem startOp_lasting (ds : Nat) (op : ArrayOp) (data : BitVec 4736) (s : State) :
    lasting (startOp ds op data s) = lasting s := by
  simp [startOp]

@[simp] theorem startQuad_lasting (ds : Nat) (s : State) : lasting (startQuad ds s) = lasting s := by
  unfold startQuad
  dsimp only
  repeat' split
  all_goals simp

@[simp] theorem takeWork_lasting (ds : Nat) (w : Work) (s : State) : lasting (takeWork ds w s) = lasting s := by simp [takeWork]

@[simp] theorem formImage_lasting (s : State) : lasting (formImage s) = lasting s := by
  unfold formImage
  split <;> simp

@[simp] theorem imageStart_lasting (ds : Nat) (s : State) : lasting (imageStart ds s) = lasting s := by
  unfold imageStart
  repeat' split
  all_goals simp

@[simp] theorem drainKick_lasting (s : State) : lasting (drainKick s) = lasting s := by
  unfold drainKick
  dsimp only
  repeat' split
  all_goals simp [lasting_foldl]

@[simp] theorem slotStart_lasting (ds : Nat) (s : State) : lasting (slotStart ds s) = lasting s := by
  unfold slotStart
  dsimp only
  repeat' split
  all_goals simp

@[simp] theorem slotClear_lasting (ds : Nat) (s : State) : lasting (slotClear ds s) = lasting s := by simp [slotClear]
@[simp] theorem setRack_lasting (r : Rack) (s : State) : lasting (setRack r s) = lasting s := by simp [setRack]

@[simp] theorem endRack_lasting (g : Nat) (s : State) : lasting (endRack g s) = lasting s := by
  unfold endRack
  dsimp only
  split <;> simp

@[simp] theorem addRack_lasting (g origin prio : Nat) (cci : Option Nat) (wear evac : Bool) (s : State) :
    lasting (addRack g origin prio cci wear evac s) = lasting s := by
  unfold addRack
  split <;> simp

@[simp] theorem startCopy_lasting (lfa origin prio : Nat) (s : State) : lasting (startCopy lfa origin prio s) = lasting s := by
  unfold startCopy
  repeat' split
  all_goals simp

@[simp] theorem nextCopy_lasting (g : Nat) (s : State) : lasting (nextCopy g s) = lasting s := by
  unfold nextCopy
  repeat' split
  all_goals simp

@[simp] theorem dropRack_lasting (g : Nat) (s : State) : lasting (dropRack g s) = lasting s := by simp [dropRack]

@[simp] theorem stopRack_lasting (g : Nat) (s : State) : lasting (stopRack g s) = lasting s := by
  unfold stopRack
  split <;> simp

@[simp] theorem rackStep3_lasting (g : Nat) (s : State) : lasting (rackStep3 g s) = lasting s := by
  unfold rackStep3
  split <;> simp

@[simp] theorem beginRack_lasting (g : Nat) (s : State) : lasting (beginRack g s) = lasting s := by
  unfold beginRack
  split <;> simp

@[simp] theorem resumeRacks_lasting (s : State) : lasting (resumeRacks s) = lasting s := by simp [resumeRacks, lasting_foldl]

@[simp] theorem copyRead_lasting (id : Nat) (s : State) : lasting (copyRead id s) = lasting s := by
  unfold copyRead
  repeat' split
  all_goals simp

@[simp] theorem copyDone_lasting (id : Nat) (s : State) : lasting (copyDone id s) = lasting s := by
  unfold copyDone
  repeat' split
  all_goals simp

@[simp] theorem countFail_lasting (i : Nat) (s : State) : lasting (countFail i s) = lasting s := by simp [countFail]

@[simp] theorem noteDrainFault_lasting (g quad : Nat) (s : State) : lasting (noteDrainFault g quad s) = lasting s := by
  unfold noteDrainFault
  split <;> simp

@[simp] theorem abandonSlot_lasting (ds id : Nat) (s : State) : lasting (abandonSlot ds id s) = lasting s := by simp [abandonSlot]
@[simp] theorem writeRoot_lasting (r : MapRoot) (s : State) : lasting (writeRoot r s) = lasting s := by simp [writeRoot]

@[simp] theorem rootSub_lasting (g : Nat) (s : State) : lasting (rootSub g s) = lasting s := by
  unfold rootSub
  split <;> simp

@[simp] theorem replaceMeta_lasting (g cause : Nat) (s : State) : lasting (replaceMeta g cause s) = lasting s := by
  unfold replaceMeta
  repeat' split
  all_goals simp

@[simp] theorem replaceMetas_lasting (s : State) : lasting (replaceMetas s) = lasting s := by
  unfold replaceMetas
  repeat' split
  all_goals simp [lasting_foldl]

@[simp] theorem journalWork_lasting (n : Nat) (ringB : Bool) (s : State) : lasting (journalWork n ringB s) = lasting s := by
  unfold journalWork
  repeat' split
  all_goals simp

@[simp] theorem drainLeave_lasting (ds : Nat) (s : State) : lasting (drainLeave ds s) = lasting s := by
  unfold drainLeave
  split <;> simp

@[simp] theorem drainLose_lasting (ds : Nat) (s : State) : lasting (drainLose ds s) = lasting s := by
  unfold drainLose
  repeat' split
  all_goals simp

/-- The copies of what a failed die set held are begun and its groups leave it, each through an update of its own (R281). -/
@[simp] theorem degradeSet_lasting (ds quad : Nat) (s : State) : lasting (degradeSet ds quad s) = lasting s := by
  unfold degradeSet
  dsimp only
  split
  · rfl
  · split
    · simp
    · rw [spareRecompute_lasting, budgetUpdate_lasting, retireDrainGroups_lasting, lasting_foldl _ _ fun s p => by simp,
        replaceMetas_lasting]
      refine (lasting_foldl _ _ (fun s g => ?_) _).trans ?_
      · split <;> simp
      · refine (lasting_foldl _ _ (fun s id => ?_) _).trans ?_
        · split <;> simp
        · refine (lasting_foldl _ _ (fun s g => ?_) _).trans ?_
          · split <;> simp
          · rw [lasting_mk, lastingRec_self, setBusy_lasting, drainLeave_lasting]
            split <;> simp

@[simp] theorem failDie_lasting (die : Nat) (s : State) : lasting (failDie die s) = lasting s := by simp [failDie]

@[simp] theorem degradeMissing_lasting (s : State) : lasting (degradeMissing s) = lasting s := by
  simp [degradeMissing, lasting_foldl]

@[simp] theorem failTile_lasting (g quad cause : Nat) (s : State) : lasting (failTile g quad cause s) = lasting s := by
  simp [failTile]

@[simp] theorem loseLines_lasting (ls : List Nat) (c : Cipher) (s : State) : lasting (loseLines ls c s).2 = lasting s :=
  lasting_foldl_snd _ _ (fun _ _ => by simp) _

@[simp] theorem recoveryStart_lasting (lfa pfa : Nat) (s : State) : lasting (recoveryStart lfa pfa s) = lasting s := by
  simp [recoveryStart]

@[simp] theorem recoveryMove_lasting (f : MFrame) (pfa : Nat) (ls : List Nat) (s : State) :
    lasting (recoveryMove f pfa ls s) = lasting s := by
  simp [recoveryMove]

@[simp] theorem recoveryFail_lasting (lfa pfa : Nat) (ls pos : List Nat) (s : State) :
    lasting (recoveryFail lfa pfa ls pos s) = lasting s := by
  simp [recoveryFail, lasting_foldl]

@[simp] theorem recoveryEnd_lasting (lfa : Nat) (s : State) : lasting (recoveryEnd lfa s) = lasting s := by
  unfold recoveryEnd
  dsimp only
  repeat' split
  all_goals simp

@[simp] theorem spareDone_lasting (g quad : Nat) (failed : Bool) (s : State) :
    lasting (spareDone g quad failed s) = lasting s := by
  simp [spareDone]

@[simp] theorem displace_lasting (g : Nat) (s : State) : lasting (displace g s) = lasting s := by
  unfold displace
  dsimp only
  split <;> simp

/-! ### Machine/Slots.lean -/

@[simp] theorem setCkpt_lasting (slot : Nat) (c : Option Ckpt) (s : State) : lasting (setCkpt slot c s) = lasting s := by
  simp [setCkpt]

@[simp] theorem issueCkpt_lasting (s : State) : lasting (issueCkpt s) = lasting s := by
  unfold issueCkpt
  dsimp only
  repeat' split
  all_goals simp

@[simp] theorem ckptProgrammed_lasting (m : Nat) (s : State) : lasting (ckptProgrammed m s) = lasting s := by
  unfold ckptProgrammed
  split <;> simp

@[simp] theorem metaFaults_lasting (g : Nat) (qs : List Nat) (s : State) : lasting (metaFaults g qs s) = lasting s := by
  simp [metaFaults, lasting_foldl]

@[simp] theorem metaProgrammed_lasting (ds : Nat) (k : WorkKind) (qs : List Nat) (s : State) :
    lasting (metaProgrammed ds k qs s) = lasting s := by
  unfold metaProgrammed
  repeat' split
  all_goals simp

@[simp] theorem redoImage_lasting (ds n : Nat) (s : State) : lasting (redoImage ds n s) = lasting s := by
  unfold redoImage
  split <;> simp

@[simp] theorem imageLanded_lasting (ds n p : Nat) (s : State) : lasting (imageLanded ds n p s) = lasting s := by
  unfold imageLanded
  repeat' split
  all_goals simp

@[simp] theorem imageQuad_lasting (ds n : Nat) (failed : Bool) (s : State) : lasting (imageQuad ds n failed s) = lasting s := by
  unfold imageQuad
  split <;> simp

@[simp] theorem quadEnded_lasting (ds : Nat) (failed : Bool) (s : State) : lasting (quadEnded ds failed s) = lasting s := by
  unfold quadEnded
  dsimp only
  repeat' split
  all_goals simp

@[simp] theorem stopReset_lasting (ds : Nat) (w : Work) (g : Nat) (s : State) : lasting (stopReset ds w g s) = lasting s := by
  simp [stopReset]

@[simp] theorem stopWork_lasting (c : Nat) (s : State) : lasting (stopWork c s) = lasting s := by
  refine lasting_foldl _ _ (fun s a => ?_) _
  repeat' split
  all_goals simp

@[simp] theorem loseWork_lasting (c : Nat) (s : State) : lasting (loseWork c s) = lasting s := by simp [loseWork, lasting_foldl]

/-! ### Machine/TimeOps.lean -/

@[simp] theorem snapshotAt_lasting (boundary : Nat) (s : State) : lasting (snapshotAt boundary s) = lasting s := by
  simp [snapshotAt]

@[simp] theorem setPps_lasting (p : PpsState) (s : State) : lasting (setPps p s) = lasting s := by simp [setPps]
@[simp] theorem tickAt_lasting (sec : Nat) (edge : Bool) (s : State) : lasting (tickAt sec edge s) = lasting s := by simp [tickAt]
@[simp] theorem stepTo_lasting (v : Nat) (s : State) : lasting (stepTo v s) = lasting s := by simp [stepTo]
@[simp] theorem syncMq_lasting (s : State) : lasting (syncMq s) = lasting s := by simp [syncMq, lasting_foldl]
@[simp] theorem idleResume_lasting (s : State) : lasting (idleResume s) = lasting s := by simp [idleResume, lasting_foldl]
@[simp] theorem idleClocks_lasting (s : State) : lasting (idleClocks s) = lasting s := by simp [idleClocks, lasting_foldl]
@[simp] theorem syncFab_lasting (s : State) : lasting (syncFab s) = lasting s := by simp [syncFab, lasting_foldl]

/-! ### Machine/PowerOps.lean -/

@[simp] theorem setRail_lasting (r : Nat) (x : Rail) (s : State) : lasting (setRail r x s) = lasting s := by simp [setRail]
@[simp] theorem driveOn_lasting (r : Nat) (s : State) : lasting (driveOn r s) = lasting s := by simp [driveOn]
@[simp] theorem driveOff_lasting (r : Nat) (s : State) : lasting (driveOff r s) = lasting s := by simp [driveOff, lasting_foldl]
@[simp] theorem dropRail_lasting (r : Nat) (s : State) : lasting (dropRail r s) = lasting s := by simp [dropRail]

@[simp] theorem setMode_lasting (m : PMode) (cause : Nat) (s : State) : lasting (setMode m cause s) = lasting s := by
  simp [setMode]

@[simp] theorem losePower_lasting (s : State) : lasting (losePower s) = lasting s := by simp [losePower, lasting_foldl]
@[simp] theorem railFault_lasting (r code : Nat) (s : State) : lasting (railFault r code s) = lasting s := by simp [railFault]
@[simp] theorem safeOff_lasting (cause : Nat) (s : State) : lasting (safeOff cause s) = lasting s := by simp [safeOff]

@[simp] theorem startPowerUp_lasting (cause : Nat) (s : State) : lasting (startPowerUp cause s) = lasting s := by
  simp [startPowerUp]

@[simp] theorem powerDomains_lasting (s : State) : lasting (powerDomains s) = lasting s := by simp [powerDomains, lasting_foldl]
@[simp] theorem endPowerUp_lasting (s : State) : lasting (endPowerUp s) = lasting s := by simp [endPowerUp]
@[simp] theorem runPowerDown_lasting (s : State) : lasting (runPowerDown s) = lasting s := by simp [runPowerDown]
@[simp] theorem endPowerDown_lasting (s : State) : lasting (endPowerDown s) = lasting s := by simp [endPowerDown]

@[simp] theorem beginPowerDown_lasting (cause : Nat) (s : State) : lasting (beginPowerDown cause s) = lasting s := by
  simp [beginPowerDown, lasting_foldl]

@[simp] theorem writeDriftClock_lasting (s : State) : lasting (writeDriftClock s) = lasting s := by simp [writeDriftClock]
@[simp] theorem resumeAdmission_lasting (s : State) : lasting (resumeAdmission s) = lasting s := by simp [resumeAdmission]
@[simp] theorem chansOut_lasting (s : State) : lasting (chansOut s) = lasting s := by simp [chansOut]
@[simp] theorem chansIn_lasting (s : State) : lasting (chansIn s) = lasting s := by simp [chansIn]
@[simp] theorem continueExit_lasting (s : State) : lasting (continueExit s) = lasting s := by simp [continueExit]

@[simp] theorem exitDormant_lasting (cause : Nat) (s : State) : lasting (exitDormant cause s) = lasting s := by
  simp [exitDormant, lasting_foldl]

@[simp] theorem wake_lasting (source : Nat) (s : State) : lasting (wake source s) = lasting s := by
  unfold wake
  repeat' split
  all_goals simp

@[simp] theorem noteRequest_lasting (s : State) : lasting (noteRequest s) = lasting s := by
  unfold noteRequest
  dsimp only
  repeat' split
  all_goals simp

@[simp] theorem stopFabric_lasting (s : State) : lasting (stopFabric s) = lasting s := by simp [stopFabric, lasting_foldl]

@[simp] theorem finishEntry_lasting (target : Nat) (s : State) : lasting (finishEntry target s) = lasting s := by
  unfold finishEntry
  dsimp only
  repeat' split
  all_goals simp [lasting_foldl]

@[simp] theorem continueEntry_lasting (s : State) : lasting (continueEntry s) = lasting s := by
  unfold continueEntry
  split <;> simp

@[simp] theorem beginEntry_lasting (target cause : Nat) (s : State) : lasting (beginEntry target cause s) = lasting s := by
  unfold beginEntry
  dsimp only
  repeat' split
  all_goals simp

@[simp] theorem becomeGood_lasting (r : Nat) (s : State) : lasting (becomeGood r s) = lasting s := by
  unfold becomeGood
  dsimp only
  split <;> simp

@[simp] theorem checkGood_lasting (r : Nat) (s : State) : lasting (checkGood r s) = lasting s := by simp [checkGood]

@[simp] theorem checkDownEnd_lasting (s : State) : lasting (checkDownEnd s) = lasting s := by
  unfold checkDownEnd
  split <;> simp

@[simp] theorem stopFalling_lasting (r : Nat) (s : State) : lasting (stopFalling r s) = lasting s := by
  unfold stopFalling
  split <;> simp

@[simp] theorem releaseVcc_lasting (v : Nat) (s : State) : lasting (releaseVcc v s) = lasting s := by simp [releaseVcc]

@[simp] theorem checkFallen_lasting (r : Nat) (s : State) : lasting (checkFallen r s) = lasting s := by
  simp [checkFallen, lasting_foldl]

/-- The three stages of the loss in turn: the rails of the groups, their channels, the sequence that waits for them. -/
@[simp] theorem dropGroup_lasting (r code : Nat) (s : State) : lasting (dropGroup r code s) = lasting s := by
  unfold dropGroup
  extract_lets s1 b gs s2 lose s3
  have h3 : lasting s3 = lasting s := by
    simp only [s3, s2, s1, lose, syncMq_lasting]
    rw [lasting_foldl _ _ fun s c => by simp, lasting_foldl _ _ fun s g => by simp, railFault_lasting]
  clear_value s3
  split <;> simpa using h3

@[simp] theorem dropDependants_lasting (r : Nat) (s : State) : lasting (dropDependants r s) = lasting s := by
  unfold dropDependants
  dsimp only
  repeat' split
  all_goals simp [lasting_foldl]

@[simp] theorem faultAct_lasting (r code : Nat) (s : State) : lasting (faultAct r code s) = lasting s := by
  unfold faultAct
  split <;> simp

@[simp] theorem applyInterval_lasting (secs : Nat) (provisional : Bool) (s : State) :
    lasting (applyInterval secs provisional s) = lasting s := by
  simp [applyInterval, lasting_foldl]

@[simp] theorem driftAdditions_lasting (s : State) : lasting (driftAdditions s) = lasting s := by
  simp [driftAdditions, lasting_foldl]

@[simp] theorem completeUnpowered_lasting (old new : Nat) (s : State) : lasting (completeUnpowered old new s) = lasting s := by
  simp [completeUnpowered]

@[simp] theorem alarmCheck_lasting (s : State) : lasting (alarmCheck s) = lasting s := by simp [alarmCheck]

/-! ### Machine/EpochOps.lean -/

@[simp] theorem setRing_lasting (r : RingSt) (s : State) : lasting (setRing r s) = lasting s := by simp [setRing]
@[simp] theorem putRing_lasting (f : RingFrame) (s : State) : lasting (putRing f s) = lasting s := by simp [putRing]

@[simp] theorem sendRing_lasting (typ dst : Nat) (payload : List Byte) (s : State) :
    lasting (sendRing typ dst payload s) = lasting s := by
  simp [sendRing]

@[simp] theorem sendThrice_lasting (typ gap : Nat) (payload : List Byte) (s : State) :
    lasting (sendThrice typ gap payload s) = lasting s := by
  simp [sendThrice]

@[simp] theorem sendStatus_lasting (s : State) : lasting (sendStatus s) = lasting s := by simp [sendStatus]

@[simp] theorem sendStorm_lasting (s : State) : lasting (sendStorm s) = lasting s := by
  unfold sendStorm
  split <;> simp

@[simp] theorem setEpState_lasting (st : EpState) (s : State) : lasting (setEpState st s) = lasting s := by simp [setEpState]
@[simp] theorem armEpoch_lasting (e d t : Nat) (s : State) : lasting (armEpoch e d t s) = lasting s := by simp [armEpoch]
@[simp] theorem disarmEpoch_lasting (e d t : Nat) (s : State) : lasting (disarmEpoch e d t s) = lasting s := by simp [disarmEpoch]
@[simp] theorem flagTenant_lasting (t : Nat) (s : State) : lasting (flagTenant t s) = lasting s := by simp [flagTenant]
@[simp] theorem diverge_lasting (s : State) : lasting (diverge s) = lasting s := by simp [diverge, lasting_foldl]
@[simp] theorem lag_lasting (s : State) : lasting (lag s) = lasting s := by simp [lag, lasting_foldl]

@[simp] theorem hearPeer_lasting (dev e d st : Nat) (s : State) : lasting (hearPeer dev e d st s) = lasting s := by
  simp [hearPeer]

@[simp] theorem checkTag_lasting (t peer tag : Nat) (s : State) : lasting (checkTag t peer tag s).2 = lasting s := by
  unfold checkTag
  split <;> simp

@[simp] theorem settleEpoch_lasting (s : State) : lasting (settleEpoch s) = lasting s := by simp [settleEpoch]

@[simp] theorem activateExt_lasting (e : Nat) (old : ExtentEnt) (s : State) : lasting (activateExt e old s) = lasting s := by
  simp [activateExt]

@[simp] theorem activate_lasting (e d : Nat) (s : State) : lasting (activate e d s) = lasting s := by
  simp [activate, lasting_foldl]

@[simp] theorem writeFabricId_lasting (s : State) : lasting (writeFabricId s) = lasting s := by simp [writeFabricId]

@[simp] theorem idConflict_lasting (id serial : Nat) (s : State) : lasting (idConflict id serial s) = lasting s := by
  simp [idConflict]

@[simp] theorem claimId_lasting (id serial : Nat) (s : State) : lasting (claimId id serial s) = lasting s := by simp [claimId]

/-! ### Machine/FrontCache.lean -/

@[simp] theorem enterViral_lasting (trigger h : Nat) (s : State) : lasting (enterViral trigger h s) = lasting s := by
  simp [enterViral]

@[simp] theorem viralAll_lasting (trigger : Nat) (s : State) : lasting (viralAll trigger s) = lasting s := by
  simp [viralAll, lasting_foldl]

@[simp] theorem frontError_lasting (e : FrontErr) (s : State) : lasting (frontError e s) = lasting s := by
  unfold frontError
  split <;> simp

@[simp] theorem execFrontScrubPass_lasting (err : FrontErr) (s : State) :
    lastingOf (execFrontScrubPass err s) = some (lasting s) := by
  simp [execFrontScrubPass]

@[simp] theorem execGetFrontCacheState_lasting (cci : Fin 10) (inp : List Byte) (s : State) :
    lastingOf (execGetFrontCacheState cci inp s) = some (lasting s) := by
  refine vendor_lasting fun s => ?_
  simp

@[simp] theorem execSetFrontCachePartition_lasting (cci : Fin 10) (inp : List Byte) (s : State) :
    lastingOf (execSetFrontCachePartition cci inp s) = some (lasting s) := by
  refine vendor_lasting fun s => ?_
  simp

@[simp] theorem execSetDrainPolicy_lasting (cci : Fin 10) (inp : List Byte) (s : State) :
    lastingOf (execSetDrainPolicy cci inp s) = some (lasting s) := by
  refine vendor_lasting fun s => ?_
  simp

theorem postMaint_lasting {op : Nat} {c : Option Nat} {start len : Nat} {s t : State}
    (h : postMaint op c start len s = some t) : lasting t = lasting s := by
  unfold postMaint at h
  split at h <;> cases h
  rfl

@[simp] theorem maintRange_lasting (op : Nat) (cci : Fin 10) (inp : List Byte) (s : State) :
    lastingOf (maintRange op cci inp s) = some (lasting s) := by
  refine vendorBg_lasting fun s => ?_
  dsimp only
  split
  · rfl
  · split
    · rfl
    · next t ht => exact postMaint_lasting ht

@[simp] theorem execCleanRange_lasting (cci : Fin 10) (inp : List Byte) (s : State) :
    lastingOf (execCleanRange cci inp s) = some (lasting s) := by
  simp [execCleanRange]

@[simp] theorem execInvalidateRange_lasting (cci : Fin 10) (inp : List Byte) (s : State) :
    lastingOf (execInvalidateRange cci inp s) = some (lasting s) := by
  simp [execInvalidateRange]

@[simp] theorem execCleanAndInvalidateRange_lasting (cci : Fin 10) (inp : List Byte) (s : State) :
    lastingOf (execCleanAndInvalidateRange cci inp s) = some (lasting s) := by
  simp [execCleanAndInvalidateRange]

@[simp] theorem execInvalidateAll_lasting (cci : Fin 10) (inp : List Byte) (s : State) :
    lastingOf (execInvalidateAll cci inp s) = some (lasting s) := by
  refine vendorBg_lasting fun s => ?_
  split
  · rfl
  · next t ht => exact postMaint_lasting ht

@[simp] theorem invalidateLine_lasting (p : Maint × State) (i : Nat) : lasting (invalidateLine p i).2 = lasting p.2 := by
  unfold invalidateLine
  dsimp only
  repeat' split
  all_goals simp

@[simp] theorem maintInvalidate_lasting (m : Maint) (s : State) : lasting (maintInvalidate m s).2 = lasting s :=
  lasting_foldl_snd _ _ invalidateLine_lasting (m, s)

@[simp] theorem maintClean_lasting (m : Maint) (s : State) : lasting (maintClean m s).2 = lasting s :=
  lasting_foldl_snd _ _ (fun p lfa => markUrgent_lasting lfa p.2) (m, s)

@[simp] theorem setMaint_lasting (n : Nat) (m : Maint) (s : State) : lasting (setMaint n m s) = lasting s := by simp [setMaint]
@[simp] theorem releaseHeld_lasting (s : State) : lasting (releaseHeld s) = lasting s := by simp [releaseHeld]

@[simp] theorem endMaint_lasting (n : Nat) (m : Maint) (s : State) : lasting (endMaint n m s) = lasting s := by
  unfold endMaint
  dsimp only
  split <;> simp

@[simp] theorem advanceMaint_lasting (n : Nat) (s : State) : lasting (advanceMaint n s) = lasting s := by
  unfold advanceMaint
  dsimp only
  repeat' split
  all_goals simp

@[simp] theorem execMaintenanceWalkDone_lasting (n : Fin 8) (s : State) :
    lastingOf (execMaintenanceWalkDone n s) = some (lasting s) := by
  unfold execMaintenanceWalkDone
  repeat' split
  all_goals simp

@[simp] theorem fillEnds_lasting (key : Nat) (s : State) : lasting (fillEnds key s) = lasting s := by
  unfold fillEnds
  dsimp only
  rw [releaseHeld_lasting]
  refine lasting_foldl _ _ (fun s n => ?_) _
  split
  · rfl
  · rw [lasting_ite, advanceMaint_lasting, setMaint_lasting, setMaint_lasting, ite_eq_right_iff]
    intro _
    split
    · rw [invalidateLine_lasting]
    · rfl

@[simp] theorem execGetMaintenanceResults_lasting (cci : Fin 10) (inp : List Byte) (s : State) :
    lastingOf (execGetMaintenanceResults cci inp s) = some (lasting s) := by
  refine vendor_lasting fun s => ?_
  simp

@[simp] theorem execDrainingComplete_lasting (s : State) : lastingOf (execDrainingComplete s) = some (lasting s) := by
  simp [execDrainingComplete]

@[simp] theorem execDisableFrontCache_lasting (cci : Fin 10) (inp : List Byte) (s : State) :
    lastingOf (execDisableFrontCache cci inp s) = some (lasting s) := by
  refine vendorBg_lasting fun s => ?_
  split <;> simp

@[simp] theorem execEnableFrontCache_lasting (cci : Fin 10) (inp : List Byte) (s : State) :
    lastingOf (execEnableFrontCache cci inp s) = some (lasting s) := by
  refine vendor_lasting fun s => ?_
  split <;> simp

@[simp] theorem spareVisit_lasting (cands : List (Nat × Nat × Nat)) (n : Nat) (s : State) :
    lasting (spareVisit cands n s).2 = lasting s := by
  induction n generalizing s with
  | zero => rfl
  | succ n ih =>
    unfold spareVisit
    dsimp only
    repeat' split
    all_goals simp [ih]

@[simp] theorem execDrainEngineSelect_lasting (parity again : BitVec 16) (s : State) :
    lastingOf (execDrainEngineSelect parity again s) = some (lasting s) := by
  unfold execDrainEngineSelect
  dsimp only
  repeat' split
  all_goals simp

@[simp] theorem execMergeReadDone_lasting (asm : Nat) (parity again : BitVec 16) (s : State) :
    lastingOf (execMergeReadDone asm parity again s) = some (lasting s) := by
  unfold execMergeReadDone
  split <;> simp

@[simp] theorem afterCommit_lasting (lfa : Nat) (s : State) : lasting (afterCommit lfa s) = lasting s := by
  simp [afterCommit, lasting_foldl]

@[simp] theorem execFrameProgramDone_lasting (asm : Nat) (s : State) :
    lastingOf (execFrameProgramDone asm s) = some (lasting s) := by
  unfold execFrameProgramDone
  repeat' split
  all_goals simp

@[simp] theorem execFrameProgramFail_lasting (asm : Nat) (s : State) :
    lastingOf (execFrameProgramFail asm s) = some (lasting s) := by
  unfold execFrameProgramFail
  repeat' split
  all_goals simp

/-! ### Machine/MapJournal.lean -/

@[simp] theorem takeFrame_lasting (s : State) (es : List JEnt) : lasting (takeFrame s es) = lasting s := by simp [takeFrame]

@[simp] theorem execStagingProgram_lasting (s : State) : lastingOf (execStagingProgram s) = some (lasting s) := by
  simp [execStagingProgram, lasting_foldl]

@[simp] theorem resetMeta_lasting (prio g : Nat) (s : State) : lasting (resetMeta prio g s) = lasting s := by simp [resetMeta]
@[simp] theorem beginPass_lasting (s : State) : lasting (beginPass s) = lasting s := by simp [beginPass, lasting_foldl]

@[simp] theorem execCheckpointPassStart_lasting (s : State) : lastingOf (execCheckpointPassStart s) = some (lasting s) := by
  simp [execCheckpointPassStart]

@[simp] theorem execCheckpointPassEnd_lasting (s : State) : lastingOf (execCheckpointPassEnd s) = some (lasting s) := by
  unfold execCheckpointPassEnd
  dsimp only
  repeat' split
  all_goals simp

@[simp] theorem execStartCheckpoint_lasting (cci : Fin 10) (inp : List Byte) (s : State) :
    lastingOf (execStartCheckpoint cci inp s) = some (lasting s) := by
  refine vendorBg_lasting fun s => ?_
  simp

@[simp] theorem quiesce_lasting (root : MapRoot) (s : State) : lasting (quiesce root s) = lasting s := by
  unfold quiesce
  dsimp only
  rw [lasting_mk, lastingRec_self, lasting_foldl _ _ fun s r => by simp]
  refine (lasting_foldl _ _ (fun s p => ?_) _).trans ?_
  · rw [dropAsm_lasting]
    split <;> simp
  · simp [lasting_foldl]

@[simp] theorem formatGroups_lasting (root : MapRoot) (s : State) : lasting (formatGroups root s) = lasting s := by
  simp [formatGroups, lasting_foldl]

@[simp] theorem formatMedia_lasting (s : State) : lasting (formatMedia s) = lasting s := by simp [formatMedia, lasting_foldl]
@[simp] theorem formatCkpt_lasting (s : State) : lasting (formatCkpt s) = lasting s := by simp [formatCkpt]

theorem replayEnts_lasting (torn : List Nat) (es : List JEnt) (a : Replay) : lasting (replayEnts torn es a).s = lasting a.s := by
  induction es generalizing a with
  | nil => rfl
  | cons e es ih =>
    unfold replayEnts
    split
    · rfl
    · split <;> simp [ih]

theorem journalGap_lasting (bad : List Nat) (n : Nat) (a : Replay) : lasting (journalGap bad n a).s = lasting a.s := by
  simp [journalGap, endJournal]

theorem replayFrames_lasting (bad torn : List Nat) (first k n : Nat) (a : Replay) :
    lasting (replayFrames bad torn first k n a).s = lasting a.s := by
  induction k generalizing n a with
  | zero => rfl
  | succ k ih =>
    unfold replayFrames
    dsimp only
    split
    · split
      · exact journalGap_lasting bad n a
      · rfl
    · split
      · rfl
      · split
        · rfl
        · rw [ih, replayEnts_lasting]

theorem replayParts_lasting (torn : List Nat) (spill : Bool) (prev : Option Nat) (l : List (List JEnt)) (a : Replay) :
    lasting (replayParts torn spill prev l a).s = lasting a.s := by
  induction l generalizing prev a with
  | nil => rfl
  | cons es l ih =>
    unfold replayParts
    extract_lets first padded r
    have hr : lasting r.s = lasting a.s := replayEnts_lasting torn es _
    split
    · exact hr
    · rw [ih, hr]

theorem replayImages_lasting (f : MediumFaults) (l : List RunRec) (a : Replay) :
    lasting (l.foldl (fun a r =>
      { replayParts f.torn false none (tailRecs f.image (imageOn a.s r)) a with ended := false }) a).s = lasting a.s := by
  induction l generalizing a with
  | nil => rfl
  | cons r l ih => rw [List.foldl_cons, ih, replayParts_lasting]

theorem replayTails_lasting (f : MediumFaults) (a : Replay) : lasting (replayTails f a).s = lasting a.s := by
  unfold replayTails
  rw [replayParts_lasting, replayImages_lasting]

@[simp] theorem dropOlder_lasting (s : State) : lasting (dropOlder s) = lasting s := by simp [dropOlder, lasting_foldl]

@[simp] theorem stageReplayed_lasting (es : List JEnt) (s : State) : lasting (stageReplayed es s) = lasting s := by
  simp [stageReplayed]

@[simp] theorem recount_lasting (s : State) : lasting (recount s) = lasting s := by simp [recount, lasting_foldl]

@[simp] theorem applyRoot_lasting (s : State) : lasting (applyRoot s) = lasting s := by
  unfold applyRoot
  repeat' split
  all_goals simp [lasting_foldl]

@[simp] theorem sparesFromSub_lasting (s : State) : lasting (sparesFromSub s) = lasting s := by simp [sparesFromSub]
@[simp] theorem metaPointers_lasting (s : State) : lasting (metaPointers s) = lasting s := by simp [metaPointers, lasting_foldl]

@[simp] theorem finishRecovery_lasting (s : State) : lasting (finishRecovery s) = lasting s := by
  simp [finishRecovery, lasting_foldl]

@[simp] theorem loadCkpt_lasting (c : Ckpt) (f : MediumFaults) (s : State) : lasting (loadCkpt c f s) = lasting s := by
  simp [loadCkpt]

@[simp] theorem groupsFromMedium_lasting (s : State) : lasting (groupsFromMedium s) = lasting s := by
  unfold groupsFromMedium
  dsimp only
  repeat' split
  all_goals simp [lasting_foldl]

@[simp] theorem recoverFrom_lasting (c : Ckpt) (f : MediumFaults) (s : State) : lasting (recoverFrom c f s) = lasting s := by
  simp [recoverFrom, replayTails_lasting, replayFrames_lasting]

@[simp] theorem recoverScan_lasting (f : MediumFaults) (s : State) : lasting (recoverScan f s) = lasting s := by
  simp [recoverScan, replayTails_lasting]

@[simp] theorem recoveryBase_lasting (s : State) : lasting (recoveryBase s) = lasting s := by simp [recoveryBase]

@[simp] theorem recoverMedium_lasting (f : MediumFaults) (s : State) : lasting (recoverMedium f s) = lasting s := by
  unfold recoverMedium
  dsimp only
  split <;> simp

@[simp] theorem recoverNone_lasting (s : State) : lasting (recoverNone s) = lasting s := by simp [recoverNone]

@[simp] theorem execMapRecovery_lasting (f : MediumFaults) (s : State) : lastingOf (execMapRecovery f s) = some (lasting s) := by
  simp [execMapRecovery]

@[simp] theorem logScan_lasting (ms : List Nat) (s : State) : lasting (logScan ms s) = lasting s := by
  simp [logScan, lasting_foldl]

@[simp] theorem execMapRebuildStart_lasting (s : State) : lastingOf (execMapRebuildStart s) = some (lasting s) := by
  simp [execMapRebuildStart]

@[simp] theorem reissueMerges_lasting (p : Nat → Bool) (s : State) : lasting (reissueMerges p s) = lasting s := by
  simp [reissueMerges, lasting_foldl]

@[simp] theorem unblock_lasting (p : Nat → Bool) (s : State) : lasting (unblock p s) = lasting s := by simp [unblock]
@[simp] theorem scanMarked_lasting (bad : List Nat) (s : State) : lasting (scanMarked bad s) = lasting s := by simp [scanMarked]

@[simp] theorem execFrameMetadataScan_lasting (bad : List Nat) (s : State) :
    lastingOf (execFrameMetadataScan bad s) = some (lasting s) := by
  simp [execFrameMetadataScan]

@[simp] theorem rebuildMap_lasting (badMap bad : List Nat) (s : State) : lasting (rebuildMap badMap bad s) = lasting s := by
  simp [rebuildMap, lasting_foldl]

@[simp] theorem execMapRebuildDone_lasting (badMap bad : List Nat) (s : State) :
    lastingOf (execMapRebuildDone badMap bad s) = some (lasting s) := by
  simp [execMapRebuildDone]

@[simp] theorem execGetMapEntry_lasting (cci : Fin 10) (inp : List Byte) (s : State) :
    lastingOf (execGetMapEntry cci inp s) = some (lasting s) := by
  refine vendor_lasting fun s => ?_
  simp

@[simp] theorem execGetJournalState_lasting (cci : Fin 10) (inp : List Byte) (s : State) :
    lastingOf (execGetJournalState cci inp s) = some (lasting s) := by
  refine vendor_lasting fun s => ?_
  simp

@[simp] theorem execSetMapMirroring_lasting (cci : Fin 10) (inp : List Byte) (s : State) :
    lastingOf (execSetMapMirroring cci inp s) = some (lasting s) := by
  refine vendor_lasting fun s => ?_
  simp

@[simp] theorem execGetRebuildState_lasting (cci : Fin 10) (inp : List Byte) (s : State) :
    lastingOf (execGetRebuildState cci inp s) = some (lasting s) := by
  refine vendor_lasting fun s => ?_
  simp

/-! ### Machine/Placement.lean -/

@[simp] theorem placeWaiting_lasting (s : State) : lasting (placeWaiting s) = lasting s := by simp [placeWaiting, lasting_foldl]

@[simp] theorem checkSanitize_lasting (s : State) : lasting (checkSanitize s) = lasting s := by
  unfold checkSanitize
  split <;> simp

@[simp] theorem checkFormat_lasting (s : State) : lasting (checkFormat s) = lasting s := by
  unfold checkFormat
  dsimp only
  split <;> simp

@[simp] theorem execReadyQueueRefill_lasting (ds : Fin 512) (s : State) :
    lastingOf (execReadyQueueRefill ds s) = some (lasting s) := by
  simp [execReadyQueueRefill]

@[simp] theorem execBusySlotFree_lasting (ds : Fin 512) (s : State) : lastingOf (execBusySlotFree ds s) = some (lasting s) := by
  simp [execBusySlotFree]

@[simp] theorem execTileResetStart_lasting (g : Nat) (s : State) : lastingOf (execTileResetStart g s) = some (lasting s) := by
  simp [execTileResetStart]

@[simp] theorem leaveDrainSet_lasting (g : Nat) (s : State) : lasting (leaveDrainSet g s) = lasting s := by
  unfold leaveDrainSet
  split <;> simp

@[simp] theorem retireMeta_lasting (g cause : Nat) (s : State) : lasting (retireMeta g cause s) = lasting s := by
  simp [retireMeta]

@[simp] theorem metaReset_lasting (g : Nat) (s : State) : lasting (metaReset g s) = lasting s := by simp [metaReset]

@[simp] theorem freeGroup_lasting (g : Nat) (spared : Bool) (s : State) : lasting (freeGroup g spared s) = lasting s := by
  simp [freeGroup]

@[simp] theorem groupReset_lasting (g : Nat) (spared : Bool) (s : State) : lasting (groupReset g spared s) = lasting s := by
  simp [groupReset]

@[simp] theorem resetGoesOn_lasting (ds g prio : Nat) (check : Bool) (s : State) :
    lasting (resetGoesOn ds g prio check s) = lasting s := by
  unfold resetGoesOn
  repeat' split
  all_goals simp

@[simp] theorem execTileResetDone_lasting (ds : Fin 512) (s : State) :
    lastingOf (execTileResetDone ds s) = some (lasting s) := by
  unfold execTileResetDone
  dsimp only
  repeat' split
  all_goals simp [lasting_foldl]

@[simp] theorem urge_lasting (mine : Rack → Bool) (s : State) : lasting (urge mine s) = lasting s := by simp [urge]
@[simp] theorem urgeRacks_lasting (ds : Nat) (s : State) : lasting (urgeRacks ds s) = lasting s := by simp [urgeRacks]

@[simp] theorem execRackingStart_lasting (ds : Fin 512) (s : State) : lastingOf (execRackingStart ds s) = some (lasting s) := by
  unfold execRackingStart
  dsimp only
  repeat' split
  all_goals simp

@[simp] theorem execRackingCopyDone_lasting (asm : Nat) (s : State) :
    lastingOf (execRackingCopyDone asm s) = some (lasting s) := by
  unfold execRackingCopyDone
  repeat' split
  all_goals simp

@[simp] theorem execWearLevelRacking_lasting (s : State) : lastingOf (execWearLevelRacking s) = some (lasting s) := by
  unfold execWearLevelRacking
  dsimp only
  repeat' split
  all_goals simp

@[simp] theorem execRecoveryRead_lasting (lfa : Nat) (s : State) : lastingOf (execRecoveryRead lfa s) = some (lasting s) := by
  unfold execRecoveryRead
  split <;> simp

@[simp] theorem askRelease_lasting (e : Nat) (s : State) : lasting (askRelease e s) = lasting s := by simp [askRelease]
@[simp] theorem withholdNow_lasting (s : State) : lasting (withholdNow s) = lasting s := by simp [withholdNow, lasting_foldl]
@[simp] theorem askNow_lasting (s : State) : lasting (askNow s) = lasting s := by simp [askNow, lasting_foldl]

@[simp] theorem execCriticalWithhold_lasting (s : State) : lastingOf (execCriticalWithhold s) = some (lasting s) := by
  simp [execCriticalWithhold]

@[simp] theorem discardStalls_lasting (s : State) : lasting (discardStalls s) = lasting s := by
  refine lasting_foldl _ _ (fun s a => ?_) _
  split <;> simp

@[simp] theorem execWriteLockedEntry_lasting (s : State) : lastingOf (execWriteLockedEntry s) = some (lasting s) := by
  simp [execWriteLockedEntry]

@[simp] theorem flushHealth_lasting (s : State) : lasting (flushHealth s) = lasting s := by simp [flushHealth, lasting_foldl]

@[simp] theorem execHealthCounterUpdate_lasting (s : State) : lastingOf (execHealthCounterUpdate s) = some (lasting s) := by
  simp [execHealthCounterUpdate]

@[simp] theorem waX100_lasting (s : State) : lasting (waX100 s).2 = lasting s := by
  unfold waX100
  dsimp only
  split <;> simp

@[simp] theorem execGetMediaHealth_lasting (cci : Fin 10) (inp : List Byte) (s : State) :
    lastingOf (execGetMediaHealth cci inp s) = some (lasting s) := by
  refine vendor_lasting fun s => ?_
  simp

@[simp] theorem execGetGroupInfo_lasting (cci : Fin 10) (inp : List Byte) (s : State) :
    lastingOf (execGetGroupInfo cci inp s) = some (lasting s) := by
  refine vendor_lasting fun s => ?_
  simp

@[simp] theorem execSetOverProvisioning_lasting (cci : Fin 10) (inp : List Byte) (s : State) :
    lastingOf (execSetOverProvisioning cci inp s) = some (lasting s) := by
  refine vendor_lasting fun s => ?_
  simp

@[simp] theorem execFormatMedia_lasting (cci : Fin 10) (inp : List Byte) (s : State) :
    lastingOf (execFormatMedia cci inp s) = some (lasting s) := by
  refine vendorBg_lasting fun s => ?_
  simp

@[simp] theorem execSetRelocationPolicy_lasting (cci : Fin 10) (inp : List Byte) (s : State) :
    lastingOf (execSetRelocationPolicy cci inp s) = some (lasting s) := by
  refine vendor_lasting fun s => ?_
  simp

@[simp] theorem execRackGroup_lasting (cci : Fin 10) (inp : List Byte) (s : State) :
    lastingOf (execRackGroup cci inp s) = some (lasting s) := by
  refine vendorBg_lasting fun s => ?_
  simp

/-! ### Machine/Thermal.lean -/

@[simp] theorem setSensor_lasting (i : Nat) (x : Sensor) (s : State) : lasting (setSensor i x s) = lasting s := by
  simp [setSensor]

@[simp] theorem thermCount_lasting (c n : Nat) (s : State) : lasting (thermCount c n s) = lasting s := by simp [thermCount]
@[simp] theorem setLevel_lasting (z lvl : Nat) (s : State) : lasting (setLevel z lvl s) = lasting s := by simp [setLevel]
@[simp] theorem noteBelow_lasting (z : Nat) (s : State) : lasting (noteBelow z s) = lasting s := by simp [noteBelow]
@[simp] theorem barRestart_lasting (s : State) : lasting (barRestart s) = lasting s := by simp [barRestart]

@[simp] theorem criticalStop_lasting (z i : Nat) (v : Int) (s : State) : lasting (criticalStop z i v s) = lasting s := by
  unfold criticalStop
  dsimp only
  split <;> simp

@[simp] theorem noteCool_lasting (s : State) : lasting (noteCool s) = lasting s := by simp [noteCool]

@[simp] theorem takeSample_lasting (i : Nat) (raw : Option Int) (s : State) : lasting (takeSample i raw s).2 = lasting s := by
  simp [takeSample]

@[simp] theorem sampleSensor_lasting (i : Nat) (raw : Option Int) (s : State) : lasting (sampleSensor i raw s) = lasting s := by
  simp [sampleSensor]

@[simp] theorem execDiodeSample_lasting (diode : Fin 24) (reading : Option Int) (s : State) :
    lastingOf (execDiodeSample diode reading s) = some (lasting s) := by
  simp [execDiodeSample]

@[simp] theorem execNtcSample_lasting (ntc : Fin 8) (mv : Nat) (s : State) :
    lastingOf (execNtcSample ntc mv s) = some (lasting s) := by
  simp [execNtcSample]

@[simp] theorem execSensorRecovered_lasting (sensor : Fin 336) (s : State) :
    lastingOf (execSensorRecovered sensor s) = some (lasting s) := by
  unfold execSensorRecovered
  dsimp only
  split <;> simp

@[simp] theorem execZoneFallHoldExpiry_lasting (zone : Fin 4) (s : State) :
    lastingOf (execZoneFallHoldExpiry zone s) = some (lasting s) := by
  unfold execZoneFallHoldExpiry
  split <;> simp

@[simp] theorem execProgramPauseEnd_lasting (ds : Fin 512) (s : State) :
    lastingOf (execProgramPauseEnd ds s) = some (lasting s) := by
  unfold execProgramPauseEnd
  dsimp only
  split <;> simp

@[simp] theorem tripNoted_lasting (diode : Nat) (s : State) : lasting (tripNoted diode s) = lasting s := by simp [tripNoted]

@[simp] theorem execThermtrip_lasting (diode : Fin 24) (s : State) : lastingOf (execThermtrip diode s) = some (lasting s) := by
  simp [execThermtrip]

@[simp] theorem execThermalRestart_lasting (s : State) : lastingOf (execThermalRestart s) = some (lasting s) := by
  unfold execThermalRestart
  split <;> simp

@[simp] theorem thermSecond_lasting (s : State) : lasting (thermSecond s) = lasting s := by
  refine lasting_foldl _ _ (fun s a => ?_) _
  split <;> simp

@[simp] theorem flushTherm_lasting (s : State) : lasting (flushTherm s) = lasting s := by simp [flushTherm, lasting_foldl]

@[simp] theorem execTempHistoryUpdate_lasting (s : State) : lastingOf (execTempHistoryUpdate s) = some (lasting s) := by
  simp [execTempHistoryUpdate]

@[simp] theorem execGetThermalState_lasting (cci : Fin 10) (inp : List Byte) (s : State) :
    lastingOf (execGetThermalState cci inp s) = some (lasting s) := by
  refine vendor_lasting fun s => ?_
  simp

@[simp] theorem execSetThermalPolicy_lasting (cci : Fin 10) (inp : List Byte) (s : State) :
    lastingOf (execSetThermalPolicy cci inp s) = some (lasting s) := by
  refine vendor_lasting fun s => ?_
  simp

@[simp] theorem execGetTemperatureHistory_lasting (cci : Fin 10) (inp : List Byte) (s : State) :
    lastingOf (execGetTemperatureHistory cci inp s) = some (lasting s) := by
  refine vendor_lasting fun s => ?_
  simp

/-! ### Machine/Persist.lean -/

@[simp] theorem powerFail_lasting (bit : Nat) (s : State) : lasting (powerFail bit s) = lasting s := by
  unfold powerFail
  dsimp only
  repeat' split
  all_goals simp

@[simp] theorem execPwrFailNAssert_lasting (s : State) : lastingOf (execPwrFailNAssert s) = some (lasting s) := by
  simp [execPwrFailNAssert]

@[simp] theorem execSupplyMonitorTrip_lasting (sample : Nat) (s : State) :
    lastingOf (execSupplyMonitorTrip sample s) = some (lasting s) := by
  simp [execSupplyMonitorTrip]

@[simp] theorem drainBooks_lasting (s : State) : lasting (drainBooks s) = lasting s := by simp [drainBooks]
@[simp] theorem commitFaults_lasting (s : State) : lasting (commitFaults s) = lasting s := by simp [commitFaults, lasting_foldl]
@[simp] theorem handOver_lasting (t : Nat) (s : State) : lasting (handOver t s) = lasting s := by simp [handOver]
@[simp] theorem kickSlots_lasting (s : State) : lasting (kickSlots s) = lasting s := by simp [kickSlots, lasting_foldl]

@[simp] theorem resumeDrain_lasting (s : State) : lasting (resumeDrain s) = lasting s := by
  unfold resumeDrain
  repeat' split
  all_goals simp [lasting_foldl]

@[simp] theorem afterDrain_lasting (t : Nat) (s : State) : lasting (afterDrain t s) = lasting s := by simp [afterDrain]

@[simp] theorem execDrainComplete_lasting (vEnd : Nat) (s : State) :
    lastingOf (execDrainComplete vEnd s) = some (lasting s) := by
  unfold execDrainComplete
  dsimp only
  split <;> simp

@[simp] theorem execBankAtVCutoff_lasting (s : State) : lastingOf (execBankAtVCutoff s) = some (lasting s) := by
  unfold execBankAtVCutoff
  split <;> simp

@[simp] theorem startMeasure_lasting (cci : Option Nat) (s : State) : lasting (startMeasure cci s) = lasting s := by
  simp [startMeasure]

@[simp] theorem execHoldupMeasureSchedule_lasting (s : State) : lastingOf (execHoldupMeasureSchedule s) = some (lasting s) := by
  simp [execHoldupMeasureSchedule]

@[simp] theorem execHoldupLullWaitExpiry_lasting (s : State) : lastingOf (execHoldupLullWaitExpiry s) = some (lasting s) := by
  simp [execHoldupLullWaitExpiry]

@[simp] theorem execHoldTestAssert_lasting (v0 : Nat) (s : State) : lastingOf (execHoldTestAssert v0 s) = some (lasting s) := by
  simp [execHoldTestAssert]

@[simp] theorem execHoldTestEnd_lasting (samples : List Nat) (s : State) :
    lastingOf (execHoldTestEnd samples s) = some (lasting s) := by
  unfold execHoldTestEnd
  dsimp only
  repeat' split
  all_goals simp

@[simp] theorem execHoldupRecoveryDone_lasting (s : State) : lastingOf (execHoldupRecoveryDone s) = some (lasting s) := by
  unfold execHoldupRecoveryDone
  dsimp only
  repeat' split
  all_goals simp

@[simp] theorem execHoldupRetry_lasting (s : State) : lastingOf (execHoldupRetry s) = some (lasting s) := by
  unfold execHoldupRetry
  split <;> simp

@[simp] theorem execEnergyRecompute_lasting (v : Nat) (s : State) : lastingOf (execEnergyRecompute v s) = some (lasting s) := by
  simp [execEnergyRecompute]

@[simp] theorem execGetHoldUpStatus_lasting (cci : Fin 10) (inp : List Byte) (s : State) :
    lastingOf (execGetHoldUpStatus cci inp s) = some (lasting s) := by
  refine vendor_lasting fun s => ?_
  simp

@[simp] theorem execSetHoldUpParameters_lasting (cci : Fin 10) (inp : List Byte) (s : State) :
    lastingOf (execSetHoldUpParameters cci inp s) = some (lasting s) := by
  refine vendor_lasting fun s => ?_
  simp

@[simp] theorem execMeasureHoldUp_lasting (cci : Fin 10) (inp : List Byte) (s : State) :
    lastingOf (execMeasureHoldUp cci inp s) = some (lasting s) := by
  refine vendorBg_lasting fun s => ?_
  simp

@[simp] theorem execGetDrainRecord_lasting (cci : Fin 10) (inp : List Byte) (s : State) :
    lastingOf (execGetDrainRecord cci inp s) = some (lasting s) := by
  refine vendor_lasting fun s => ?_
  simp

/-! ### Machine/Power.lean -/

@[simp] theorem scanLog_lasting (region : Nat) (s : State) : lasting (scanLog region s) = lasting s := by
  unfold scanLog
  repeat' split
  all_goals simp

@[simp] theorem buildIndex_lasting (s : State) : lasting (buildIndex s) = lasting s := by simp [buildIndex]

@[simp] theorem tearRun_lasting (s : State) : lasting (tearRun s) = lasting s := by
  unfold tearRun
  dsimp only
  repeat' split
  all_goals simp

@[simp] theorem loadAonPolicies_lasting (s : State) : lasting (loadAonPolicies s) = lasting s := by
  unfold loadAonPolicies
  dsimp only
  repeat' split
  all_goals simp

@[simp] theorem coldAon_lasting (s : State) : lasting (coldAon s) = lasting s := by simp [coldAon]

@[simp] theorem startAon_lasting (hbif0 hbif1 : Bool) (sbaddr : Fin 16) (strapTest : Bool) (s : State) :
    lasting (startAon hbif0 hbif1 sbaddr strapTest s) = lasting s := by
  simp [startAon]

@[simp] theorem execAlwaysOnResetRelease_lasting (hbif0 hbif1 : Bool) (sbaddr : Fin 16) (strapTest : Bool) (s : State) :
    lastingOf (execAlwaysOnResetRelease hbif0 hbif1 sbaddr strapTest s) = some (lasting s) := by
  simp [execAlwaysOnResetRelease]

@[simp] theorem supplyGone_lasting (vaux : Bool) (s : State) : lasting (supplyGone vaux s) = lasting s := by simp [supplyGone]
@[simp] theorem aonGone_lasting (vaux : Bool) (s : State) : lasting (aonGone vaux s) = lasting s := by simp [aonGone]

@[simp] theorem execSupplyRemoved_lasting (vaux aon : Bool) (s : State) :
    lastingOf (execSupplyRemoved vaux aon s) = some (lasting s) := by
  simp [execSupplyRemoved]

@[simp] theorem goTo_lasting (q : SeqRun) (pc : Nat) (s : State) : lasting (goTo q pc s) = lasting s := by simp [goTo]

@[simp] theorem enableRail_lasting (r : Nat) (s : State) : lasting (enableRail r s) = lasting s := by
  unfold enableRail
  repeat' split
  all_goals simp

@[simp] theorem execSeqEnable_lasting (s : State) : lastingOf (execSeqEnable s) = some (lasting s) := by
  unfold execSeqEnable
  split <;> simp

@[simp] theorem execSeqDisable_lasting (s : State) : lastingOf (execSeqDisable s) = some (lasting s) := by
  unfold execSeqDisable
  split <;> simp

@[simp] theorem execSeqWait_lasting (s : State) : lastingOf (execSeqWait s) = some (lasting s) := by
  unfold execSeqWait
  split <;> simp

@[simp] theorem execSeqWaitExpiry_lasting (s : State) : lastingOf (execSeqWaitExpiry s) = some (lasting s) := by
  unfold execSeqWaitExpiry
  repeat' split
  all_goals simp

@[simp] theorem execSeqCheck_lasting (s : State) : lastingOf (execSeqCheck s) = some (lasting s) := by
  unfold execSeqCheck
  split <;> simp

@[simp] theorem execSeqJump_lasting (s : State) : lastingOf (execSeqJump s) = some (lasting s) := by
  unfold execSeqJump
  split <;> simp

@[simp] theorem execSeqJumpif_lasting (s : State) : lastingOf (execSeqJumpif s) = some (lasting s) := by
  unfold execSeqJumpif
  split <;> simp

@[simp] theorem execSeqSetout_lasting (s : State) : lastingOf (execSeqSetout s) = some (lasting s) := by
  unfold execSeqSetout
  split <;> simp

@[simp] theorem execSeqEnd_lasting (s : State) : lastingOf (execSeqEnd s) = some (lasting s) := by
  unfold execSeqEnd
  split <;> simp

@[simp] theorem seqFault_lasting (code : Nat) (q : SeqRun) (s : State) : lasting (seqFault code q s) = lasting s := by
  simp [seqFault]

@[simp] theorem execSeqInvalid_lasting (s : State) : lastingOf (execSeqInvalid s) = some (lasting s) := by
  unfold execSeqInvalid
  split <;> simp

@[simp] theorem execSeqRunaway_lasting (s : State) : lastingOf (execSeqRunaway s) = some (lasting s) := by
  unfold execSeqRunaway
  split <;> simp

@[simp] theorem execDependencyEnable_lasting (rail : Fin 64) (s : State) :
    lastingOf (execDependencyEnable rail s) = some (lasting s) := by
  unfold execDependencyEnable
  split <;> simp

@[simp] theorem execDependencyDisable_lasting (rail : Fin 64) (s : State) :
    lastingOf (execDependencyDisable rail s) = some (lasting s) := by
  unfold execDependencyDisable
  split <;> simp

@[simp] theorem execOrderGuardRelease_lasting (rail : Fin 64) (s : State) :
    lastingOf (execOrderGuardRelease rail s) = some (lasting s) := by
  simp [execOrderGuardRelease]

@[simp] theorem execRailPgEdge_lasting (rail : Fin 64) (high : Bool) (s : State) :
    lastingOf (execRailPgEdge rail high s) = some (lasting s) := by
  simp [execRailPgEdge]

@[simp] theorem execRailSettleExpiry_lasting (rail : Fin 64) (s : State) :
    lastingOf (execRailSettleExpiry rail s) = some (lasting s) := by
  simp [execRailSettleExpiry]

@[simp] theorem execRailTimeout_lasting (rail : Fin 64) (s : State) : lastingOf (execRailTimeout rail s) = some (lasting s) := by
  unfold execRailTimeout
  split <;> simp

@[simp] theorem execDownTimeout_lasting (rail : Fin 64) (s : State) : lastingOf (execDownTimeout rail s) = some (lasting s) := by
  unfold execDownTimeout
  split <;> simp

@[simp] theorem sampleRail_lasting (r code : Nat) (s : State) : lasting (sampleRail r code s) = lasting s := by simp [sampleRail]

@[simp] theorem takeAdc_lasting (codes : List (Fin 32 × Fin 4096)) (s : State) : lasting (takeAdc codes s) = lasting s := by
  simp [takeAdc, lasting_foldl]

@[simp] theorem execRailAdcSample_lasting (codes : List (Fin 32 × Fin 4096)) (s : State) :
    lastingOf (execRailAdcSample codes s) = some (lasting s) := by
  unfold execRailAdcSample
  dsimp only
  repeat' split
  all_goals simp [lasting_foldl]

@[simp] theorem execSafeOffRetry_lasting (s : State) : lastingOf (execSafeOffRetry s) = some (lasting s) := by
  unfold execSafeOffRetry
  split <;> simp

@[simp] theorem execFabricHoldExpiry_lasting (s : State) : lastingOf (execFabricHoldExpiry s) = some (lasting s) := by
  unfold execFabricHoldExpiry
  split <;> simp

@[simp] theorem execPowerFailClear_lasting (s : State) : lastingOf (execPowerFailClear s) = some (lasting s) := by
  simp [execPowerFailClear]

@[simp] theorem execVauxLowDetect_lasting (s : State) : lastingOf (execVauxLowDetect s) = some (lasting s) := by
  unfold execVauxLowDetect
  dsimp only
  split <;> simp

@[simp] theorem execIdleEntry_lasting (s : State) : lastingOf (execIdleEntry s) = some (lasting s) := by simp [execIdleEntry]
@[simp] theorem execIdleExit_lasting (s : State) : lastingOf (execIdleExit s) = some (lasting s) := by simp [execIdleExit]

@[simp] theorem execDormantAutoEntry_lasting (s : State) : lastingOf (execDormantAutoEntry s) = some (lasting s) := by
  simp [execDormantAutoEntry]

@[simp] theorem execDormantExit_lasting (s : State) : lastingOf (execDormantExit s) = some (lasting s) := by
  simp [execDormantExit]

@[simp] theorem execWakeEvent_lasting (source : Fin 5) (s : State) : lastingOf (execWakeEvent source s) = some (lasting s) := by
  simp [execWakeEvent]

@[simp] theorem execGetPowerState_lasting (cci : Fin 10) (inp : List Byte) (s : State) :
    lastingOf (execGetPowerState cci inp s) = some (lasting s) := by
  refine vendor_lasting fun s => ?_
  simp

@[simp] theorem setPowerState_lasting (target : Nat) (s : State) : lastingReply s (setPowerState target s) = lasting s := by
  unfold setPowerState
  repeat' split
  all_goals simp

@[simp] theorem execSetPowerStateActive_lasting (cci : Fin 10) (inp : List Byte) (s : State) :
    lastingOf (execSetPowerStateActive cci inp s) = some (lasting s) := by
  refine vendor_lasting fun s => ?_
  simp

@[simp] theorem execSetPowerStateDormant_lasting (cci : Fin 10) (inp : List Byte) (s : State) :
    lastingOf (execSetPowerStateDormant cci inp s) = some (lasting s) := by
  refine vendor_lasting fun s => ?_
  simp

@[simp] theorem execSetPowerStateStandby_lasting (cci : Fin 10) (inp : List Byte) (s : State) :
    lastingOf (execSetPowerStateStandby cci inp s) = some (lasting s) := by
  refine vendor_lasting fun s => ?_
  simp

@[simp] theorem execSetPowerPolicy_lasting (cci : Fin 10) (inp : List Byte) (s : State) :
    lastingOf (execSetPowerPolicy cci inp s) = some (lasting s) := by
  refine vendor_lasting fun s => ?_
  simp

@[simp] theorem execGetSequencerProgram_lasting (cci : Fin 10) (inp : List Byte) (s : State) :
    lastingOf (execGetSequencerProgram cci inp s) = some (lasting s) := by
  refine vendor_lasting fun s => ?_
  simp

@[simp] theorem execSetSequencerProgram_lasting (cci : Fin 10) (inp : List Byte) (s : State) :
    lastingOf (execSetSequencerProgram cci inp s) = some (lasting s) := by
  refine vendor_lasting fun s => ?_
  simp

@[simp] theorem execGetRailStatus_lasting (cci : Fin 10) (inp : List Byte) (s : State) :
    lastingOf (execGetRailStatus cci inp s) = some (lasting s) := by
  refine vendor_lasting fun s => ?_
  simp

@[simp] theorem execClearRailFaults_lasting (cci : Fin 10) (inp : List Byte) (s : State) :
    lastingOf (execClearRailFaults cci inp s) = some (lasting s) := by
  refine vendor_lasting fun s => ?_
  simp

/-! ### Machine/MgmtOps.lean -/

@[simp] theorem setSlotImage_lasting (n : Nat) (x : Option (List Byte)) (s : State) :
    lasting (setSlotImage n x s) = lasting s := by
  simp [setSlotImage]

@[simp] theorem requestFwSlot_lasting (s : State) : lasting (requestFwSlot s) = lasting s := by simp [requestFwSlot]
@[simp] theorem writeFwSlot_lasting (s : State) : lasting (writeFwSlot s) = lasting s := by simp [writeFwSlot]
@[simp] theorem logSlot_lasting (n cause : Nat) (s : State) : lasting (logSlot n cause s) = lasting s := by simp [logSlot]

@[simp] theorem loadMicrocode_lasting (n : Nat) (x : List Byte) (s : State) : lasting (loadMicrocode n x s) = lasting s := by
  simp [loadMicrocode]

@[simp] theorem startSup_lasting (n slot : Nat) (s : State) : lasting (startSup n slot s) = lasting s := by
  unfold startSup
  dsimp only
  repeat' split
  all_goals simp

@[simp] theorem failWaiting_lasting (n : Nat) (rc : Rc) (s : State) : lasting (failWaiting n rc s) = lasting s := by
  refine lasting_foldl _ _ (fun s a => ?_) _
  split <;> simp

@[simp] theorem restartSup_lasting (n : Nat) (x : SupSt) (s : State) : lasting (restartSup n x s) = lasting s := by
  simp [restartSup]

theorem abortOp_lasting {c op : Nat} {s t : State} (h : abortOp c op s = some t) : lasting t = lasting s := by
  unfold abortOp at h
  dsimp only at h
  repeat' split at h
  case isFalse.isFalse.isFalse.isFalse => cases h
  all_goals
    cases h
    simp [lasting_foldl]

/-! ### Machine/Firmware.lean -/

@[simp] theorem bootActive_lasting (s : State) : lasting (bootActive s).2 = lasting s := by
  unfold bootActive
  dsimp only
  repeat' split
  all_goals simp

@[simp] theorem bootSelect_lasting (s : State) : lasting (bootSelect s).2 = lasting s := by
  unfold bootSelect
  dsimp only
  repeat' split
  all_goals simp

@[simp] theorem execBootRom_lasting (s : State) : lastingOf (execBootRom s) = some (lasting s) := by
  unfold execBootRom
  dsimp only
  repeat' split
  all_goals simp

@[simp] theorem dropTransfer_lasting (s : State) : lasting (dropTransfer s) = lasting s := by simp [dropTransfer]
@[simp] theorem openSlot_lasting (n : Nat) (s : State) : lasting (openSlot n s) = lasting s := by simp [openSlot]

@[simp] theorem closeSlot_lasting (n : Nat) (x : List Byte) (s : State) : lastingReply s (closeSlot n x s) = lasting s := by
  simp [closeSlot]

theorem transferFw_lasting {c : Fin 10} {data : List Byte} {body : State → Reply} {s : State}
    (h : ∀ s, lastingReply s (body s) = lasting s) : lastingOf (transferFw c data body s) = some (lasting s) := mailbox_lasting h

@[simp] theorem execTransferFwFull_lasting (cci : Fin 10) (slot : Nat) (data : List Byte) (s : State) :
    lastingOf (execTransferFwFull cci slot data s) = some (lasting s) := by
  refine transferFw_lasting fun s => ?_
  split
  · rfl
  · simp [closeSlot]

@[simp] theorem execTransferFwInitiate_lasting (cci : Fin 10) (slot : Nat) (data : List Byte) (s : State) :
    lastingOf (execTransferFwInitiate cci slot data s) = some (lasting s) := by
  refine transferFw_lasting fun s => ?_
  split <;> simp

@[simp] theorem execTransferFwContinue_lasting (cci : Fin 10) (off : Nat) (data : List Byte) (s : State) :
    lastingOf (execTransferFwContinue cci off data s) = some (lasting s) := by
  refine transferFw_lasting fun s => ?_
  split <;> simp

@[simp] theorem execTransferFwEnd_lasting (cci : Fin 10) (off : Nat) (data : List Byte) (s : State) :
    lastingOf (execTransferFwEnd cci off data s) = some (lasting s) := by
  refine transferFw_lasting fun s => ?_
  split <;> simp

@[simp] theorem execTransferFwAbort_lasting (cci : Fin 10) (s : State) :
    lastingOf (execTransferFwAbort cci s) = some (lasting s) := by
  refine standard_lasting fun s => ?_
  split <;> simp

@[simp] theorem execFwTransferIdleTimeout_lasting (s : State) : lastingOf (execFwTransferIdleTimeout s) = some (lasting s) := by
  unfold execFwTransferIdleTimeout
  split <;> simp

@[simp] theorem execActivateFwCold_lasting (cci : Fin 10) (slot : Nat) (s : State) :
    lastingOf (execActivateFwCold cci slot s) = some (lasting s) := by
  refine standard_lasting fun s => ?_
  split <;> simp

@[simp] theorem activateNext_lasting (s : State) : lasting (activateNext s) = lasting s := by
  unfold activateNext
  split
  · split
    · split <;> simp
    · rfl
  · rfl

@[simp] theorem execActivateFwOnline_lasting (cci : Fin 10) (slot : Nat) (s : State) :
    lastingOf (execActivateFwOnline cci slot s) = some (lasting s) := by
  refine mailbox_lasting fun s => ?_
  repeat' split
  all_goals simp

@[simp] theorem rollBackFw_lasting (rc : Rc) (s : State) : lasting (rollBackFw rc s) = lasting s := by
  unfold rollBackFw
  split
  · rfl
  · refine (lasting_foldl _ _ (fun s n => ?_) _).trans ?_
    · split <;> simp
    · simp

@[simp] theorem activationDone_lasting (a : FwActivation) (s : State) : lasting (activationDone a s) = lasting s := by
  simp [activationDone]

@[simp] theorem execOnlineActivationWatchdogFail_lasting (s : State) :
    lastingOf (execOnlineActivationWatchdogFail s) = some (lasting s) := by
  simp [execOnlineActivationWatchdogFail]

@[simp] theorem execSupervisorRestartDone_lasting (sup : Fin 4) (s : State) :
    lastingOf (execSupervisorRestartDone sup s) = some (lasting s) := by
  unfold execSupervisorRestartDone
  dsimp only
  repeat' split
  all_goals simp

@[simp] theorem execGetFwInfo_lasting (cci : Fin 10) (s : State) : lastingOf (execGetFwInfo cci s) = some (lasting s) := by
  refine standard_lasting fun s => ?_
  simp

@[simp] theorem execSupervisorWatchdogExpiry_lasting (sup : Fin 4) (s : State) :
    lastingOf (execSupervisorWatchdogExpiry sup s) = some (lasting s) := by
  unfold execSupervisorWatchdogExpiry
  dsimp only
  split <;> simp

@[simp] theorem execRestartSupervisor_lasting (cci : Fin 10) (inp : List Byte) (s : State) :
    lastingOf (execRestartSupervisor cci inp s) = some (lasting s) := by
  refine vendor_lasting fun s => ?_
  dsimp only
  repeat' split
  all_goals simp

@[simp] theorem abortBg_lasting (s : State) (c : Nat) : lasting (abortBg s c) = lasting s := by
  unfold abortBg
  split
  · split
    · rfl
    · split
      · next t ht => exact abortOp_lasting ht
      · simp
  · rfl

@[simp] theorem execMgmtWatchdogExpiry_lasting (s : State) : lastingOf (execMgmtWatchdogExpiry s) = some (lasting s) := by
  simp [execMgmtWatchdogExpiry, lasting_foldl]

@[simp] theorem execMgmtRestartDone_lasting (s : State) : lastingOf (execMgmtRestartDone s) = some (lasting s) := by
  unfold execMgmtRestartDone
  split
  · refine congrArg some (lasting_foldl _ _ (fun s c => ?_) _)
    split <;> simp
  · rfl

@[simp] theorem execOwnershipViolation_lasting (node : Fin 61) (row : Fin 21) (s : State) :
    lastingOf (execOwnershipViolation node row s) = some (lasting s) := by
  simp [execOwnershipViolation]

@[simp] theorem execGetSupervisorState_lasting (cci : Fin 10) (inp : List Byte) (s : State) :
    lastingOf (execGetSupervisorState cci inp s) = some (lasting s) := by
  refine vendor_lasting fun s => ?_
  simp

@[simp] theorem execSetDebugAccess_lasting (cci : Fin 10) (inp : List Byte) (s : State) :
    lastingOf (execSetDebugAccess cci inp s) = some (lasting s) := by
  refine vendor_lasting fun s => ?_
  simp

@[simp] theorem execGetDeviceIdentity_lasting (cci : Fin 10) (inp : List Byte) (s : State) :
    lastingOf (execGetDeviceIdentity cci inp s) = some (lasting s) := by
  refine vendor_lasting fun s => ?_
  simp

@[simp] theorem execTrstNAssert_lasting (s : State) : lastingOf (execTrstNAssert s) = some (lasting s) := by
  simp [execTrstNAssert]

/-! ### Machine/Attest.lean -/

@[simp] theorem setSpdm_lasting (e : Nat) (x : SpdmSt) (s : State) : lasting (setSpdm e x s) = lasting s := by simp [setSpdm]

theorem spdm_lasting {e : Nat} {ready : SpdmSt → Bool} {body : SpdmSt → State → SpdmSt × State} {s : State}
    (h : ∀ x s, lasting (body x s).2 = lasting s) : lastingOf (spdm e ready body s) = some (lasting s) := by
  simp [spdm, h]

@[simp] theorem inSession_lasting (e id code : Nat) (f : SpdmSession → State → Option SpdmSession) (s : State) :
    lastingOf (inSession e id code f s) = some (lasting s) := by
  refine spdm_lasting fun x s => ?_
  repeat' split
  all_goals rfl

@[simp] theorem execSpdmGetVersion_lasting (ep : Fin 6) (s : State) : lastingOf (execSpdmGetVersion ep s) = some (lasting s) :=
  spdm_lasting fun _ _ => rfl

@[simp] theorem execSpdmGetCapabilities_lasting (ep : Fin 6) (s : State) : lastingOf (execSpdmGetCapabilities ep s) = some (lasting s) :=
  spdm_lasting fun _ _ => rfl

@[simp] theorem execSpdmNegotiateAlgorithms_lasting (ep : Fin 6) (offered : Bool) (s : State) :
    lastingOf (execSpdmNegotiateAlgorithms ep offered s) = some (lasting s) :=
  spdm_lasting fun _ _ => rfl

@[simp] theorem execSpdmGetDigests_lasting (ep : Fin 6) (s : State) : lastingOf (execSpdmGetDigests ep s) = some (lasting s) :=
  spdm_lasting fun _ _ => rfl

@[simp] theorem execSpdmGetCertificate_lasting (ep : Fin 6) (slot : Nat) (s : State) :
    lastingOf (execSpdmGetCertificate ep slot s) = some (lasting s) :=
  spdm_lasting fun _ _ => rfl

@[simp] theorem execSpdmChallenge_lasting (ep : Fin 6) (slot nonce : Nat) (s : State) :
    lastingOf (execSpdmChallenge ep slot nonce s) = some (lasting s) :=
  spdm_lasting fun _ _ => rfl

@[simp] theorem execSpdmGetMeasurements_lasting (ep : Fin 6) (index nonce : Nat) (s : State) :
    lastingOf (execSpdmGetMeasurements ep index nonce s) = some (lasting s) :=
  spdm_lasting fun _ _ => rfl

@[simp] theorem execSpdmKeyExchange_lasting (ep : Fin 6) (slot pub : Nat) (s : State) :
    lastingOf (execSpdmKeyExchange ep slot pub s) = some (lasting s) := by
  refine spdm_lasting fun x s => ?_
  dsimp only
  split <;> simp

@[simp] theorem execSpdmFinish_lasting (ep : Fin 6) (session : Nat) (good : Bool) (s : State) :
    lastingOf (execSpdmFinish ep session good s) = some (lasting s) := by
  refine spdm_lasting fun x s => ?_
  repeat' split
  all_goals rfl

@[simp] theorem execSpdmEndSession_lasting (ep : Fin 6) (session : Nat) (s : State) :
    lastingOf (execSpdmEndSession ep session s) = some (lasting s) := by
  simp [execSpdmEndSession]

@[simp] theorem execSpdmKeyUpdate_lasting (ep : Fin 6) (session : Nat) (s : State) :
    lastingOf (execSpdmKeyUpdate ep session s) = some (lasting s) := by
  simp [execSpdmKeyUpdate]

@[simp] theorem execSpdmHeartbeat_lasting (ep : Fin 6) (session : Nat) (s : State) :
    lastingOf (execSpdmHeartbeat ep session s) = some (lasting s) := by
  simp [execSpdmHeartbeat]

/-! ### Machine/HostOps.lean -/

@[simp] theorem detect_lasting (src : Src) (t line : Nat) (s : State) : lasting (detect src t line s).2 = lasting s := by
  unfold detect
  split <;> simp

@[simp] theorem joinQueue_lasting (tag : Nat) (r : Req) (s : State) : lasting (joinQueue tag r s) = lasting s := by
  simp [joinQueue]

@[simp] theorem dropRemote_lasting (tag : Nat) (s : State) : lasting (dropRemote tag s) = lasting s := by simp [dropRemote]

@[simp] theorem sendRemote_lasting (tag : Nat) (s : State) : lasting (sendRemote tag s) = lasting s := by
  unfold sendRemote
  split <;> simp

@[simp] theorem wakeRemote_lasting (line n : Nat) (s : State) : lasting (wakeRemote line n s) = lasting s := by
  induction n generalizing s with
  | zero => rfl
  | succ n ih =>
    unfold wakeRemote
    split
    · rfl
    · split <;> simp [ih]

@[simp] theorem endRemote_lasting (tag : Nat) (data : HostLine) (poison : Bool) (status outcome : Nat) (s : State) :
    lasting (endRemote tag data poison status outcome s) = lasting s := by
  unfold endRemote
  split <;> simp

@[simp] theorem toRemote_lasting (tag dev addr : Nat) (eng pri : Bool) (s : State) :
    lasting (toRemote tag dev addr eng pri s) = lasting s := by
  unfold toRemote
  split <;> simp

@[simp] theorem deny_lasting (tag status : Nat) (metered : Bool) (s : State) :
    lasting (deny tag status metered s) = lasting s := by
  unfold deny
  dsimp only
  split <;> simp

@[simp] theorem enterClass_lasting (tag : Nat) (eng : Bool) (r : Req) (s : State) :
    lasting (enterClass tag eng r s).2 = lasting s := by
  unfold enterClass
  dsimp only
  repeat' split
  all_goals simp

@[simp] theorem sendOn_lasting (tag : Nat) (eng : Bool) (r : Req) (v : Verdict) (s : State) :
    lasting (sendOn tag eng r v s) = lasting s := by
  unfold sendOn
  split <;> simp

@[simp] theorem classifyReq_lasting (tag : Nat) (eng : Bool) (r : Req) (s : State) :
    lasting (classifyReq tag eng r s) = lasting s := by
  unfold classifyReq
  split <;> simp

theorem receive_lasting {eng : Bool} {r : Req} {s t : State} (h : receive eng r s = some t) : lasting t = lasting s := by
  unfold receive at h
  split at h
  · cases h
  · cases h
    simp

@[simp] theorem dispatch_lasting (q level : Nat) (s : State) : lasting (dispatch q level s) = lasting s := by
  unfold dispatch
  split <;> simp

@[simp] theorem dispatchSlot_lasting (s : State) : lasting (dispatchSlot s) = lasting s := by
  unfold dispatchSlot
  dsimp only
  repeat' split
  all_goals simp

/-! ### Machine/Counters.lean -/

@[simp] theorem setCtr_lasting (set n : Nat) (c : Ctr) (s : State) : lasting (setCtr set n c s) = lasting s := by simp [setCtr]
@[simp] theorem unmapBroken_lasting (s : State) : lasting (unmapBroken s) = lasting s := by simp [unmapBroken]

@[simp] theorem execGetCounterConfiguration_lasting (cci : Fin 10) (inp : List Byte) (s : State) :
    lastingOf (execGetCounterConfiguration cci inp s) = some (lasting s) := by
  refine vendor_lasting fun s => ?_
  simp

@[simp] theorem execSetCounterConfiguration_lasting (cci : Fin 10) (inp : List Byte) (s : State) :
    lastingOf (execSetCounterConfiguration cci inp s) = some (lasting s) := by
  refine vendor_lasting fun s => ?_
  simp

@[simp] theorem execReadCounters_lasting (cci : Fin 10) (inp : List Byte) (s : State) :
    lastingOf (execReadCounters cci inp s) = some (lasting s) := by
  refine vendor_lasting fun s => ?_
  simp

@[simp] theorem levelTick_lasting (s : State) : lasting (levelTick s) = lasting s := by simp [levelTick]
@[simp] theorem windowTick_lasting (s : State) : lasting (windowTick s) = lasting s := by simp [windowTick]

@[simp] theorem execCounterWindowEnd_lasting (set : Fin 5) (counter : Fin 64) (s : State) :
    lastingOf (execCounterWindowEnd set counter s) = some (lasting s) := by
  unfold execCounterWindowEnd
  dsimp only
  split <;> simp

@[simp] theorem execHeadCountWrite_lasting (head : Fin 4) (counter : Fin 64) (part : RegPart) (value : W64) (s : State) :
    lastingOf (execHeadCountWrite head counter part value s) = some (lasting s) := by
  simp [execHeadCountWrite]

@[simp] theorem execCounterOverflowClear_lasting (head : Fin 4) (mask : W64) (s : State) :
    lastingOf (execCounterOverflowClear head mask s) = some (lasting s) := by
  simp [execCounterOverflowClear]

@[simp] theorem execSampleCapture_lasting (s : State) : lastingOf (execSampleCapture s) = some (lasting s) := by
  unfold execSampleCapture
  split <;> simp

@[simp] theorem execGetCounterSample_lasting (cci : Fin 10) (inp : List Byte) (s : State) :
    lastingOf (execGetCounterSample cci inp s) = some (lasting s) := by
  refine vendor_lasting fun s => ?_
  dsimp only
  repeat' split
  all_goals simp

@[simp] theorem execMeterOccupancyTick_lasting (s : State) : lastingOf (execMeterOccupancyTick s) = some (lasting s) := by
  simp [execMeterOccupancyTick]

@[simp] theorem execSetTenantMetering_lasting (cci : Fin 10) (inp : List Byte) (s : State) :
    lastingOf (execSetTenantMetering cci inp s) = some (lasting s) := by
  refine vendor_lasting fun s => ?_
  simp

@[simp] theorem execGetTenantMeter_lasting (cci : Fin 10) (inp : List Byte) (s : State) :
    lastingOf (execGetTenantMeter cci inp s) = some (lasting s) := by
  refine vendor_lasting fun s => ?_
  simp

/-! ### Machine/Drift.lean -/

@[simp] theorem weatherOne_lasting (all : Bool) (s : State) (ds : Nat) : lasting (weatherOne all s ds) = lasting s := by
  simp [weatherOne]

@[simp] theorem execWeatheringTick_lasting (s : State) : lastingOf (execWeatheringTick s) = some (lasting s) := by
  simp [execWeatheringTick, lasting_foldl]

@[simp] theorem execDriftClockWrite_lasting (s : State) : lastingOf (execDriftClockWrite s) = some (lasting s) := by
  simp [execDriftClockWrite]

@[simp] theorem packageTemp_lasting (ch p : Nat) (t : Option Int) (s : State) : lasting (packageTemp ch p t s) = lasting s := by
  unfold packageTemp
  dsimp only
  repeat' split
  all_goals simp [lasting_foldl]

@[simp] theorem execPackageTempRead_lasting (ch : Fin 36) (temps : List (Option Int)) (s : State) :
    lastingOf (execPackageTempRead ch temps s) = some (lasting s) := by
  simp [execPackageTempRead, lasting_foldl]

@[simp] theorem execTrimWindowEnd_lasting (g : Nat) (s : State) : lastingOf (execTrimWindowEnd g s) = some (lasting s) := by
  unfold execTrimWindowEnd
  split <;> simp

@[simp] theorem execGroupReadsRecord_lasting (s : State) : lastingOf (execGroupReadsRecord s) = some (lasting s) := by
  simp [execGroupReadsRecord]

@[simp] theorem setTop_lasting (g : Nat) (t : TopState) (s : State) : lasting (setTop g t s) = lasting s := by simp [setTop]

@[simp] theorem evalTop_lasting (s : State) (p : Nat × Group) : lasting (evalTop s p) = lasting s := by
  unfold evalTop
  dsimp only
  repeat' split
  all_goals simp

@[simp] theorem execToppingEvaluate_lasting (s : State) : lastingOf (execToppingEvaluate s) = some (lasting s) := by
  simp [execToppingEvaluate, lasting_foldl]

@[simp] theorem execToppingStart_lasting (s : State) : lastingOf (execToppingStart s) = some (lasting s) := by
  unfold execToppingStart
  repeat' split
  all_goals simp

@[simp] theorem copyImage_lasting (fs : List ImgFrame) (set w : Nat) (parts : List Nat) (s : State) :
    lasting (copyImage fs set w parts s) = lasting s := by
  refine lasting_foldl _ _ (fun s a => ?_) _
  split <;> simp

@[simp] theorem logRelocation_lasting (g : Nat) (s : State) : lasting (logRelocation g s) = lasting s := by simp [logRelocation]

@[simp] theorem execImageRelocate_lasting (s : State) : lastingOf (execImageRelocate s) = some (lasting s) := by
  unfold execImageRelocate
  repeat' split
  all_goals simp

@[simp] theorem execGetDriftState_lasting (cci : Fin 10) (inp : List Byte) (s : State) :
    lastingOf (execGetDriftState cci inp s) = some (lasting s) := by
  refine vendor_lasting fun s => ?_
  simp

@[simp] theorem execSetDriftPolicy_lasting (cci : Fin 10) (inp : List Byte) (s : State) :
    lastingOf (execSetDriftPolicy cci inp s) = some (lasting s) := by
  refine vendor_lasting fun s => ?_
  simp

@[simp] theorem execGetDriftTable_lasting (cci : Fin 10) (inp : List Byte) (s : State) :
    lastingOf (execGetDriftTable cci inp s) = some (lasting s) := by
  refine vendor_lasting fun s => ?_
  simp

/-! ### Machine/MediaChan.lean -/

@[simp] theorem failChannel_lasting (c : Nat) (s : State) : lasting (failChannel c s) = lasting s := by
  simp [failChannel, lasting_foldl]

@[simp] theorem execMresetNAssert_lasting (ch : Fin 36) (s : State) : lastingOf (execMresetNAssert ch s) = some (lasting s) := by
  simp [execMresetNAssert]

@[simp] theorem holdDram_lasting (c dimm cause : Nat) (s : State) : lasting (holdDram c dimm cause s) = lasting s := by
  simp [holdDram]

@[simp] theorem checkCapacity_lasting (s : State) : lasting (checkCapacity s) = lasting s := by simp [checkCapacity]

@[simp] theorem checkPopulation_lasting (s : State) : lasting (checkPopulation s) = lasting s := by
  unfold checkPopulation
  split <;> simp

@[simp] theorem beginTraining_lasting (c : Nat) (s : State) : lasting (beginTraining c s) = lasting s := by simp [beginTraining]

@[simp] theorem trainDone_lasting (c runs mca : Nat) (pk : Tbl PkgTrain) (s : State) :
    lasting (trainDone c runs mca pk s) = lasting s := by
  unfold trainDone
  dsimp only
  repeat' split
  all_goals simp [lasting_foldl]

@[simp] theorem execMediaFullTraining_lasting (ch : Fin 36) (first second : List TrainSweep) (s : State) :
    lastingOf (execMediaFullTraining ch first second s) = some (lasting s) := by
  unfold execMediaFullTraining
  dsimp only
  repeat' split
  all_goals simp

@[simp] theorem execMediaRetrain_lasting (ch : Fin 36) (sweep : List TrainSweep) (s : State) :
    lastingOf (execMediaRetrain ch sweep s) = some (lasting s) := by
  simp [execMediaRetrain]

@[simp] theorem loadDrift_lasting (d : Nat) (s : State) : lasting (loadDrift d s) = lasting s := by
  unfold loadDrift
  dsimp only
  split <;> simp

@[simp] theorem execChannelBringUp_lasting (ch : Fin 36) (found : List (List (List Byte × List Byte))) (s : State) :
    lastingOf (execChannelBringUp ch found s) = some (lasting s) := by
  simp [execChannelBringUp, lasting_foldl]

@[simp] theorem loseChannel_lasting (c : Nat) (s : State) : lasting (loseChannel c s) = lasting s := by simp [loseChannel]

@[simp] theorem execPackageGroupPgLost_lasting (chans : List (Fin 36)) (s : State) :
    lastingOf (execPackageGroupPgLost chans s) = some (lasting s) := by
  simp [execPackageGroupPgLost, lasting_foldl]

@[simp] theorem reenable_lasting (good : Bool) (s : State) (c : Nat) : lasting (reenable good s c) = lasting s := by
  unfold reenable
  dsimp only
  repeat' split
  all_goals simp [lasting_foldl]

@[simp] theorem execPackageGroupReenable_lasting (chans : List (Fin 36)) (good : Bool) (s : State) :
    lastingOf (execPackageGroupReenable chans good s) = some (lasting s) := by
  simp [execPackageGroupReenable, lasting_foldl]

@[simp] theorem execDieProgramEnd_lasting (die : Nat) (good : Bool) (s : State) :
    lastingOf (execDieProgramEnd die good s) = some (lasting s) := by
  simp [execDieProgramEnd]

@[simp] theorem invalidStatus_lasting (die : Nat) (s : State) : lasting (invalidStatus die s) = lasting s := by
  simp [invalidStatus]

@[simp] theorem execProgramStatusPoll_lasting (die : Nat) (valid blank : Bool) (s : State) :
    lastingOf (execProgramStatusPoll die valid blank s) = some (lasting s) := by
  unfold execProgramStatusPoll
  dsimp only
  repeat' split
  all_goals simp

@[simp] theorem overrun_lasting (ds : Nat) (s : State) : lasting (overrun ds s) = lasting s := by simp [overrun]

@[simp] theorem execProgramOverrun_lasting (die : Nat) (s : State) :
    lastingOf (execProgramOverrun die s) = some (lasting s) := by
  unfold execProgramOverrun
  dsimp only
  repeat' split
  all_goals simp

@[simp] theorem execGetMediaChannelState_lasting (cci : Fin 10) (inp : List Byte) (s : State) :
    lastingOf (execGetMediaChannelState cci inp s) = some (lasting s) := by
  refine vendor_lasting fun s => ?_
  simp

@[simp] theorem execRetrainMediaChannel_lasting (cci : Fin 10) (inp : List Byte) (s : State) :
    lastingOf (execRetrainMediaChannel cci inp s) = some (lasting s) := by
  refine vendorBg_lasting fun s => ?_
  simp

@[simp] theorem execGetDieParameterPage_lasting (cci : Fin 10) (inp : List Byte) (s : State) :
    lastingOf (execGetDieParameterPage cci inp s) = some (lasting s) := by
  refine vendor_lasting fun s => ?_
  simp

@[simp] theorem execSetChannelService_lasting (cci : Fin 10) (inp : List Byte) (s : State) :
    lastingOf (execSetChannelService cci inp s) = some (lasting s) := by
  refine vendor_lasting fun s => ?_
  simp

@[simp] theorem mediaCommandOut_lasting (s : State) (k : Option (Nat × DieCmd)) (out : List Byte) :
    lasting (mediaCommandOut s k out).2 = lasting s := by
  unfold mediaCommandOut
  repeat' split
  all_goals simp

@[simp] theorem execIssueMediaCommand_lasting (cci : Fin 10) (inp : List Byte) (s : State) :
    lastingOf (execIssueMediaCommand cci inp s) = some (lasting s) := by
  refine vendor_lasting fun s => ?_
  dsimp only
  repeat' split
  all_goals simp

/-! ### Machine/Dram.lean -/

@[simp] theorem checkDram_lasting (s : State) : lasting (checkDram s) = lasting s := by
  unfold checkDram
  split <;> simp

@[simp] theorem startThaw_lasting (c : Nat) (auto : Bool) (s : State) : lasting (startThaw c auto s) = lasting s := by
  simp [startThaw]

@[simp] theorem failThaw_lasting (c : Nat) (s : State) : lasting (failThaw c s) = lasting s := by
  unfold failThaw
  dsimp only
  split <;> simp

@[simp] theorem execDramTraining_lasting (ch : Fin 8) (dimms : List Dimm) (first second : List DramLane) (temp : Int) (s : State) :
    lastingOf (execDramTraining ch dimms first second temp s) = some (lasting s) := by
  unfold execDramTraining
  repeat' split
  all_goals simp

@[simp] theorem execDramFillDone_lasting (s : State) : lastingOf (execDramFillDone s) = some (lasting s) := by
  simp [execDramFillDone]

@[simp] theorem execWriteCrcAlert_lasting (ch : Fin 8) (resend : Bool) (frost : FrostIn) (s : State) :
    lastingOf (execWriteCrcAlert ch resend frost s) = some (lasting s) := by
  simp [execWriteCrcAlert]

@[simp] theorem execCaParityAlert_lasting (ch : Fin 8) (frost : FrostIn) (s : State) :
    lastingOf (execCaParityAlert ch frost s) = some (lasting s) := by
  simp [execCaParityAlert]

@[simp] theorem execDramScrub_lasting (ch : Fin 8) (err : DramErr) (s : State) :
    lastingOf (execDramScrub ch err s) = some (lasting s) := by
  unfold execDramScrub
  split <;> simp

@[simp] theorem execNeighbourRefresh_lasting (ch : Fin 8) (s : State) :
    lastingOf (execNeighbourRefresh ch s) = some (lasting s) := by
  simp [execNeighbourRefresh]

@[simp] theorem execSameBankRefresh_lasting (ch : Fin 8) (bank : Fin 4) (s : State) :
    lastingOf (execSameBankRefresh ch bank s) = some (lasting s) := by
  simp [execSameBankRefresh]

@[simp] theorem execRefreshRatePoll_lasting (ch : Fin 8) (rate : Nat) (s : State) :
    lastingOf (execRefreshRatePoll ch rate s) = some (lasting s) := by
  simp [execRefreshRatePoll]

@[simp] theorem execDimmTempPoll_lasting (ch : Fin 8) (temps : List (Option Int)) (s : State) :
    lastingOf (execDimmTempPoll ch temps s) = some (lasting s) := by
  simp [execDimmTempPoll, lasting_foldl]

@[simp] theorem execDramRetrainDone_lasting (ch : Fin 8) (lanes : List DramLane) (s : State) :
    lastingOf (execDramRetrainDone ch lanes s) = some (lasting s) := by
  simp [execDramRetrainDone]

@[simp] theorem execFrostHoldExpiry_lasting (ch : Fin 8) (s : State) :
    lastingOf (execFrostHoldExpiry ch s) = some (lasting s) := by
  simp [execFrostHoldExpiry]

@[simp] theorem unpin_lasting (n : Nat) (s : State) : lasting (unpin n s) = lasting s := by
  unfold unpin
  split <;> simp

@[simp] theorem execThawSalvageDone_lasting (ch : Fin 8) (bad : List Nat) (s : State) :
    lastingOf (execThawSalvageDone ch bad s) = some (lasting s) := by
  simp [execThawSalvageDone, lasting_foldl]

@[simp] theorem execThawRefillDone_lasting (ch : Fin 8) (s : State) :
    lastingOf (execThawRefillDone ch s) = some (lasting s) := by
  simp [execThawRefillDone]

@[simp] theorem execThawResyncDone_lasting (ch : Fin 8) (s : State) :
    lastingOf (execThawResyncDone ch s) = some (lasting s) := by
  unfold execThawResyncDone
  dsimp only
  repeat' split
  all_goals simp

@[simp] theorem execFrozenFailTimeout_lasting (ch : Fin 8) (s : State) :
    lastingOf (execFrozenFailTimeout ch s) = some (lasting s) := by
  simp [execFrozenFailTimeout]

@[simp] theorem execPinnedSlotResolve_lasting (slot : Nat) (s : State) :
    lastingOf (execPinnedSlotResolve slot s) = some (lasting s) := by
  unfold execPinnedSlotResolve
  split <;> simp

@[simp] theorem execSelfRefreshEntry_lasting (ch : Fin 8) (s : State) :
    lastingOf (execSelfRefreshEntry ch s) = some (lasting s) := by
  simp [execSelfRefreshEntry]

@[simp] theorem execSelfRefreshExit_lasting (ch : Fin 8) (temp : Int) (first second : List DramLane) (s : State) :
    lastingOf (execSelfRefreshExit ch temp first second s) = some (lasting s) := by
  unfold execSelfRefreshExit
  split <;> simp

@[simp] theorem execGetDramState_lasting (cci : Fin 10) (inp : List Byte) (s : State) :
    lastingOf (execGetDramState cci inp s) = some (lasting s) := by
  refine vendor_lasting fun s => ?_
  simp

@[simp] theorem execSetDramPolicy_lasting (cci : Fin 10) (inp : List Byte) (s : State) :
    lastingOf (execSetDramPolicy cci inp s) = some (lasting s) := by
  refine vendor_lasting fun s => ?_
  simp

@[simp] theorem execGetFrostRecord_lasting (cci : Fin 10) (inp : List Byte) (s : State) :
    lastingOf (execGetFrostRecord cci inp s) = some (lasting s) := by
  refine vendor_lasting fun s => ?_
  dsimp only
  repeat' split
  all_goals simp

@[simp] theorem execThawDramChannel_lasting (cci : Fin 10) (inp : List Byte) (s : State) :
    lastingOf (execThawDramChannel cci inp s) = some (lasting s) := by
  refine vendorBg_lasting fun s => ?_
  simp

/-! ### Machine/Engines.lean -/

@[simp] theorem cvTick_lasting (s : State) : lasting (cvTick s) = lasting s := by simp [cvTick]

@[simp] theorem cvIgnored_lasting (head u off : Nat) (s : State) : lasting (cvIgnored head u off s) = lasting s := by
  simp [cvIgnored]

@[simp] theorem execCvConfigWrite_lasting (head : Fin 4) (unit : Fin 8) (value : W32) (s : State) :
    lastingOf (execCvConfigWrite head unit value s) = some (lasting s) := by
  simp [execCvConfigWrite]

@[simp] theorem execCvRestartWrite_lasting (head : Fin 4) (unit : Fin 8) (s : State) :
    lastingOf (execCvRestartWrite head unit s) = some (lasting s) := by
  simp [execCvRestartWrite]

@[simp] theorem execCvFeedWrite_lasting (head : Fin 4) (unit : Fin 8) (off : Fin 4) (bytes : List Byte) (s : State) :
    lastingOf (execCvFeedWrite head unit off bytes s) = some (lasting s) := by
  simp [execCvFeedWrite]

@[simp] theorem execCvResultRead_lasting (head : Fin 4) (unit : Fin 8) (count : Bool) (s : State) :
    lastingOf (execCvResultRead head unit count s) = some (lasting s) := by
  simp [execCvResultRead]

@[simp] theorem execAssignCheckValueUnit_lasting (cci : Fin 10) (inp : List Byte) (s : State) :
    lastingOf (execAssignCheckValueUnit cci inp s) = some (lasting s) := by
  refine vendor_lasting fun s => ?_
  simp

@[simp] theorem setDescRing_lasting (r : Nat) (x : DescRing) (s : State) : lasting (setDescRing r x s) = lasting s := by
  simp [setDescRing]

@[simp] theorem ringIgnored_lasting (head r off : Nat) (s : State) : lasting (ringIgnored head r off s) = lasting s := by
  simp [ringIgnored]

@[simp] theorem execGetEngineState_lasting (cci : Fin 10) (inp : List Byte) (s : State) :
    lastingOf (execGetEngineState cci inp s) = some (lasting s) := by
  refine vendor_lasting fun s => ?_
  simp

@[simp] theorem execCreateDescriptorRing_lasting (cci : Fin 10) (inp : List Byte) (s : State) :
    lastingOf (execCreateDescriptorRing cci inp s) = some (lasting s) := by
  refine vendor_lasting fun s => ?_
  simp

@[simp] theorem execDeleteDescriptorRing_lasting (cci : Fin 10) (inp : List Byte) (s : State) :
    lastingOf (execDeleteDescriptorRing cci inp s) = some (lasting s) := by
  refine vendor_lasting fun s => ?_
  simp

@[simp] theorem execGetRingStateDescriptor_lasting (cci : Fin 10) (inp : List Byte) (s : State) :
    lastingOf (execGetRingStateDescriptor cci inp s) = some (lasting s) := by
  refine vendor_lasting fun s => ?_
  dsimp only
  repeat' split
  all_goals simp

@[simp] theorem execRingBaseWrite_lasting (head : Fin 4) (ring : Fin 4096) (part : RegPart) (value : W64) (s : State) :
    lastingOf (execRingBaseWrite head ring part value s) = some (lasting s) := by
  unfold execRingBaseWrite
  split <;> simp

@[simp] theorem execRingTailDoorbell_lasting (head : Fin 4) (ring : Fin 4096) (value : W64) (s : State) :
    lastingOf (execRingTailDoorbell head ring value s) = some (lasting s) := by
  unfold execRingTailDoorbell
  split <;> simp

@[simp] theorem execRingStart_lasting (head : Fin 4) (ring : Fin 4096) (s : State) :
    lastingOf (execRingStart head ring s) = some (lasting s) := by
  unfold execRingStart
  split <;> simp

@[simp] theorem execRingStop_lasting (head : Fin 4) (ring : Fin 4096) (s : State) :
    lastingOf (execRingStop head ring s) = some (lasting s) := by
  unfold execRingStop
  split <;> simp

@[simp] theorem execRingResume_lasting (head : Fin 4) (ring : Fin 4096) (s : State) :
    lastingOf (execRingResume head ring s) = some (lasting s) := by
  unfold execRingResume
  split <;> simp

theorem issueStep_lasting {e : Nat} {x : Engine} {op : ReqOp} {addr : Nat} {data : HostLine} {be : W64} {poison : Bool} {bytes : Nat}
    {s t : State} (h : issueStep e x op addr data be poison bytes s = some t) : lasting t = lasting s := by
  unfold issueStep at h
  rw [receive_lasting h, setEngine_lasting]

theorem issue_lasting {e : Nat} {x : Engine} {op : ReqOp} {addr : Nat} {data : HostLine} {be : W64} {poison : Bool}
    {s t : State} (h : issue e x op addr data be poison s = some t) : lasting t = lasting s :=
  issueStep_lasting h

theorem sendMigrate_lasting {e : Nat} {x : Engine} {r : DescRing} {data : HostLine} {poison : Bool} {s t : State}
    (h : sendMigrate e x r data poison s = some t) : lasting t = lasting s := by
  unfold sendMigrate at h
  dsimp only at h
  split at h <;> cases h
  simp

@[simp] theorem releaseUnit_lasting (e : Nat) (s : State) : lasting (releaseUnit e s) = lasting s := by simp [releaseUnit]

theorem writeBack_lasting {e : Nat} {x : Engine} {r : DescRing} {s t : State} (h : writeBack e x r s = some t) :
    lasting t = lasting s := by
  unfold writeBack at h
  rw [issueStep_lasting h, releaseUnit_lasting]

theorem goOn_lasting {e : Nat} {x : Engine} {r : DescRing} {s t : State} (h : goOn e x r s = some t) : lasting t = lasting s := by
  unfold goOn at h
  dsimp only at h
  split at h
  · exact writeBack_lasting h
  · split at h
    · exact issue_lasting h
    · split at h
      · exact writeBack_lasting h
      · exact issueStep_lasting h

theorem fetchDesc_lasting {e k : Nat} {r : DescRing} {s t : State} (h : fetchDesc e k r s = some t) : lasting t = lasting s := by
  unfold fetchDesc at h
  rw [issue_lasting h, lasting_mk, lastingRec_self]

@[simp] theorem execEngineTakeDescriptor_lasting (engine : Fin 16) (s : State) :
    lastingOf (execEngineTakeDescriptor engine s) = some (lasting s) := by
  unfold execEngineTakeDescriptor
  dsimp only
  split
  · simp
  · split
    · simp
    · split
      · simp
      · rw [lastingOf_next, lasting_getD fun _ => fetchDesc_lasting, takeSweeps_lasting]

@[simp] theorem startDesc_lasting (engine : Fin 16) (op : Nat) (s : State) :
    lastingOf (startDesc engine op s) = some (lasting s) := by
  unfold startDesc
  dsimp only
  split
  · rfl
  · simp [lasting_getD fun _ => goOn_lasting]

@[simp] theorem execDescCopy_lasting (engine : Fin 16) (s : State) : lastingOf (execDescCopy engine s) = some (lasting s) := by
  simp [execDescCopy]

@[simp] theorem execDescFill_lasting (engine : Fin 16) (s : State) : lastingOf (execDescFill engine s) = some (lasting s) := by
  simp [execDescFill]

@[simp] theorem execDescCompare_lasting (engine : Fin 16) (s : State) :
    lastingOf (execDescCompare engine s) = some (lasting s) := by
  unfold execDescCompare
  dsimp only
  split
  · rfl
  · simp [lasting_getD fun _ => goOn_lasting]

@[simp] theorem execDescChecksum_lasting (engine : Fin 16) (s : State) :
    lastingOf (execDescChecksum engine s) = some (lasting s) := by
  unfold execDescChecksum
  dsimp only
  split
  · rfl
  · split
    · rfl
    · split
      · rw [lastingOf_next, lasting_getD fun _ => goOn_lasting]
      · rw [lastingOf_next, lasting_getD fun _ h => (goOn_lasting h).trans (setCv_lasting ..)]

@[simp] theorem execDescMigrate_lasting (engine : Fin 16) (s : State) :
    lastingOf (execDescMigrate engine s) = some (lasting s) := by
  simp [execDescMigrate]

@[simp] theorem execDescInvalid_lasting (engine : Fin 16) (s : State) :
    lastingOf (execDescInvalid engine s) = some (lasting s) := by
  unfold execDescInvalid
  dsimp only
  split
  · rfl
  · simp [lasting_getD fun _ => writeBack_lasting]

@[simp] theorem endDesc_lasting (e : Nat) (x : Engine) (r : DescRing) (s : State) : lasting (endDesc e x r s) = lasting s := by
  simp [endDesc]

theorem afterStep_lasting {e : Nat} {x : Engine} {r : DescRing} {resp : S2M} {s t : State}
    (h : afterStep e x r resp s = some t) : lasting t = lasting s := by
  unfold afterStep at h
  dsimp only at h
  split at h
  case h_1 =>
    split at h
    · exact writeBack_lasting h
    · cases h; simp
  case h_2 =>
    split at h
    · exact issue_lasting h
    · split at h
      · split at h
        · split at h
          · exact goOn_lasting h
          · exact sendMigrate_lasting h
        · exact sendMigrate_lasting h
      · split at h
        · exact goOn_lasting h
        · split at h
          · exact issue_lasting h
          · exact (goOn_lasting h).trans (setCv_lasting ..)
  case h_3 =>
    split at h
    · exact goOn_lasting h
    · exact goOn_lasting h
  case h_4 => exact goOn_lasting h
  all_goals cases h; simp

@[simp] theorem execEngineStepDone_lasting (engine : Fin 16) (s : State) :
    lastingOf (execEngineStepDone engine s) = some (lasting s) := by
  unfold execEngineStepDone
  dsimp only
  split
  · rfl
  · split
    · rfl
    · split
      · simp
      · split
        · exact congrArg some (lasting_getD fun _ => writeBack_lasting)
        · exact congrArg some (lasting_getD fun _ => afterStep_lasting)

/-! ### Machine/Fabric.lean -/

@[simp] theorem toRetraining_lasting (p : Nat) (s : State) : lasting (toRetraining p s) = lasting s := by simp [toRetraining]

@[simp] theorem execFabricPmdTrainingDone_lasting (port : Fin 8) (width : Fin 5) (prop : Nat) (s : State) :
    lastingOf (execFabricPmdTrainingDone port width prop s) = some (lasting s) := by
  simp [execFabricPmdTrainingDone]

@[simp] theorem execFabricLossOfLock_lasting (port : Fin 8) (s : State) :
    lastingOf (execFabricLossOfLock port s) = some (lasting s) := by
  simp [execFabricLossOfLock]

@[simp] theorem execFabricRetrainTimeout_lasting (port : Fin 8) (s : State) :
    lastingOf (execFabricRetrainTimeout port s) = some (lasting s) := by
  simp [execFabricRetrainTimeout]

@[simp] theorem execFabricDisabledExpiry_lasting (port : Fin 8) (s : State) :
    lastingOf (execFabricDisabledExpiry port s) = some (lasting s) := by
  simp [execFabricDisabledExpiry]

@[simp] theorem replay_lasting (p : Nat) (s : State) : lasting (replay p s) = lasting s := by simp [replay]

@[simp] theorem execFlitReceive_lasting (port : Fin 8) (flit : Flit) (symbols uncorrectable : Nat) (s : State) :
    lastingOf (execFlitReceive port flit symbols uncorrectable s) = some (lasting s) := by
  simp [execFlitReceive, lasting_foldl]

@[simp] theorem execReplayTimer_lasting (port : Fin 8) (s : State) : lastingOf (execReplayTimer port s) = some (lasting s) := by
  unfold execReplayTimer
  split <;> simp

@[simp] theorem execNakRepeatTimer_lasting (port : Fin 8) (s : State) :
    lastingOf (execNakRepeatTimer port s) = some (lasting s) := by
  unfold execNakRepeatTimer
  dsimp only
  split <;> simp

theorem takeMsg_lasting {p : Nat} {f : WireMsg → Bool} {s t : State} {m : WireMsg} (h : takeMsg p f s = some (m, t)) :
    lasting t = lasting s := by
  unfold takeMsg at h
  dsimp only at h
  split at h <;> cases h
  simp

@[simp] theorem checkUp_lasting (p : Nat) (s : State) : lasting (checkUp p s) = lasting s := by
  unfold checkUp
  dsimp only
  split <;> simp

@[simp] theorem execHelloSend_lasting (port : Fin 8) (s : State) : lastingOf (execHelloSend port s) = some (lasting s) := by
  simp [execHelloSend]

@[simp] theorem execHello_lasting (port : Fin 8) (s : State) : lastingOf (execHello port s) = some (lasting s) := by
  unfold execHello
  split
  · next h =>
    rw [← takeMsg_lasting h]
    dsimp only
    rw [lastingOf_ite]
    simp
  · rfl

@[simp] theorem execHelloDeadInterval_lasting (port : Fin 8) (s : State) :
    lastingOf (execHelloDeadInterval port s) = some (lasting s) := by
  simp [execHelloDeadInterval]

@[simp] theorem ackLsa_lasting (p : Nat) (l : Lsa) (s : State) : lasting (ackLsa p l s) = lasting s := by simp [ackLsa]

@[simp] theorem takeLsa_lasting (p : Nat) (l : Lsa) (s : State) : lasting (takeLsa p l s) = lasting s := by
  unfold takeLsa
  repeat' split
  all_goals simp

@[simp] theorem receiveLsa_lasting (p : Nat) (l : Lsa) (s : State) : lasting (receiveLsa p l s) = lasting s := by
  unfold receiveLsa
  dsimp only
  repeat' split
  all_goals simp

@[simp] theorem execLsa_lasting (port : Fin 8) (s : State) : lastingOf (execLsa port s) = some (lasting s) := by
  unfold execLsa
  split
  · next h => simp [← takeMsg_lasting h]
  · rfl

@[simp] theorem execLsaAck_lasting (port : Fin 8) (s : State) : lastingOf (execLsaAck port s) = some (lasting s) := by
  unfold execLsaAck
  split
  · next h => simp [← takeMsg_lasting h]
  · rfl

@[simp] theorem execLsaResend_lasting (port : Fin 8) (s : State) : lastingOf (execLsaResend port s) = some (lasting s) := by
  simp [execLsaResend, lasting_foldl]

@[simp] theorem execLsaAgeTick_lasting (s : State) : lastingOf (execLsaAgeTick s) = some (lasting s) := by simp [execLsaAgeTick]

@[simp] theorem execLsaOriginate_lasting (s : State) : lastingOf (execLsaOriginate s) = some (lasting s) := by
  simp [execLsaOriginate]

@[simp] theorem assignId_lasting (id : Nat) (s : State) : lasting (assignId id s) = lasting s := by simp [assignId]

@[simp] theorem execAutoIdAssign_lasting (s : State) : lastingOf (execAutoIdAssign s) = some (lasting s) := by
  unfold execAutoIdAssign
  dsimp only
  repeat' split
  all_goals simp

@[simp] theorem execRouteRecompute_lasting (s : State) : lastingOf (execRouteRecompute s) = some (lasting s) := by
  simp [execRouteRecompute]

@[simp] theorem execRouteTableSwap_lasting (s : State) : lastingOf (execRouteTableSwap s) = some (lasting s) := by
  unfold execRouteTableSwap
  split <;> simp

theorem takeLocal_lasting {p : Nat} {k : MsgKind} {s t : State} {m : WireMsg} (h : takeLocal p k s = some (m, t)) :
    lasting t = lasting s := by
  unfold takeLocal at h
  dsimp only at h
  generalize (if s.fabric.devId = 0xFFF then _ else _ : List WireMsg) = heads at h
  split at h
  · cases h
  · exact takeMsg_lasting h

@[simp] theorem refuseRoute_lasting (port : Nat) (m : FabMsg) (s : State) : lasting (refuseRoute port m s) = lasting s := by
  simp [refuseRoute]

@[simp] theorem execMessageRelay_lasting (port : Fin 8) (s : State) : lastingOf (execMessageRelay port s) = some (lasting s) := by
  unfold execMessageRelay
  dsimp only
  split
  · split
    · simp
    · split
      · next h => simp [← takeMsg_lasting h]
      · rfl
  · rfl

@[simp] theorem noteIngress_lasting (op : ReqOp) (bad : W64) (m : FabMsg) (s : State) :
    lasting (noteIngress op bad m s) = lasting s := by
  simp [noteIngress]

@[simp] theorem ingress_lasting (port : Nat) (k : MsgKind) (op : ReqOp) (bad : W64) (s : State) :
    lasting (ingress port k op bad s) = lasting s := by
  unfold ingress
  split
  · next h =>
    refine lasting_getD fun t ht => ?_
    rw [receive_lasting ht, noteIngress_lasting, takeLocal_lasting h]
  · rfl

@[simp] theorem execMemRdMessage_lasting (port : Fin 8) (bad : Bool) (s : State) :
    lastingOf (execMemRdMessage port bad s) = some (lasting s) := by
  simp [execMemRdMessage]

@[simp] theorem execMemSpecRdMessage_lasting (port : Fin 8) (s : State) :
    lastingOf (execMemSpecRdMessage port s) = some (lasting s) := by
  simp [execMemSpecRdMessage]

@[simp] theorem execMemWrMessage_lasting (port : Fin 8) (bad : W64) (s : State) :
    lastingOf (execMemWrMessage port bad s) = some (lasting s) := by
  simp [execMemWrMessage]

@[simp] theorem execMemWrPtlMessage_lasting (port : Fin 8) (bad : W64) (s : State) :
    lastingOf (execMemWrPtlMessage port bad s) = some (lasting s) := by
  simp [execMemWrPtlMessage]

@[simp] theorem statusEvents_lasting (port : Nat) (m : FabMsg) (r : Req) (s : State) :
    lasting (statusEvents port m r s) = lasting s := by
  simp [statusEvents]

@[simp] theorem response_lasting (port : Nat) (k : MsgKind) (s : State) : lasting (response port k s) = lasting s := by
  unfold response
  split
  · next h =>
    split
    · simp [← takeLocal_lasting h]
    · simp [← takeLocal_lasting h]
  · rfl

@[simp] theorem execDataMessage_lasting (port : Fin 8) (s : State) : lastingOf (execDataMessage port s) = some (lasting s) := by
  simp [execDataMessage]

@[simp] theorem execCmpMessage_lasting (port : Fin 8) (s : State) : lastingOf (execCmpMessage port s) = some (lasting s) := by
  simp [execCmpMessage]

@[simp] theorem dropHeld_lasting (m : FabMsg) (s : State) : lasting (dropHeld m s) = lasting s := by simp [dropHeld]

@[simp] theorem execFabTimeoutFirst_lasting (s : State) : lastingOf (execFabTimeoutFirst s) = some (lasting s) := by
  unfold execFabTimeoutFirst
  split <;> simp

@[simp] theorem execFabTimeoutSecond_lasting (s : State) : lastingOf (execFabTimeoutSecond s) = some (lasting s) := by
  unfold execFabTimeoutSecond
  repeat' split
  all_goals simp

@[simp] theorem execGetFabricState_lasting (cci : Fin 10) (inp : List Byte) (s : State) :
    lastingOf (execGetFabricState cci inp s) = some (lasting s) := by
  refine vendor_lasting fun s => ?_
  simp

@[simp] theorem execSetFabricDeviceId_lasting (cci : Fin 10) (inp : List Byte) (s : State) :
    lastingOf (execSetFabricDeviceId cci inp s) = some (lasting s) := by
  refine vendor_lasting fun s => ?_
  dsimp only
  repeat' split
  all_goals simp

@[simp] theorem applyPortEn_lasting (s : State) : lasting (applyPortEn s) = lasting s := by simp [applyPortEn, lasting_foldl]

@[simp] theorem execSetFabricPolicy_lasting (cci : Fin 10) (inp : List Byte) (s : State) :
    lastingOf (execSetFabricPolicy cci inp s) = some (lasting s) := by
  refine vendor_lasting fun s => ?_
  simp

@[simp] theorem execGetRouteTable_lasting (cci : Fin 10) (inp : List Byte) (s : State) :
    lastingOf (execGetRouteTable cci inp s) = some (lasting s) := by
  refine vendor_lasting fun s => ?_
  simp

@[simp] theorem execGetLinkStateDatabase_lasting (cci : Fin 10) (inp : List Byte) (s : State) :
    lastingOf (execGetLinkStateDatabase cci inp s) = some (lasting s) := by
  refine vendor_lasting fun s => ?_
  simp

@[simp] theorem execGetFabricPortCounters_lasting (cci : Fin 10) (inp : List Byte) (s : State) :
    lastingOf (execGetFabricPortCounters cci inp s) = some (lasting s) := by
  refine vendor_lasting fun s => ?_
  simp

@[simp] theorem execRetrainFabricPort_lasting (cci : Fin 10) (inp : List Byte) (s : State) :
    lastingOf (execRetrainFabricPort cci inp s) = some (lasting s) := by
  refine vendorBg_lasting fun s => ?_
  dsimp only
  repeat' split
  all_goals simp

/-! ### Machine/Fills.lean -/

@[simp] theorem slotRead_lasting (rd : ReadId) (n : Nat) (f : Fetch) (s : State) : lasting (slotRead rd n f s) = lasting s := by
  unfold slotRead
  dsimp only
  split <;> simp

@[simp] theorem slotLost_lasting (rd : ReadId) (n pfa : Nat) (f : Fetch) (s : State) :
    lasting (slotLost rd n pfa f s) = lasting s := by
  simp [slotLost]

@[simp] theorem execBackCacheReadDone_lasting (rd : ReadId) (err : DramErr) (s : State) :
    lastingOf (execBackCacheReadDone rd err s) = some (lasting s) := by
  unfold execBackCacheReadDone
  repeat' split
  all_goals simp

@[simp] theorem settleRead_lasting (rd : ReadId) (s : State) : lasting (settleRead rd s) = lasting s := by
  unfold settleRead
  repeat' split
  all_goals simp

@[simp] theorem execCodewordDecodeDone_lasting (rd : ReadId) (pos : Nat) (good : Bool) (up dn : List Nat) (s : State) :
    lastingOf (execCodewordDecodeDone rd pos good up dn s) = some (lasting s) := by
  unfold execCodewordDecodeDone
  repeat' split
  all_goals simp

@[simp] theorem execSlowPathSoftReadDone_lasting (rd : ReadId) (pos : Nat) (good : Bool) (s : State) :
    lastingOf (execSlowPathSoftReadDone rd pos good s) = some (lasting s) := by
  unfold execSlowPathSoftReadDone
  repeat' split
  all_goals simp

@[simp] theorem answerRead_lasting (data : FrontLine) (poison : Bool) (outcome tag : Nat) (s : State) :
    lasting (answerRead data poison outcome tag s) = lasting s := by
  unfold answerRead
  split <;> simp

@[simp] theorem fillMerge_lasting (key : Nat) (m : Miss) (s : State) : lasting (fillMerge key m s).2.2 = lasting s := by
  unfold fillMerge
  dsimp only
  repeat' split
  all_goals simp

@[simp] theorem execFillComplete_lasting (line : Nat) (parity : Bool) (s : State) :
    lastingOf (execFillComplete line parity s) = some (lasting s) := by
  unfold execFillComplete
  dsimp only
  repeat' split
  all_goals simp [lasting_foldl]

/-! ### Machine/Host.lean -/

@[simp] theorem touchQuiet_lasting (s : State) : lasting (touchQuiet s) = lasting s := by simp [touchQuiet]
@[simp] theorem leaveL1_lasting (h : Nat) (s : State) : lasting (leaveL1 h s) = lasting s := by simp [leaveL1]
@[simp] theorem enterL1_lasting (h : Nat) (l12 : Bool) (s : State) : lasting (enterL1 h l12 s) = lasting s := by simp [enterL1]

@[simp] theorem execAspmL1Entry_lasting (head : Fin 4) (l12 : Bool) (s : State) :
    lastingOf (execAspmL1Entry head l12 s) = some (lasting s) := by
  simp [execAspmL1Entry]

@[simp] theorem execAspmL1Exit_lasting (head : Fin 4) (s : State) : lastingOf (execAspmL1Exit head s) = some (lasting s) := by
  simp [execAspmL1Exit]

@[simp] theorem execLinkUp_lasting (head : Fin 4) (rate : Fin 65) (width : Fin 17) (flit : FlitMode) (s : State) :
    lastingOf (execLinkUp head rate width flit s) = some (lasting s) := by
  simp [execLinkUp]

@[simp] theorem quietRequests_lasting (h : Nat) (s : State) : lasting (quietRequests h s) = lasting s := by simp [quietRequests]
@[simp] theorem forgetGpf_lasting (h : Nat) (s : State) : lasting (forgetGpf h s) = lasting s := by simp [forgetGpf]
@[simp] theorem resetMailbox_lasting (c : Nat) (s : State) : lasting (resetMailbox c s) = lasting s := by simp [resetMailbox]
@[simp] theorem resetHead_lasting (h : Nat) (s : State) : lasting (resetHead h s) = lasting s := by simp [resetHead]

@[simp] theorem execPerstNAssert_lasting (head : Fin 4) (s : State) :
    lastingOf (execPerstNAssert head s) = some (lasting s) := by
  simp [execPerstNAssert]

@[simp] theorem execPerstNRelease_lasting (head : Fin 4) (s : State) :
    lastingOf (execPerstNRelease head s) = some (lasting s) := by
  simp [execPerstNRelease]

@[simp] theorem execHotReset_lasting (head : Fin 4) (s : State) : lastingOf (execHotReset head s) = some (lasting s) := by
  simp [execHotReset]

@[simp] theorem execLinkDown_lasting (head : Fin 4) (s : State) : lastingOf (execLinkDown head s) = some (lasting s) := by
  simp [execLinkDown]

@[simp] theorem execCxlReset_lasting (head : Fin 4) (s : State) : lastingOf (execCxlReset head s) = some (lasting s) := by
  simp [execCxlReset]

@[simp] theorem execFunctionLevelReset_lasting (head : Fin 4) (s : State) :
    lastingOf (execFunctionLevelReset head s) = some (lasting s) := by
  simp [execFunctionLevelReset]

@[simp] theorem execRefclkLoss_lasting (input : Fin 6) (s : State) : lastingOf (execRefclkLoss input s) = some (lasting s) := by
  unfold execRefclkLoss
  dsimp only
  repeat' split
  all_goals simp [lasting_foldl]

@[simp] theorem parityViral_lasting (h : Nat) (e : MemErr) (s : State) : lasting (parityViral h e s) = lasting s := by
  unfold parityViral
  split <;> simp

theorem arrives_lasting {h : Nat} {s t : State} (ht : arrives h s = some t) : lasting t = lasting s := by
  unfold arrives at ht
  dsimp only at ht
  split at ht <;> cases ht
  simp

@[simp] theorem hostRequest_lasting (h : Nat) (op : ReqOp) (addr : HAddr) (rtag : Nat) (data : HostLine) (be : W64)
    (poison : Bool) (err : MemErr) (s : State) : lasting (hostRequest h op addr rtag data be poison err s) = lasting s := by
  unfold hostRequest
  split
  · rfl
  · next ht =>
    split
    · exact arrives_lasting ht
    · split
      · rfl
      · dsimp only
        split
        · next hr =>
          rw [receive_lasting hr]
          simp [arrives_lasting ht]
        · rfl

@[simp] theorem execMemRd_lasting (head : Fin 4) (addr : HAddr) (tag : Fin 65536) (err : MemErr) (s : State) :
    lastingOf (execMemRd head addr tag err s) = some (lasting s) := by
  simp [execMemRd]

@[simp] theorem execMemRdData_lasting (head : Fin 4) (addr : HAddr) (tag : Fin 65536) (err : MemErr) (s : State) :
    lastingOf (execMemRdData head addr tag err s) = some (lasting s) := by
  simp [execMemRdData]

@[simp] theorem execMemSpecRd_lasting (head : Fin 4) (addr : HAddr) (err : MemErr) (s : State) :
    lastingOf (execMemSpecRd head addr err s) = some (lasting s) := by
  simp [execMemSpecRd]

@[simp] theorem execMemWr_lasting (head : Fin 4) (addr : HAddr) (tag : Fin 65536) (data : HostLine) (poison : Bool) (err : MemErr) (s : State) :
    lastingOf (execMemWr head addr tag data poison err s) = some (lasting s) := by
  simp [execMemWr]

@[simp] theorem execMemWrPtl_lasting (head : Fin 4) (addr : HAddr) (tag : Fin 65536) (data : HostLine) (be : W64) (poison : Bool) (err : MemErr) (s : State) :
    lastingOf (execMemWrPtl head addr tag data be poison err s) = some (lasting s) := by
  simp [execMemWrPtl]

@[simp] theorem execUnsupportedM2sOpcode_lasting (head : Fin 4) (opcode : Fin 256) (tag : Fin 65536) (expectsData : Bool)
    (s : State) : lastingOf (execUnsupportedM2sOpcode head opcode tag expectsData s) = some (lasting s) := by
  unfold execUnsupportedM2sOpcode
  split
  · rfl
  · next ht => simp [← arrives_lasting ht]

@[simp] theorem execArbiterDispatchSlot_lasting (err : FrontErr) (s : State) :
    lastingOf (execArbiterDispatchSlot err s) = some (lasting s) := by
  simp [execArbiterDispatchSlot]

@[simp] theorem execWriteStallRelease_lasting (s : State) : lastingOf (execWriteStallRelease s) = some (lasting s) := by
  unfold execWriteStallRelease
  split <;> simp

@[simp] theorem execHostViralSignal_lasting (head : Fin 4) (s : State) :
    lastingOf (execHostViralSignal head s) = some (lasting s) := by
  simp [execHostViralSignal]

@[simp] theorem execGpfPhase1_lasting (head : Fin 4) (s : State) : lastingOf (execGpfPhase1 head s) = some (lasting s) := by
  simp [execGpfPhase1]

@[simp] theorem execGpfPhase2_lasting (head : Fin 4) (s : State) : lastingOf (execGpfPhase2 head s) = some (lasting s) := by
  simp [execGpfPhase2]

@[simp] theorem execIdeIntegrityFailure_lasting (head : Fin 4) (s : State) :
    lastingOf (execIdeIntegrityFailure head s) = some (lasting s) := by
  simp [execIdeIntegrityFailure]

@[simp] theorem execIdeStart_lasting (head : Fin 4) (s : State) : lastingOf (execIdeStart head s) = some (lasting s) := by
  unfold execIdeStart
  dsimp only
  repeat' split
  all_goals simp

@[simp] theorem execCxlIdeKm_lasting (head : Fin 4) (io : Bool) (key : Nat) (s : State) :
    lastingOf (execCxlIdeKm head io key s) = some (lasting s) := by
  simp [execCxlIdeKm]

@[simp] theorem execBar2BadAccess_lasting (head : Fin 4) (off : Fin 536870912) (s : State) :
    lastingOf (execBar2BadAccess head off s) = some (lasting s) := by
  simp [execBar2BadAccess]

@[simp] theorem execRegisterWrite_lasting (head : Fin 4) (reg : RegWrite) (s : State) :
    lastingOf (execRegisterWrite head reg s) = some (lasting s) := by
  unfold execRegisterWrite
  split <;> simp

@[simp] theorem execMemoryActiveSet_lasting (head : Fin 4) (s : State) :
    lastingOf (execMemoryActiveSet head s) = some (lasting s) := by
  simp [execMemoryActiveSet]

/-! ### Machine/Ring.lean -/

@[simp] theorem enterRing_lasting (m : RingMode) (s : State) : lasting (enterRing m s) = lasting s := by simp [enterRing]
@[simp] theorem startElection_lasting (s : State) : lasting (startElection s) = lasting s := by simp [startElection]
@[simp] theorem leaveRing_lasting (m : RingMode) (s : State) : lasting (leaveRing m s) = lasting s := by simp [leaveRing]
@[simp] theorem execRingReady_lasting (s : State) : lastingOf (execRingReady s) = some (lasting s) := by simp [execRingReady]

@[simp] theorem execRingConditionFail_lasting (s : State) : lastingOf (execRingConditionFail s) = some (lasting s) := by
  simp [execRingConditionFail]

@[simp] theorem execRingLockLost_lasting (s : State) : lastingOf (execRingLockLost s) = some (lasting s) := by
  simp [execRingLockLost]

@[simp] theorem execRingLockRegained_lasting (s : State) : lastingOf (execRingLockRegained s) = some (lasting s) := by
  simp [execRingLockRegained]

@[simp] theorem passOn_lasting (f : RingFrame) (s : State) : lasting (passOn f s) = lasting s := by simp [passOn]

theorem ringTake_lasting {typ : Nat} {f : RingFrame} {s t : State} (h : ringTake typ f s = some t) : lasting t = lasting s := by
  unfold ringTake at h
  dsimp only at h
  split at h
  · cases h
  · split at h <;> cases h
    simp

@[simp] theorem ringBad_lasting (f : RingFrame) (s : State) : lasting (ringBad f s) = lasting s := by simp [ringBad]

@[simp] theorem execClaim_lasting (frame : RingFrame) (s : State) : lastingOf (execClaim frame s) = some (lasting s) := by
  unfold execClaim
  split
  · simp
  · next ht => simp [← ringTake_lasting ht]

@[simp] theorem rollBack_lasting (f : RingFrame) (s : State) : lasting (rollBack f s) = lasting s := by simp [rollBack]

@[simp] theorem execRoll_lasting (frame : RingFrame) (s : State) : lastingOf (execRoll frame s) = some (lasting s) := by
  unfold execRoll
  split
  · simp
  · next ht => simp [← ringTake_lasting ht]

@[simp] theorem execRollReturned_lasting (frame : RingFrame) (s : State) :
    lastingOf (execRollReturned frame s) = some (lasting s) := by
  unfold execRollReturned
  split
  · simp
  · next ht => simp [← ringTake_lasting ht]

@[simp] theorem execBeaconSend_lasting (s : State) : lastingOf (execBeaconSend s) = some (lasting s) := by simp [execBeaconSend]

@[simp] theorem execBeaconTimeout_lasting (s : State) : lastingOf (execBeaconTimeout s) = some (lasting s) := by
  simp [execBeaconTimeout]

@[simp] theorem hearBeacon_lasting (f : RingFrame) (s : State) : lasting (hearBeacon f s) = lasting s := by simp [hearBeacon]

@[simp] theorem execRingFrameForward_lasting (frame : RingFrame) (s : State) :
    lastingOf (execRingFrameForward frame s) = some (lasting s) := by
  unfold execRingFrameForward
  split
  · simp
  · next ht => simp [← ringTake_lasting ht]

@[simp] theorem execAnnounceSend_lasting (s : State) : lastingOf (execAnnounceSend s) = some (lasting s) := by
  simp [execAnnounceSend]

theorem broadcast_lasting (typ : Nat) (f : RingFrame) {act : State → State} (s : State)
    (h : ∀ s, lasting (act s) = lasting s) : lasting (broadcast typ f act s) = lasting s := by
  unfold broadcast
  split
  · simp
  · next t ht => simp [h, ringTake_lasting ht]

@[simp] theorem execAnnounce_lasting (frame : RingFrame) (s : State) : lastingOf (execAnnounce frame s) = some (lasting s) :=
  congrArg some (broadcast_lasting 0x10 frame s fun s => by simp)

@[simp] theorem execEpochStatusSend_lasting (s : State) : lastingOf (execEpochStatusSend s) = some (lasting s) := by
  simp [execEpochStatusSend]

@[simp] theorem execEpochStatus_lasting (frame : RingFrame) (s : State) :
    lastingOf (execEpochStatus frame s) = some (lasting s) := by
  refine congrArg some (broadcast_lasting 0x11 frame s fun s => ?_)
  split <;> simp

@[simp] theorem firstTime_lasting (k : Nat × Nat × Nat) (s : State) : lasting (firstTime k s).2 = lasting s := by
  unfold firstTime
  split <;> simp

@[simp] theorem execArm_lasting (frame : RingFrame) (s : State) : lastingOf (execArm frame s) = some (lasting s) := by
  unfold execArm
  split
  · refine congrArg some ?_
    cases h : ringTake 0x12 frame s with
    | none => simp
    | some t => exact ringTake_lasting h
  · refine congrArg some (broadcast_lasting 0x12 frame s fun s => ?_)
    dsimp only
    repeat' split
    all_goals simp

@[simp] theorem execDisarm_lasting (frame : RingFrame) (s : State) : lastingOf (execDisarm frame s) = some (lasting s) := by
  unfold execDisarm
  split
  · refine congrArg some ?_
    cases h : ringTake 0x13 frame s with
    | none => simp
    | some t => exact ringTake_lasting h
  · refine congrArg some (broadcast_lasting 0x13 frame s fun s => ?_)
    dsimp only
    repeat' split
    all_goals simp

@[simp] theorem execRingFrameRepeat_lasting (s : State) : lastingOf (execRingFrameRepeat s) = some (lasting s) := by
  unfold execRingFrameRepeat
  dsimp only
  split <;> simp

@[simp] theorem brace_lasting (s : State) : lasting (brace s) = lasting s := by simp [brace]

@[simp] theorem execStorm_lasting (frame : RingFrame) (s : State) : lastingOf (execStorm frame s) = some (lasting s) :=
  congrArg some (broadcast_lasting 0x20 frame s fun s => by simp)

@[simp] theorem execBraceExpiry_lasting (s : State) : lastingOf (execBraceExpiry s) = some (lasting s) := by
  unfold execBraceExpiry
  split <;> simp

@[simp] theorem execWake_lasting (frame : RingFrame) (s : State) : lastingOf (execWake frame s) = some (lasting s) := by
  unfold execWake
  split
  · simp
  · next ht => simp [← ringTake_lasting ht]

@[simp] theorem execEpochActivate_lasting (s : State) : lastingOf (execEpochActivate s) = some (lasting s) := by
  unfold execEpochActivate
  split <;> simp

@[simp] theorem execEpochAdopt_lasting (s : State) : lastingOf (execEpochAdopt s) = some (lasting s) := by
  unfold execEpochAdopt
  split <;> simp

@[simp] theorem execMismatchHoldExpiry_lasting (s : State) : lastingOf (execMismatchHoldExpiry s) = some (lasting s) := by
  simp [execMismatchHoldExpiry, lasting_foldl]

@[simp] theorem execGetEpochState_lasting (cci : Fin 10) (inp : List Byte) (s : State) :
    lastingOf (execGetEpochState cci inp s) = some (lasting s) := by
  refine vendor_lasting fun s => ?_
  simp

@[simp] theorem execStageManifest_lasting (cci : Fin 10) (inp : List Byte) (s : State) :
    lastingOf (execStageManifest cci inp s) = some (lasting s) := by
  refine vendor_lasting fun s => ?_
  dsimp only
  repeat' split
  all_goals simp

@[simp] theorem execGetSliceDigest_lasting (cci : Fin 10) (inp : List Byte) (s : State) :
    lastingOf (execGetSliceDigest cci inp s) = some (lasting s) := by
  refine vendor_lasting fun s => ?_
  simp

@[simp] theorem execArmEpoch_lasting (cci : Fin 10) (inp : List Byte) (s : State) :
    lastingOf (execArmEpoch cci inp s) = some (lasting s) := by
  refine vendor_lasting fun s => ?_
  dsimp only
  split <;> simp

@[simp] theorem execDisarmEpoch_lasting (cci : Fin 10) (inp : List Byte) (s : State) :
    lastingOf (execDisarmEpoch cci inp s) = some (lasting s) := by
  refine vendor_lasting fun s => ?_
  dsimp only
  split <;> simp

@[simp] theorem execGetRingState_lasting (cci : Fin 10) (inp : List Byte) (s : State) :
    lastingOf (execGetRingState cci inp s) = some (lasting s) := by
  refine vendor_lasting fun s => ?_
  simp

@[simp] theorem execSetRingAndEpochPolicy_lasting (cci : Fin 10) (inp : List Byte) (s : State) :
    lastingOf (execSetRingAndEpochPolicy cci inp s) = some (lasting s) := by
  refine vendor_lasting fun s => ?_
  simp

@[simp] theorem execSendRingWake_lasting (cci : Fin 10) (inp : List Byte) (s : State) :
    lastingOf (execSendRingWake cci inp s) = some (lasting s) := by
  refine vendor_lasting fun s => ?_
  simp

/-! ### Machine/TimeBase.lean -/

@[simp] theorem countOut_lasting (s : State) : lasting (countOut s) = lasting s := by simp [countOut]
@[simp] theorem acceptEdge_lasting (c : Int) (s : State) : lasting (acceptEdge c s) = lasting s := by simp [acceptEdge]
@[simp] theorem alignPhase_lasting (e : Int) (s : State) : lasting (alignPhase e s) = lasting s := by simp [alignPhase]
@[simp] theorem edgeTick_lasting (c : Int) (s : State) : lasting (edgeTick c s) = lasting s := by simp [edgeTick]
@[simp] theorem acquire_lasting (c : Int) (s : State) : lasting (acquire c s) = lasting s := by simp [acquire]

@[simp] theorem execPpsEdge_lasting (rising : Bool) (stable : Nat) (s : State) :
    lastingOf (execPpsEdge rising stable s) = some (lasting s) := by
  unfold execPpsEdge
  dsimp only
  repeat' split
  all_goals simp

@[simp] theorem execPpsWindowClose_lasting (s : State) : lastingOf (execPpsWindowClose s) = some (lasting s) := by
  simp [execPpsWindowClose]

@[simp] theorem execSecondTick_lasting (s : State) : lastingOf (execSecondTick s) = some (lasting s) := by simp [execSecondTick]

@[simp] theorem execHalfRateEnd_lasting (s : State) : lastingOf (execHalfRateEnd s) = some (lasting s) := by
  simp [execHalfRateEnd]

@[simp] theorem execOscCompensation_lasting (temp : Int) (s : State) :
    lastingOf (execOscCompensation temp s) = some (lasting s) := by
  simp [execOscCompensation]

@[simp] theorem execOscTableWrite_lasting (s : State) : lastingOf (execOscTableWrite s) = some (lasting s) := by
  simp [execOscTableWrite]

@[simp] theorem execSysclkReturn_lasting (s : State) : lastingOf (execSysclkReturn s) = some (lasting s) := by
  simp [execSysclkReturn]

@[simp] theorem execPllLockDone_lasting (dom : Nat) (s : State) : lastingOf (execPllLockDone dom s) = some (lasting s) := by
  simp [execPllLockDone, lasting_foldl]

@[simp] theorem execGetTimeBaseState_lasting (cci : Fin 10) (inp : List Byte) (s : State) :
    lastingOf (execGetTimeBaseState cci inp s) = some (lasting s) := by
  refine vendor_lasting fun s => ?_
  simp

@[simp] theorem execSetTimeBasePolicy_lasting (cci : Fin 10) (inp : List Byte) (s : State) :
    lastingOf (execSetTimeBasePolicy cci inp s) = some (lasting s) := by
  refine vendor_lasting fun s => ?_
  simp

@[simp] theorem execSetTimeAlarm_lasting (cci : Fin 10) (inp : List Byte) (s : State) :
    lastingOf (execSetTimeAlarm cci inp s) = some (lasting s) := by
  refine vendor_lasting fun s => ?_
  simp

@[simp] theorem execTimeAlarmFire_lasting (s : State) : lastingOf (execTimeAlarmFire s) = some (lasting s) := by
  simp [execTimeAlarmFire]

@[simp] theorem execGetTimestamp_lasting (cci : Fin 10) (s : State) : lastingOf (execGetTimestamp cci s) = some (lasting s) := by
  refine standard_lasting fun s => ?_
  simp

@[simp] theorem execSetTimestamp_lasting (cci : Fin 10) (time : Nat) (s : State) :
    lastingOf (execSetTimestamp cci time s) = some (lasting s) := by
  refine standard_lasting fun s => ?_
  simp

@[simp] theorem execSnapshotCopyDone_lasting (s : State) : lastingOf (execSnapshotCopyDone s) = some (lasting s) := by
  simp [execSnapshotCopyDone]

/-! ### Machine/Settings.lean -/

@[simp] theorem loadSetting_lasting (key : Nat) (b : List Byte) (s : State) : lasting (loadSetting key b s) = lasting s := by
  unfold loadSetting
  split <;> simp

@[simp] theorem applySetting_lasting (region key : Nat) (b : List Byte) (s : State) :
    lasting (applySetting region key b s) = lasting s := by
  simp [applySetting]

@[simp] theorem commitRecord_lasting (w : CWrite) (s : State) : lasting (commitRecord w s).2 = lasting s := by
  unfold commitRecord
  repeat' split
  all_goals simp

@[simp] theorem execCellarWriteComplete_lasting (s : State) : lastingOf (execCellarWriteComplete s) = some (lasting s) := by
  unfold execCellarWriteComplete
  dsimp only
  repeat' split
  all_goals simp

/-! ### Machine/Tenants.lean -/

@[simp] theorem execGetExtentEntry_lasting (cci : Fin 10) (inp : List Byte) (s : State) :
    lastingOf (execGetExtentEntry cci inp s) = some (lasting s) := by
  refine vendor_lasting fun s => ?_
  simp

@[simp] theorem recordAssign_lasting (e : Nat) (x : ExtentEnt) (s : State) : lasting (recordAssign e x s) = lasting s := by
  simp [recordAssign]

@[simp] theorem execAssignExtent_lasting (cci : Fin 10) (inp : List Byte) (s : State) :
    lastingOf (execAssignExtent cci inp s) = some (lasting s) := by
  refine vendor_lasting fun s => ?_
  simp

@[simp] theorem execUnassignExtent_lasting (cci : Fin 10) (inp : List Byte) (s : State) :
    lastingOf (execUnassignExtent cci inp s) = some (lasting s) := by
  refine vendor_lasting fun s => ?_
  simp

@[simp] theorem trimExtent_lasting (e tenant : Nat) (s : State) : lasting (trimExtent e tenant s) = lasting s := by
  simp [trimExtent]

@[simp] theorem execReleaseTrimDone_lasting (extent : Fin 241664) (s : State) :
    lastingOf (execReleaseTrimDone extent s) = some (lasting s) := by
  simp [execReleaseTrimDone]

@[simp] theorem execCreateTenant_lasting (cci : Fin 10) (inp : List Byte) (s : State) :
    lastingOf (execCreateTenant cci inp s) = some (lasting s) := by
  refine vendor_lasting fun s => ?_
  simp

@[simp] theorem execDeleteTenant_lasting (cci : Fin 10) (inp : List Byte) (s : State) :
    lastingOf (execDeleteTenant cci inp s) = some (lasting s) := by
  refine vendor_lasting fun s => ?_
  dsimp only
  split
  · rfl
  · refine journaled_lasting ?_
    rw [lastingReply_done, commit_lasting, journalTenant_lasting, setTenant_lasting]
    split <;> simp

@[simp] theorem execSetTenantProfile_lasting (cci : Fin 10) (inp : List Byte) (s : State) :
    lastingOf (execSetTenantProfile cci inp s) = some (lasting s) := by
  refine vendor_lasting fun s => ?_
  simp

@[simp] theorem execGetTenant_lasting (cci : Fin 10) (inp : List Byte) (s : State) :
    lastingOf (execGetTenant cci inp s) = some (lasting s) := by
  refine vendor_lasting fun s => ?_
  simp

@[simp] theorem execGetKeyWrappingPublicKey_lasting (cci : Fin 10) (inp : List Byte) (s : State) :
    lastingOf (execGetKeyWrappingPublicKey cci inp s) = some (lasting s) := by
  refine vendor_lasting fun s => ?_
  simp

@[simp] theorem loadFail_lasting (t step : Nat) (s : State) : lasting (loadFail t step s) = lasting s := by simp [loadFail]

@[simp] theorem acceptKey_lasting (t pair : Nat) (s : State) : lasting (acceptKey t pair s) = lasting s := by
  unfold acceptKey
  dsimp only
  split <;> simp

@[simp] theorem execLoadTenantKey_lasting (cci : Fin 10) (inp : List Byte) (s : State) :
    lastingOf (execLoadTenantKey cci inp s) = some (lasting s) := by
  refine vendor_lasting fun s => ?_
  dsimp only
  repeat' split
  all_goals simp

@[simp] theorem execUnloadTenantKey_lasting (cci : Fin 10) (inp : List Byte) (s : State) :
    lastingOf (execUnloadTenantKey cci inp s) = some (lasting s) := by
  refine vendor_lasting fun s => ?_
  simp [lasting_foldl]

@[simp] theorem eraseSweep_lasting (t : Nat) (s : State) : lasting (eraseSweep t s) = lasting s := by
  simp [eraseSweep, lasting_foldl]

@[simp] theorem execCryptoEraseTenant_lasting (cci : Fin 10) (inp : List Byte) (s : State) :
    lastingOf (execCryptoEraseTenant cci inp s) = some (lasting s) := by
  refine vendorBg_lasting fun s => ?_
  dsimp only
  repeat' split
  · rfl
  · rfl
  · rfl
  · refine journaled_lasting ?_
    simp
  · refine journaled_lasting ?_
    simp

@[simp] theorem execCryptoEraseSweepDone_lasting (tenant : Fin 65536) (s : State) :
    lastingOf (execCryptoEraseSweepDone tenant s) = some (lasting s) := by
  unfold execCryptoEraseSweepDone
  dsimp only
  repeat' split
  all_goals simp

@[simp] theorem execSetHeadAccess_lasting (cci : Fin 10) (inp : List Byte) (s : State) :
    lastingOf (execSetHeadAccess cci inp s) = some (lasting s) := by
  refine vendor_lasting fun s => ?_
  simp

@[simp] theorem execGetHeadAccess_lasting (cci : Fin 10) (inp : List Byte) (s : State) :
    lastingOf (execGetHeadAccess cci inp s) = some (lasting s) := by
  refine vendor_lasting fun s => ?_
  simp

@[simp] theorem execSetClassProfile_lasting (cci : Fin 10) (inp : List Byte) (s : State) :
    lastingOf (execSetClassProfile cci inp s) = some (lasting s) := by
  refine vendor_lasting fun s => ?_
  simp

@[simp] theorem execGetClassProfile_lasting (cci : Fin 10) (inp : List Byte) (s : State) :
    lastingOf (execGetClassProfile cci inp s) = some (lasting s) := by
  refine vendor_lasting fun s => ?_
  simp

@[simp] theorem execGetFlowQueueState_lasting (cci : Fin 10) (inp : List Byte) (s : State) :
    lastingOf (execGetFlowQueueState cci inp s) = some (lasting s) := by
  refine vendor_lasting fun s => ?_
  dsimp only
  split
  · rfl
  · simp [answer]

@[simp] theorem execGetAdmissionTotals_lasting (cci : Fin 10) (inp : List Byte) (s : State) :
    lastingOf (execGetAdmissionTotals cci inp s) = some (lasting s) := by
  refine vendor_lasting fun s => ?_
  simp

@[simp] theorem execBankCopyDone_lasting (s : State) : lastingOf (execBankCopyDone s) = some (lasting s) := by
  simp [execBankCopyDone]

/-! ### Machine/Hub.lean -/

@[simp] theorem hubApply_lasting (r : HubReq) (s : State) : lasting (hubApply r s).1 = lasting s := by
  unfold hubApply
  repeat' split
  all_goals simp

@[simp] theorem hubDeliver_lasting (n : Nat) (s : State) : lasting (hubDeliver n s) = lasting s := by
  induction n generalizing s with
  | zero => rfl
  | succ n ih =>
    unfold hubDeliver
    split <;> simp [ih]

@[simp] theorem hubComplete_lasting (n : Nat) (s : State) : lasting (hubComplete n s) = lasting s := by
  unfold hubComplete
  dsimp only
  split
  · rfl
  · split <;> simp

@[simp] theorem execHubRequestDeliver_lasting (post : List HubReq) (s : State) :
    lastingOf (execHubRequestDeliver post s) = some (lasting s) := by
  simp [execHubRequestDeliver, lasting_foldl]

/-! ### Machine/Standard.lean -/

@[simp] theorem execIdentify_lasting (cci : Fin 10) (s : State) : lastingOf (execIdentify cci s) = some (lasting s) := by
  refine standard_lasting fun s => ?_
  simp

@[simp] theorem execBackgroundOperationStatus_lasting (cci : Fin 10) (s : State) :
    lastingOf (execBackgroundOperationStatus cci s) = some (lasting s) := by
  refine standard_lasting fun s => ?_
  repeat' split
  all_goals simp

@[simp] theorem execGetResponseMessageLimit_lasting (cci : Fin 10) (s : State) :
    lastingOf (execGetResponseMessageLimit cci s) = some (lasting s) := by
  refine standard_lasting fun s => ?_
  simp

@[simp] theorem execSetResponseMessageLimit_lasting (cci : Fin 10) (exponent : Nat) (s : State) :
    lastingOf (execSetResponseMessageLimit cci exponent s) = some (lasting s) := by
  refine standard_lasting fun s => ?_
  simp

@[simp] theorem execRequestAbortBackgroundOperation_lasting (cci : Fin 10) (s : State) :
    lastingOf (execRequestAbortBackgroundOperation cci s) = some (lasting s) := by
  refine standard_lasting fun s => ?_
  split
  · rfl
  · split
    · rfl
    · split
      · next t ht => exact abortOp_lasting ht
      · rfl

@[simp] theorem setCciLogs_lasting (c : Nat) (l : LogSet) (s : State) : lasting (setCciLogs c l s) = lasting s := by
  unfold setCciLogs
  split <;> simp

@[simp] theorem execGetEventRecords_lasting (cci : Fin 10) (log : Fin 5) (s : State) :
    lastingOf (execGetEventRecords cci log s) = some (lasting s) := by
  refine standard_lasting fun s => ?_
  simp

@[simp] theorem execClearEventRecords_lasting (cci : Fin 10) (log : Fin 5) (all : Bool) (handles : List Nat) (s : State) :
    lastingOf (execClearEventRecords cci log all handles s) = some (lasting s) := by
  refine standard_lasting fun s => ?_
  simp

@[simp] theorem execGetEventInterruptPolicy_lasting (cci : Fin 10) (s : State) :
    lastingOf (execGetEventInterruptPolicy cci s) = some (lasting s) := by
  refine standard_lasting fun s => ?_
  split <;> simp

@[simp] theorem execSetEventInterruptPolicy_lasting (cci : Fin 10) (settings : List Nat) (s : State) :
    lastingOf (execSetEventInterruptPolicy cci settings s) = some (lasting s) := by
  refine standard_lasting fun s => ?_
  repeat' split
  all_goals simp

@[simp] theorem execGetSupportedLogs_lasting (cci : Fin 10) (s : State) :
    lastingOf (execGetSupportedLogs cci s) = some (lasting s) := by
  refine standard_lasting fun s => ?_
  simp

@[simp] theorem execGetLog_lasting (cci : Fin 10) (log first count : Nat) (s : State) :
    lastingOf (execGetLog cci log first count s) = some (lasting s) := by
  refine standard_lasting fun s => ?_
  simp

@[simp] theorem execIdentifyMemoryDevice_lasting (cci : Fin 10) (s : State) :
    lastingOf (execIdentifyMemoryDevice cci s) = some (lasting s) := by
  refine standard_lasting fun s => ?_
  simp

@[simp] theorem execGetHealthInfo_lasting (cci : Fin 10) (s : State) :
    lastingOf (execGetHealthInfo cci s) = some (lasting s) := by
  refine standard_lasting fun s => ?_
  simp

@[simp] theorem execGetAlertConfiguration_lasting (cci : Fin 10) (s : State) :
    lastingOf (execGetAlertConfiguration cci s) = some (lasting s) := by
  refine standard_lasting fun s => ?_
  simp

@[simp] theorem execSetAlertConfiguration_lasting (cci : Fin 10) (life high low : AlertSet) (s : State) :
    lastingOf (execSetAlertConfiguration cci life high low s) = some (lasting s) := by
  refine standard_lasting fun s => ?_
  simp

@[simp] theorem execGetShutdownState_lasting (cci : Fin 10) (s : State) :
    lastingOf (execGetShutdownState cci s) = some (lasting s) := by
  refine standard_lasting fun s => ?_
  simp

@[simp] theorem execSetShutdownState_lasting (cci : Fin 10) (dirty : Bool) (s : State) :
    lastingOf (execSetShutdownState cci dirty s) = some (lasting s) := by
  refine standard_lasting fun s => ?_
  simp

@[simp] theorem execGetPoisonList_lasting (cci : Fin 10) (dpa len : Nat) (s : State) :
    lastingOf (execGetPoisonList cci dpa len s) = some (lasting s) := by
  refine standard_lasting fun s => ?_
  simp

@[simp] theorem poisonLineFor_lasting (dpa : Nat) (s : State) : lasting (poisonLineFor dpa s).2 = lasting s := by
  unfold poisonLineFor
  split <;> simp

@[simp] theorem poisonDirty_lasting (lfa : Nat) (s : State) : lasting (poisonDirty lfa s) = lasting s := by simp [poisonDirty]

@[simp] theorem refreshLine_lasting (key : Nat) (data : FrontLine) (s : State) :
    lasting (refreshLine key data s) = lasting s := by
  unfold refreshLine
  split <;> simp

@[simp] theorem injectOne_lasting (s : State) (dpa : Nat) : lasting (injectOne s dpa) = lasting s := by
  unfold injectOne
  dsimp only
  repeat' split
  all_goals simp

@[simp] theorem execInjectPoison_lasting (cci : Fin 10) (dpas : List Nat) (s : State) :
    lastingOf (execInjectPoison cci dpas s) = some (lasting s) := by
  refine standard_lasting fun s => ?_
  repeat' split
  · rfl
  · rfl
  · rfl
  · exact journaled_lasting (lasting_foldl _ _ injectOne_lasting s)

@[simp] theorem execClearPoison_lasting (cci : Fin 10) (dpa : Nat) (data : HostLine) (s : State) :
    lastingOf (execClearPoison cci dpa data s) = some (lasting s) := by
  refine standard_lasting fun s => ?_
  dsimp only
  repeat' split
  all_goals simp

@[simp] theorem unassignOne_lasting (s : State) (e : Nat) : lasting (unassignOne s e) = lasting s := by simp [unassignOne]

@[simp] theorem sanitizeTenant_lasting (s : State) (t : Nat) : lasting (sanitizeTenant s t) = lasting s := by
  unfold sanitizeTenant
  dsimp only
  repeat' split
  all_goals simp

@[simp] theorem execSanitize_lasting (cci : Fin 10) (s : State) : lastingOf (execSanitize cci s) = some (lasting s) := by
  refine mailbox_lasting fun s => ?_
  dsimp only
  repeat' split
  · rfl
  · rfl
  · refine journaled_lasting ?_
    simp [lasting_foldl]

theorem onHead_lasting {c : Nat} {f : Nat → Reply} {s : State} (h : ∀ n, lastingReply s (f n) = lasting s) :
    lastingReply s (onHead c f) = lasting s := by
  unfold onHead
  split
  · exact h _
  · rfl

@[simp] theorem execGetDynamicCapacityConfiguration_lasting (cci : Fin 10) (s : State) :
    lastingOf (execGetDynamicCapacityConfiguration cci s) = some (lasting s) :=
  standard_lasting fun _ => onHead_lasting fun _ => rfl

@[simp] theorem execGetDynamicCapacityExtentList_lasting (cci : Fin 10) (start count : Nat) (s : State) :
    lastingOf (execGetDynamicCapacityExtentList cci start count s) = some (lasting s) :=
  standard_lasting fun _ => onHead_lasting fun _ => rfl

@[simp] theorem execAddDynamicCapacityResponse_lasting (cci : Fin 10) (extent : Nat) (accept : Bool) (s : State) :
    lastingOf (execAddDynamicCapacityResponse cci extent accept s) = some (lasting s) :=
  standard_lasting fun _ => onHead_lasting fun _ => by simp

@[simp] theorem execReleaseDynamicCapacity_lasting (cci : Fin 10) (extent : Nat) (s : State) :
    lastingOf (execReleaseDynamicCapacity cci extent s) = some (lasting s) :=
  standard_lasting fun _ => onHead_lasting fun _ => by simp

@[simp] theorem execGetMultiHeadedInfo_lasting (cci : Fin 10) (s : State) :
    lastingOf (execGetMultiHeadedInfo cci s) = some (lasting s) := by
  refine standard_lasting fun s => ?_
  simp

@[simp] theorem execGetDcdInfo_lasting (cci : Fin 10) (s : State) : lastingOf (execGetDcdInfo cci s) = some (lasting s) := by
  refine standard_lasting fun s => ?_
  simp

@[simp] theorem execGetHostDcRegionConfiguration_lasting (cci : Fin 10) (head : Nat) (s : State) :
    lastingOf (execGetHostDcRegionConfiguration cci head s) = some (lasting s) := by
  refine standard_lasting fun s => ?_
  simp

@[simp] theorem execSetDcRegionConfiguration_lasting (cci : Fin 10) (head region base len : Nat) (s : State) :
    lastingOf (execSetDcRegionConfiguration cci head region base len s) = some (lasting s) := by
  refine standard_lasting fun s => ?_
  simp

@[simp] theorem execGetDcRegionExtentLists_lasting (cci : Fin 10) (head start count : Nat) (s : State) :
    lastingOf (execGetDcRegionExtentLists cci head start count s) = some (lasting s) := by
  refine standard_lasting fun s => ?_
  simp

@[simp] theorem execInitiateDynamicCapacityAdd_lasting (cci : Fin 10) (head extent : Nat) (s : State) :
    lastingOf (execInitiateDynamicCapacityAdd cci head extent s) = some (lasting s) := by
  refine standard_lasting fun s => ?_
  simp

@[simp] theorem execInitiateDynamicCapacityRelease_lasting (cci : Fin 10) (head extent : Nat) (s : State) :
    lastingOf (execInitiateDynamicCapacityRelease cci head extent s) = some (lasting s) := by
  refine standard_lasting fun s => ?_
  dsimp only
  repeat' split
  all_goals simp

@[simp] theorem execUnsupportedCommand_lasting (cci : Fin 10) (op : Nat) (s : State) :
    lastingOf (execUnsupportedCommand cci op s) = some (lasting s) := by
  unfold execUnsupportedCommand
  split
  · rfl
  · exact standard_lasting fun _ => rfl

/-! ### Machine/Startup.lean -/

theorem withRec_lasting (key : Nat) {f : List Byte → State → State} (s : State) (h : ∀ b s, lasting (f b s) = lasting s) :
    lasting (withRec key f s) = lasting s := by
  unfold withRec
  split
  · exact h _ s
  · rfl

@[simp] theorem loadPolicies_lasting (s : State) : lasting (loadPolicies s) = lasting s :=
  lasting_foldl _ _ (fun s k => withRec_lasting k s fun b s => loadSetting_lasting k b s) s

@[simp] theorem keepDrain_lasting (r : RunRec) (s : State) : lasting (keepDrain r s) = lasting s := by simp [keepDrain]

@[simp] theorem shutdownClass_lasting (s : State) : lasting (shutdownClass s) = lasting s := by
  unfold shutdownClass
  split <;> simp

@[simp] theorem execShutdownClassDecide_lasting (s : State) : lastingOf (execShutdownClassDecide s) = some (lasting s) := by
  simp [execShutdownClassDecide]

@[simp] theorem execHoldupBankCharged_lasting (s : State) : lastingOf (execHoldupBankCharged s) = some (lasting s) := by
  simp [execHoldupBankCharged]

@[simp] theorem startEpochCheck_lasting (s : State) : lasting (startEpochCheck s) = lasting s := by simp [startEpochCheck]
@[simp] theorem frontPhase_lasting (s : State) : lasting (frontPhase s) = lasting s := by simp [frontPhase]

@[simp] theorem execStartFrontEnable_lasting (s : State) : lastingOf (execStartFrontEnable s) = some (lasting s) := by
  simp [execStartFrontEnable]

@[simp] theorem execFrontEnableTimeout_lasting (s : State) : lastingOf (execFrontEnableTimeout s) = some (lasting s) := by
  unfold execFrontEnableTimeout
  split <;> simp

/-! ### Machine/Step.lean -/

@[simp] theorem tick_lasting (s : State) : lasting (tick s) = lasting s := by simp [tick]

/-! ### Every command, and the step -/

/-- From `s` to `t` the queue and the fuses stay, and a revoked key stays revoked (R7, R514, R520). -/
structure KeepsFuses (s t : State) : Prop where
  pending_eq : t.pending = s.pending
  fuses_eq : fuses t = fuses s
  revoked_kept : t.mgmt.revoked &&& s.mgmt.revoked = s.mgmt.revoked

namespace KeepsFuses

theorem of_lasting {s t : State} (h : lasting t = lasting s) : KeepsFuses s t := by
  obtain ⟨hpending, hfuses, hrevoked⟩ : t.pending = s.pending ∧ fuses t = fuses s ∧ t.mgmt.revoked = s.mgmt.revoked := by
    simpa only [lasting, lastingRec, fuses, Prod.mk.injEq] using h
  exact ⟨hpending, hfuses, by rw [hrevoked, BitVec.and_self]⟩

theorem trans {s t u : State} (hst : KeepsFuses s t) (htu : KeepsFuses t u) : KeepsFuses s u where
  pending_eq := htu.pending_eq.trans hst.pending_eq
  fuses_eq := htu.fuses_eq.trans hst.fuses_eq
  revoked_kept := by
    rw [← hst.revoked_kept, ← BitVec.and_assoc, htu.revoked_kept]

/-- The fuses and revoked keys that a state has, one that keeps them has too. -/
theorem fusesHold {s t : State} (h : KeepsFuses s t) {f : Bool × Nat × Nat × Bool} {k : BitVec 4} (hs : FusesHold f k s) :
    FusesHold f k t := by
  obtain ⟨hf, hk⟩ := hs
  refine ⟨h.fuses_eq.trans hf, ?_⟩
  rw [← hk, ← BitVec.and_assoc, h.revoked_kept]

end KeepsFuses

/-- Blowing the fuse of one more key only adds it to the revoked ones (R514). -/
theorem keepsFuses_revoke (s : State) (b : BitVec 4) :
    KeepsFuses s { s with mgmt := { s.mgmt with revoked := s.mgmt.revoked ||| b } } where
  pending_eq := rfl
  fuses_eq := rfl
  revoked_kept := by
    show (s.mgmt.revoked ||| b) &&& s.mgmt.revoked = s.mgmt.revoked
    ext i
    simp only [BitVec.getElem_and, BitVec.getElem_or]
    cases s.mgmt.revoked[i] <;> simp

theorem foldl_keepsFuses {α : Type} (l : List α) (f : State → α → State) (hf : ∀ s a, KeepsFuses s (f s a)) (s : State) :
    KeepsFuses s (l.foldl f s) := by
  induction l generalizing s with
  | nil => exact .of_lasting rfl
  | cons a l ih => exact (hf s a).trans (ih _)

theorem blowFuses_keepsFuses (x : List Byte) (s : State) : KeepsFuses s (blowFuses x s) := by
  refine foldl_keepsFuses _ _ (fun s k => ?_) s
  split
  · exact (keepsFuses_revoke s _).trans (.of_lasting (raise_lasting ..))
  · exact .of_lasting rfl

/-- BOOT_GOOD is the one command that changes a part of what lasts: it blows fuses, after updates that keep it (R514). -/
theorem execBootGood_keepsFuses (s : State) : ∃ t, execBootGood s = .next t ∧ KeepsFuses s t := by
  unfold execBootGood
  split
  · split
    · exact ⟨s, rfl, .of_lasting rfl⟩
    · refine ⟨_, rfl, .trans (.of_lasting ?_) (blowFuses_keepsFuses _ _)⟩
      simp
  · exact ⟨s, rfl, .of_lasting rfl⟩

/-- Every command but BOOT_GOOD answers a next state, with the queue, the fuses and the revoked keys as they were. -/
theorem exec_lasting {c : Instr} (hc : c ≠ .bootGood) (s : State) : lastingOf (exec c s) = some (lasting s) := by
  cases c
  case bootGood => exact absurd rfl hc
  all_goals simp [exec]

theorem next_of_lastingOf {r : Res} {s : State} (h : lastingOf r = some (lasting s)) : ∃ t, r = .next t ∧ KeepsFuses s t := by
  cases r with
  | next t => exact ⟨t, rfl, .of_lasting (Option.some.inj h)⟩
  | fault _ => cases h
  | refused _ => cases h

theorem exec_keepsFuses (c : Instr) (s : State) : ∃ t, exec c s = .next t ∧ KeepsFuses s t := by
  by_cases hc : c = .bootGood
  · subst hc
    exact execBootGood_keepsFuses s
  · exact next_of_lastingOf (exec_lasting hc s)

/-- Settles O42: a step is a tick, which keeps all that lasts, or a command, which at most adds to the revoked keys
(R7, R514, R520). -/
theorem stepNeverRestoresAFuse : Obligations.StepNeverRestoresAFuse := by
  intro f k s t hs hstep
  unfold step at hstep
  split at hstep
  · cases hstep
    exact (KeepsFuses.of_lasting (tick_lasting s)).fusesHold hs
  · next c rest _ =>
    obtain ⟨u, hu, hkeeps⟩ := exec_keepsFuses c { s with pending := rest }
    rw [hu] at hstep
    cases hstep
    exact hkeeps.fusesHold hs

/-- Settles O41: every command's meaning answers a next state, in every state. -/
theorem everyCommandAnswersAState : Obligations.EveryCommandAnswersAState := fun c s =>
  (exec_keepsFuses c s).imp fun _ h => h.1

/-- Settles O60: no command's meaning writes the queue (log entry 10). -/
theorem commandsLeaveTheQueueAlone : Obligations.CommandsLeaveTheQueueAlone := by
  intro c s t h
  obtain ⟨u, hu, hkeeps⟩ := exec_keepsFuses c s
  rw [hu] at h
  cases h
  exact hkeeps.pending_eq

/-- Settles O39: by the definition of a step. -/
theorem stepRunsTheFrontCommand : Obligations.StepRunsTheFrontCommand := by
  intro c rest s h
  unfold step
  rw [h]

/-- Settles O43: by the reset state. -/
theorem fusesHoldAtReset : Obligations.FusesHoldAtReset := ⟨⟨rfl, rfl⟩, rfl⟩
end Sys2Proof.Machine

/-!
Rules of the gate and of single units: the refusals of the mailbox, numbers in payloads, the fuses of boot-good, the record logs and
spread counters of the cellar book, the byte masks of a line, and the segments of a die.
-/
namespace Sys2Proof.Machine
open Sys2Proof.Safety

/-! ### The gate, refusal by refusal (R516, R522, R524, R582) -/

/-- A mailbox that does not carry an MCTP command, or a secondary mailbox for a command of the primary one (R522, Table 17-4). -/
def barred (c op : Nat) : Bool := (mctpOnly op && decide (c < 8)) || (primaryOnly op && decide (c < 8) && decide (c % 2 = 1))

/-- A mailbox that does not carry the command, or a secondary one that may not, refuses it (R522, Table 17-4). -/
theorem gate_of_barred {s : State} {c op : Nat} (hop : listedOps.contains op = true) (hbar : barred c op = true) :
    gate s c op = some .unsupportedMailbox := by
  unfold barred at hbar
  unfold gate
  rw [hop, hbar]
  rfl

/-- Recovery mode refuses what is not in its list, of an interface that carries the command (R516). -/
theorem gate_of_recovery {s : State} {c op : Nat} (hop : listedOps.contains op = true)
    (hcarry : barred c op = false) (hrec : s.mgmt.recovery = true) (hout : recoveryOps.contains op = false) : gate s c op = some .mediaDisabled := by
  unfold barred at hcarry
  unfold gate
  rw [hop, hcarry, hrec, hout]
  rfl

/-- What the access level of an interface does not allow is refused, whether or not the interface carries it (R524). -/
theorem gate_of_level {s : State} {c op : Nat} (hop : listedOps.contains op = true) (hrec : s.mgmt.recovery = false)
    (hlevel : levelAllows (accessOf s c) op = false) : gate s c op = some .unsupportedMailbox := by
  unfold gate
  rw [hop, hrec, hlevel]
  simp

/-- A held start refuses data-path commands (R582). -/
theorem gate_of_held {s : State} {c op : Nat} (hop : listedOps.contains op = true) (hc : 8 ≤ c) (hrec : s.mgmt.recovery = false)
    (hheld : s.start.held = true) (hpath : dataPathOp op = true) : gate s c op = some .mediaDisabled := by
  have hc' : decide (c < 8) = false := decide_eq_false (Nat.not_lt.mpr hc)
  have haccess : accessOf s c = 2 := by simp [accessOf, headOfCci, Nat.not_lt.mpr hc]
  unfold gate
  rw [hop, hrec, hheld, hpath, hc', haccess]
  simp [levelAllows]

theorem accessOf_of_lt {c : Nat} (hc : c < 8) (s : State) : accessOf s c = s.mgmt.access.getD (c / 2) 2 := by
  simp [accessOf, headOfCci, hc]

/-- Settles O47: each refusal is the first test of the gate that fails, in the order of log entry 6, and a refusal only completes the
command (R516, R522, R524, R582). -/
theorem mailboxRefusals : Obligations.MailboxRefusals := by
  refine ⟨fun c op s hc hodd hop => ?secondary, fun c op s hop hrec hout hcarry => ?recovery,
    fun c op s hop hrec hlevel hlo hget => ?vendorLevel, fun c op s hop hrec hlevel hscope htenant => ?headLevel,
    fun c op s hop hc hrec hheld hpath => gate_of_held hop hc hrec hheld hpath,
    fun c op bg l r body s rc hopen hgate => mailbox_of_gate_some hopen hgate bg l r body⟩
  case secondary =>
    have hlisted : listedOps.contains op = true := by rcases hop with rfl | rfl | rfl <;> decide
    refine gate_of_barred hlisted ?_
    simp [barred, primaryOnly, hc, hodd, hop, or_assoc]
  case recovery =>
    refine gate_of_recovery hop ?_ hrec hout
    rcases hcarry with hc | ⟨hmctp, heven⟩
    · simp [barred, Nat.not_lt.mpr hc]
    · simp [barred, hmctp, heven]
  case vendorLevel =>
    refine gate_of_level hop hrec ?_
    rw [accessOf_of_lt c.isLt, hlevel]
    simpa [levelAllows, hlo] using hget
  case headLevel =>
    refine gate_of_level hop hrec ?_
    rw [accessOf_of_lt c.isLt, hlevel]
    simpa [levelAllows, htenant] using hscope

/-! ### Payload numbers (R19, R526) -/

/-- A number written at the front of a payload is read back from there, modulo what its bytes hold. -/
theorem le_leBytes_append_mod (n v : Nat) (post : List Byte) : le (leBytes n v ++ post) 0 n = v % 256 ^ n := by
  induction n generalizing v with
  | zero => simp [le, Nat.mod_one]
  | succ n ih =>
    calc le (leBytes (n + 1) v ++ post) 0 (n + 1)
        = (BitVec.ofNat 8 v).toNat +
            256 * le ([BitVec.ofNat 8 v] ++ (leBytes n (v / 256) ++ post)) ([BitVec.ofNat 8 v].length + 0) n := rfl
      _ = v % 256 + 256 * (v / 256 % 256 ^ n) := by rw [le_append_right, ih, BitVec.toNat_ofNat]
      _ = v % 256 ^ (n + 1) := by rw [Nat.pow_succ', Nat.mod_mul]

/-- Settles O48: by induction on the number of bytes; what stands before or behind the number is not read (R19, R526). -/
theorem payloadNumbersAreLittleEndian : Obligations.PayloadNumbersAreLittleEndian := by
  have hfront : ∀ n v, le (leBytes n v) 0 n = v % 256 ^ n := fun n v => by simpa using le_leBytes_append_mod n v []
  refine ⟨hfront, le_leBytes_append_mod, fun n v pre => ?_⟩
  simpa [hfront] using le_append_right pre (leBytes n v) 0 n

/-! ### Boot-good (R514) -/

/-- BOOT_GOOD's work on one key: its fuse is blown if REVOKE names it, it is not revoked yet and it is not the image's own. -/
def revokeStep (x : List Byte) (s : State) (k : Nat) : State :=
  if fwRevokes x k && !s.mgmt.revoked.getLsbD k && fwKey x != some k then
    raise 0x001 0xC003 k 0 0 { s with mgmt := { s.mgmt with revoked := s.mgmt.revoked ||| BitVec.ofNat 4 (2 ^ k) } }
  else s

theorem blowFuses_eq_foldl (x : List Byte) (s : State) : blowFuses x s = (List.range 4).foldl (revokeStep x) s := rfl

theorem getLsbD_two_pow {j k : Nat} (hj : j < 4) : (BitVec.ofNat 4 (2 ^ k)).getLsbD j = decide (k = j) := by
  rw [BitVec.getLsbD_ofNat, Nat.testBit_two_pow, decide_eq_true hj, Bool.true_and]

theorem revokeStep_getLsbD (x : List Byte) (s : State) {j : Nat} (k : Nat) (hj : j < 4) :
    (revokeStep x s k).mgmt.revoked.getLsbD j =
      (s.mgmt.revoked.getLsbD j || (decide (k = j) && fwRevokes x j && fwKey x != some j)) := by
  unfold revokeStep
  split
  · next h =>
    rw [raise_mgmt, BitVec.getLsbD_or, getLsbD_two_pow hj]
    by_cases hkj : k = j
    · subst hkj
      simp_all
    · simp [hkj]
  · next h =>
    by_cases hkj : k = j
    · subst hkj
      cases hr : s.mgmt.revoked.getLsbD k <;> simp_all
    · simp [hkj]

theorem foldl_revokeStep_getLsbD (x : List Byte) (ks : List Nat) (s : State) {j : Nat} (hj : j < 4) :
    (ks.foldl (revokeStep x) s).mgmt.revoked.getLsbD j =
      (s.mgmt.revoked.getLsbD j || (decide (j ∈ ks) && fwRevokes x j && fwKey x != some j)) := by
  induction ks generalizing s with
  | nil => simp
  | cons k ks ih =>
    rw [List.foldl_cons, ih, revokeStep_getLsbD x s k hj, Bool.or_assoc]
    congr 1
    by_cases hkj : k = j
    · simp +contextual [hkj]
    · simp [hkj, Ne.symm hkj]

/-- After boot-good's fuses, a key is revoked if it was, or if REVOKE names it and the image is not signed with it. -/
theorem blowFuses_getLsbD (x : List Byte) (s : State) {j : Nat} (hj : j < 4) :
    (blowFuses x s).mgmt.revoked.getLsbD j = (s.mgmt.revoked.getLsbD j || (fwRevokes x j && fwKey x != some j)) := by
  rw [blowFuses_eq_foldl, foldl_revokeStep_getLsbD x _ s hj, decide_eq_true (List.mem_range.mpr hj), Bool.true_and]

/-- Settles O49: the fuses are blown last, on a state that has the revoked keys of before (R514). -/
theorem bootGoodBlowsTheNamedFuses : Obligations.BootGoodBlowsTheNamedFuses := by
  intro t0 n x s hsince hslot himage htime hnodes hrunning
  have hgo : ¬(s.time.mono < t0 + 60000000000 ∨ ([1, 2, 3, 4].all fun k => nodeRuns s k) = false ∨ s.mgmt.running = false) := by
    simp [hnodes, hrunning, htime]
  obtain ⟨u, hexec, hu⟩ : ∃ u, exec .bootGood s = .next (blowFuses x u) ∧ lasting u = lasting s := by
    refine ⟨?u, ?run, ?last⟩
    case run =>
      change execBootGood s = _
      unfold execBootGood
      rw [hsince, hslot, himage]
      dsimp only
      rw [if_neg hgo]
    case last => simp
  have hrevoked : u.mgmt.revoked = s.mgmt.revoked := congrArg (·.2.2) hu
  exact ⟨_, hexec, fun k hk => by rw [blowFuses_getLsbD x u hk, hrevoked]⟩

/-! ### A cellar log (R536, R538) -/

/-- The data of a key's current record. -/
def currentData (rs : List CRec) (j : Nat) : Option (List Byte) := (currentRec rs j).map (·.data)

/-- The newest record of its key is the current one. -/
theorem currentData_append (rs : List CRec) (r : CRec) (j : Nat) :
    currentData (rs ++ [r]) j = if r.key = j then some r.data else currentData rs j := by
  by_cases hj : r.key = j <;> simp [currentData, currentRec, hj]

/-- The oldest record counts only where its key has no newer one. -/
theorem currentRec_cons (r : CRec) (rs : List CRec) (j : Nat) :
    currentRec (r :: rs) j = (currentRec rs j).or (if r.key = j then some r else none) := by
  by_cases hj : r.key = j <;> simp [currentRec, List.find?_append, hj]

/-- Dropping a record that is not the current one of its key changes no key's data. -/
theorem currentData_tail_of_not_current {r : CRec} {rs : List CRec} (h : isCurrent (r :: rs) r = false) (j : Nat) :
    currentData rs j = currentData (r :: rs) j := by
  rw [currentData, currentData, currentRec_cons]
  by_cases hj : r.key = j
  · subst hj
    cases hc : currentRec rs r.key with
    | none => simp [isCurrent, currentRec_cons, hc] at h
    | some c => rfl
  · simp [hj]

/-- Writing the current record of a key again and dropping it changes no key's data. -/
theorem currentData_rewrite_of_current {r : CRec} {rs : List CRec} (h : isCurrent (r :: rs) r = true) (n j : Nat) :
    currentData (rs ++ [{ key := r.key, seq := n, data := r.data }]) j = currentData (r :: rs) j := by
  rw [currentData_append]
  by_cases hj : r.key = j
  · subst hj
    have hr : currentRec (r :: rs) r.key = some r := by simpa [isCurrent] using h
    simp [currentData, hr]
  · simp [hj, currentData, currentRec_cons]

theorem currentData_reclaimOne (l : RecLog) (j : Nat) : currentData (reclaimOne l).recs j = currentData l.recs j := by
  unfold reclaimOne
  cases hl : l.recs with
  | nil => simp [hl]
  | cons r rs =>
    dsimp only
    split
    · next h => simpa [dropTail, appendRec, hl] using currentData_rewrite_of_current h l.seq j
    · next h => simpa [dropTail, hl] using currentData_tail_of_not_current (Bool.eq_false_iff.mpr h) j

/-- The reclaim changes no key's data (R538). -/
theorem currentData_reclaim (need n : Nat) (l : RecLog) (j : Nat) : currentData (reclaim need n l).recs j = currentData l.recs j := by
  induction n generalizing l with
  | zero => rfl
  | succ n ih =>
    unfold reclaim
    split
    · rfl
    · rw [ih, currentData_reclaimOne]

/-- Settles O53: the record is appended behind what the reclaim leaves, and neither changes another key (R536, R538). -/
theorem cellarLogReadsAfterWrite : Obligations.CellarLogReadsAfterWrite := by
  intro l k d l' h
  have hdata : ∀ j, currentData l'.recs j = if k = j then some d else currentData l.recs j := by
    intro j
    unfold logWrite at h
    split at h
    · cases h
    · cases h
      rw [appendRec, currentData_append, currentData_reclaim]
  exact ⟨(hdata k).trans (if_pos rfl), fun j hj => (hdata j).trans (if_neg (Ne.symm hj))⟩

/-! ### Spread counters (R545) -/

/-- The sum of the increments of a generation. -/
def genSum (gen : Nat) (cs : List (Nat × Nat)) : Nat := ((cs.filter fun c => c.1 == gen).map (·.2)).sum

theorem genSum_cons (gen : Nat) (c : Nat × Nat) (cs : List (Nat × Nat)) :
    genSum gen (c :: cs) = (if c.1 = gen then c.2 else 0) + genSum gen cs := by
  by_cases hc : c.1 = gen <;> simp [genSum, hc]

/-- A cell that is not current counts nothing, so an increment put in the first of these adds itself. -/
theorem genSum_putCell (gen inc : Nat) (cs : List (Nat × Nat)) (hfree : ∃ c ∈ cs, ¬(c.1 = gen ∧ c.2 ≠ 0)) :
    genSum gen (putCell gen inc cs) = genSum gen cs + inc := by
  induction cs with
  | nil => simp at hfree
  | cons c cs ih =>
    unfold putCell
    split
    · next hc =>
      have hc' : c.1 = gen ∧ c.2 ≠ 0 := by simpa using hc
      have hrest : ∃ c ∈ cs, ¬(c.1 = gen ∧ c.2 ≠ 0) := by
        obtain ⟨x, hx, hxfree⟩ := hfree
        rcases List.mem_cons.mp hx with rfl | hx
        · exact absurd hc' hxfree
        · exact ⟨x, hx, hxfree⟩
      rw [genSum_cons, genSum_cons, ih hrest]
      omega
    · next hc =>
      have hc' : c.1 = gen → c.2 = 0 := by simpa using hc
      rw [genSum_cons, genSum_cons]
      by_cases hg : c.1 = gen
      · simp [hg, hc' hg, Nat.add_comm]
      · simp [hg, Nat.add_comm]

theorem spreadValue_eq (p : Spread) : spreadValue p = (spreadBase p).1 + genSum ((spreadBase p).2 % 256) p.cells := rfl

theorem spreadValue_putCell (p : Spread) {inc : Nat} (hfree : (p.cells.all fun c => cellCurrent p c) = false) :
    spreadValue { p with cells := putCell ((spreadBase p).2 % 256) inc p.cells } = spreadValue p + inc := by
  have hfree' : ∃ c ∈ p.cells, ¬(c.1 = (spreadBase p).2 % 256 ∧ c.2 ≠ 0) := by
    simpa [cellCurrent] using hfree
  rw [spreadValue_eq, spreadValue_eq, Nat.add_assoc, ← genSum_putCell _ _ _ hfree']
  rfl

/-- The base in force has the higher generation. -/
theorem spreadBase_gen_ge (p : Spread) :
    (∀ a, p.base0 = some a → a.2 ≤ (spreadBase p).2) ∧ (∀ b, p.base1 = some b → b.2 ≤ (spreadBase p).2) := by
  obtain ⟨base0, base1, cells⟩ := p
  cases base0 with
  | none => cases base1 <;> simp [spreadBase]
  | some a =>
    cases base1 with
    | none => simp [spreadBase]
    | some b =>
      simp only [spreadBase, Option.some.injEq, forall_eq']
      split <;> omega

theorem spreadBase_put0 {p : Spread} {a : Nat × Nat} (ha : (spreadBase p).2 < a.2) (cells : List (Nat × Nat)) :
    spreadBase { p with base0 := some a, cells := cells } = a := by
  have hge := (spreadBase_gen_ge p).2
  cases h1 : p.base1 with
  | none => simp [spreadBase]
  | some b => simp [spreadBase, Nat.not_lt.mpr (Nat.le_trans (hge b h1) (Nat.le_of_lt ha))]

theorem spreadBase_put1 {p : Spread} {b : Nat × Nat} (hb : (spreadBase p).2 < b.2) (cells : List (Nat × Nat)) :
    spreadBase { p with base1 := some b, cells := cells } = b := by
  have hge := (spreadBase_gen_ge p).1
  cases h0 : p.base0 with
  | none => simp [spreadBase]
  | some a => simp [spreadBase, Nat.lt_of_le_of_lt (hge a h0) hb]

/-- After a carry no cell counts: those kept are of the generation before, and the others are cleared. -/
theorem genSum_carry (p : Spread) (cs : List (Nat × Nat)) :
    genSum (((spreadBase p).2 + 1) % 256) (cs.map fun c => if cellCurrent p c then c else (0, 0)) = 0 := by
  induction cs with
  | nil => rfl
  | cons c cs ih =>
    rw [List.map_cons, genSum_cons, ih]
    by_cases hc : cellCurrent p c = true
    · have hgen : c.1 = (spreadBase p).2 % 256 := by simp_all [cellCurrent]
      rw [if_pos hc, if_neg (by omega)]
    · rw [if_neg hc, ite_self]

/-- An increment adds itself: to a free cell, or by a carry into the base slot that is not in force. -/
theorem spreadValue_spreadBump (p : Spread) (inc : Nat) : spreadValue (spreadBump p inc) = spreadValue p + inc := by
  unfold spreadBump
  split
  · next h => simp [h]
  · split
    · next h => exact spreadValue_putCell p h.2
    · have hcarry : ∀ q : Spread, spreadBase q = (spreadValue p + inc, (spreadBase p).2 + 1) →
          q.cells = p.cells.map (fun c => if cellCurrent p c then c else (0, 0)) → spreadValue q = spreadValue p + inc := by
        intro q hbase hcells
        rw [spreadValue_eq q, hbase, hcells, genSum_carry, Nat.add_zero]
      dsimp only
      split
      · exact hcarry _ (spreadBase_put0 (Nat.lt_succ_self _) _) rfl
      · exact hcarry _ (spreadBase_put1 (Nat.lt_succ_self _) _) rfl

theorem spreadRead_spreadAdd_same (c inc : Nat) (s : State) : spreadRead (spreadAdd c inc s) c = spreadRead s c + inc := by
  simp [spreadRead, spreadAdd, tmod, spreadValue_spreadBump]

theorem spreadRead_spreadAdd_other {c d : Nat} (h : d ≠ c) (inc : Nat) (s : State) :
    spreadRead (spreadAdd c inc s) d = spreadRead s d := by
  simp [spreadRead, spreadAdd, tmod, tget_tput_other _ _ _ _ _ h]

/-- Settles O59: a cell write and a carry each add the increment, and the table keeps the other counters (R545). -/
theorem spreadCounterAddsExactly : Obligations.SpreadCounterAddsExactly :=
  ⟨spreadValue_spreadBump, spreadRead_spreadAdd_same, fun _ _ inc s h => spreadRead_spreadAdd_other h inc s⟩

/-! ### Lines and byte masks (R70, R147) -/

/-- The bits of byte n. -/
theorem getLsbD_byteMask {n i : Nat} (hi : i < 2048) : (0xFF#2048 <<< (8 * n)).getLsbD i = decide (i / 8 = n) := by
  have hff : ∀ j, (0xFF#2048).getLsbD j = decide (j < 8) := fun j => by
    have hones : (0xFF : Nat).testBit j = decide (j < 8) := by
      rw [show (0xFF : Nat) = 2 ^ 8 - 1 from rfl, Nat.testBit_two_pow_sub_one]
    rw [BitVec.getLsbD_ofNat, hones]
    by_cases hj : j < 8
    · simp [hj]; omega
    · simp [hj]
  rw [BitVec.getLsbD_shiftLeft, hff, decide_eq_true hi, Bool.true_and, Bool.eq_iff_iff]
  simp only [Bool.and_eq_true, Bool.not_eq_true', decide_eq_false_iff_not, decide_eq_true_eq]
  omega

/-- A bit of an expanded mask is its byte's bit, for the bytes that were expanded. -/
theorem getLsbD_expandMask {w : Nat} (m : BitVec w) (n i : Nat) (hi : i < 2048) :
    (expandMask m n).getLsbD i = (decide (i / 8 < n) && m.getLsbD (i / 8)) := by
  induction n with
  | zero => simp [expandMask]
  | succ n ih =>
    have hbyte : (if m.getLsbD n then 0xFF#2048 <<< (8 * n) else 0).getLsbD i = (decide (i / 8 = n) && m.getLsbD n) := by
      cases m.getLsbD n
      · simp
      · simp [getLsbD_byteMask hi]
    rw [expandMask, BitVec.getLsbD_or, ih, hbyte]
    by_cases h : i / 8 = n
    · simp [h]
    · have hlt : (i / 8 < n + 1) ↔ i / 8 < n := by omega
      simp [h, hlt]

theorem getLsbD_blendLine (old new : FrontLine) (m : ByteMask) {i : Nat} (hi : i < 2048) :
    (blendLine old new m).getLsbD i = if m.getLsbD (i / 8) then new.getLsbD i else old.getLsbD i := by
  have hmask : (expandMask m 256).getLsbD i = m.getLsbD (i / 8) := by
    rw [getLsbD_expandMask m 256 i hi, decide_eq_true (by omega), Bool.true_and]
  rw [blendLine, BitVec.getLsbD_or, BitVec.getLsbD_and, BitVec.getLsbD_and, BitVec.getLsbD_not, hmask, decide_eq_true hi]
  cases m.getLsbD (i / 8) <;> simp

/-- Settles O56: bit by bit, each by the mask's bit for its byte (R70, R147). -/
theorem lineStoresOnlyTheMaskedBytes : Obligations.LineStoresOnlyTheMaskedBytes := by
  intro old new m n hn
  apply BitVec.eq_of_getLsbD_eq
  intro i hi
  have hbit : (8 * n + i) / 8 = n := by omega
  rw [BitVec.getLsbD_extractLsb', getLsbD_blendLine old new m (by omega), hbit]
  split <;> simp [hi]

/-! ### A die's segments (R325, R336, R337, R349) -/

@[simp] theorem dieOf_setDie_same (d : Nat) (x : DieSt) (s : State) : dieOf (setDie d x s) d = x := by simp [dieOf, setDie]

theorem dieOf_setDie_other {d e : Nat} (h : e ≠ d) (x : DieSt) (s : State) : dieOf (setDie d x s) e = dieOf s e := by
  simp [dieOf, setDie, tget_tput_other _ _ _ _ _ h]

/-- What a segment reads depends on the listing of the segment and of its tile alone. -/
theorem segContent_congr {x y : DieSt} {tile seg : Nat} (hsegs : tfind x.segs (segKey tile seg) = tfind y.segs (segKey tile seg))
    (hundef : tfind x.undefTiles tile = tfind y.undefTiles tile) : segContent x tile seg = segContent y tile seg := by
  rw [segContent, segContent, hsegs, hundef]

theorem segKey_inj {tile seg tile' seg' : Nat} (hseg : seg < 131072) (hseg' : seg' < 131072)
    (h : segKey tile seg = segKey tile' seg') : (tile, seg) = (tile', seg') := by
  unfold segKey at h
  ext <;> dsimp only <;> omega

theorem tfind_tfilter {α : Type} (t : Tbl α) (p : Nat → α → Bool) (k : Nat) (hp : ∀ v, p k v = true) :
    tfind (tfilter t p) k = tfind t k := by
  induction t with
  | nil => rfl
  | cons a t ih =>
    obtain ⟨k', v⟩ := a
    unfold tfilter at ih ⊢
    by_cases hk : k' = k
    · subst hk
      simp [tfind, hp]
    · by_cases hpk : p k' v = true <;> simp [tfind, hpk, hk, ih]

theorem tfind_tfilter_of_not {α : Type} (t : Tbl α) (p : Nat → α → Bool) (k : Nat) (hp : ∀ v, p k v = false) :
    tfind (tfilter t p) k = none := by
  induction t with
  | nil => rfl
  | cons a t ih =>
    obtain ⟨k', v⟩ := a
    unfold tfilter at ih ⊢
    by_cases hk : k' = k
    · subst hk
      simpa [hp] using ih
    · by_cases hpk : p k' v = true <;> simp [tfind, hpk, hk, ih]

/-- In a table with rising keys a removed key is gone. -/
theorem tfind_tdel_same {α : Type} (t : Tbl α) (k : Nat) (h : tblWf t = true) : tfind (tdel t k) k = none := by
  have hnone : ∀ t : Tbl α, (∀ p ∈ t, k < p.1) → tfind t k = none := by
    intro t ht
    induction t with
    | nil => rfl
    | cons a t ih =>
      obtain ⟨k', v⟩ := a
      have hk : k < k' := ht (k', v) (by simp)
      rw [tfind, if_neg (by omega), ih fun p hp => ht p (List.mem_cons_of_mem _ hp)]
  induction t with
  | nil => rfl
  | cons a t ih =>
    obtain ⟨k', v⟩ := a
    unfold tdel
    split
    · next hk => exact hnone t (hk ▸ tblWf_head h)
    · next hk => rw [tfind, if_neg hk, ih (tblWf_tail h)]

/-- Writing one segment leaves the others. -/
theorem segContent_put_other (x : DieSt) (v : BitVec 4736) {tile seg tile' seg' : Nat} (hseg : seg < 131072)
    (hseg' : seg' < 131072) (hne : (tile', seg') ≠ (tile, seg)) :
    segContent { x with segs := tput x.segs (segKey tile seg) v } tile' seg' = segContent x tile' seg' :=
  segContent_congr (tfind_tput_other _ _ _ _ fun h => hne (segKey_inj hseg' hseg h)) rfl

/-- Clearing a tile leaves the segments of the others. -/
theorem segContent_clearTile_other (x : DieSt) {tile tile' seg' : Nat} (hseg' : seg' < 131072) (hne : tile' ≠ tile) :
    segContent (clearTile x tile) tile' seg' = segContent x tile' seg' := by
  have hkey : segKey tile' seg' / 131072 = tile' := by unfold segKey; omega
  have hsegs : tfind (clearTile x tile).segs (segKey tile' seg') = tfind x.segs (segKey tile' seg') :=
    tfind_tfilter x.segs (fun k _ => k / 131072 != tile) _ fun _ => by simpa [hkey] using hne
  exact segContent_congr hsegs (tfind_tdel_other _ _ _ hne)

/-- A cleared tile is blank (R324, R337). -/
theorem segContent_clearTile_same (x : DieSt) {tile seg : Nat} (hseg : seg < 131072) (hwf : tblWf x.undefTiles = true) :
    segContent (clearTile x tile) tile seg = BitVec.allOnes 4736 := by
  have hkey : segKey tile seg / 131072 = tile := by unfold segKey; omega
  have hsegs : tfind (clearTile x tile).segs (segKey tile seg) = none :=
    tfind_tfilter_of_not x.segs (fun k _ => k / 131072 != tile) _ fun _ => by simp [hkey]
  rw [segContent, hsegs, clearTile, tfind_tdel_same _ _ hwf]

theorem dieOf_undefSeg_other {d e : Nat} (h : e ≠ d) (tile seg : Nat) (s : State) :
    dieOf (undefSeg d tile seg s) e = dieOf s e := dieOf_setDie_other h _ _

theorem dieOf_undefTile_other {d e : Nat} (h : e ≠ d) (tile : Nat) (s : State) :
    dieOf (undefTile d tile s) e = dieOf s e := dieOf_setDie_other h _ _

theorem segContent_undefSeg_other (d : Nat) (s : State) {tile seg tile' seg' : Nat} (hseg : seg < 131072)
    (hseg' : seg' < 131072) (hne : (tile', seg') ≠ (tile, seg)) :
    segContent (dieOf (undefSeg d tile seg s) d) tile' seg' = segContent (dieOf s d) tile' seg' := by
  rw [undefSeg, dieOf_setDie_same]
  exact segContent_put_other _ _ hseg hseg' hne

theorem segContent_undefTile_other (d : Nat) (s : State) {tile tile' seg' : Nat} (hseg' : seg' < 131072) (hne : tile' ≠ tile) :
    segContent (dieOf (undefTile d tile s) d) tile' seg' = segContent (dieOf s d) tile' seg' := by
  rw [undefTile, dieOf_setDie_same, ← segContent_clearTile_other (dieOf s d) hseg' hne]
  exact segContent_congr rfl (tfind_tput_other _ _ _ _ hne)

theorem segContent_endProgram_other {d : Nat} {s : State} {tile seg tile' seg' : Nat} (good : Bool)
    (harray : (dieOf s d).array = some (.prog tile seg)) (hseg : seg < 131072) (hseg' : seg' < 131072)
    (hne : (tile', seg') ≠ (tile, seg)) :
    segContent (dieOf (endProgram d good s) d) tile' seg' = segContent (dieOf s d) tile' seg' := by
  unfold endProgram
  dsimp only
  rw [harray]
  dsimp only
  split
  · rfl
  · split
    · rw [dieOf_setDie_same, dieOf_setDie_same]
      exact segContent_put_other _ _ hseg hseg' hne
    · rw [segContent_undefSeg_other d _ hseg hseg' hne, dieOf_setDie_same]
      exact segContent_congr rfl rfl

theorem segContent_endReset_other {d : Nat} {s : State} {tile tile' seg' : Nat} (good : Bool)
    (harray : (dieOf s d).array = some (.reset tile)) (hseg' : seg' < 131072) (hne : tile' ≠ tile) :
    segContent (dieOf (endReset d good s) d) tile' seg' = segContent (dieOf s d) tile' seg' := by
  unfold endReset
  dsimp only
  rw [harray]
  dsimp only
  split
  · rfl
  · split
    · rw [dieOf_setDie_same, dieOf_setDie_same]
      exact segContent_clearTile_other _ hseg' hne
    · rw [segContent_undefTile_other d _ hseg' hne, dieOf_setDie_same]
      exact segContent_congr rfl rfl

theorem dieOf_endProgram_other {d e : Nat} (h : e ≠ d) (good : Bool) (s : State) :
    dieOf (endProgram d good s) e = dieOf s e := by
  unfold endProgram
  dsimp only
  repeat' split
  · rfl
  · rw [dieOf_setDie_other h, dieOf_setDie_other h]
  · rw [dieOf_undefSeg_other h, dieOf_setDie_other h]
  · rfl

theorem dieOf_endReset_other {d e : Nat} (h : e ≠ d) (good : Bool) (s : State) :
    dieOf (endReset d good s) e = dieOf s e := by
  unfold endReset
  dsimp only
  repeat' split
  · rfl
  · rw [dieOf_setDie_other h, dieOf_setDie_other h]
  · rw [dieOf_undefTile_other h, dieOf_setDie_other h]
  · rfl

theorem segContent_resetDie_other {d : Nat} {s : State} {tile seg tile' seg' : Nat}
    (harray : (dieOf s d).array = some (.prog tile seg)) (hseg : seg < 131072) (hseg' : seg' < 131072)
    (hne : (tile', seg') ≠ (tile, seg)) :
    segContent (dieOf (resetDie d s) d) tile' seg' = segContent (dieOf s d) tile' seg' := by
  rw [resetDie, harray, dieOf_setDie_same, ← segContent_undefSeg_other d s hseg hseg' hne]
  exact segContent_congr rfl rfl

/-- A tile reset that ends well, and was not suspended, leaves the tile blank (R337, R343). -/
theorem segContent_endReset_same {d : Nat} {s : State} {tile seg : Nat} (harray : (dieOf s d).array = some (.reset tile))
    (hrun : (dieOf s d).suspended = false) (hseg : seg < 131072) (hwf : tblWf (dieOf s d).undefTiles = true) :
    segContent (dieOf (endReset d true s) d) tile seg = BitVec.allOnes 4736 := by
  unfold endReset
  dsimp only
  rw [harray]
  dsimp only
  rw [hrun, if_neg Bool.false_ne_true, if_pos rfl, dieOf_setDie_same, dieOf_setDie_same]
  exact segContent_clearTile_same _ hseg hwf

/-- Settles O57: an array operation writes its own segment or clears its own tile, on its own die (R325, R336, R337, R349). -/
theorem dieArrayWorkKeepsOtherSegments : Obligations.DieArrayWorkKeepsOtherSegments := by
  refine ⟨fun d good tile seg tile' seg' s harray hseg hseg' hne => ?_, fun d good tile tile' seg' s harray hseg' hne => ?_,
    fun d good e s he => ⟨?_, ?_⟩, fun d tile seg tile' seg' s => segContent_resetDie_other,
    fun d tile seg s harray hrun hseg hwf => ?_⟩
  · exact ⟨_, rfl, segContent_endProgram_other good harray hseg hseg' hne⟩
  · exact ⟨_, rfl, segContent_endReset_other good harray hseg' hne⟩
  · exact ⟨_, rfl, dieOf_endProgram_other he good s⟩
  · exact ⟨_, rfl, dieOf_endReset_other he good s⟩
  · exact ⟨_, rfl, segContent_endReset_same harray hrun hseg hwf⟩

end Sys2Proof.Machine

/-!
How a command that its interface takes is answered, by the reply of its body: one rule for each kind of reply and each of the three
paths (R525 to R527, R539). Each rule is about a meaning `r` that is, by definition, a command on that path.
-/
namespace Sys2Proof.Machine
open Sys2Proof.Safety

/-- An output within the payload limit is the answer (R526). -/
theorem settle_done {c op : Nat} {s t : State} {out : CmdOut} (hout : outLen out ≤ payloadLimit s c) :
    settle c op s (.done out t) = complete c op .success out t := by
  rw [settle, if_neg (Nat.not_lt.mpr hout)]

section
variable {s t : State} {c : Fin 10} {op : Nat} {r : Res}

/-! ### Standard commands -/

section
variable {body : State → Reply} (hr : r = standard c op body s) (h : Takes s c op)
include hr h

theorem standard_done {out : CmdOut} (hbody : body s = .done out t) (hout : outLen out = 0 := by rfl) :
    r = .next (complete c op .success out t) := by
  rw [hr, standard_of_takes h, hbody, settle_done (by omega)]

theorem standard_fail {rc : Rc} (hbody : body s = .fail rc) : r = .next (complete c op rc .none s) := by
  rw [hr, standard_of_takes h, hbody, settle]

theorem standard_failWith {rc : Rc} (hbody : body s = .failWith rc t) : r = .next (complete c op rc .none t) := by
  rw [hr, standard_of_takes h, hbody, settle]

theorem standard_commit {out : CmdOut} (hbody : body s = .commit out t) :
    r = .next (awaitCommit c op out (tieCommit c t)) := by
  rw [hr, standard_of_takes h, hbody, settle]

end

/-! ### Commands with a payload of bytes -/

section
variable {inp : List Byte} {n : Nat} {resv : List (Nat × Nat)} {body : State → Reply} (hr : r = vendor c op inp n resv body s)
  (h : Takes s c op) (hlen : inp.length = n) (hresv : (resv.all fun (o, k) => le inp o k == 0) = true)
include hr h hlen hresv

theorem vendor_reply : r = .next (settle c op s (body s)) := by
  rw [hr, vendor_of_takes h hlen hresv]

theorem vendor_done {out : CmdOut} (hbody : body s = .done out t) (hout : outLen out ≤ payloadLimit s c) :
    r = .next (complete c op .success out t) := by
  rw [vendor_reply hr h hlen hresv, hbody, settle_done hout]

/-- An answer of bytes that fits (R525, R526). -/
theorem vendor_answers {b : List Byte} {m : Nat} (hbody : body s = answer s b) (hb : b.length = m) (hlimit : m ≤ payloadLimit s c) :
    ∃ b : List Byte, b.length = m ∧ r = .next (complete c op .success (.bytes b) s) :=
  ⟨b, hb, vendor_done hr h hlen hresv hbody (by rwa [outLen, hb])⟩

/-- Success without an output. -/
theorem vendor_done_none (hbody : body s = .done .none t) : r = .next (complete c op .success .none t) :=
  vendor_done hr h hlen hresv hbody (Nat.zero_le _)

theorem vendor_fail {rc : Rc} (hbody : body s = .fail rc) : r = .next (complete c op rc .none s) := by
  rw [vendor_reply hr h hlen hresv, hbody, settle]

theorem vendor_failWith {rc : Rc} (hbody : body s = .failWith rc t) : r = .next (complete c op rc .none t) := by
  rw [vendor_reply hr h hlen hresv, hbody, settle]

theorem vendor_commit {out : CmdOut} (hbody : body s = .commit out t) :
    r = .next (awaitCommit c op out (tieCommit c t)) := by
  rw [vendor_reply hr h hlen hresv, hbody, settle]

theorem vendor_wait {out : CmdOut} (hbody : body s = .wait out t) : r = .next (awaitCommit c op out t) := by
  rw [vendor_reply hr h hlen hresv, hbody, settle]

end

section
variable {inp : List Byte} {n : Nat} {resv : List (Nat × Nat)} {body : State → Reply} (hr : r = vendorBg c op inp n resv body s)
  (h : Takes s c op) (hlen : inp.length = n) (hresv : (resv.all fun (o, k) => le inp o k == 0) = true)
  (hbg : bgBusy s c = false)
include hr h hlen hresv hbg

theorem vendorBg_reply : r = .next (settle c op s (body s)) := by
  rw [hr, vendorBg_of_takes h hlen hresv hbg]

theorem vendorBg_background (hbody : body s = .background t) : r = .next (startBg c op t) := by
  rw [vendorBg_reply hr h hlen hresv hbg, hbody, settle]

end

/-- Sanitize and the firmware commands take their operands as fields and may run in the background. -/
theorem mailbox_reply {bg l rv : Bool} {body : State → Reply} (hr : r = mailbox c op bg l rv body s) (h : Takes s c op)
    (hl : l = true) (hrv : rv = true) (hbg : (bg && bgBusy s c) = false) : r = .next (settle c op s (body s)) := by
  rw [hr, mailbox_of_takes h, hl, hrv, hbg]
  rfl

/-- A setting in range is stored, and waits for its record (R539). -/
theorem storeSetting_some (key : Nat) (d : List Byte) (s : State) :
    storeSetting key (some d) s = .commit .none (cellarWrite 5 2 key d none s) := rfl

end

/-- With room in the journal a journalled reply is the reply (R184, R250). -/
theorem journaled_of_room {s : State} {r : Reply} (h : journalFull s = false) : journaled s r = r := by
  rw [journaled, h, if_neg Bool.false_ne_true]

/-- The interface after its answer, field by field. -/
@[simp] theorem rc_complete (c op : Nat) (rc : Rc) (out : CmdOut) (s : State) : (cciOf (complete c op rc out s) c).rc = rc := by
  rw [cciOf_complete_same]

@[simp] theorem out_complete (c op : Nat) (rc : Rc) (out : CmdOut) (s : State) : (cciOf (complete c op rc out s) c).out = out := by
  rw [cciOf_complete_same]

@[simp] theorem limit_complete (c op : Nat) (rc : Rc) (out : CmdOut) (s : State) :
    (cciOf (complete c op rc out s) c).limit = (cciOf s c).limit := by
  rw [cciOf_complete_same]

/-- A claim about the state after a command that answers a known one. -/
theorem After.intro {i : Instr} {s t : State} {P : State → Prop} (hexec : exec i s = .next t) (hP : P t) : After i s P :=
  ⟨t, hexec, hP⟩

end Sys2Proof.Machine

/-!
The standard commands of an interface: identity, background operations, logs, the memory device, dynamic capacity
(17_management_and_mailbox.md R525 to R529, 02_host_ports.md R75 to R83, R94 to R98).
-/
namespace Sys2Proof.Machine
open Sys2Proof.Safety

theorem cciLogs_complete (c op : Nat) (rc : Rc) (out : CmdOut) (s : State) (d : Nat) :
    cciLogs (complete c op rc out s) d = cciLogs s d := rfl

/-- The logs of an interface, just written. -/
theorem cciLogs_setCciLogs (c : Nat) (l : LogSet) (s : State) : cciLogs (setCciLogs c l s) c = l := by
  cases h : headOfCci c <;> simp [cciLogs, setCciLogs, h]

theorem get_put_logSet (l : LogSet) (i : LogId) (x : EvLog) : (l.put i x).get i = x := by cases i <;> rfl

/-- An operation that measures the hold-up is abandoned (R199, R527). -/
theorem abortOp_measure (c : Nat) (s : State) : abortOp c 0xC722 s = some (endBgOn c 0xC722 .aborted (abandonMeasure s)) := rfl

/-- Settles O1: each command is taken and its body answers at once (R94, R98, R527, R528). -/
theorem identityAndLogCommandsComplete : Obligations.IdentityAndLogCommandsComplete := by
  refine ⟨fun c s h => standard_done rfl h rfl, fun c s h hbg => ?bgNone, fun c s b h hbg hrc => ?bgRuns,
    fun c s b r h hbg hrc => ?bgEnded, fun c s h => standard_done rfl h rfl, fun c e s h hlo hhi => ?limit,
    fun c e s h hout => ?badLimit, fun c b s h hbg hrc hop => ?abort, fun c log s h => ?records,
    fun c log s h => ?clear, fun c n s h hc => ?getPolicy, fun c n p s h hc hlen hall => ?setPolicy,
    fun c s h => standard_done rfl h rfl, fun c i n s h hn hlim => ?log⟩
  case bgNone => exact standard_done (r := execBackgroundOperationStatus c s) rfl h (by rw [hbg])
  case bgRuns => exact standard_done (r := execBackgroundOperationStatus c s) rfl h (by rw [hbg]; dsimp only; rw [hrc])
  case bgEnded => exact standard_done (r := execBackgroundOperationStatus c s) rfl h (by rw [hbg]; dsimp only; rw [hrc])
  case limit =>
    refine After.intro (standard_done (r := execSetResponseMessageLimit c e s) rfl h (by rw [if_neg (by omega)])) ?_
    simp
  case badLimit => exact standard_fail (r := execSetResponseMessageLimit c e s) rfl h (if_pos hout)
  case abort =>
    refine standard_done (r := execRequestAbortBackgroundOperation c s) rfl h ?_
    rw [hbg]
    dsimp only
    rw [hrc, hop, abortOp_measure]
    rfl
  case records =>
    exact After.intro (standard_done (r := execGetEventRecords c log s) rfl h rfl)
      ⟨decide ((payloadLimit s c - 32) / 128 < (((cciLogs s c).get (logOf log)).ents).length), out_complete ..⟩
  case clear =>
    refine After.intro (standard_done (r := execClearEventRecords c log true [] s) rfl h rfl) ?_
    rw [cciLogs_complete, cciLogs_setCciLogs, get_put_logSet]
  case getPolicy => exact standard_done (r := execGetEventInterruptPolicy c s) rfl h (by rw [hc])
  case setPolicy =>
    have hok : ¬(p.any fun v => decide (1 < v)) = true := by simpa using hall
    refine After.intro (standard_done (r := execSetEventInterruptPolicy c p s) rfl h
      (by rw [if_neg (Classical.not_not.mpr hlen), if_neg hok, hc])) ?_
    simp
  case log => exact standard_done (r := execGetLog c celUuid i n s) rfl h (if_neg (by omega))

/-- The line of a poison command that finds its line present and dirty is that line, at age 0 (R159). -/
theorem poisonLineFor_present {dpa i : Nat} {s : State} (hfind : findLine s (dpa / 256) = some i)
    (hdirty : countsDirty (lineAt s i) = true) : poisonLineFor dpa s = (some i, putLine i { lineAt s i with age := 0 } s) := by
  rw [poisonLineFor, if_neg (by simp [hfind]), lineFor, hfind]
  dsimp only
  rw [hdirty, Bool.true_or, if_pos rfl]

theorem rc_startBg (c op : Nat) (s : State) : (cciOf (startBg c op s) c).rc = .bgStarted := by
  rw [startBg, cciOf_setCci_same]

theorem bg_startBg (c op : Nat) (s : State) : (cciOf (startBg c op s) c).bg = some { op := op, pct := 0, rc := none } := by
  rw [startBg, cciOf_setCci_same]

/-- Inject Poison on a present line that holds dirty data sets its POISON only (R83). -/
theorem injectOne_present {dpa i : Nat} {s : State} (hfind : findLine s (dpa / 256) = some i)
    (hdirty : countsDirty (lineAt s i) = true) :
    injectOne s dpa = putLine i { lineAt s i with poison := true } (notePoison (dpa / 256) .injected s) := by
  have hfind' : findLine (notePoison (dpa / 256) .injected s) (dpa / 256) = some i := hfind
  rw [injectOne]
  dsimp only
  rw [hfind']
  dsimp only
  exact if_pos hdirty

/-- Settles O2: each command is taken and its body answers at once; a shutdown state waits for its record (R82, R83, R205, R206, R293,
R529). -/
theorem memoryDeviceCommandsComplete : Obligations.MemoryDeviceCommandsComplete := by
  refine ⟨fun c s h => standard_done (r := execIdentifyMemoryDevice c s) rfl h rfl, fun c s h => ?health,
    fun c a b d s h halerts => ?getAlerts, fun c v high low s h hlo hhi => ?setAlerts,
    fun c s h => standard_done (r := execGetShutdownState c s) rfl h rfl,
    fun c dirty s h => standard_commit (r := execSetShutdownState c dirty s) rfl h rfl,
    fun c dpa s h hadded => ?noPoison, fun c dpa len s h hadded hlen => ?poisonList,
    fun c dpa s h hadded howner hroom => ⟨?inject, fun i hfind hdirty => injectOne_present hfind hdirty⟩,
    fun c dpa i k data s h hadded howner hkey hcap hmode hfind hdirty => ?clear,
    fun c s h hbg hbarred hformat hsanitize hroom => ?sanitize⟩
  case health =>
    exact After.intro (standard_done (r := execGetHealthInfo c s) rfl h rfl) ⟨_, out_complete .., rfl, rfl⟩
  case getAlerts => exact standard_done (r := execGetAlertConfiguration c s) rfl h (by rw [halerts]; rfl)
  case setAlerts =>
    refine standard_done (r := execSetAlertConfiguration c (.enable v) (.enable high) (.enable low) s) rfl h (if_neg ?_)
    simp; omega
  case noPoison =>
    exact standard_done (r := execGetPoisonList c dpa 0 s) rfl h
      (by rw [hadded, if_neg (by simp), if_pos rfl])
  case poisonList =>
    refine After.intro (standard_done (r := execGetPoisonList c dpa len s) rfl h
      (by rw [hadded, if_neg (by simp), if_neg (by omega)])) ⟨rc_complete .., _, _, out_complete ..⟩
  case inject =>
    refine standard_done (r := execInjectPoison c [dpa] s) rfl h ?_
    rw [if_neg (by simp), if_neg (by simp [hadded]), if_neg (by simp [howner]), journaled_of_room hroom]
    rfl
  case clear =>
    refine standard_done (r := execClearPoison c dpa data s) rfl h ?_
    dsimp only
    rw [hadded, if_neg (by simp), if_neg (by simp [howner, hkey, hcap]), poisonLineFor_present hfind hdirty, Nat.div_div_eq_div_mul]
  case sanitize =>
    have hreply := mailbox_reply (r := execSanitize c s) rfl h rfl rfl (by simp [hbg])
    rw [if_neg (by simp [hbarred]), if_neg (by simp [hformat, hsanitize]), journaled_of_room hroom] at hreply
    exact After.intro hreply ⟨rc_startBg .., _, bg_startBg .., rfl, rfl⟩
/-- A command on a head's mailbox acts on that head. -/
theorem onHead_some {c h : Nat} {f : Nat → Reply} (hc : headOfCci c = some h) : onHead c f = f h := by rw [onHead, hc]

/-- Settles O3: each command is taken, its operands are in range, and its body answers at once (R75 to R80, R114, R528). -/
theorem dynamicCapacityCommandsComplete : Obligations.DynamicCapacityCommandsComplete := by
  refine ⟨fun c n s h hc => ?configuration, fun c n i k s h hc => ?extentList,
    fun c n e s h hc he hst hhead hroom => ?response, fun c n e s t h hc he hroom ht hidle howner => ?release,
    fun c s h => standard_done (r := execGetMultiHeadedInfo c s) rfl h rfl, fun c s h => ?dcdInfo,
    fun c n s h hn hpresent => ?hostRegions, fun c n r base len s h hn hpresent hr hbase hlen hend hfree => ?setRegion,
    fun c n i k s h hn hpresent => ?regionExtents,
    fun c n e s h hn hpresent he hst haccess htenant hregion hheld hroom => ?initiateAdd,
    fun c e s h he haccess hst => ?initiateRelease⟩
  case configuration =>
    exact standard_done (r := execGetDynamicCapacityConfiguration c s) rfl h (onHead_some hc)
  case extentList =>
    exact standard_done (r := execGetDynamicCapacityExtentList c i k s) rfl h (onHead_some hc)
  case response =>
    have hok : ¬(241664 ≤ e ∨ (extOf s e).st ≠ .pending ∨ (extOf s e).head ≠ n) := by simp [hst, hhead, he]
    constructor
    · refine standard_done (r := execAddDynamicCapacityResponse c e true s) rfl h ?_
      rw [onHead_some hc, if_neg hok, journaled_of_room hroom, if_pos rfl]
    · refine standard_done (r := execAddDynamicCapacityResponse c e false s) rfl h ?_
      rw [onHead_some hc, if_neg hok, journaled_of_room hroom, if_neg Bool.false_ne_true]
  case release =>
    refine standard_done (r := execReleaseDynamicCapacity c e s) rfl h ?_
    rw [onHead_some hc, he, if_neg (by simp), journaled_of_room hroom, ← ht]
    dsimp only
    rw [hidle, if_neg Bool.false_ne_true, if_neg (Classical.not_not.mpr howner)]
  case dcdInfo => exact After.intro (standard_done (r := execGetDcdInfo c s) rfl h rfl) ⟨_, out_complete ..⟩
  case hostRegions =>
    exact standard_done (r := execGetHostDcRegionConfiguration c n s) rfl h (if_neg (by simp [hpresent, hn]))
  case setRegion =>
    refine standard_done (r := execSetDcRegionConfiguration c n r base len s) rfl h ?_
    rw [if_neg (by simp [hpresent, hn, hr]; exact ⟨hbase, hlen, hend⟩), hfree, if_neg Bool.false_ne_true]
  case regionExtents =>
    exact standard_done (r := execGetDcRegionExtentLists c n i k s) rfl h (if_neg (by simp [hpresent, hn]))
  case initiateAdd =>
    refine standard_done (r := execInitiateDynamicCapacityAdd c n e s) rfl h ?_
    rw [if_neg (by simp [hn, hpresent, he, hst, htenant, haccess, hregion]), hheld, if_neg Bool.false_ne_true,
      journaled_of_room hroom]
  case initiateRelease =>
    refine standard_done (r := execInitiateDynamicCapacityRelease c (extOf s e).head e s) rfl h ?_
    rw [if_neg (by simp [he, haccess]), hst]
end Sys2Proof.Machine

/-!
The management complex: what the bookkeeping of media, map and requests leaves alone. One rule for each operation that a racking in
progress, an aborted background operation or a setting may call; the rules up to `resumeRacks` and `abortBg` are about the complex
without its command interfaces, whose background operations they may end (R40, R43, R527).
-/
namespace Sys2Proof.Machine

/-- A management complex without its command interfaces. -/
def managed (m : MgmtSt) : MgmtSt := { m with ccis := [] }

/-- A fold of updates keeps what each of them keeps. -/
theorem keeps_foldl {α β : Type} (g : State → β) (l : List α) (f : State → α → State) (hf : ∀ s a, g (f s a) = g s) (s : State) :
    g (l.foldl f s) = g s := by
  induction l generalizing s with
  | nil => rfl
  | cons a l ih => rw [List.foldl_cons, ih, hf]

theorem mgmt_foldl {α : Type} (l : List α) (f : State → α → State) (hf : ∀ s a, (f s a).mgmt = s.mgmt) (s : State) :
    (l.foldl f s).mgmt = s.mgmt := keeps_foldl (·.mgmt) l f hf s

theorem managed_foldl {α : Type} (l : List α) (f : State → α → State) (hf : ∀ s a, managed (f s a).mgmt = managed s.mgmt)
    (s : State) : managed (l.foldl f s).mgmt = managed s.mgmt := keeps_foldl (fun s => managed s.mgmt) l f hf s

@[simp] theorem mgmt_ite (c : Prop) [Decidable c] (s t : State) : (if c then s else t).mgmt = if c then s.mgmt else t.mgmt :=
  apply_ite State.mgmt c s t

@[simp] theorem managed_ite (c : Prop) [Decidable c] (m n : MgmtSt) : managed (if c then m else n) = if c then managed m else managed n :=
  apply_ite managed c m n

@[simp] theorem setCci_managed (c : Nat) (x : CciSt) (s : State) : managed (setCci c x s).mgmt = managed s.mgmt := rfl

@[simp] theorem drawBits_mgmt (w : Nat) (s : State) : (drawBits w s).2.mgmt = s.mgmt := by simp [drawBits]

@[simp] theorem raiseParity_mgmt (src row addr : Nat) (s : State) : (raiseParity src row addr s).mgmt = s.mgmt := by
  simp [raiseParity]

@[simp] theorem raiseDpa_mgmt (src code dpa head : Nat) (s : State) : (raiseDpa src code dpa head s).mgmt = s.mgmt := by
  simp [raiseDpa]

@[simp] theorem cellarCommitNow_mgmt (region key : Nat) (data : List Byte) (s : State) :
    (cellarCommitNow region key data s).mgmt = s.mgmt := by
  unfold cellarCommitNow
  repeat' split
  all_goals simp

@[simp] theorem complete_managed (c op : Nat) (rc : Rc) (out : CmdOut) (s : State) :
    managed (complete c op rc out s).mgmt = managed s.mgmt := by
  simp [complete]

@[simp] theorem completeWaiting_managed (c op : Nat) (rc : Rc) (out : CmdOut) (s : State) :
    managed (completeWaiting c op rc out s).mgmt = managed s.mgmt := by
  unfold completeWaiting
  split <;> simp

@[simp] theorem raiseMsix_mgmt (h v : Nat) (s : State) : (raiseMsix h v s).mgmt = s.mgmt := by
  unfold raiseMsix
  split <;> simp

@[simp] theorem endBgOn_managed (c op : Nat) (rc : Rc) (s : State) : managed (endBgOn c op rc s).mgmt = managed s.mgmt := by
  unfold endBgOn
  repeat' split
  all_goals simp

@[simp] theorem busGrant_mgmt (c : Nat) (s : State) : (busGrant c s).mgmt = s.mgmt := by
  unfold busGrant
  dsimp only
  repeat' split
  all_goals simp

@[simp] theorem busAdd_mgmt (c : Nat) (ts : List BusXfer) (s : State) : (busAdd c ts s).mgmt = s.mgmt := by simp [busAdd]

@[simp] theorem busDrop_mgmt (c : Nat) (p : BusXfer → Bool) (s : State) : (busDrop c p s).mgmt = s.mgmt := by
  simp [busDrop]

@[simp] theorem setLock_mgmt (region : Nat) (l : RegionLock) (s : State) : (setLock region l s).mgmt = s.mgmt := by
  simp [setLock]

@[simp] theorem putPasswords_mgmt (d : List Byte) (s : State) : (putPasswords d s).mgmt = s.mgmt := by
  simp [putPasswords]

@[simp] theorem postEntry_mgmt (lfa : Nat) (e : MapEnt) (s : State) : (postEntry lfa e s).mgmt = s.mgmt := by
  simp [postEntry]

@[simp] theorem setGroup_mgmt (g : Nat) (x : Group) (s : State) : (setGroup g x s).mgmt = s.mgmt := by simp [setGroup]

@[simp] theorem modGroup_mgmt (g : Nat) (f : Group → Group) (s : State) : (modGroup g f s).mgmt = s.mgmt := by
  simp [modGroup]

@[simp] theorem addValid_mgmt (pfa : Nat) (n : Int) (s : State) : (addValid pfa n s).mgmt = s.mgmt := by simp [addValid]

@[simp] theorem releaseSlot_mgmt (n : Nat) (s : State) : (releaseSlot n s).mgmt = s.mgmt := by
  unfold releaseSlot
  split <;> simp

@[simp] theorem dropEntry_mgmt (lfa : Nat) (s : State) : (dropEntry lfa s).mgmt = s.mgmt := by
  unfold dropEntry
  repeat' split
  all_goals simp

@[simp] theorem setEntry_mgmt (lfa : Nat) (e : MapEnt) (s : State) : (setEntry lfa e s).mgmt = s.mgmt := by
  simp [setEntry]

@[simp] theorem setExt_mgmt (e : Nat) (act stg : Bool) (x : ExtentEnt) (s : State) :
    (setExt e act stg x s).mgmt = s.mgmt := by
  simp [setExt]

@[simp] theorem setEState_mgmt (e : Nat) (st : EState) (s : State) : (setEState e st s).mgmt = s.mgmt := by
  simp [setEState]

@[simp] theorem swapBanks_mgmt (s : State) : (swapBanks s).mgmt = s.mgmt := by simp [swapBanks]

@[simp] theorem writeImageList_mgmt (l : List RunRec) (s : State) : (writeImageList l s).mgmt = s.mgmt := by
  simp [writeImageList]

@[simp] theorem applyRec_mgmt (r : JRec) (s : State) : (applyRec r s).mgmt = s.mgmt := by
  unfold applyRec
  repeat' split
  all_goals simp [mgmt_foldl]

@[simp] theorem stage_mgmt (r : JRec) (s : State) : (stage r s).mgmt = s.mgmt := by simp [stage]

@[simp] theorem commit_mgmt (r : JRec) (s : State) : (commit r s).mgmt = s.mgmt := by simp [commit]

@[simp] theorem setCap_mgmt (c : CapState) (s : State) : (setCap c s).mgmt = s.mgmt := by simp [setCap]

@[simp] theorem returnWithheld_mgmt (n : Nat) (s : State) : (returnWithheld n s).mgmt = s.mgmt := by
  induction n generalizing s with
  | zero => rfl
  | succ n ih =>
    unfold returnWithheld
    split <;> simp [ih]

@[simp] theorem spareRecompute_mgmt (s : State) : (spareRecompute s).mgmt = s.mgmt := by simp [spareRecompute]

@[simp] theorem setOpen_mgmt (role ds : Nat) (g : Option Nat) (s : State) : (setOpen role ds g s).mgmt = s.mgmt := by
  simp [setOpen]

@[simp] theorem keepShare_mgmt (ds : Nat) (s : State) : (keepShare ds s).mgmt = s.mgmt := by simp [keepShare]

@[simp] theorem openGroup_mgmt (role ds : Nat) (s : State) : (openGroup role ds s).mgmt = s.mgmt := by
  unfold openGroup
  split <;> simp

@[simp] theorem closeGroup_mgmt (g : Nat) (s : State) : (closeGroup g s).mgmt = s.mgmt := by simp [closeGroup]

theorem place_mgmt {role : Nat} {s t : State} {n : Nat} (h : place role s = some (n, t)) : t.mgmt = s.mgmt := by
  unfold place at h
  dsimp only at h
  split at h
  · cases h
  · split at h
    · cases h
    · cases h
      simp

@[simp] theorem countEvent_mgmt (code n : Nat) (a : EvAttr) (s : State) : (countEvent code n a s).mgmt = s.mgmt := by
  simp [countEvent]

@[simp] theorem meterLive_mgmt (t : Nat) (f : MeterBlock → MeterBlock) (s : State) :
    (meterLive t f s).mgmt = s.mgmt := by
  simp [meterLive]

@[simp] theorem countReq_mgmt (code n : Nat) (r : Req) (s : State) : (countReq code n r s).mgmt = s.mgmt := by
  simp [countReq]

@[simp] theorem showCompletion_mgmt (tag outcome : Nat) (r : Req) (s : State) :
    (showCompletion tag outcome r s).mgmt = s.mgmt := by
  simp [showCompletion]

@[simp] theorem countPortData_mgmt (code : Nat) (m : WireMsg) (s : State) : (countPortData code m s).mgmt = s.mgmt := by
  unfold countPortData
  split <;> simp

@[simp] theorem freeRelay_mgmt (drain : Bool) (m : WireMsg) (s : State) : (freeRelay drain m s).mgmt = s.mgmt := by
  unfold freeRelay
  repeat' split
  all_goals simp

@[simp] theorem pumpPort_mgmt (p : Nat) (s : State) : (pumpPort p s).mgmt = s.mgmt := by simp [pumpPort, mgmt_foldl]

@[simp] theorem enqueue_mgmt (p : Nat) (m : WireMsg) (s : State) : (enqueue p m s).mgmt = s.mgmt := by simp [enqueue]

@[simp] theorem originate_mgmt (m : FabMsg) (s : State) : (originate m s).mgmt = s.mgmt := by
  unfold originate
  dsimp only
  split <;> simp

@[simp] theorem touchWindow_mgmt (g : Nat) (s : State) : (touchWindow g s).mgmt = s.mgmt := by simp [touchWindow]

@[simp] theorem countRead_mgmt (g : Nat) (s : State) : (countRead g s).mgmt = s.mgmt := by simp [countRead]

@[simp] theorem sendRead_mgmt (pfa quad : Nat) (shift : Int) (s : State) :
    (sendRead pfa quad shift s).mgmt = s.mgmt := by
  simp [sendRead]

@[simp] theorem setDieQueue_mgmt (die : Nat) (q : List DieRead) (s : State) : (setDieQueue die q s).mgmt = s.mgmt := by
  simp [setDieQueue]

@[simp] theorem startRead_mgmt (die : Nat) (s : State) : (startRead die s).mgmt = s.mgmt := by
  unfold startRead
  dsimp only
  repeat' split
  all_goals simp

@[simp] theorem startReads_mgmt (die : Nat) (s : State) : (startReads die s).mgmt = s.mgmt := by simp [startReads]

@[simp] theorem sendReads_mgmt (rd : ReadId) (pfa : Nat) (latency : Bool) (shift : Int) (qs : List Nat) (s : State) :
    (sendReads rd pfa latency shift qs s).mgmt = s.mgmt := by
  simp [sendReads, mgmt_foldl]

@[simp] theorem endReads_mgmt (rd : ReadId) (s : State) : (endReads rd s).mgmt = s.mgmt := by
  simp [endReads, mgmt_foldl]

@[simp] theorem setFetch_mgmt (rd : ReadId) (f : Fetch) (s : State) : (setFetch rd f s).mgmt = s.mgmt := by
  unfold setFetch
  repeat' split
  all_goals simp

@[simp] theorem bumpRead_mgmt (i : Nat) (s : State) : (bumpRead i s).mgmt = s.mgmt := by simp [bumpRead]

@[simp] theorem bumpFill_mgmt (rd : ReadId) (i : Nat) (s : State) : (bumpFill rd i s).mgmt = s.mgmt := by simp [bumpFill]

@[simp] theorem bumpHealth_mgmt (i : Nat) (s : State) : (bumpHealth i s).mgmt = s.mgmt := by simp [bumpHealth]

@[simp] theorem bumpFillHealth_mgmt (rd : ReadId) (i : Nat) (s : State) : (bumpFillHealth rd i s).mgmt = s.mgmt := by
  simp [bumpFillHealth]

@[simp] theorem fetchReady_mgmt (rd : ReadId) (x : Option FrontLine) (f : Fetch) (s : State) :
    (fetchReady rd x f s).mgmt = s.mgmt := by
  unfold fetchReady
  split <;> simp

@[simp] theorem mediaReady_mgmt (rd : ReadId) (pfa q : Nat) (rebuilt : Bool) (f : Fetch) (s : State) :
    (mediaReady rd pfa q rebuilt f s).mgmt = s.mgmt := by
  simp [mediaReady]

@[simp] theorem notePoison_mgmt (key : Nat) (src : PoisonSrc) (s : State) : (notePoison key src s).mgmt = s.mgmt := by
  simp [notePoison]

@[simp] theorem slowDecide_mgmt (rd : ReadId) (pfa q : Nat) (soft : List (Nat × Nat)) (waiting lost : List Nat) (f : Fetch) (s : State) :
    (slowDecide rd pfa q soft waiting lost f s).mgmt = s.mgmt := by
  simp [slowDecide]

@[simp] theorem enterSlow_mgmt (rd : ReadId) (pfa q : Nat) (failed sent have_ : List Nat) (f : Fetch) (s : State) :
    (enterSlow rd pfa q failed sent have_ f s).mgmt = s.mgmt := by
  simp [enterSlow]

@[simp] theorem issueMedia_mgmt (rd : ReadId) (pfa : Nat) (f : Fetch) (s : State) :
    (issueMedia rd pfa f s).mgmt = s.mgmt := by
  simp [issueMedia]

@[simp] theorem addIRead_mgmt (u : ReadUse) (line : Nat) (st : FillStage) (s : State) :
    (addIRead u line st s).2.mgmt = s.mgmt := by
  simp [addIRead]

@[simp] theorem readMedia_mgmt (u : ReadUse) (pfa line : Nat) (s : State) : (readMedia u pfa line s).mgmt = s.mgmt := by
  simp [readMedia]

@[simp] theorem readFrame_mgmt (u : ReadUse) (lfa pfa : Nat) (s : State) : (readFrame u lfa pfa s).mgmt = s.mgmt := by
  simp [readFrame, mgmt_foldl]

@[simp] theorem reply_mgmt (src : Src) (rtag : Nat) (isData : Bool) (data : HostLine) (poison : Bool) (status load addr : Nat) (s : State) :
    (reply src rtag isData data poison status load addr s).mgmt = s.mgmt := by
  unfold reply
  split <;> simp

@[simp] theorem checkReleases_managed (s : State) : managed (checkReleases s).mgmt = managed s.mgmt := by
  simp [checkReleases, managed_foldl]

@[simp] theorem finish_managed (tag : Nat) (data : HostLine) (poison : Bool) (status outcome : Nat) (s : State) :
    managed (finish tag data poison status outcome s).mgmt = managed s.mgmt := by
  unfold finish
  repeat' split
  all_goals simp

@[simp] theorem modReq_mgmt (tag : Nat) (f : Req → Req) (s : State) : (modReq tag f s).mgmt = s.mgmt := by
  unfold modReq
  split <;> simp

@[simp] theorem markUrgent_mgmt (lfa : Nat) (s : State) : (markUrgent lfa s).mgmt = s.mgmt := by simp [markUrgent]

@[simp] theorem urgentAll_mgmt (s : State) : (urgentAll s).mgmt = s.mgmt := by simp [urgentAll, mgmt_foldl]

@[simp] theorem takeWseq_mgmt (s : State) : (takeWseq s).2.mgmt = s.mgmt := by simp [takeWseq]

@[simp] theorem addAsm_mgmt (a : Asm) (s : State) : (addAsm a s).mgmt = s.mgmt := by simp [addAsm]

@[simp] theorem creditDrains_mgmt (s : State) : (creditDrains s).mgmt = s.mgmt := by simp [creditDrains]

@[simp] theorem writeRun_mgmt (r : RunRec) (s : State) : (writeRun r s).mgmt = s.mgmt := by simp [writeRun]

@[simp] theorem openRun_mgmt (s : State) : (openRun s).mgmt = s.mgmt := by
  unfold openRun
  split <;> simp

@[simp] theorem checkRunClosed_managed (s : State) : managed (checkRunClosed s).mgmt = managed s.mgmt := by
  unfold checkRunClosed
  split <;> simp

@[simp] theorem modeByBudget_managed (s : State) : managed (modeByBudget s).mgmt = managed s.mgmt := by simp [modeByBudget]

@[simp] theorem budgetLow_mgmt (s : State) : (budgetLow s).mgmt = s.mgmt := by simp [budgetLow]

@[simp] theorem setBudget_managed (b : Nat) (s : State) : managed (setBudget b s).mgmt = managed s.mgmt := by simp [setBudget]

@[simp] theorem budgetUpdate_managed (s : State) : managed (budgetUpdate s).mgmt = managed s.mgmt := by simp [budgetUpdate]

@[simp] theorem abandonMeasure_managed (s : State) : managed (abandonMeasure s).mgmt = managed s.mgmt := by
  unfold abandonMeasure
  dsimp only
  repeat' split
  all_goals simp

@[simp] theorem abandonPass_managed (rc : Rc) (s : State) : managed (abandonPass rc s).mgmt = managed s.mgmt := by
  unfold abandonPass
  dsimp only
  repeat' split
  all_goals simp

@[simp] theorem setRack_mgmt (r : Rack) (s : State) : (setRack r s).mgmt = s.mgmt := by simp [setRack]

@[simp] theorem endRack_managed (g : Nat) (s : State) : managed (endRack g s).mgmt = managed s.mgmt := by
  unfold endRack
  dsimp only
  split <;> simp

@[simp] theorem startCopy_mgmt (lfa origin prio : Nat) (s : State) : (startCopy lfa origin prio s).mgmt = s.mgmt := by
  unfold startCopy
  repeat' split
  all_goals simp

@[simp] theorem nextCopy_mgmt (g : Nat) (s : State) : (nextCopy g s).mgmt = s.mgmt := by
  unfold nextCopy
  repeat' split
  all_goals simp

@[simp] theorem dropRack_mgmt (g : Nat) (s : State) : (dropRack g s).mgmt = s.mgmt := by simp [dropRack]

@[simp] theorem stopRack_mgmt (g : Nat) (s : State) : (stopRack g s).mgmt = s.mgmt := by
  unfold stopRack
  split <;> simp

@[simp] theorem rackStep3_managed (g : Nat) (s : State) : managed (rackStep3 g s).mgmt = managed s.mgmt := by
  unfold rackStep3
  split <;> simp

@[simp] theorem resumeRacks_managed (s : State) : managed (resumeRacks s).mgmt = managed s.mgmt := by simp [resumeRacks, managed_foldl]

@[simp] theorem setPps_mgmt (p : PpsState) (s : State) : (setPps p s).mgmt = s.mgmt := by simp [setPps]

@[simp] theorem releaseHeld_mgmt (s : State) : (releaseHeld s).mgmt = s.mgmt := by simp [releaseHeld]

theorem abortOp_managed {c op : Nat} {s t : State} (h : abortOp c op s = some t) : managed t.mgmt = managed s.mgmt := by
  unfold abortOp at h
  dsimp only at h
  repeat' split at h
  case isFalse.isFalse.isFalse.isFalse => cases h
  all_goals
    cases h
    simp [managed_foldl]

@[simp] theorem abortBg_managed (s : State) (c : Nat) : managed (abortBg s c).mgmt = managed s.mgmt := by
  unfold abortBg
  split
  · split
    · rfl
    · split
      · next t ht => exact abortOp_managed ht
      · simp
  · rfl

@[simp] theorem detect_mgmt (src : Src) (t line : Nat) (s : State) : (detect src t line s).2.mgmt = s.mgmt := by
  unfold detect
  split <;> simp

@[simp] theorem joinQueue_mgmt (tag : Nat) (r : Req) (s : State) : (joinQueue tag r s).mgmt = s.mgmt := by
  simp [joinQueue]

@[simp] theorem dropRemote_mgmt (tag : Nat) (s : State) : (dropRemote tag s).mgmt = s.mgmt := by simp [dropRemote]

@[simp] theorem sendRemote_managed (tag : Nat) (s : State) : managed (sendRemote tag s).mgmt = managed s.mgmt := by
  unfold sendRemote
  split <;> simp

@[simp] theorem toRemote_managed (tag dev addr : Nat) (eng pri : Bool) (s : State) :
    managed (toRemote tag dev addr eng pri s).mgmt = managed s.mgmt := by
  unfold toRemote
  split <;> simp

@[simp] theorem deny_managed (tag status : Nat) (metered : Bool) (s : State) :
    managed (deny tag status metered s).mgmt = managed s.mgmt := by
  unfold deny
  dsimp only
  split <;> simp

@[simp] theorem enterClass_mgmt (tag : Nat) (eng : Bool) (r : Req) (s : State) :
    (enterClass tag eng r s).2.mgmt = s.mgmt := by
  unfold enterClass
  dsimp only
  repeat' split
  all_goals simp

@[simp] theorem sendOn_managed (tag : Nat) (eng : Bool) (r : Req) (v : Verdict) (s : State) :
    managed (sendOn tag eng r v s).mgmt = managed s.mgmt := by
  unfold sendOn
  split <;> simp

@[simp] theorem classifyReq_managed (tag : Nat) (eng : Bool) (r : Req) (s : State) :
    managed (classifyReq tag eng r s).mgmt = managed s.mgmt := by
  unfold classifyReq
  split <;> simp

theorem receive_managed {eng : Bool} {r : Req} {s t : State} (h : receive eng r s = some t) : managed t.mgmt = managed s.mgmt := by
  unfold receive at h
  split at h
  · cases h
  · cases h
    simp

@[simp] theorem overrun_mgmt (ds : Nat) (s : State) : (overrun ds s).mgmt = s.mgmt := by simp [overrun]

theorem issueStep_managed {e : Nat} {x : Engine} {op : ReqOp} {addr : Nat} {data : HostLine} {be : W64} {poison : Bool} {bytes : Nat}
    {s t : State} (h : issueStep e x op addr data be poison bytes s = some t) : managed t.mgmt = managed s.mgmt := by
  unfold issueStep at h
  rw [receive_managed h, setEngine_mgmt]

@[simp] theorem releaseUnit_mgmt (e : Nat) (s : State) : (releaseUnit e s).mgmt = s.mgmt := by simp [releaseUnit]

theorem writeBack_managed {e : Nat} {x : Engine} {r : DescRing} {s t : State} (h : writeBack e x r s = some t) :
    managed t.mgmt = managed s.mgmt := by
  unfold writeBack at h
  rw [issueStep_managed h, releaseUnit_mgmt]

end Sys2Proof.Machine

/-!
Boot, firmware transfer and activation, supervisors, the hub and attestation (17_management_and_mailbox.md R512 to R520,
01_architecture.md R34 to R43).
-/
namespace Sys2Proof.Machine
open Sys2Proof.Safety

theorem slotNo_le_one {slot n : Nat} (h : slotNo slot = some n) : n ≤ 1 := by
  rw [slotNo] at h
  split at h
  · cases h; decide
  · split at h <;> cases h
    decide

/-- A slot, just written. -/
theorem slotImage_setSlotImage {n : Nat} (hn : n ≤ 1) (x : Option (List Byte)) (s : State) : slotImage (setSlotImage n x s) n = x := by
  obtain rfl | rfl : n = 0 ∨ n = 1 := by omega
  all_goals rfl

theorem slotImage_complete (c op n : Nat) (rc : Rc) (out : CmdOut) (s : State) : slotImage (complete c op rc out s) n = slotImage s n := rfl

/-- Without a transfer or an activation in progress, the slot that is not ACTIVE may be opened (R518). -/
theorem mayOpenSlot_of_idle {slot n : Nat} {s : State} (hslot : slotNo slot = some n) (hactive : n ≠ s.mgmt.active)
    (htransfer : s.mgmt.transfer = none) (hactivation : s.mgmt.activation = none) : mayOpenSlot slot s = .inr n := by
  rw [mayOpenSlot, hslot]
  dsimp only
  rw [if_neg hactive, htransfer, hactivation]
  rfl

/-- What the check of an image reads: the revoked keys, and the rollback counter in the cellar book (R513). -/
theorem imageValid_congr {s t : State} (hrevoked : t.mgmt.revoked = s.mgmt.revoked) (hspread : t.cellar.spread = s.cellar.spread)
    (x : List Byte) : imageValid t x = imageValid s x := by
  have hkey : keyOk t x = keyOk s x := by rw [keyOk, keyOk, hrevoked]
  have hroll : rollbackCounter t = rollbackCounter s := by simp only [rollbackCounter, spreadRead, hspread]
  rw [imageValid, imageValid, hkey, hroll]

/-- Opening a slot changes no key and no counter. -/
theorem imageValid_openSlot (n : Nat) (s : State) (x : List Byte) : imageValid (dropTransfer (openSlot n s)) x = imageValid s x := by
  refine imageValid_congr ?_ ?_ x
  all_goals
    rw [openSlot, setSlotImage]
    dsimp only
    repeat' split
    all_goals rfl

/-- Opening a slot empties it. -/
theorem slotImage_openSlot {n : Nat} (hn : n ≤ 1) (s : State) : slotImage (openSlot n s) n = none := by
  rw [openSlot]
  dsimp only
  split
  · exact slotImage_setSlotImage hn none s
  · exact slotImage_setSlotImage hn none s

theorem time_openSlot (n : Nat) (s : State) : (openSlot n s).time = s.time := by
  rw [openSlot, setSlotImage]
  dsimp only
  repeat' split
  all_goals rfl

theorem transfer_setSlotImage (n : Nat) (x : Option (List Byte)) (s : State) : (setSlotImage n x s).mgmt.transfer = s.mgmt.transfer := by
  rw [setSlotImage]
  repeat' split
  all_goals rfl

/-- A transfer ends with a verified image in its slot, or with a failed verification (R513, R518). -/
theorem settle_closeSlot {n : Nat} (c : Fin 10) (s s0 : State) (x : List Byte) (hn : n ≤ 1) :
    slotImage (settle c 0x0201 s0 (closeSlot n x s)) n =
        (if imageValid (dropTransfer s) x then some x else slotImage s n) ∧
      (settle c 0x0201 s0 (closeSlot n x s)).mgmt.transfer = none ∧
      (cciOf (settle c 0x0201 s0 (closeSlot n x s)) c).rc =
        if imageValid (dropTransfer s) x then .success else .fwVerificationFailed := by
  rw [closeSlot]
  split
  · rw [settle_done (Nat.zero_le _)]
    exact ⟨slotImage_setSlotImage hn _ _, transfer_setSlotImage .., rc_complete ..⟩
  · exact ⟨rfl, rfl, rc_complete ..⟩

/-- The part that continues an interface's own transfer is taken (R518). -/
theorem partOf_of_next {c off : Nat} {data : List Byte} {x : FwTransfer} {s : State} (hx : s.mgmt.transfer = some x) (hc : x.cci = c)
    (hoff : x.data.length = 128 * off) (hlen : x.data.length + data.length ≤ slotBytes) : partOf_ c off data s = .inr x := by
  rw [partOf_, hx]
  dsimp only
  rw [if_neg (Classical.not_not.mpr hc), if_neg (Classical.not_not.mpr hoff), if_neg (Nat.not_lt.mpr hlen)]

@[simp] theorem failWaiting_managed (n : Nat) (rc : Rc) (s : State) : managed (failWaiting n rc s).mgmt = managed s.mgmt := by
  refine managed_foldl _ _ (fun s a => ?_) s
  repeat' split
  all_goals rfl

/-- The count towards boot-good begins again (R515). -/
def recountGood (s : State) : State := { s with mgmt := { s.mgmt with goodSince := s.mgmt.goodSince.map fun _ => s.time.mono } }

/-- A restart moves its supervisor, and the count towards boot-good (R40, R515). -/
theorem restartSup_managed (n : Nat) (x : SupSt) (s : State) :
    managed (restartSup n x s).mgmt = managed (recountGood (setSup n { x with mode := .restarting, restarts := x.restarts + 1 } s)).mgmt := by
  rw [restartSup]
  dsimp only
  rw [failWaiting_managed]
  split
  · subst n
    rfl
  · rfl

/-- The activation and ACTIVE, which no restart changes. -/
def activationOf (s : State) : Option FwActivation × Nat := (s.mgmt.activation, s.mgmt.active)

theorem activationOf_of_managed {s t : State} (h : managed t.mgmt = managed s.mgmt) : activationOf t = activationOf s :=
  congrArg (fun m => (m.activation, m.active)) h

theorem setSup_activationOf (n : Nat) (x : SupSt) (s : State) : activationOf (setSup n x s) = activationOf s := by
  rw [setSup]
  repeat' split
  all_goals rfl

theorem restartSup_activationOf (n : Nat) (x : SupSt) (s : State) : activationOf (restartSup n x s) = activationOf s :=
  (activationOf_of_managed (restartSup_managed n x s)).trans (setSup_activationOf ..)

/-- A rolled back activation ends, and leaves ACTIVE as it was (R519). -/
theorem rollBackFw_ends {a : FwActivation} {s : State} (rc : Rc) (ha : s.mgmt.activation = some a) :
    (rollBackFw rc s).mgmt.activation = none ∧ (rollBackFw rc s).mgmt.active = s.mgmt.active := by
  have hkept : activationOf (rollBackFw rc s) = (none, s.mgmt.active) := by
    rw [rollBackFw, ha]
    dsimp only
    rw [keeps_foldl activationOf, activationOf_of_managed (endBgOn_managed ..)]
    · rfl
    · intro t n
      split
      · split
        · exact restartSup_activationOf ..
        · rfl
      · rfl
  exact Prod.mk.inj hkept

/-- ACTIVE, NEXT, and the count towards boot-good. -/
def nextOf (s : State) : Nat × Option Nat × Option Nat := (s.mgmt.active, s.mgmt.nextSlot, s.mgmt.goodSince)

theorem nextOf_eq_iff {t : State} {n : Nat} {next good : Option Nat} :
    nextOf t = (n, next, good) ↔ t.mgmt.active = n ∧ t.mgmt.nextSlot = next ∧ t.mgmt.goodSince = good := by
  simp [nextOf]

theorem blowFuses_nextOf (x : List Byte) (s : State) : nextOf (blowFuses x s) = nextOf s := by
  refine keeps_foldl nextOf _ _ (fun s k => ?_) s
  split
  all_goals rfl

/-! ### Boot -/

theorem supOf_congr {s t : State} (h : managed t.mgmt = managed s.mgmt) (n : Nat) : supOf t n = supOf s n := by
  have hhost : t.mgmt.host = s.mgmt.host := show (managed t.mgmt).host = (managed s.mgmt).host from congrArg _ h
  have hmedia : t.mgmt.media = s.mgmt.media := show (managed t.mgmt).media = (managed s.mgmt).media from congrArg _ h
  have hfabric : t.mgmt.fabric = s.mgmt.fabric := show (managed t.mgmt).fabric = (managed s.mgmt).fabric from congrArg _ h
  have hplatform : t.mgmt.platform = s.mgmt.platform := show (managed t.mgmt).platform = (managed s.mgmt).platform from congrArg _ h
  rw [supOf, supOf, hhost, hmedia, hfabric, hplatform]

theorem supOf_setSup_same {n : Nat} {s : State} (hn : supOf s n ≠ none) (x : SupSt) : supOf (setSup n x s) n = some x := by
  obtain rfl | rfl | rfl | rfl | ⟨h1, h2, h3, h4⟩ : n = 1 ∨ n = 2 ∨ n = 3 ∨ n = 4 ∨ n ≠ 1 ∧ n ≠ 2 ∧ n ≠ 3 ∧ n ≠ 4 := by omega
  case inr.inr.inr.inr => exact absurd (by simp [supOf, h1, h2, h3, h4]) hn
  all_goals rfl

theorem supOf_setSup_other {m n : Nat} (hmn : m ≠ n) (x : SupSt) (s : State) : supOf (setSup n x s) m = supOf s m := by
  obtain rfl | rfl | rfl | rfl | ⟨h1, h2, h3, h4⟩ : n = 1 ∨ n = 2 ∨ n = 3 ∨ n = 4 ∨ n ≠ 1 ∧ n ≠ 2 ∧ n ≠ 3 ∧ n ≠ 4 := by omega
  case inr.inr.inr.inr => rw [setSup, if_neg h1, if_neg h2, if_neg h3, if_neg h4]
  all_goals simp only [supOf, setSup, hmn, if_false, if_true, Nat.reduceEqDiff]

/-- A supervisor's sequencers take the microcode of the image in a slot, if it holds one (R33, R512). -/
def loadSlot (n slot : Nat) (s : State) : State :=
  match slotImage s slot with
  | some x => loadMicrocode n x s
  | none => s

theorem supOf_loadSlot (n slot m : Nat) (s : State) : supOf (loadSlot n slot s) m = supOf s m := by
  rw [loadSlot]
  split <;> rfl

/-- The firmware version in a slot, 0 while it is empty. -/
def slotVersion (s : State) (slot : Nat) : Nat :=
  match slotImage s slot with
  | some x => fwVersion x
  | none => 0

/-- A start, up to the rackings that a media supervisor resumes (R40). -/
theorem startSup_managed {n : Nat} {s : State} {x : SupSt} (slot : Nat) (hx : supOf s n = some x) :
    managed (startSup n slot s).mgmt =
      managed (setSup n { x with mode := .running, slot := slot, version := slotVersion s slot } (loadSlot n slot s)).mgmt := by
  have hstart : startSup n slot s =
      match supOf (loadSlot n slot s) n with
      | some x =>
        let t := setSup n { x with mode := .running, slot := slot, version := slotVersion s slot } (loadSlot n slot s)
        if n = 2 then resumeRacks t else t
      | none => loadSlot n slot s := rfl
  rw [hstart, supOf_loadSlot, hx]
  dsimp only
  split
  · exact resumeRacks_managed _
  · rfl

/-- A supervisor that starts runs a slot (R40). -/
theorem supOf_startSup_same {n : Nat} {s : State} {x : SupSt} (slot : Nat) (hx : supOf s n = some x) :
    supOf (startSup n slot s) n = some { x with mode := .running, slot := slot, version := slotVersion s slot } := by
  refine (supOf_congr (startSup_managed slot hx) n).trans (supOf_setSup_same ?_ _)
  rw [supOf_loadSlot, hx]
  exact Option.some_ne_none x

theorem supOf_startSup_other {m n : Nat} (hmn : m ≠ n) (slot : Nat) {s : State} (hn : supOf s n ≠ none) :
    supOf (startSup n slot s) m = supOf s m := by
  obtain ⟨x, hx⟩ := Option.ne_none_iff_exists'.mp hn
  rw [supOf_congr (startSup_managed slot hx), supOf_setSup_other hmn, supOf_loadSlot]

/-- Whether the complex runs, and ACTIVE. -/
def bootOf (s : State) : Bool × Nat := (s.mgmt.running, s.mgmt.active)

theorem bootOf_of_managed {s t : State} (h : managed t.mgmt = managed s.mgmt) : bootOf t = bootOf s :=
  congrArg (fun m => (m.running, m.active)) h

theorem bootOf_startSup (n slot : Nat) {s : State} (hn : supOf s n ≠ none) : bootOf (startSup n slot s) = bootOf s := by
  obtain ⟨x, hx⟩ := Option.ne_none_iff_exists'.mp hn
  rw [bootOf_of_managed (startSup_managed slot hx), setSup, loadSlot]
  repeat' split
  all_goals rfl

/-- The supervisors start on a slot, which is the running one (R512). -/
def bootOn (n : Nat) (s : State) : State :=
  let t := [1, 2, 3, 4].foldl (fun s k => startSup k n s) s
  { t with mgmt := { t.mgmt with recovery := false, runSlot := some n, goodSince := some t.time.mono } }

theorem supOf_ne_none {k : Nat} (hk : 1 ≤ k ∧ k ≤ 4) (s : State) : supOf s k ≠ none := by
  obtain rfl | rfl | rfl | rfl : k = 1 ∨ k = 2 ∨ k = 3 ∨ k = 4 := by omega
  all_goals exact Option.some_ne_none _

theorem bootOf_bootOn (n : Nat) (s : State) : bootOf (bootOn n s) = bootOf s := by
  change bootOf (startSup 4 n (startSup 3 n (startSup 2 n (startSup 1 n s)))) = _
  rw [bootOf_startSup 4 n (supOf_ne_none (by decide) _), bootOf_startSup 3 n (supOf_ne_none (by decide) _),
    bootOf_startSup 2 n (supOf_ne_none (by decide) _), bootOf_startSup 1 n (supOf_ne_none (by decide) _)]

/-- A supervisor that has started runs; the start of another one leaves it running (R512). -/
theorem mode_startSup {k m slot : Nat} {s : State} (hk : 1 ≤ k ∧ k ≤ 4)
    (hm : m = k ∨ (supOf s m).map (·.mode) = some .running) : (supOf (startSup k slot s) m).map (·.mode) = some .running := by
  by_cases hmk : m = k
  · subst hmk
    obtain ⟨x, hx⟩ := Option.ne_none_iff_exists'.mp (supOf_ne_none hk s)
    rw [supOf_startSup_same slot hx]
    rfl
  · rw [supOf_startSup_other hmk slot (supOf_ne_none hk s)]
    exact hm.resolve_left hmk

/-- After a boot each supervisor runs (R512). -/
theorem mode_startSups {l : List Nat} {k n : Nat} {s : State} (hl : ∀ j ∈ l, 1 ≤ j ∧ j ≤ 4)
    (hk : k ∈ l ∨ (supOf s k).map (·.mode) = some .running) :
    (supOf (l.foldl (fun s j => startSup j n s) s) k).map (·.mode) = some .running := by
  induction l generalizing s with
  | nil => exact hk.resolve_left List.not_mem_nil
  | cons j l ih =>
    refine ih (fun i hi => hl i (List.mem_cons_of_mem j hi)) ?_
    by_cases hkl : k ∈ l
    · exact .inl hkl
    · refine .inr (mode_startSup (hl j List.mem_cons_self) (hk.imp_left fun h => ?_))
      exact (List.mem_cons.mp h).resolve_right hkl

theorem mode_bootOn {k : Nat} (hk : k ∈ [1, 2, 3, 4]) (n : Nat) (s : State) : (supOf (bootOn n s) k).map (·.mode) = some .running :=
  mode_startSups (by decide) (.inl hk)

/-- The four supervisors run after a boot (R512). -/
theorem modes_bootOn (n : Nat) (s : State) :
    (bootOn n s).mgmt.host.mode = .running ∧ (bootOn n s).mgmt.media.mode = .running ∧ (bootOn n s).mgmt.fabric.mode = .running ∧
      (bootOn n s).mgmt.platform.mode = .running :=
  ⟨Option.some.inj (mode_bootOn (k := 1) (by decide) n s), Option.some.inj (mode_bootOn (k := 2) (by decide) n s),
    Option.some.inj (mode_bootOn (k := 3) (by decide) n s), Option.some.inj (mode_bootOn (k := 4) (by decide) n s)⟩

theorem phases_markPhase (n : Nat) (s : State) : (markPhase n s).start.phases.contains n = true := by
  rw [markPhase]
  split
  · assumption
  · simp

theorem markPhase_mgmt (n : Nat) (s : State) : (markPhase n s).mgmt = s.mgmt := by
  rw [markPhase]
  split <;> rfl

/-- Core 0 runs (R512). -/
def powerOn (s : State) : State := { s with mgmt := { s.mgmt with running := true } }

/-- What the boot ROM does with its selection (R512, R516). -/
def bootWith (r : Option Nat × State) : Res :=
  match r.1 with
  | none => .next (markPhase 5 { r.2 with mgmt := { r.2.mgmt with recovery := true } })
  | some n => .next (markPhase 5 (bootOn n r.2))

/-- A boot without a NEXT slot (R512, R515, R516). -/
theorem exec_bootRom {s : State} (hrun : s.mgmt.running = false) (hrails : railsGood s = true) (hdom : domOf s 10 = .running)
    (h3 : s.start.phases.contains 3 = true) (h5 : s.start.phases.contains 5 = false) (hnext : s.mgmt.nextSlot = none) :
    exec .bootRom s = bootWith (bootActive (powerOn s)) := by
  have hselect : bootSelect (powerOn s) = bootActive (powerOn s) := by
    rw [bootSelect, show (powerOn s).mgmt.nextSlot = none from hnext]
  have hboot : execBootRom s = bootWith (bootSelect (powerOn s)) := by
    rw [execBootRom, hrun, hrails, hdom, h3, h5, if_neg (by simp)]
    rfl
  exact hboot.trans (congrArg bootWith hselect)

theorem bootActive_of_valid {s : State} (h : slotValid s s.mgmt.active = true) :
    bootActive (powerOn s) = (some s.mgmt.active, powerOn s) := if_pos h

theorem bootActive_of_other {s : State} (h : slotValid s s.mgmt.active = false) (h' : slotValid s (1 - s.mgmt.active) = true) :
    bootActive (powerOn s) = (some (1 - s.mgmt.active), logSlot (1 - s.mgmt.active) 3
      (writeFwSlot { powerOn s with mgmt := { (powerOn s).mgmt with active := 1 - s.mgmt.active } })) :=
  (if_neg (Bool.eq_false_iff.mp h)).trans (if_pos h')

theorem bootActive_of_invalid {s : State} (h : slotValid s s.mgmt.active = false) (h' : slotValid s (1 - s.mgmt.active) = false) :
    bootActive (powerOn s) = (none, powerOn s) :=
  (if_neg (Bool.eq_false_iff.mp h)).trans (if_neg (Bool.eq_false_iff.mp h'))

theorem logSlot_mgmt (n cause : Nat) (s : State) : (logSlot n cause s).mgmt = s.mgmt := rfl

theorem writeFwSlot_mgmt (s : State) : (writeFwSlot s).mgmt = s.mgmt := by
  rw [writeFwSlot, cellarCommitNow]
  repeat' split
  all_goals rfl

/-- A part that fits in a payload is taken (R518, R522). -/
theorem transferFw_reply {c : Fin 10} {data : List Byte} {body : State → Reply} {s : State} {r : Res}
    (hr : r = transferFw c data body s) (h : Takes s c 0x0201) (hlen : data.length ≤ if c.val < 8 then 65536 else 4096) :
    r = .next (settle c 0x0201 s (body s)) :=
  mailbox_reply (bg := false) hr h (decide_eq_true hlen) rfl rfl

/-- Settles O4: boot is split by which of the two slots holds a valid image (R512, R513); each command follows from what it does
to its slot: a part taken, a slot closed, a switch to the new image (R515, R517 to R519). -/
theorem firmwareCommandsComplete : Obligations.FirmwareCommandsComplete := by
  refine ⟨fun s hrun hrails hdom h3 h5 hnext => ?bootRom,
    fun s t0 n x hgood hslot himage htime hrun hnodes hnext htries => ?bootGood,
    fun c slot n x s h hslot hactive htransfer hactivation hlen => ?full,
    fun c slot n d s h hslot hactive htransfer hactivation hlen => ?initiate,
    fun c x off d s h hx hc hoff hlen hfit => ?continue_, fun c x off d s h hx hc hoff hlen hfit hslot => ?end_,
    fun c x s h hx hc => ?abort, fun x s hx htime => ?idle, fun c slot n s h hslot himage => ?cold,
    fun c slot n x y s h hbg hslot himage hrun honline hminor hucode hactivation hnodes => ?online,
    fun a s ha => ?watchdog, fun c s h hnext => ?info⟩
  case bootRom =>
    have hexec := exec_bootRom hrun hrails hdom h3 h5 hnext
    cases hactive : slotValid s s.mgmt.active with
    | true =>
      rw [bootActive_of_valid hactive] at hexec
      obtain ⟨hon, -⟩ := Prod.mk.inj (bootOf_bootOn s.mgmt.active (powerOn s))
      refine After.intro hexec ⟨?_, phases_markPhase .., fun _ => ?_, fun h => ?_, fun h => ?_⟩
      · rw [markPhase_mgmt, hon]
        rfl
      · rw [markPhase_mgmt]
        exact ⟨rfl, rfl, modes_bootOn ..⟩
      · cases h
      · cases h
    | false =>
      cases hother : slotValid s (1 - s.mgmt.active) with
      | true =>
        rw [bootActive_of_other hactive hother] at hexec
        obtain ⟨hon, hslot⟩ := Prod.mk.inj (bootOf_bootOn (1 - s.mgmt.active) (logSlot (1 - s.mgmt.active) 3
          (writeFwSlot { powerOn s with mgmt := { (powerOn s).mgmt with active := 1 - s.mgmt.active } })))
        refine After.intro hexec ⟨?_, phases_markPhase .., fun h => ?_, fun _ _ => ?_, fun _ h => ?_⟩
        · rw [markPhase_mgmt, hon, logSlot_mgmt, writeFwSlot_mgmt]
          rfl
        · cases h
        · rw [markPhase_mgmt, hslot, logSlot_mgmt, writeFwSlot_mgmt]
          exact ⟨rfl, rfl, rfl⟩
        · cases h
      | false =>
        rw [bootActive_of_invalid hactive hother] at hexec
        refine After.intro hexec ⟨?_, phases_markPhase .., fun h => ?_, fun _ h => ?_, fun _ _ => ?_⟩
        · rw [markPhase_mgmt]
          rfl
        · cases h
        · cases h
        · rw [markPhase_mgmt]
          exact ⟨rfl, rfl, rfl, rfl, rfl⟩
  case bootGood =>
    have hexec : exec .bootGood s = execBootGood s := rfl
    rw [execBootGood, hgood, hslot, himage] at hexec
    dsimp only at hexec
    have hstaged : s.mgmt.nextSlot = some n ∧ 0 < s.mgmt.tries := ⟨hnext, htries⟩
    rw [if_neg (by simp [hnodes, hrun]; omega), if_pos hstaged] at hexec
    refine After.intro hexec (nextOf_eq_iff.mp ?_)
    rw [blowFuses_nextOf]
    split
    all_goals rfl
  case full =>
    have hreply := transferFw_reply (r := execTransferFwFull c slot x s) rfl h hlen
    rw [mayOpenSlot_of_idle hslot hactive htransfer hactivation] at hreply
    dsimp only at hreply
    obtain ⟨himage, htrans, hrc⟩ := settle_closeSlot c (openSlot n s) s x (slotNo_le_one hslot)
    rw [imageValid_openSlot] at himage hrc
    rw [slotImage_openSlot (slotNo_le_one hslot)] at himage
    exact After.intro hreply ⟨himage, htrans, hrc⟩
  case initiate =>
    have hreply := transferFw_reply (r := execTransferFwInitiate c slot d s) rfl h hlen
    rw [mayOpenSlot_of_idle hslot hactive htransfer hactivation] at hreply
    dsimp only at hreply
    rw [settle_done (Nat.zero_le _), time_openSlot] at hreply
    exact After.intro hreply ⟨slotImage_openSlot (slotNo_le_one hslot) s, rfl, rc_complete ..⟩
  case continue_ =>
    have hreply := transferFw_reply (r := execTransferFwContinue c off d s) rfl h hlen
    rw [partOf_of_next hx (by simp [hc]) hoff hfit] at hreply
    rw [settle_done (Nat.zero_le _)] at hreply
    exact hreply
  case end_ =>
    have hreply := transferFw_reply (r := execTransferFwEnd c off d s) rfl h hlen
    rw [partOf_of_next hx (by simp [hc]) hoff hfit] at hreply
    obtain ⟨himage, htrans, hrc⟩ := settle_closeSlot c s s (x.data ++ d) hslot
    exact After.intro hreply ⟨htrans, himage, hrc⟩
  case abort =>
    exact standard_done (r := execTransferFwAbort c s) rfl h (by rw [hx]; exact if_neg (Classical.not_not.mpr hc))
  case idle =>
    change execFwTransferIdleTimeout s = _
    rw [execFwTransferIdleTimeout, hx]
    exact if_pos htime
  case cold =>
    refine standard_commit (r := execActivateFwCold c slot s) rfl h ?_
    rw [hslot]
    dsimp only
    rw [if_neg (by simpa [Option.isSome_iff_ne_none] using himage)]
    rfl
  case online =>
    have hreply := mailbox_reply (r := execActivateFwOnline c slot s) rfl h rfl rfl (by simp [hbg])
    rw [hslot] at hreply
    dsimp only at hreply
    rw [himage, hrun] at hreply
    dsimp only at hreply
    rw [honline, hminor, hucode, if_neg (by simp), hactivation, hnodes, if_neg (by simp)] at hreply
    exact hreply
  case watchdog => exact After.intro rfl (rollBackFw_ends .activationRolledBack ha)
  case info =>
    refine standard_done (r := execGetFwInfo c s) rfl h ?_
    rw [hnext]
/-! ### Supervisors, the hub and diagnostics -/

theorem supOf_recountGood (s : State) (n : Nat) : supOf (recountGood s) n = supOf s n := rfl

/-- A supervisor that restarts is held in reset, and its restarts are counted (R40). -/
theorem supOf_restartSup {n : Nat} {s : State} (hn : supOf s n ≠ none) (x : SupSt) :
    supOf (restartSup n x s) n = some { x with mode := .restarting, restarts := x.restarts + 1 } := by
  rw [supOf_congr (restartSup_managed n x s), supOf_recountGood, supOf_setSup_same hn]

/-- A supervisor that is halted (R42). -/
theorem supOf_halt {n : Nat} {s : State} (hn : supOf s n ≠ none) (x : SupSt) {src code p0 p1 p2 : Nat} {rc : Rc} :
    supOf (raise src code p0 p1 p2 (failWaiting n rc (setSup n x s))) n = some x := by
  have hkept : managed (raise src code p0 p1 p2 (failWaiting n rc (setSup n x s))).mgmt = managed (setSup n x s).mgmt := by
    rw [raise_mgmt, failWaiting_managed]
  rw [supOf_congr hkept, supOf_setSup_same hn]

theorem restarting_managed (m : MgmtSt) : (managed m).restarting = m.restarting := rfl

theorem debugAccess_managed (m : MgmtSt) : (managed m).debugAccess = m.debugAccess := rfl

/-- The management cores run again (R43). -/
def resumed (s : State) : State := { s with mgmt := { s.mgmt with restarting := false } }

/-- The foreground command of an interface, if one waits, is completed with Internal Error (R43). -/
def failCci (s : State) (c : Nat) : State :=
  match (cciOf s c).wait with
  | some (op, _) => complete c op .internalError .none s
  | none => s

theorem failCci_managed (s : State) (c : Nat) : managed (failCci s c).mgmt = managed s.mgmt := by
  rw [failCci]
  split <;> rfl

theorem cciOf_failCci_other {c d : Nat} (hdc : d ≠ c) (s : State) : cciOf (failCci s c) d = cciOf s d := by
  rw [failCci]
  split
  · rw [complete, cciOf_setCci_other _ _ _ _ hdc]
  · rfl

/-- An interface without a waiting command is left as it is. -/
theorem cciOf_foldl_failCci_of_none {c : Nat} (l : List Nat) {s : State} (hwait : (cciOf s c).wait = none) :
    cciOf (l.foldl failCci s) c = cciOf s c := by
  induction l generalizing s with
  | nil => rfl
  | cons d l ih =>
    have hstep : cciOf (failCci s d) c = cciOf s c := by
      by_cases hcd : c = d
      · subst hcd
        rw [failCci, hwait]
      · exact cciOf_failCci_other hcd s
    rw [List.foldl_cons, ih (by rw [hstep, hwait]), hstep]

/-- A waiting command of one of the interfaces ends with Internal Error. -/
theorem cciOf_foldl_failCci {c op : Nat} {out : CmdOut} {l : List Nat} (hc : c ∈ l) {s : State}
    (hwait : (cciOf s c).wait = some (op, out)) :
    (cciOf (l.foldl failCci s) c).wait = none ∧ (cciOf (l.foldl failCci s) c).rc = .internalError := by
  induction l generalizing s with
  | nil => cases hc
  | cons d l ih =>
    rw [List.foldl_cons]
    by_cases hcd : c = d
    · subst hcd
      have hstep : failCci s c = complete c op .internalError .none s := by rw [failCci, hwait]
      have hdone : (cciOf (failCci s c) c).wait = none := by rw [hstep, cciOf_complete_same]
      rw [cciOf_foldl_failCci_of_none l hdone]
      exact ⟨hdone, by rw [hstep, rc_complete]⟩
    · exact ih ((List.mem_cons.mp hc).resolve_left hcd) (by rw [cciOf_failCci_other hcd, hwait])

/-- A rolled back activation has ended. -/
theorem activation_rollBackFw (rc : Rc) (s : State) : (rollBackFw rc s).mgmt.activation = none := by
  cases ha : s.mgmt.activation with
  | none => rw [rollBackFw, ha]; exact ha
  | some a => exact (rollBackFw_ends rc ha).1

theorem fillLocks_mgmt (n : Nat) (s : State) : (fillLocks n s).mgmt = s.mgmt := by
  induction n generalizing s with
  | zero => rfl
  | succ n ih =>
    rw [fillLocks]
    split
    · rfl
    · split
      · exact ih _
      · rfl

theorem startDom_mgmt (d : Nat) (s : State) : (startDom d s).mgmt = s.mgmt := by
  rw [startDom]
  dsimp only
  repeat' split
  all_goals rfl

theorem stopDom_mgmt (d : Nat) (s : State) : (stopDom d s).mgmt = s.mgmt := by
  rw [stopDom]
  dsimp only
  split
  · rfl
  · exact fillLocks_mgmt ..

theorem tget_eq_tfind {α : Type} (t : Tbl α) (k : Nat) (d : α) : tget t k d = (tfind t k).getD d := by
  induction t with
  | nil => rfl
  | cons p t ih =>
    simp only [tget, tfind]
    split
    · rfl
    · exact ih

theorem tget_tset_other {α : Type} [DecidableEq α] (t : Tbl α) {k j : Nat} (v d e : α) (h : j ≠ k) :
    tget (tset t k v d) j e = tget t j e := by
  rw [tset]
  split
  · rw [tget_eq_tfind, tfind_tdel_other _ _ _ h, tget_eq_tfind]
  · exact tget_tput_other _ _ _ _ _ h

/-- The only request of the hub enters an empty buffer of its receiver (R36). -/
theorem hubDeliver_one {r : HubReq} {s : State} (hhub : s.mgmt.hub = [r]) (hin : inboundOf s r.receiver = []) :
    hubDeliver 1 s = { s with mgmt := { s.mgmt with hub := [], inbound := tput s.mgmt.inbound r.receiver [r] } } := by
  have hfree : inboundFree s r.receiver = true := by simp [inboundFree, hin]
  have hnext : hubNext s = some r := by
    rw [hubNext, hhub, List.find?_cons]
    cases r.marked
    · simp [hfree]
    · simp [hfree]
  rw [hubDeliver, hnext]
  dsimp only
  rw [hubDeliver, hhub, hin, dropFirst, if_pos (beq_self_eq_true r)]
  rfl

theorem hubComplete_of_empty {n : Nat} {s : State} (hin : inboundOf s n = []) : hubComplete n s = s := by
  rw [hubComplete, hin]
  split
  all_goals rfl

/-- The media supervisor takes a thermal level from the platform supervisor (R36, R502). -/
theorem hubComplete_thermal {r : HubReq} {l : Nat} {s : State} (hin : inboundOf s 2 = [r]) (hnode : nodeRuns s 2 = true)
    (hitem : r.item = .thermalPause l) (hl : l < 4) (hsend : r.sender = 4) (hrecv : r.receiver = 2) :
    hubComplete 2 s = { s with
      therm := { s.therm with applied := l },
      mgmt := { s.mgmt with inbound := tset s.mgmt.inbound 2 [] [], hubDone := s.mgmt.hubDone ++ [(4, 2, true)] } } := by
  have hnext : inboundNext [r] = some r := by
    rw [inboundNext, List.find?_cons]
    cases r.marked <;> rfl
  rw [hubComplete, hnode, hin, hnext, if_neg (by decide)]
  dsimp only
  rw [dropFirst, if_pos (beq_self_eq_true r)]
  simp only [hubApply, hitem, hsend, hrecv, hl, and_self, if_true]

/-- The hub is empty, and the receiver of its only request holds it (R36). -/
def hubTaken (r : HubReq) (s : State) : State :=
  { s with mgmt := { s.mgmt with hub := [], inbound := tput s.mgmt.inbound r.receiver [r] } }

theorem hubDeliver_all {r : HubReq} {s : State} {l : List HubReq} (hl : l = [r]) (hin : inboundOf s r.receiver = []) :
    hubDeliver l.length { s with mgmt := { s.mgmt with hub := l } } = hubTaken r s := by
  subst hl
  exact hubDeliver_one rfl hin

theorem inboundOf_hubTaken_other {r : HubReq} {n : Nat} (hn : n ≠ r.receiver) (s : State) :
    inboundOf (hubTaken r s) n = inboundOf s n := tget_tput_other _ _ _ _ _ hn

theorem foldl_range_five (f : Nat → State → State) {u v : State} (h0 : f 0 u = u) (h1 : f 1 u = u) (h2 : f 2 u = v) (h3 : f 3 v = v)
    (h4 : f 4 v = v) : (List.range 5).foldl (fun s n => f n s) u = v := by
  change f 4 (f 3 (f 2 (f 1 (f 0 u)))) = v
  rw [h0, h1, h2, h3, h4]

/-- The media supervisor has taken a thermal level, and its request is done (R36, R502). -/
def thermalTaken (l : Nat) (s : State) : State :=
  { s with
    therm := { s.therm with applied := l },
    mgmt := { s.mgmt with inbound := tset s.mgmt.inbound 2 [] [], hubDone := s.mgmt.hubDone ++ [(4, 2, true)] } }

/-- Of five nodes with empty buffers the one that holds a request completes it. -/
theorem foldl_hubComplete_thermal {r : HubReq} {l : Nat} {s : State} (hin : ∀ n, inboundOf s n = []) (hnode : nodeRuns s 2 = true)
    (hitem : r.item = .thermalPause l) (hl : l < 4) (hsend : r.sender = 4) (hrecv : r.receiver = 2) :
    (List.range 5).foldl (fun s n => hubComplete n s) (hubTaken r s) = thermalTaken l (hubTaken r s) := by
  have hempty : ∀ n, n ≠ 2 → inboundOf (hubTaken r s) n = [] := fun n hn => by
    rw [inboundOf_hubTaken_other (by rwa [hrecv]), hin]
  have hholds : inboundOf (hubTaken r s) 2 = [r] := by rw [← hrecv]; exact tget_tput_same ..
  have hrest : ∀ n, n ≠ 2 → hubComplete n (thermalTaken l (hubTaken r s)) = thermalTaken l (hubTaken r s) := fun n hn =>
    hubComplete_of_empty ((tget_tset_other _ [] [] _ hn).trans (hempty n hn))
  exact foldl_range_five hubComplete (hubComplete_of_empty (hempty 0 (by decide))) (hubComplete_of_empty (hempty 1 (by decide)))
    (hubComplete_thermal hholds hnode hitem hl hsend hrecv) (hrest 3 (by decide)) (hrest 4 (by decide))

/-- Settles O5: a watchdog's expiry is split by its count (R40 to R43), a restart by what the supervisor keeps, the hub by its
five supervisors (R34, R36, R530, R584). -/
theorem supervisorAndHubCommandsComplete : Obligations.SupervisorAndHubCommandsComplete := by
  refine ⟨fun k x s hx hmode hfew => ?expiry, fun k x s hx hmode hmany => ?third, fun k x s hx hmode hact => ?restarted,
    fun c b x s h hx hmode hact => ?restart, fun s hrun hrestart => ?mgmtExpiry, fun c op out s hrestart hwait => ?mgmtDone,
    fun r s hrun hhub hitem hsend hrecv hin hnode => ?hub, fun n row s howner hthrough => ?violation,
    fun c s h hlimit => ?state, fun c b s h hlock => ?debugOpen, fun c b s h hlock => ?debugLocked,
    fun c s h hlimit => ?identity, fun s => rfl⟩
  case expiry =>
    have hexec : exec (.supervisorWatchdogExpiry k) s = execSupervisorWatchdogExpiry k s := rfl
    rw [execSupervisorWatchdogExpiry, hx] at hexec
    dsimp only at hexec
    rw [if_neg (by simp [hmode]), if_neg (by rw [List.length_append, List.length_singleton]; omega)] at hexec
    exact After.intro hexec ⟨_, supOf_restartSup (supOf_ne_none (by omega) _) _, rfl, rfl⟩
  case third =>
    have hexec : exec (.supervisorWatchdogExpiry k) s = execSupervisorWatchdogExpiry k s := rfl
    rw [execSupervisorWatchdogExpiry, hx] at hexec
    dsimp only at hexec
    rw [if_neg (by simp [hmode]), if_pos (by rw [List.length_append, List.length_singleton]; omega)] at hexec
    exact After.intro hexec ⟨_, supOf_halt (supOf_ne_none (by omega) _) _, rfl⟩
  case restarted =>
    have hexec : exec (.supervisorRestartDone k) s = execSupervisorRestartDone k s := rfl
    rw [execSupervisorRestartDone, hx] at hexec
    dsimp only at hexec
    rw [if_neg (by simp [hmode]), hact] at hexec
    exact After.intro hexec ⟨_, supOf_startSup_same _ hx, rfl, rfl⟩
  case restart =>
    refine vendor_done_none (r := execRestartSupervisor c [b] s) rfl h rfl rfl ?_
    change (match supOf s (b.toNat + 1) with | none => _ | some x => _) = _
    rw [hx]
    dsimp only
    rw [hmode, hact]
    rfl
  case mgmtExpiry =>
    have hkept : activationOf ((List.range 10).foldl abortBg (rollBackFw .aborted s)) = activationOf (rollBackFw .aborted s) :=
      keeps_foldl activationOf _ _ (fun t c => activationOf_of_managed (abortBg_managed t c)) _
    have hexec : exec .mgmtWatchdogExpiry s = execMgmtWatchdogExpiry s := rfl
    rw [execMgmtWatchdogExpiry, if_pos ⟨hrun, by simp [hrestart]⟩] at hexec
    exact After.intro hexec ⟨rfl, rfl, rfl, (congrArg Prod.fst hkept).trans (activation_rollBackFw ..)⟩
  case mgmtDone =>
    have hexec : exec .mgmtRestartDone s =
        if s.mgmt.restarting then .next ((List.range 10).foldl failCci (resumed s)) else .next s := rfl
    obtain ⟨hnone, hrc⟩ := cciOf_foldl_failCci (l := List.range 10) (List.mem_range.mpr c.isLt) (s := resumed s) hwait
    have hkept : managed ((List.range 10).foldl failCci (resumed s)).mgmt = managed (resumed s).mgmt := managed_foldl _ _ failCci_managed _
    have hruns : ((List.range 10).foldl failCci (resumed s)).mgmt.restarting = false := by rw [← restarting_managed, hkept]; rfl
    exact After.intro (hexec.trans (if_pos hrestart)) ⟨hruns, hnone, hrc⟩
  case hub =>
    have hexec : exec (.hubRequestDeliver []) s = .next ((List.range 5).foldl (fun s n => hubComplete n s)
        (hubDeliver (s.mgmt.hub ++ []).length { s with mgmt := { s.mgmt with hub := s.mgmt.hub ++ [] } })) := if_pos hrun
    rw [hubDeliver_all (by simpa using hhub) (hin r.receiver), foldl_hubComplete_thermal hin hnode hitem (by decide) hsend hrecv] at hexec
    exact After.intro hexec ⟨rfl, by rw [hsend, hrecv]; rfl, rfl⟩
  case violation =>
    exact if_neg (by simp [howner, hthrough])
  case state =>
    exact vendor_answers (r := execGetSupervisorState c [] s) rfl h rfl rfl rfl (by simp) hlimit
  case debugOpen =>
    refine After.intro (vendor_done_none (r := execSetDebugAccess c [b] s) rfl h rfl rfl (if_neg (by simp [hlock])))
      ⟨?_, rc_complete ..⟩
    rw [← debugAccess_managed, complete_managed]
    split
    · rw [debugAccess_managed, startDom_mgmt]
      rfl
    · rw [debugAccess_managed, stopDom_mgmt]
      rfl
  case debugLocked =>
    exact vendor_fail (r := execSetDebugAccess c [b] s) rfl h rfl rfl (if_pos hlock)
  case identity =>
    refine vendor_done (r := execGetDeviceIdentity c [] s) rfl h rfl rfl rfl ?_
    simp [outLen, hlimit]

/-! ### Attestation -/

/-- A message that an open endpoint expects (R520). -/
theorem spdm_of_ready {e : Nat} {ready : SpdmSt → Bool} {body : SpdmSt → State → SpdmSt × State} {s : State} {r : Res}
    (hr : r = spdm e ready body s) (h : spdmOpen s e = true) (hready : ready (spdmOf s e) = true) {x : SpdmSt} {t : State}
    (hbody : body (spdmOf s e) s = (x, t)) : r = .next (setSpdm e x t) := by
  rw [hr, spdm, if_pos h]
  dsimp only
  rw [if_pos hready, hbody]

/-- A message within an established session (R520). -/
theorem inSession_of_established {e id code : Nat} {f : SpdmSession → State → Option SpdmSession} {s : State} {r : Res} {y : SpdmSession}
    (hr : r = inSession e id code f s) (h : spdmOpen s e = true) (halgs : (spdmOf s e).algsDone = true)
    (hy : sessionOf (spdmOf s e) id = some y) (hest : y.established = true) :
    r = .next (setSpdm e
      (match f y s with
        | some z => { spdmOf s e with
            sessions := (spdmOf s e).sessions.map fun w => if w.id = id then z else w, resp := [code, id] }
        | none => { spdmOf s e with sessions := (spdmOf s e).sessions.filter fun w => w.id != id, resp := [code, id] }) s) := by
  refine spdm_of_ready (hr.trans rfl) h halgs ?_
  rw [hy]
  dsimp only
  rw [if_pos hest]
  cases f y s <;> rfl

theorem spdmOf_setSpdm (e : Nat) (x : SpdmSt) (s : State) : spdmOf (setSpdm e x s) e = x := tget_tput_same ..

/-- Settles O6: an open endpoint answers each message that its state expects (R520). -/
theorem attestationMessagesComplete : Obligations.AttestationMessagesComplete := by
  refine ⟨fun e s h => spdm_of_ready (r := execSpdmGetVersion e s) rfl h rfl rfl,
    fun e s h hver => spdm_of_ready (r := execSpdmGetCapabilities e s) rfl h hver rfl,
    fun e s h hcaps => spdm_of_ready (r := execSpdmNegotiateAlgorithms e true s) rfl h hcaps rfl, fun e s h halgs => ?early,
    fun e s h halgs => spdm_of_ready (r := execSpdmGetDigests e s) rfl h halgs rfl,
    fun e s h halgs => spdm_of_ready (r := execSpdmGetCertificate e 0 s) rfl h halgs rfl,
    fun e nonce s h halgs => spdm_of_ready (r := execSpdmChallenge e 0 nonce s) rfl h halgs rfl,
    fun e i nonce s h halgs hlo hhi => ?measurement, fun e pub s h halgs => ?keyExchange,
    fun e id y s h halgs hy hest => ⟨?finishGood, ?finishBad⟩,
    fun e id y s h halgs hy hest => ⟨inSession_of_established (r := execSpdmEndSession e id s) rfl h halgs hy hest,
      inSession_of_established (r := execSpdmKeyUpdate e id s) rfl h halgs hy hest,
      inSession_of_established (r := execSpdmHeartbeat e id s) rfl h halgs hy hest⟩⟩
  case early =>
    change execSpdmGetDigests e s = _
    rw [execSpdmGetDigests, spdm, if_pos h]
    dsimp only
    rw [halgs, if_neg Bool.false_ne_true]
  case measurement =>
    refine spdm_of_ready (r := execSpdmGetMeasurements e i nonce s) rfl h halgs ?_
    rw [if_neg (by omega), if_pos hhi]
  case keyExchange =>
    have hexec := spdm_of_ready (r := execSpdmKeyExchange e 0 pub s) rfl h halgs (if_neg (by decide))
    exact After.intro hexec (by rw [spdmOf_setSpdm]; exact ⟨rfl, rfl⟩)
  case finishGood =>
    refine spdm_of_ready (r := execSpdmFinish e id true s) rfl h halgs ?_
    rw [hy]
    dsimp only
    rw [if_neg (by simp [hest]), if_pos rfl]
  case finishBad =>
    refine spdm_of_ready (r := execSpdmFinish e id false s) rfl h halgs ?_
    rw [hy]
    dsimp only
    rw [if_neg (by simp [hest]), if_neg Bool.false_ne_true]
end Sys2Proof.Machine

/-!
What the journalling of a tenant's word or of an extent does to the tables it is about (R110, R250): nothing, for what the word and
the entry hold.
-/
namespace Sys2Proof.Machine

/-- A journalled tenant word is applied at once, or waits for room; only the map's journal takes part besides (R250). -/
theorem journalTenant_cases (t : Nat) (s : State) :
    (∃ m, journalTenant t s = { s with map := m }) ∨
      ∃ m, journalTenant t s =
        setTenant t (setTenantWord0 (tenantOf s t) (tenantWord0 (tenantOf s t))) { s with map := m } := by
  rw [journalTenant, commit]
  split
  · exact .inr ⟨_, rfl⟩
  · exact .inl ⟨_, rfl⟩

theorem b2n_le_one (b : Bool) : b2n b ≤ 1 := by
  cases b
  · exact Nat.zero_le _
  · exact Nat.le_refl _

/-- METER_EN survives the word (Table 3-1). -/
theorem meterEn_setTenantWord0 (x : TenantSt) : (setTenantWord0 x (tenantWord0 x)).meterEn = x.meterEn := by
  have hmismatch := b2n_le_one x.mismatch
  have hmeter := b2n_le_one x.meterEn
  have hbit : bits (tenantWord0 x) 9 1 = b2n x.meterEn := by
    unfold bits tenantWord0
    dsimp only
    generalize b2n x.meterEn = m at *
    generalize b2n x.mismatch = i at *
    omega
  change (bits (tenantWord0 x) 9 1 == 1) = x.meterEn
  rw [hbit]
  cases x.meterEn
  · rfl
  · rfl

/-- A word holds no QoS profile. -/
theorem qos_setTenantWord0 (x : TenantSt) (v : Nat) :
    (setTenantWord0 x v).qosA = x.qosA ∧ (setTenantWord0 x v).qosS = x.qosS := ⟨rfl, rfl⟩

/-- A tenant word holds what R110 says of it: the slot exactly while the tenant is bound, and 16-bit numbers. -/
structure WordFits (x : TenantSt) : Prop where
  free : x.st = .free → x.slot = none
  bound : x.st ≠ .free → ∃ k < 65536, x.slot = some k
  keyGen : x.keyGen < 65536

/-- Number of a tenant state in its word (Table 3-1). -/
def stateNo : TState → Nat
  | .free => 0
  | .active => 1
  | .erasing => 2

theorem stateNo_lt (st : TState) : stateNo st < 4 := by cases st <;> decide

theorem b2n_lt (b : Bool) : b2n b < 2 := by cases b <;> decide

theorem b2n_beq_one (b : Bool) : (b2n b == 1) = b := by cases b <;> decide

/-- The fields of a word (Table 3-1). -/
theorem bits_word {st k g m q : Nat} (hst : st < 4) (hk : k < 65536) (hg : g < 65536) (hm : m < 2) (hq : q < 2) :
    bits (st * 2 ^ 60 + k * 2 ^ 44 + g * 2 ^ 28 + m * 2 ^ 9 + q * 2 ^ 8) 60 4 = st ∧
      bits (st * 2 ^ 60 + k * 2 ^ 44 + g * 2 ^ 28 + m * 2 ^ 9 + q * 2 ^ 8) 44 16 = k ∧
      bits (st * 2 ^ 60 + k * 2 ^ 44 + g * 2 ^ 28 + m * 2 ^ 9 + q * 2 ^ 8) 28 16 = g ∧
      bits (st * 2 ^ 60 + k * 2 ^ 44 + g * 2 ^ 28 + m * 2 ^ 9 + q * 2 ^ 8) 9 1 = m ∧
      bits (st * 2 ^ 60 + k * 2 ^ 44 + g * 2 ^ 28 + m * 2 ^ 9 + q * 2 ^ 8) 8 1 = q := by
  simp only [bits]
  omega

/-- A word that fits is read back (Table 3-1). -/
theorem setTenantWord0_tenantWord0 {x : TenantSt} (h : WordFits x) : setTenantWord0 x (tenantWord0 x) = x := by
  obtain ⟨hfree, hbound, hgen⟩ := h
  obtain ⟨st, slot, keyGen, meterEn, mismatch, qosA, qosS, keyCheck, fails, refusal, drainLevel, drainAt⟩ := x
  dsimp only at hfree hbound hgen
  have hslot : slot.getD 0 < 65536 ∧ slot = if st = .free then none else some (slot.getD 0) := by
    by_cases hf : st = .free
    · rw [hfree hf, if_pos hf]
      exact ⟨by decide, rfl⟩
    · obtain ⟨k, hk, rfl⟩ := hbound hf
      rw [if_neg hf]
      exact ⟨hk, rfl⟩
  obtain ⟨hlt, heq⟩ := hslot
  generalize hk : slot.getD 0 = k at hlt heq
  have hword : tenantWord0 ⟨st, slot, keyGen, meterEn, mismatch, qosA, qosS, keyCheck, fails, refusal, drainLevel, drainAt⟩ =
      stateNo st * 2 ^ 60 + k * 2 ^ 44 + keyGen * 2 ^ 28 + b2n meterEn * 2 ^ 9 + b2n mismatch * 2 ^ 8 := by
    rw [← hk]
    cases st <;> rfl
  obtain ⟨h1, h2, h3, h4, h5⟩ := bits_word (stateNo_lt st) hlt hgen (b2n_lt meterEn) (b2n_lt mismatch)
  simp only [setTenantWord0, hword, h1, h2, h3, h4, h5, b2n_beq_one]
  rw [heq]
  cases st <;> rfl

/-- The tenant whose word is journalled is as it was, or as its word says. -/
theorem tenantOf_journalTenant_cases (t : Nat) (s : State) : tenantOf (journalTenant t s) t = tenantOf s t ∨
    tenantOf (journalTenant t s) t = setTenantWord0 (tenantOf s t) (tenantWord0 (tenantOf s t)) := by
  obtain ⟨m, hm⟩ | ⟨m, hm⟩ := journalTenant_cases t s
  · exact .inl (by rw [hm]; rfl)
  · exact .inr (by rw [hm, tenantOf_setTenant_same])

/-- The tenant whose word is journalled keeps it, if it fits. -/
theorem tenantOf_journalTenant {t : Nat} {s : State} (h : WordFits (tenantOf s t)) :
    tenantOf (journalTenant t s) t = tenantOf s t := by
  obtain hsame | hword := tenantOf_journalTenant_cases t s
  · exact hsame
  · rw [hword, setTenantWord0_tenantWord0 h]

/-- METER_EN outlasts the journalling of any word. -/
theorem meterEn_journalTenant (t : Nat) (s : State) : (tenantOf (journalTenant t s) t).meterEn = (tenantOf s t).meterEn := by
  obtain hsame | hword := tenantOf_journalTenant_cases t s
  · rw [hsame]
  · rw [hword, meterEn_setTenantWord0]

/-- Both QoS profiles outlast the journalling of any word. -/
theorem qos_journalTenant (t : Nat) (s : State) : (tenantOf (journalTenant t s) t).qosA = (tenantOf s t).qosA ∧
    (tenantOf (journalTenant t s) t).qosS = (tenantOf s t).qosS := by
  obtain hsame | hword := tenantOf_journalTenant_cases t s
  · rw [hsame]
    exact ⟨rfl, rfl⟩
  · rw [hword]
    exact qos_setTenantWord0 ..

/-- The rest of the tenant block and the meters outlast it as well. -/
theorem ten_journalTenant (t : Nat) (s : State) : ∃ ts, (journalTenant t s).ten = { s.ten with tenants := ts } := by
  obtain ⟨m, hm⟩ | ⟨m, hm⟩ := journalTenant_cases t s
  · exact ⟨_, by rw [hm]⟩
  · exact ⟨_, by rw [hm, setTenant]⟩

theorem count_journalTenant (t : Nat) (s : State) : (journalTenant t s).count = s.count := by
  obtain ⟨m, hm⟩ | ⟨m, hm⟩ := journalTenant_cases t s
  · rw [hm]
  · rw [hm, setTenant_count]

end Sys2Proof.Machine

/-!
The cellar book, the event recorder, counters, check values and descriptor rings (18_cellar_book_and_event_recorder.md R534 to R552,
19_counters_metering_and_engines.md R555 to R575).
-/
namespace Sys2Proof.Machine
open Sys2Proof.Safety

/-! ### The cellar book -/

theorem pwGood_of_no_fails {region : Nat} {s : State} (h : (lockOf s region).fails = 0) : pwGood region s = s := if_pos h

/-- A setting in a region other than that of the fabric and ring policies leaves the management complex's interfaces alone (R541). -/
theorem ccis_applySetting {region key : Nat} (b : List Byte) (s : State) (h : region = 2 → key ≠ 0x14 ∧ key ≠ 0x15) :
    (applySetting region key b s).mgmt.ccis = s.mgmt.ccis := by
  have hload : (loadSetting key b s).mgmt.ccis = s.mgmt.ccis := by
    unfold loadSetting
    split
    all_goals simp
  rw [applySetting]
  split
  · split <;> rfl
  · split
    · rfl
    · next hsys =>
      obtain ⟨h14, h15⟩ := h (Classical.not_not.mp hsys)
      dsimp only
      rw [if_neg h14, if_neg h15]
      split
      · split
        · exact hload
        · rw [setPps_mgmt, hload]
      · exact hload

theorem nextWrite_one {w : CWrite} (h : w.cls ≤ 5) : nextWrite [w] = some w := by
  have htop : min 6 w.cls = w.cls := by omega
  simp [nextWrite, htop]

theorem commitRecord_some {w : CWrite} {l l' : RecLog} {s : State} (hlog : regionLog s.cellar w.region = some l)
    (hwrite : logWrite l w.key w.data = some l') :
    commitRecord w s = (.success, applySetting w.region w.key w.data { s with cellar := setRegionLog s.cellar w.region l' }) := by
  rw [commitRecord, hlog]
  dsimp only
  rw [hwrite]

theorem commitRecord_none {w : CWrite} {l : RecLog} {s : State} (hlog : regionLog s.cellar w.region = some l)
    (hwrite : logWrite l w.key w.data = none) : commitRecord w s = (.invalidState, s) := by
  rw [commitRecord, hlog]
  dsimp only
  rw [hwrite]

theorem cciOf_congr {s t : State} (h : t.mgmt.ccis = s.mgmt.ccis) (c : Nat) : cciOf t c = cciOf s c := by rw [cciOf, cciOf, h]

theorem cciOf_cellar (x : CellarSt) (c : Nat) (s : State) : cciOf { s with cellar := x } c = cciOf s c := rfl

/-- Settles O8: a command is accepted by its region and password, and the end of its write run is split by whether the record fits
its log (R530, R534 to R545). -/
theorem cellarCommandsComplete : Obligations.CellarCommandsComplete := by
  refine ⟨fun c s h hlimit => ?info, fun c inp l r s h hlen hresv hlog hpw hfails hrec hdata hlimit => ?read,
    fun c inp s h hlen hresv hregion hkey hpw hfails => ?write, fun c inp s h hlen hresv hregion => ?writeOther,
    fun c w op out l s haux hw hcci hcls hwait hlog hfit hkey => ?committed,
    fun c w op out l s haux hw hcci hcls hwait hlog hfull => ?full,
    fun c inp s h hlen hresv hregion hpw hfails => ?passwords, fun r s hr hrefusal => ?lockout,
    fun c inp s h hlen hindex hlimit => ?spread⟩
  case info =>
    exact vendor_answers (r := execGetCellarBookInfo c [] s) rfl h rfl rfl rfl (by simp [List.range_succ]) hlimit
  case read =>
    refine vendor_done (r := execReadCellarRecord c inp s) rfl h hlen (by simp [hresv]) ?_ ?_
    · dsimp only
      rw [hlog]
      dsimp only
      rw [hpw]
      dsimp only
      rw [hrec]
      dsimp only
      rw [if_neg (by simpa using hdata), pwGood_of_no_fails hfails]
    · simp only [outLen, List.length_append, leBytes_length, zeros_length]
      omega
  case write =>
    refine vendor_commit (r := execWriteCellarRecord c inp s) rfl h hlen (by simp [hresv]) ?_
    rw [hregion, if_neg (by decide), if_neg (by decide), if_neg hkey, hpw]
    rw [pwGood_of_no_fails hfails]
  case writeOther =>
    exact vendor_fail (r := execWriteCellarRecord c inp s) rfl h hlen (by simp [hresv]) (if_pos hregion)
  case committed =>
    have hwrite : logWrite l w.key w.data = some (appendRec (reclaim (recPages w.data.length) l.recs.length l) w.key w.data) :=
      if_neg (Nat.not_lt.mpr hfit)
    change execCellarWriteComplete s = _
    rw [execCellarWriteComplete, haux, if_neg Bool.false_ne_true, hw, nextWrite_one hcls]
    dsimp only
    rw [List.erase_cons_head, commitRecord_some (s := { s with cellar := { s.cellar with writes := [] } }) hlog hwrite, hcci]
    dsimp only
    rw [cciOf_congr (ccis_applySetting _ _ hkey), cciOf_cellar, hwait]
    rfl
  case full =>
    have hwrite : logWrite l w.key w.data = none := if_pos hfull
    change execCellarWriteComplete s = _
    rw [execCellarWriteComplete, haux, if_neg Bool.false_ne_true, hw, nextWrite_one hcls]
    dsimp only
    rw [List.erase_cons_head, commitRecord_none (s := { s with cellar := { s.cellar with writes := [] } }) hlog hwrite, hcci]
    dsimp only
    rw [cciOf_cellar, hwait]
    rfl
  case passwords =>
    have hlog : (regionLog s.cellar (le inp 0 1)).isNone = false := by
      obtain hr | hr | hr := hregion
      all_goals rw [hr]; rfl
    refine vendor_commit (r := execSetRegionPasswords c inp s) rfl h hlen (by simp [hresv]) ?_
    dsimp only
    rw [hlog, if_neg Bool.false_ne_true, hpw]
    dsimp only
    rw [pwGood_of_no_fails hfails, storeSetting_some]
  case lockout =>
    refine if_pos (List.any_eq_true.mpr ⟨r, hr, by simpa using hrefusal⟩)
  case spread =>
    refine vendor_done (r := execGetSpreadCounter c inp s) rfl h hlen rfl (if_neg (by omega)) ?_
    simpa [outLen] using hlimit
/-! ### The event recorder -/

/-- A buffered event of a unit leaves its buffer when the recorder has room (R38, R39). -/
theorem exec_eventPost {src : Nat} {e : Ev} {es : List Ev} {s : State} (hevs : (tget s.recorder.units src UnitBuf.empty).evs = e :: es)
    (hlost : (tget s.recorder.units src UnitBuf.empty).lost = 0) (hroom : recorderRoom s = true) :
    exec (.eventPost src) s = .next (acceptPost e { s with recorder := { s.recorder with
      units := tput s.recorder.units src
        { evs := es, lost := 0, before := (tget s.recorder.units src UnitBuf.empty).before - 1 } } }) := by
  change execEventPost src s = _
  rw [execEventPost]
  dsimp only
  rw [hevs]
  dsimp only
  rw [hlost, hroom, if_neg (by simp)]

theorem recorderRoom_of_ready {s : State} (hready : s.recorder.seqReady = true)
    (hroom : s.recorder.ringOn = true ∨ s.recorder.held.length < 64) : recorderRoom s = true := by
  rw [recorderRoom, if_pos hready]
  simpa using hroom

theorem recorderRoom_of_input {s : State} (hready : s.recorder.seqReady = false) (hroom : s.recorder.input.length < 256) :
    recorderRoom s = true := by
  rw [recorderRoom, hready, if_neg Bool.false_ne_true]
  exact decide_eq_true hroom

theorem evRecBytes_length (r : EvRec) : (evRecBytes r).length = 32 := by
  simp [evRecBytes, evRecBody]

theorem records_length (rs : List EvRec) : (rs.flatMap evRecBytes).length = 32 * rs.length := by
  induction rs with
  | nil => rfl
  | cons r rs ih =>
    rw [List.flatMap_cons, List.length_append, ih, evRecBytes_length, List.length_cons]
    omega

/-- Settles O9: an event enters the record while its ring has room, and the copies and commands follow from the record's own rules
(R38, R39, R547 to R552). -/
theorem recorderCommandsComplete : Obligations.RecorderCommandsComplete := by
  refine ⟨fun src e es s hevs hlost hready hroom => ?post, fun src e es s hevs hlost hready hroom => ?input,
    fun src n s hn hpos hfew hready hroom => ?overflow, fun seq r k s hr hseq hsev htime hk hkseq hrep => ?copy,
    fun s hready => if_pos hready, fun c inp s h hlen hresv hsel hcount hlimit => ?records, fun c s h hlimit => ?state,
    fun c inp s h hlen hresv hsev => ?test⟩
  case post =>
    rw [exec_eventPost hevs hlost (recorderRoom_of_ready hready hroom), acceptPost, if_pos hready]
  case input =>
    refine After.intro (exec_eventPost hevs hlost (recorderRoom_of_input hready hroom)) ?_
    rw [acceptPost, if_neg (by simp [hready])]
    exact ⟨rfl, by rw [tget_tput_same]⟩
  case overflow =>
    have hexec : exec (.eventOverflowRecord src) s = execEventOverflowRecord src s := rfl
    rw [execEventOverflowRecord] at hexec
    dsimp only at hexec
    rw [hn, recorderRoom_of_input hready hroom, if_neg (by simp; omega), acceptPost, if_neg (by simp [hready])] at hexec
    exact After.intro hexec ⟨rfl, by rw [tget_tput_same], rfl⟩
  case copy =>
    change execCriticalRepeatCopy seq s = _
    rw [execCriticalRepeatCopy, hr]
    dsimp only
    rw [if_pos ⟨hseq, hsev, htime⟩, copyCritical, hseq, hk]
    dsimp only
    rw [if_pos ⟨hkseq, hrep⟩]
  case records =>
    refine vendor_answers (r := execGetEventRecordsVendor c inp s) rfl h hlen (by simp [hresv]) (if_neg (by omega)) ?_ hlimit
    simp only [hsel, if_true, List.length_append, leBytes_length, zeros_length, records_length]
  case state =>
    refine vendor_done (r := execGetEventRecorderState c [] s) rfl h rfl rfl rfl ?_
    simpa [outLen] using hlimit
  case test =>
    exact vendor_done_none (r := execPostTestEvent c inp s) rfl h hlen (by simp [hresv]) (if_neg (by omega))
/-! ### Counters and meters -/

theorem ctrOf_setCtr (set n : Nat) (c : Ctr) (s : State) : ctrOf (setCtr set n c s) set n = c := tget_tput_same ..

theorem ctrOf_unmapBroken (set n : Nat) (s : State) : ctrOf (unmapBroken s) set n = ctrOf s set n := rfl

/-- A number of pieces of one length. -/
theorem length_flatMap_const {α β : Type} {f : α → List β} {k : Nat} (hf : ∀ a, (f a).length = k) (l : List α) :
    (l.flatMap f).length = k * l.length := by
  induction l with
  | nil => rfl
  | cons a l ih =>
    rw [List.flatMap_cons, List.length_append, ih, hf, List.length_cons, Nat.mul_succ, Nat.add_comm]

theorem meterBytes_length (minute seq buf : Nat) (m : MeterBlock) : (meterBytes minute seq buf m).length = 128 := by
  simp [meterBytes]

theorem meterPage_length (s : State) (t : Nat) : (meterPage s t).length = 4096 := by
  have hctrs : ∀ g, (if (meterOf s t).groups.contains g then
      (List.range 8).flatMap fun i => leBytes 8 (ctrOf s (g / 8) (8 * (g % 8) + i)).count else zeros 64).length = 64 := by
    intro g
    split
    · rw [length_flatMap_const (k := 8) (by simp)]
      rfl
    · simp
  simp only [meterPage, List.length_append, meterBytes_length, zeros_length]
  rw [length_flatMap_const hctrs]
  rfl

theorem ctrDescBytes_length (d : CtrDesc) : (ctrDescBytes d).length = 16 := leBytes_length ..

/-- A counter in measured mode whose window has ended (R557). -/
theorem turnWindow_of_ended {tb : Nat} {c : Ctr} (hen : c.desc.enable = true) (hmode : c.desc.mode = 2)
    (hwin : windowOf c tb ≠ c.winNo) : turnWindow tb c = { c with winNo := windowOf c tb, ended := some c.win, win := 0 } := by
  rw [turnWindow, if_pos (by simp [hen, hmode, hwin])]

theorem turnWindow_of_running {tb : Nat} {c : Ctr} (hwin : windowOf c tb = c.winNo) : turnWindow tb c = c := by
  rw [turnWindow, if_neg (by simp [hwin])]

theorem tget_tmap {α : Type} (t : Tbl α) (f : Nat → α → α) (k : Nat) (d : α) (hd : ∀ k, f k d = d) :
    tget (tmap t f) k d = f k (tget t k d) := by
  rw [tget_eq_tfind, tget_eq_tfind, tfind_tmap]
  cases tfind t k with
  | none => exact (hd k).symm
  | some v => rfl

/-- Settles O10: a window is split by whether it has ended, a register write by its part, and the lengths of the answers are
counted piece by piece (R555 to R564). -/
theorem counterCommandsComplete : Obligations.CounterCommandsComplete := by
  refine ⟨fun c set s h hset hlimit => ?config, fun c inp s h hlen hresv hset hn hok => ?setConfig,
    fun c set s h hset hlimit => ?read, fun set n s hen hmode hwin => ?windowEnd,
    fun set n v s hended hen hmode hwin => ?windowEnded, fun n k v s hpresent hlink => ?writeWhole,
    fun n k v s hpresent hlink => ?writeLow, fun n m s hpresent hlink => ?clear, fun x rest s hx => ?capture,
    fun c a b y s h ha hb hy hlimit => ?sample, fun s hup => if_pos hup,
    fun c inp s h hlen hresv htenant hgroups hroom => ?metering, fun c inp s h hlen htenant hpage hlimit => ?meter⟩
  case config =>
    refine vendor_answers (r := execGetCounterConfiguration c [set] s) rfl h rfl rfl (if_neg (Nat.not_lt.mpr hset)) ?_ hlimit
    rw [length_flatMap_const (k := 16) (fun n => ctrDescBytes_length _)]
    rfl
  case setConfig =>
    refine After.intro (vendor_done_none (r := execSetCounterConfiguration c inp s) rfl h hlen (by simp [hresv])
      (if_neg (by simp [hok]; omega))) ⟨?_, rc_complete ..⟩
    exact ctrOf_setCtr ..
  case read =>
    refine vendor_answers (r := execReadCounters c [set] s) rfl h rfl rfl (if_neg (Nat.not_lt.mpr hset)) ?_ hlimit
    rw [List.length_append, length_flatMap_const (k := 8) (fun n => leBytes_length ..), leBytes_length]
    rfl
  case windowEnd =>
    change execCounterWindowEnd set n s = _
    rw [execCounterWindowEnd, turnWindow_of_ended hen hmode hwin]
  case windowEnded =>
    change execCounterWindowEnd set n s = _
    rw [execCounterWindowEnd, turnWindow_of_running hwin, hended]
  case writeWhole =>
    change execHeadCountWrite n k .whole v s = _
    rw [execHeadCountWrite, hpresent, hlink]
    rw [Bool.and_self, if_pos rfl, writePart, Nat.mod_eq_of_lt v.isLt]
  case writeLow =>
    refine After.intro (show execHeadCountWrite n k .low v s = _ from if_pos (by rw [hpresent, hlink]; rfl)) ?_
    rw [ctrOf_setCtr]
    rfl
  case clear =>
    refine After.intro (show execCounterOverflowClear n m s = _ from if_pos (by rw [hpresent, hlink]; rfl)) ?_
    intro k hk hm
    have hkey : (64 * n.val + k) / 64 = n.val ∧ (64 * n.val + k) % 64 = k := by omega
    have hclear := tget_tmap s.count.ctrs
      (fun j c => if j / 64 = n.val ∧ m.getLsbD (j % 64) = true then { c with ovf := false } else c) (64 * n + k) Ctr.reset
      fun j => by split <;> rfl
    rw [if_pos ⟨hkey.1, by rw [hkey.2]; exact hm⟩] at hclear
    exact congrArg Ctr.ovf hclear
  case capture =>
    change execSampleCapture s = _
    rw [execSampleCapture, hx]
  case sample =>
    refine vendor_done (r := execGetCounterSample c [a, b] s) rfl h rfl rfl ?_ ?_
    · change (if 4 < a.toNat ∨ 63 < b.toNat then _ else match (ctrOf s a.toNat b.toNat).sample with | none => _ | some y => _) = _
      rw [if_neg (by omega), hy]
      rfl
    · simpa [outLen, sampleBytes] using hlimit
  case metering =>
    have hgs : ((List.range 40).filter fun i => bits (le inp 4 8) i 1 == 1) = [] := by simp [hgroups, bits]
    have hexec := vendor_reply (r := execSetTenantMetering c inp s) rfl h hlen (by simp [hresv])
    dsimp only at hexec
    rw [if_neg htenant, if_neg (by rw [hgs, hgroups, List.all_nil]; decide), journaled_of_room hroom, settle_done (Nat.zero_le _), hgs] at hexec
    refine After.intro hexec ⟨?_, ?_, rc_complete ..⟩
    · change (tenantOf (journalTenant _ _) _).meterEn = _
      rw [meterEn_journalTenant, tenantOf_setTenant_same]
    · change (meterOf (journalTenant _ _) _).groups = _
      rw [meterOf, count_journalTenant, setTenant_count, tget_tput_same]
  case meter =>
    refine vendor_answers (r := execGetTenantMeter c inp s) rfl h hlen rfl ?_ (meterPage_length s (le inp 0 2)) hlimit
    rw [if_neg htenant, if_neg (Nat.not_lt.mpr hpage)]

/-! ### Check values -/

/-- Settles O11: every register access passes the same visibility test, then meets its own guard (R565, R567, R568). -/
theorem checkValueUnitCommandsComplete : Obligations.CheckValueUnitCommandsComplete := by
  refine ⟨fun k u v s hvis hheld hpoly => ?config, fun k u v s hvis hheld hpoly => ?badConfig, fun k u s hvis hheld => ?restart,
    fun k u o b s hvis hheld hlen hoff hroom => ?feed, fun k u s hvis => ?read, fun k u s hvis => if_pos hvis,
    fun c u k s h hu hk hpresent => ?assign⟩
  case config =>
    change execCvConfigWrite k u v s = _
    rw [execCvConfigWrite, hvis]
    refine (if_neg (by decide)).trans (if_neg ?_)
    exact not_or.mpr ⟨by rw [hheld]; decide, by omega⟩
  case badConfig =>
    change execCvConfigWrite k u v s = _
    rw [execCvConfigWrite, hvis]
    exact (if_neg (by decide)).trans (if_pos (.inr hpoly))
  case restart =>
    change execCvRestartWrite k u s = _
    rw [execCvRestartWrite, hvis]
    refine (if_neg (by decide)).trans (if_neg ?_)
    rw [hheld]
    decide
  case feed =>
    change execCvFeedWrite k u o b s = _
    rw [execCvFeedWrite, hvis]
    refine (if_neg (by decide)).trans ((if_neg ?_).trans (if_neg (Nat.not_le.mpr hroom)))
    exact not_or.mpr ⟨by rw [hheld]; decide, not_or.mpr ⟨by omega, Classical.not_not.mpr hoff⟩⟩
  case read =>
    refine After.intro (show execCvResultRead k u false s = _ from if_neg (by rw [hvis]; decide)) ⟨rfl, ?_⟩
    change (tget (tput s.eng.units u _) u _).feeds = []
    rw [tget_tput_same]
    rfl
  case assign =>
    refine vendor_done_none (r := execAssignCheckValueUnit c [u, k] s) rfl h rfl rfl ?_
    change (if 7 < u.toNat ∨ (k.toNat ≠ 0xFF ∧ (3 < k.toNat ∨ (headOf s k.toNat).present = false)) then _ else Reply.done .none
      (setCv u.toNat (cvRestart { cvOf s u.toNat with head := if k.toNat = 0xFF then none else some k.toNat }) s)) = _
    rw [if_neg (by simp [hpresent]; omega), if_neg (by omega)]

/-! ### Descriptor rings -/

/-- Settles O12: the commands through the reply they give, the doorbell and base registers through the ring they find (R569,
Tables 19-8, 19-9, 19-13). -/
theorem descriptorRingCommandsComplete : Obligations.DescriptorRingCommandsComplete := by
  refine ⟨fun c s h hlimit => ?state, fun c inp s h hlen hresv hr hhead hpresent hn hfree htenant => ?create,
    fun c inp s h hlen hr hsome hidle => ?delete, fun c inp x s h hlen hr hx hlimit => ?ringState,
    fun k r v x s hx hst => ?baseWhole, fun k r v x s hx hst hbase halign => ?baseLow, fun k r v x s hx hst hbase halign => ?baseHigh,
    fun k r p v x s hx hst => ?baseIgnored, fun k r v x s hx hv => ?tail, fun k r x s hx hst hin => ?start,
    fun k r x s hx hst hout => ?badStart, fun k r x s hx hidle => ?stop, fun k r x s hx hst hserved => ?stopping,
    fun k r x s hx hst => ?resume⟩
  case state =>
    refine vendor_answers (r := execGetEngineState c [] s) rfl h rfl rfl rfl ?_ hlimit
    rw [length_flatMap_const (k := 16) (by simp)]
    rfl
  case create =>
    refine vendor_done_none (r := execCreateDescriptorRing c inp s) rfl h hlen (by simp [hresv]) ?_
    dsimp only
    rw [hn, if_neg (by simp [hpresent]; omega), hfree, if_neg (by simp [htenant])]
  case delete =>
    refine vendor_done_none (r := execDeleteDescriptorRing c inp s) rfl h hlen rfl ?_
    dsimp only
    rw [if_neg (by omega), if_neg (by simpa [Option.isSome_iff_ne_none] using hsome), hidle, if_neg Bool.false_ne_true]
  case ringState =>
    refine vendor_answers (r := execGetRingStateDescriptor c inp s)
      (b := leBytes 2 x.headP ++ leBytes 2 x.tailP ++ leBytes 4 (x.st * 2 ^ 30 + x.lastError * 256)) rfl h hlen rfl ?_ (by simp) hlimit
    dsimp only
    rw [if_neg (by omega), hx]
  case baseWhole =>
    change execRingBaseWrite k r .whole v s = _
    rw [execRingBaseWrite, hx]
    dsimp only
    rw [if_pos hst, writePart, Nat.mod_mod_of_dvd _ (by decide)]
  case baseLow =>
    change execRingBaseWrite k r .low v s = _
    rw [execRingBaseWrite, hx]
    dsimp only
    rw [if_pos hst, writePart, show (x.base / 2 ^ 32 * 2 ^ 32 + v.toNat % 2 ^ 32) % 2 ^ 48 / 64 * 64 =
      x.base / 2 ^ 32 * 2 ^ 32 + v.toNat % 2 ^ 32 / 64 * 64 by omega]
  case baseHigh =>
    change execRingBaseWrite k r .high v s = _
    rw [execRingBaseWrite, hx]
    dsimp only
    rw [if_pos hst, writePart, show (v.toNat % 2 ^ 32 * 2 ^ 32 + x.base % 2 ^ 32) % 2 ^ 48 / 64 * 64 =
      v.toNat % 2 ^ 16 * 2 ^ 32 + x.base % 2 ^ 32 by omega]
  case baseIgnored =>
    change execRingBaseWrite k r p v s = _
    rw [execRingBaseWrite, hx]
    exact if_neg hst
  case tail =>
    change execRingTailDoorbell k r v s = _
    rw [execRingTailDoorbell, hx]
    exact if_pos hv
  case start =>
    change execRingStart k r s = _
    rw [execRingStart, hx]
    exact (if_neg (Classical.not_not.mpr hst)).trans (if_pos hin)
  case badStart =>
    change execRingStart k r s = _
    rw [execRingStart, hx]
    exact (if_neg (Classical.not_not.mpr hst)).trans (if_neg (by simp [hout]))
  case stop =>
    change execRingStop k r s = _
    rw [execRingStop, hx]
    exact if_neg (by simp [hidle])
  case stopping =>
    change execRingStop k r s = _
    rw [execRingStop, hx]
    exact if_pos ⟨hst, hserved⟩
  case resume =>
    change execRingResume k r s = _
    rw [execRingResume, hx]
    exact if_pos hst

/-! ### Bulk engines -/

/-- A request of an engine with a free tag (R570, R572). -/
theorem issueStep_of_tag {e tag bytes : Nat} {x : Engine} {op : ReqOp} {addr : Nat} {data : HostLine} {be : W64} {s : State}
    (htag : tagFor s (.engine e) = some tag) :
    issueStep e x op addr data be false bytes s = some (engineAsks tag e x op addr data be bytes s) := by
  have htag' : tagFor (setEngine e x s) (.engine e) = some tag := htag
  change (match tagFor (setEngine e x s) (.engine e) with | none => none | some tag => some _) = _
  rw [htag']
  rfl

theorem tagFor_releaseUnit (e : Nat) (src : Src) (s : State) : tagFor (releaseUnit e s) src = tagFor s src := rfl

theorem tagFor_setCv (u : Nat) (c : CvUnit) (src : Src) (s : State) : tagFor (setCv u c s) src = tagFor s src := rfl

/-- The write-back of a descriptor's end (R574). -/
theorem writeBack_of_tag {e tag : Nat} {x : Engine} {r : DescRing} {s : State} (htag : tagFor s (.engine e) = some tag) :
    writeBack e x r s = some (engineAsks tag e { x with phase := .writeBack } .wrPtl (r.base + 64 * r.headP) (backLine x)
      (BitVec.ofNat 64 (2 ^ 64 - 2 ^ 40)) 24 (releaseUnit e s)) :=
  issueStep_of_tag ((tagFor_releaseUnit ..).trans htag)

/-- An executable descriptor moves bytes (Table 19-9). -/
theorem descLen_pos {d : List Byte} (h : descOk d = true) : 0 < descLen d := by
  simp only [descOk, Bool.and_eq_true, decide_eq_true_eq] at h
  omega

/-- A descriptor of an executable operation other than a fill or a remote migration reads its source first (R573). -/
theorem goOn_reads {e tag : Nat} {x : Engine} {r : DescRing} {s : State} (hok : descOk x.desc = true) (hcode : x.code = 0)
    (hpos : x.pos = 0) (hfill : descOp x.desc ≠ 2)
    (hlocal : descOp x.desc = 5 → (extOf s (extentOf (descSrc x.desc))).ownerDev = 0xFFF) (htag : tagFor s (.engine e) = some tag) :
    goOn e x r s = some (engineAsks tag e { x with phase := .readSrc } .rd (descSrc x.desc / 64 * 64) 0 0
      (if descOp x.desc = 4 then min (64 - descSrc x.desc % 64) (descLen x.desc) else 64) s) := by
  have hlen := descLen_pos hok
  have hsrc : descSrc x.desc + x.pos = descSrc x.desc := by omega
  have hsum : sumBytes x = min (64 - descSrc x.desc % 64) (descLen x.desc) := by rw [sumBytes, hsrc, hpos, Nat.sub_zero]
  rw [goOn, hsrc]
  rw [if_neg (by omega), if_neg hfill, if_neg (fun h => h.2 (hlocal h.1)), issueStep_of_tag htag, hsum]

/-- A decoded descriptor is started by its operation (R573). -/
theorem startDesc_of_decoded {e : Fin 16} {op : Nat} {x : Engine} {r : DescRing} {s : State} (hring : engineRing s e = some r)
    (hx : engineOf s e = x) (hphase : x.phase = .decoded) (hok : descOk x.desc = true) (hop : descOp x.desc = op) :
    startDesc e op s = .next ((goOn e x r s).getD s) := by
  rw [startDesc, hring, hx]
  exact if_pos ⟨hphase, hok, hop⟩

/-- A successful step of an engine whose tenant's slot is not erased (Table 19-11). -/
theorem stepCode_of_served {s : State} {tenant status : Nat} (herased : slotErased s tenant = false) (hstatus : status = 0) :
    stepCode s tenant status = 0 := by
  unfold stepCode
  rw [herased, hstatus]
  rfl

/-- What a sweep takes is an idle engine: rings and responses stay (R570). -/
theorem takeSweeps_eng (s : State) : (takeSweeps s).eng.rings = s.eng.rings ∧ (takeSweeps s).eng.resp = s.eng.resp := by
  have hkept : ((takeSweeps s).eng.rings, (takeSweeps s).eng.resp) = (s.eng.rings, s.eng.resp) := by
    refine keeps_foldl (fun s => (s.eng.rings, s.eng.resp)) _ _ (fun s j => ?_) s
    split
    · rfl
    · split <;> rfl
  exact Prod.mk.inj hkept

/-- The end of a descriptor: its ring advances, and no response is taken (R574). -/
theorem endDesc_eng {e k : Nat} {x : Engine} {r : DescRing} {s : State} (hk : x.ring = some k) (hcode : x.code = 0)
    (hstop : r.stopping = false) :
    tfind (endDesc e x r s).eng.rings k = some { r with headP := (r.headP + 1) % max 1 r.entries, stopping := false } ∧
      (endDesc e x r s).eng.resp = s.eng.resp := by
  have hend : endDesc e x r s = takeSweeps (setEngine e { Engine.fresh with done := x.done + 1 } (setDescRing k
      { r with headP := (r.headP + 1) % max 1 r.entries, stopping := false } s)) := by
    rw [endDesc, hk, hcode, hstop]
    rfl
  obtain ⟨hrings, hresp⟩ := takeSweeps_eng (setEngine e { Engine.fresh with done := x.done + 1 } (setDescRing k
    { r with headP := (r.headP + 1) % max 1 r.entries, stopping := false } s))
  rw [hend, hrings, hresp]
  exact ⟨tfind_tput_same .., rfl⟩

/-- Settles O13: a descriptor is split by its operation, and a step by whether it is the last (R570, R573 to R575,
Table 19-12). -/
theorem engineStepsComplete : Obligations.EngineStepsComplete := by
  refine ⟨fun e k r tag s herase hfree hdrain hnext hr htag => ?take,
    fun e r x tag s hring hx hphase hok hop hcode hpos htag => ?copy,
    fun e r x tag s hring hx hphase hok hop hcode hpos htag => ?fill,
    fun e r x tag s hring hx hphase hok hop hcode hpos howner htag => ?migrate,
    fun e r x c tag s hring hx hphase hok hop hcode hpos hc hheld hhead htag => ?checksum,
    fun e r x c tag s hring hx hphase hok hop hc hbusy htag => ?checksumBusy,
    fun e r x tag s hring hx hphase hok hop hcode hpos htag => ?compare,
    fun e r x tag s hring hx hphase hok htag => ?invalid,
    fun e r p s hp hring hphase hstatus herased hpoison => ?fetched,
    fun e k r p s hp hk he hr hphase hcode hstatus herased hstop => ?ended⟩
  case take =>
    have hsweeps : takeSweeps s = s := by rw [takeSweeps, herase]; rfl
    change execEngineTakeDescriptor e s = _
    rw [execEngineTakeDescriptor, hsweeps]
    dsimp only
    rw [hfree, hdrain, if_neg (by decide), hnext]
    dsimp only
    rw [hr]
    dsimp only
    rw [fetchDesc, issue, issueStep_of_tag (tag := tag) (s := { s with eng := { s.eng with rr := k + 1 } }) htag]
    rfl
  case copy =>
    refine (startDesc_of_decoded hring hx hphase hok hop).trans ?_
    rw [goOn_reads hok hcode hpos (by omega) (by omega) htag, hop]
    rfl
  case fill =>
    have hlen := descLen_pos hok
    refine (startDesc_of_decoded hring hx hphase hok hop).trans ?_
    rw [goOn, hpos, if_neg (by omega), if_pos hop, issue, issueStep_of_tag htag, Nat.add_zero]
    rfl
  case migrate =>
    refine (startDesc_of_decoded hring hx hphase hok hop).trans ?_
    rw [goOn_reads hok hcode hpos (by omega) (fun _ => howner) htag, hop]
    rfl
  case checksum =>
    have hnotOther : ¬((c.head.isSome ∧ c.head ≠ some r.head) ∨ c.held.isSome) := by
      rw [hheld]
      obtain hnone | hsome := hhead
      · simp [hnone]
      · simp [hsome]
    change execDescChecksum e s = _
    rw [execDescChecksum, hring, hx]
    dsimp only
    rw [hc, if_neg (by simp [hphase, hok, hop]), if_neg hnotOther,
      goOn_reads hok hcode hpos (by omega) (by omega) ((tagFor_setCv ..).trans htag), if_pos hop]
    rfl
  case checksumBusy =>
    have hother : (c.head.isSome ∧ c.head ≠ some r.head) ∨ c.held.isSome := by
      obtain hheld | ⟨k, hk, hne⟩ := hbusy
      · exact .inr hheld
      · exact .inl (by simpa [hk] using hne)
    change execDescChecksum e s = _
    rw [execDescChecksum, hring, hx]
    dsimp only
    rw [hc, if_neg (by simp [hphase, hok, hop]), if_pos hother, goOn, if_pos (.inl (show 3 ≠ 0 by decide)), writeBack_of_tag htag]
    rfl
  case compare =>
    have hreads := goOn_reads (x := { x with result := 2 ^ 64 - 1 }) (r := r) hok hcode hpos (show descOp x.desc ≠ 2 by omega)
      (fun h5 => absurd (hop.symm.trans h5) (by decide)) htag
    change execDescCompare e s = _
    rw [execDescCompare, hring, hx]
    dsimp only
    rw [if_pos ⟨hphase, hok, hop⟩, hreads, if_neg (show descOp x.desc ≠ 4 by omega)]
    rfl
  case invalid =>
    change execDescInvalid e s = _
    rw [execDescInvalid, hring, hx]
    dsimp only
    rw [if_pos ⟨hphase, hok⟩, writeBack_of_tag htag]
    rfl
  case fetched =>
    change execEngineStepDone e s = _
    rw [execEngineStepDone, hp]
    dsimp only
    rw [hring]
    dsimp only
    rw [stepCode_of_served herased hstatus, hphase, if_neg (by decide), if_neg (by decide), afterStep, hphase]
    dsimp only
    rw [hpoison, if_neg Bool.false_ne_true]
    rfl
  case ended =>
    have hring : engineRing s e = some r := by
      rw [engineRing, he]
      dsimp only
      rw [hk, Option.bind_some, hr]
    have hexec : exec (.engineStepDone e) s = execEngineStepDone e s := rfl
    rw [execEngineStepDone, hp] at hexec
    dsimp only at hexec
    rw [hring] at hexec
    dsimp only at hexec
    rw [if_pos hphase, if_pos hcode, stepCode_of_served herased hstatus] at hexec
    obtain ⟨hrings, hresp⟩ := endDesc_eng (e := e) (x := { engineOf s e with code := 0 }) (r := r)
      (s := { s with eng := { s.eng with resp := s.eng.resp.erase p } }) hk rfl hstop
    exact After.intro hexec ⟨hrings, hresp⟩
end Sys2Proof.Machine

/-!
Hosts: requests, data path events, links and resets of a head (02_host_ports.md R60 to R93, R99 to R101, R123).
-/
namespace Sys2Proof.Machine
open Sys2Proof.Safety

/-! ### Requests of a head at work -/

/-- A request at a device at work is only noted (R494). -/
theorem noteRequest_atWork {s : State} (h : AtWork s) : noteRequest s = { s with power := { s.power with lastReq := s.time.mono } } := by
  obtain ⟨hmode, hentering, -⟩ := h
  rw [noteRequest]
  dsimp only
  rw [hentering, hmode, if_neg (by decide)]

/-- A request arrives at a head at work (R29, R494). -/
theorem arrives_of_ready {h : Nat} {s : State} (hready : HeadReady s h) : arrives h s = some (noteRequest s) := by
  obtain ⟨htakes, hwithheld, hl1, -, -⟩ := hready
  rw [arrives, htakes, hwithheld, leaveL1, hl1]
  exact if_neg (by simp)

/-- What the classifier reads (Table 3-5): the extents, the key slots and the tenants. -/
theorem classify_head_congr {s t : State} (hext : t.ten.extA = s.ten.extA) (hslots : t.ten.slots = s.ten.slots)
    (htenants : t.ten.tenants = s.ten.tenants) (h : Nat) (addr : Nat) : classify t (.head h) false addr = classify s (.head h) false addr := by
  simp only [classify, extOf, slotOf, tenantOf, wrongAccessor, hext, hslots, htenants]
  rfl

theorem countEvent_ten (code n : Nat) (a : EvAttr) (s : State) : (countEvent code n a s).ten = s.ten := rfl

theorem countReq_ten (code n : Nat) (r : Req) (s : State) : (countReq code n r s).ten = s.ten := rfl

theorem meterLive_ten (t : Nat) (f : MeterBlock → MeterBlock) (s : State) : (meterLive t f s).ten = s.ten := by
  rw [meterLive]
  split <;> rfl

theorem countReq_time (code n : Nat) (r : Req) (s : State) : (countReq code n r s).time = s.time := rfl

theorem meterLive_time (t : Nat) (f : MeterBlock → MeterBlock) (s : State) : (meterLive t f s).time = s.time := by
  rw [meterLive]
  split <;> rfl

/-- The classified request, under its tag (R119, R120). -/
theorem tfind_enterClass (tag : Nat) (eng : Bool) (r : Req) (s : State) :
    tfind (enterClass tag eng r s).2.ten.reqs tag = some (enterClass tag eng r s).1 := tfind_tput_same ..

/-- The request stands under its tag, as it came but for its class, and its queue holds the tag. -/
def Waits (tag : Nat) (r : Req) (t : State) : Prop :=
  ∃ q, tfind t.ten.reqs tag = some q ∧ q.src = r.src ∧ q.op = r.op ∧ q.addr = r.addr ∧ q.rtag = r.rtag ∧
    tag ∈ (queueOf t (4 * q.tenant + q.cls)).reqs

theorem queueOf_congr {s t : State} (hten : t.ten = s.ten) (htime : t.time = s.time) (q : Nat) : queueOf t q = queueOf s q := by
  simp only [queueOf, queueQos, tenantOf, hten, htime]

theorem Waits.congr {tag : Nat} {r : Req} {s t : State} (h : Waits tag r s) (hten : t.ten = s.ten) (htime : t.time = s.time) :
    Waits tag r t := by
  obtain ⟨q, hfind, hsrc, hop, haddr, hrtag, hmem⟩ := h
  exact ⟨q, by rw [hten, hfind], hsrc, hop, haddr, hrtag, by rw [queueOf_congr hten htime]; exact hmem⟩

theorem queueOf_setQueue (q : Nat) (x : FlowQ) (s : State) : queueOf (setQueue q x s) q = x := by
  rw [queueOf, setQueue, tfind_tput_same]

theorem setQueue_waits {tag : Nat} {r : Req} {s : State} (hr : tfind s.ten.reqs tag = some r) {x : FlowQ} (hx : tag ∈ x.reqs) (b : Bool) :
    Waits tag r (setQueue (4 * r.tenant + r.cls) x (modReq tag (fun r => { r with within := b }) s)) := by
  refine ⟨{ r with within := b }, ?_, rfl, rfl, rfl, rfl, by rw [queueOf_setQueue]; exact hx⟩
  rw [setQueue, modReq, hr]
  exact tfind_tput_same ..

/-- A request that joins its flow queue waits there (R123). -/
theorem joinQueue_waits {tag : Nat} {r : Req} {s : State} (hr : tfind s.ten.reqs tag = some r) : Waits tag r (joinQueue tag r s) := by
  have hmem : tag ∈ (credited s (4 * r.tenant + r.cls)).reqs ++ [tag] := List.mem_append_right _ List.mem_cons_self
  rw [joinQueue]
  split
  · exact setQueue_waits hr hmem _
  · exact (setQueue_waits hr hmem _).congr (by rw [meterLive_ten, countReq_ten]) (by rw [meterLive_time, countReq_time])

theorem classifyReq_waits {tag : Nat} {r : Req} {s : State} (hq : classify s r.src false r.addr = .queue) :
    Waits tag r (classifyReq tag false r s) := by
  rw [classifyReq, hq]
  change Waits tag r (joinQueue tag (enterClass tag false r s).1 (enterClass tag false r s).2)
  obtain ⟨q, hfind, hsrc, hop, haddr, hrtag, hmem⟩ := joinQueue_waits (tfind_enterClass tag false r s)
  exact ⟨q, hfind, hsrc, hop, haddr, hrtag, hmem⟩

/-- A request of a head that is not in viral, and that the classifier queues, waits under the lowest free tag (R66, R119). -/
theorem receive_waits {h tag : Nat} {r : Req} {s : State} (hsrc : r.src = .head h) (htag : tagFor s (.head h) = some tag)
    (hviral : (headOf s h).viral = false) (hq : classify s (.head h) false r.addr = .queue) :
    ∃ t, receive false r s = some t ∧ Waits tag r t := by
  have hq' : classify { s with ten := { s.ten with reqs := tput s.ten.reqs tag r } } r.src false r.addr = .queue := by
    rw [hsrc, ← hq]
    exact classify_head_congr rfl rfl rfl ..
  refine ⟨_, ?_, classifyReq_waits hq'⟩
  have hviral' : (headOf { s with ten := { s.ten with reqs := tput s.ten.reqs tag r } } h).viral = false := hviral
  rw [receive, hsrc, htag]
  dsimp only
  rw [hviral', Bool.false_and, if_neg Bool.false_ne_true]

/-- A write of a head is counted as it comes (Table 19-2). -/
def counted (op : ReqOp) (h : Nat) (s : State) : State :=
  if op.isWrite then countEvent 0x0050 64 { EvAttr.bare with head := some h } s else s

/-- A request of a head at work waits in its flow queue (R29, R68 to R71, R123). -/
theorem hostRequest_waits {h a tg rtag : Nat} {op : ReqOp} {data : HostLine} {be : W64} {poison : Bool} {s : State}
    (hready : HeadReady s h) (hq : classify s (.head h) false (a / 64 * 64) = .queue) (htag : tagFor s (.head h) = some tg) :
    Waits tg (newReq (.head h) op (a / 64 * 64) rtag data (be &&& ~~~0) poison false s.time.mono)
      (hostRequest h op (.dpa a) rtag data be poison .none s) := by
  obtain ⟨t, hreceive, hwaits⟩ := receive_waits (h := h) (tag := tg) (s := counted op h (noteRequest s))
    (r := newReq (.head h) op (a / 64 * 64) rtag data (be &&& ~~~0) poison false s.time.mono) rfl
    (by rw [noteRequest_atWork hready.2.2.2.2, counted]; split <;> exact htag)
    (by rw [noteRequest_atWork hready.2.2.2.2, counted]; split <;> exact hready.2.2.2.1)
    (by rw [noteRequest_atWork hready.2.2.2.2, counted]; split <;> exact hq)
  have hheld : (headOf (noteRequest s) h).withheld = false := by rw [noteRequest_atWork hready.2.2.2.2]; exact hready.2.1
  unfold hostRequest
  rw [arrives_of_ready hready]
  dsimp only
  rw [hheld, if_neg Bool.false_ne_true]
  change Waits _ _ (match receive false _ (counted op h (noteRequest s)) with | some t => t | none => s)
  rw [hreceive]
  exact hwaits

/-- Settles O14: every kind of request is one call of the intake that tags and queues it; the unsupported opcodes split on whether
they carry data (R29, R66, R68 to R71, R123). -/
theorem hostRequestsAreQueued : Obligations.HostRequestsAreQueued := by
  unfold Obligations.HostRequestsAreQueued
  intro queued takes
  refine ⟨fun h a tag tg s htakes => ?requests, fun h op tag s hready => ?unsupported, fun h op tag s hready => ?unsupportedData⟩
  case requests =>
    obtain ⟨hready, -, hq, htag⟩ := htakes
    exact ⟨After.intro rfl (hostRequest_waits hready hq htag), After.intro rfl (hostRequest_waits hready hq htag),
      After.intro rfl (hostRequest_waits hready hq htag), fun d p => After.intro rfl (hostRequest_waits hready hq htag),
      fun d be p => After.intro rfl (hostRequest_waits hready hq htag)⟩
  case unsupported =>
    have hheld : (headOf (noteRequest s) h).withheld = false := by rw [noteRequest_atWork hready.2.2.2.2]; exact hready.2.1
    change execUnsupportedM2sOpcode h op tag false s = _
    rw [execUnsupportedM2sOpcode, arrives_of_ready hready]
    dsimp only
    rw [hheld, if_neg Bool.false_ne_true, if_neg Bool.false_ne_true]
  case unsupportedData =>
    have hheld : (headOf (noteRequest s) h).withheld = false := by rw [noteRequest_atWork hready.2.2.2.2]; exact hready.2.1
    have hexec : exec (.unsupportedM2sOpcode h op tag true) s = execUnsupportedM2sOpcode h op tag true s := rfl
    rw [execUnsupportedM2sOpcode, arrives_of_ready hready] at hexec
    dsimp only at hexec
    rw [hheld, if_neg Bool.false_ne_true, if_pos rfl] at hexec
    refine After.intro hexec ?_
    rw [reply, headOf_setHead_same, noteRequest_atWork hready.2.2.2.2]
    exact ⟨_, rfl, rfl, rfl, rfl⟩
/-! ### The data path of a head -/

theorem leaveL1_of_out {h : Nat} {s : State} (hl1 : (headOf s h).l1 = false) : leaveL1 h s = s := by
  rw [leaveL1, hl1]
  exact if_neg Bool.false_ne_true

/-- Settles O15: each event and command is followed through its one branch; a slot of the dispatcher without a cache
error leaves the state as it is before the arbiter picks (R126). -/
theorem headDataPathEventsComplete : Obligations.HeadDataPathEventsComplete := by
  refine ⟨fun q s hdrain hgap hexit hpick => ?dispatch, fun tag at_ r s hstalls hr hfree => ?stall,
    fun h s hlink hpresent hviral => ?viral, fun h s hlink => if_pos hlink, fun h s hlink hl1 harmed => ?gpfUnarmed,
    fun h s hlink hl1 hup harmed => ?gpf, fun h s hlink hide => ?ideFailure, fun h k s hlink hpend => ?ideStart,
    fun h key p s hlink hspdm hsession => ⟨?ideMem, ?ideIo⟩, fun h off s hlink => if_pos hlink,
    fun h v s hpresent hlink => ?dvsec, fun h off v s hpresent hlink => ?bar2,
    fun h n base size ways gran pos skip commit s hpresent hlink hopen => ?decoder,
    fun h u v s hpresent hlink hhead => ?seed⟩
  case dispatch =>
    change execArbiterDispatchSlot .none s = _
    rw [execArbiterDispatchSlot, hdrain, hgap, hexit, if_neg (by decide), show frontError .none s = s from rfl, dispatchSlot]
    dsimp only
    rw [hpick]
  case stall =>
    change execWriteStallRelease s = _
    rw [execWriteStallRelease, hstalls, List.findSome?_cons]
    dsimp only
    rw [hr]
    dsimp only
    rw [hfree, if_pos rfl]
    simp
  case viral =>
    refine (if_pos hlink).trans ?_
    rw [enterViral]
    dsimp only
    rw [hpresent, hviral, if_neg (by decide)]
    simp
  case gpfUnarmed =>
    change execGpfPhase2 h s = _
    rw [execGpfPhase2, hlink, leaveL1_of_out hl1]
    dsimp only
    rw [harmed, Bool.and_false]
    rfl
  case gpf =>
    change execGpfPhase2 h s = _
    rw [execGpfPhase2, hlink, leaveL1_of_out hl1]
    dsimp only
    rw [hup, harmed]
    rfl
  case ideFailure =>
    refine After.intro (show execIdeIntegrityFailure h s = _ from if_pos (by rw [hlink, hide]; rfl)) ?_
    change (headOf (setHead h _ s) h).ide.insecure = true ∧ (headOf (setHead h _ s) h).aer = true ∧
      headTakes (headOf (setHead h _ s) h) = false
    rw [headOf_setHead_same]
    exact ⟨rfl, rfl, by simp [headTakes]⟩
  case ideStart =>
    change execIdeStart h s = _
    rw [execIdeStart]
    dsimp only
    rw [if_pos hlink, hpend]
  case ideMem =>
    change execCxlIdeKm h false key s = _
    rw [execCxlIdeKm, hspdm]
    exact if_pos (by rw [hlink]; exact hsession)
  case ideIo =>
    change execCxlIdeKm h true key s = _
    rw [execCxlIdeKm, hspdm]
    exact if_pos (by rw [hlink]; exact hsession)
  case dvsec => exact if_pos (by rw [hpresent, hlink]; rfl)
  case bar2 => exact if_pos (by rw [hpresent, hlink]; rfl)
  case decoder =>
    refine (if_pos (by rw [hpresent, hlink]; rfl)).trans ?_
    exact if_neg (by rw [hopen]; exact Bool.false_ne_true)
  case seed =>
    refine (if_pos (by rw [hpresent, hlink]; rfl)).trans ((if_pos hhead).trans ?_)
    rw [writePart, Nat.mod_eq_of_lt v.isLt]
/-! ### Links and resets of a head: what the bookkeeping leaves of a head and of its clock domain -/

theorem drainDomain_port (h : Fin 4) : drainDomain (3 + h) = false := by
  revert h
  decide

theorem headOf_congr {s t : State} (e : s.heads = t.heads) (h : Nat) : headOf s h = headOf t h := by
  rw [headOf, headOf, e]

theorem headOf_of_heads {h : Nat} {x : HeadSt} {s t : State} (e : t.heads = (setHead h x s).heads) : headOf t h = x := by
  rw [headOf_congr e, headOf_setHead_same]

theorem startDom_heads (d : Nat) (s : State) : (startDom d s).heads = s.heads := by rw [startDom_eq]
theorem stopDom_heads (d : Nat) (s : State) : (stopDom d s).heads = s.heads := by rw [stopDom_eq]
theorem startDom_power (d : Nat) (s : State) : (startDom d s).power = s.power := by rw [startDom_eq]

theorem gateDom_heads (d : Nat) (s : State) : (gateDom d s).heads = s.heads := by
  unfold gateDom
  split <;> rfl

theorem markPhase_heads (n : Nat) (s : State) : (markPhase n s).heads = s.heads := by
  unfold markPhase
  split <;> rfl

theorem fillLocks_domains (n : Nat) (s : State) : (fillLocks n s).time.domains = s.time.domains := by
  fun_induction fillLocks n s with
  | case1 => rfl
  | case2 => rfl
  | case3 n s q qs hq hroom ih => exact ih
  | case4 => rfl

theorem domOf_setDom (d : Nat) (x : DomState) (s : State) : domOf (setDom d x s) d = x := tget_tput_same ..

theorem domOf_stopDom {d : Nat} (hd : drainDomain d = false) (s : State) : domOf (stopDom d s) d = .stopped := by
  rw [stopDom, if_neg (by simp [hd])]
  dsimp only
  rw [domOf, fillLocks_domains]
  exact domOf_setDom ..

theorem domOf_gateDom {d : Nat} {s : State} (hrun : domOf s d = .running) (hd : drainDomain d = false) :
    domOf (gateDom d s) d = .gated := by
  rw [gateDom, if_pos ⟨hrun, by simp [hd]⟩]
  exact domOf_setDom ..

theorem domOf_startDom_of_gated {d : Nat} {s : State} (hgated : domOf s d = .gated) : domOf (startDom d s) d = .running := by
  have hsame : domOf { s with time := { s.time with heldStops := s.time.heldStops.filter (· != d) } } d = .gated := hgated
  unfold startDom
  dsimp only
  rw [hsame]
  exact domOf_setDom ..

theorem wake_of_atWork {s : State} (hw : AtWork s) (source : Nat) : wake source s = s := by
  obtain ⟨hmode, hent, hseq⟩ := hw
  rw [wake, hent, hseq, hmode]
  rfl

theorem wake_startDom {s : State} (hw : AtWork s) (source d : Nat) : wake source (startDom d s) = startDom d s :=
  wake_of_atWork (by rw [AtWork, startDom_power]; exact hw) source

/-- What a reset of its link leaves of a head (Table 2-11). -/
def linkReset (h : Nat) (s : State) : HeadSt :=
  let x := headOf s h
  { HeadSt.fresh with present := x.present, perst := x.perst, maRef := x.maRef, regions := x.regions, extGen := x.extGen,
                      logs := x.logs, intPolicy := x.intPolicy, msix := x.msix, s2m := x.s2m, gpfSent := x.gpfSent,
                      resetRun := x.resetRun || (s.map.loaded && frontEnabled s) }

theorem headOf_resetHead (h : Nat) (s : State) : headOf (resetHead h s) h = linkReset h s := headOf_setHead_same ..

/-- Settles O16: a head's own record is written last but for its clock domain, its mailboxes and its requests, which
leave the record; a port's domain is none that a drain holds, so it stops and gates at once (R460). -/
theorem headLinkAndResetEventsComplete : Obligations.HeadLinkAndResetEventsComplete := by
  refine ⟨fun h s hlink hrun => ?l1Entry, fun h s hlink => ?l12Entry, fun h s hw hlink hl1 hgated => ?l1Exit,
    fun h rate width flit s hpresent hperst hlink hup hwidth hrate => ?linkUp, fun h s hpresent hperst => ?perst,
    fun h s hw hpresent hperst => ?release, fun h s hlink => ⟨if_pos hlink, if_pos hlink⟩, fun h s hlink => ?cxlReset,
    fun h s hlink => if_pos hlink, fun s => rfl, fun h s hlink => ?refclk,
    fun h s htakes hact hup hmap hfront hext hheld herr harm => ?active⟩
  case l1Entry =>
    refine After.intro (show execAspmL1Entry h false s = _ from if_pos hlink) ⟨?_, ?_⟩
    · rw [enterL1, if_neg Bool.false_ne_true, headOf_congr (gateDom_heads ..)]
      exact congrArg HeadSt.l1 (headOf_setHead_same ..)
    · rw [enterL1, if_neg Bool.false_ne_true]
      exact domOf_gateDom hrun (drainDomain_port h)
  case l12Entry =>
    refine After.intro (show execAspmL1Entry h true s = _ from if_pos hlink) ⟨?_, ?_⟩
    · rw [enterL1, if_pos rfl, headOf_congr (stopDom_heads ..)]
      exact congrArg HeadSt.l1 (headOf_setHead_same ..)
    · rw [enterL1, if_pos rfl]
      exact domOf_stopDom (drainDomain_port h) _
  case l1Exit =>
    have hexec : exec (.aspmL1Exit h) s = execAspmL1Exit h s := rfl
    rw [execAspmL1Exit, if_pos (by rw [hlink, hl1]; rfl), leaveL1, if_pos hl1, wake_startDom (by exact hw)] at hexec
    refine After.intro hexec ⟨?_, domOf_startDom_of_gated hgated⟩
    rw [headOf_congr (startDom_heads ..)]
    exact congrArg HeadSt.l1 (headOf_setHead_same ..)
  case linkUp =>
    have hexec : exec (.linkUp h rate width flit) s = execLinkUp h rate width flit s := rfl
    rw [execLinkUp, if_pos (by simp [hpresent, hperst, hlink, hup, hwidth, hrate])] at hexec
    refine After.intro hexec ?_
    split <;> exact ⟨congrArg HeadSt.linkUp (headOf_of_heads rfl), congrArg HeadSt.rate (headOf_of_heads rfl),
      congrArg HeadSt.width (headOf_of_heads rfl), congrArg HeadSt.flit (headOf_of_heads rfl)⟩
  case perst =>
    have hexec : exec (.perstNAssert h) s = execPerstNAssert h s := rfl
    rw [execPerstNAssert, if_neg (by simp [hperst]), if_pos hpresent] at hexec
    have hhead := headOf_resetHead h (setHead h { headOf s h with perst := true } s)
    rw [linkReset, headOf_setHead_same] at hhead
    refine After.intro hexec ?_
    split
    · rw [hhead]
      exact ⟨rfl, rfl, rfl, rfl⟩
    · rw [headOf_congr (stopDom_heads ..), hhead]
      exact ⟨rfl, rfl, rfl, rfl⟩
  case release =>
    have hexec : exec (.perstNRelease h) s = execPerstNRelease h s := rfl
    have hup : devUp (touchQuiet (setHead h { headOf s h with perst := false, maRef := s.time.mono } s)) = true := by
      obtain ⟨hmode, -, hseq⟩ := hw
      simp [devUp, touchQuiet, setHead, hmode, hseq]
    rw [execPerstNRelease, if_pos (by rw [hpresent, hperst]; rfl)] at hexec
    dsimp only at hexec
    rw [if_pos hup, wake_startDom (by exact hw)] at hexec
    refine After.intro hexec ?_
    rw [headOf_congr (startDom_heads ..)]
    have hhead := headOf_setHead_same h { headOf s h with perst := false, maRef := s.time.mono } s
    exact ⟨congrArg HeadSt.perst hhead, congrArg HeadSt.maRef hhead⟩
  case cxlReset =>
    refine After.intro (show execCxlReset h s = _ from if_pos hlink) ?_
    rw [headOf_congr (show (forgetGpf _ (quietRequests _ (setHead _ _ s))).heads = (setHead _ _ s).heads from rfl),
      headOf_setHead_same]
    exact ⟨hlink, rfl, rfl, rfl, rfl⟩
  case refclk =>
    have hexec : exec (.refclkLoss ⟨h.val, by omega⟩) s = execRefclkLoss ⟨h.val, by omega⟩ s := rfl
    rw [execRefclkLoss] at hexec
    dsimp only at hexec
    rw [if_pos h.isLt, if_pos (by exact hlink)] at hexec
    refine After.intro hexec ⟨?_, ?_⟩
    · rw [headOf_resetHead]
      rfl
    · change (s.time.hrefGood.set h false).getD h false = false
      rw [List.getD_eq_getElem?_getD, List.getElem?_set_self']
      cases s.time.hrefGood[h.val]? <;> rfl
  case active =>
    have hexec : exec (.memoryActiveSet h) s = execMemoryActiveSet h s := rfl
    rw [execMemoryActiveSet, if_pos (by simp [htakes, hact, hup, hmap, hfront, hext, hheld, herr, harm])] at hexec
    refine After.intro hexec ?_
    rw [headOf_congr (markPhase_heads ..)]
    exact ⟨congrArg HeadSt.memActive (headOf_of_heads rfl), congrArg HeadSt.maTime (headOf_of_heads rfl)⟩

end Sys2Proof.Machine

/-!
Extents, their access, class profiles and tenants (R108 to R143): what a journalled record changes of the tables it is about.
-/
namespace Sys2Proof.Machine
open Sys2Proof.Safety

/-! ### What a committed record changes -/

/-- A record is applied at once or waits for room; only the map's journal takes part besides (R250). -/
theorem commit_cases (r : JRec) (s : State) :
    (∃ m, commit r s = { s with map := m }) ∨ ∃ m, commit r s = applyRec r { s with map := m } := by
  rw [commit]
  split
  · exact .inr ⟨_, rfl⟩
  · exact .inl ⟨_, rfl⟩

/-- A record of the active bank's own entry leaves that entry (Table 3-2). -/
theorem extOf_commit_entry {e : Nat} {act stg : Bool} {x : ExtentEnt} {s : State} (h : act = true → x = extOf s e) :
    extOf (commit (.extentEntry e act stg x) s) e = extOf s e := by
  obtain ⟨m, hm⟩ | ⟨m, hm⟩ := commit_cases (.extentEntry e act stg x) s
  · rw [hm]
    rfl
  · rw [hm, applyRec, setExt]
    cases hact : act
    · rfl
    · rw [← h hact]
      exact tget_tput_same ..

theorem extOf_journalExt (e : Nat) (s : State) : extOf (journalExt e s) e = extOf s e := by
  unfold journalExt
  split
  · exact extOf_commit_entry fun _ => rfl
  · rw [extOf_commit_entry (fun h => absurd h Bool.false_ne_true), extOf_commit_entry fun _ => rfl]

theorem extOf_setEState (e : Nat) (st : EState) (s : State) : extOf (setEState e st s) e = { extOf s e with st := st } :=
  tget_tput_same ..

theorem extOf_moveExt (e : Nat) (st : EState) (s : State) : extOf (moveExt e st s) e = { extOf s e with st := st } := by
  rw [moveExt, extOf_journalExt, extOf_setEState]

/-- The releases asked for are no part of what a record changes (R118). -/
theorem releaseAsked_commit_entry (e : Nat) (act stg : Bool) (x : ExtentEnt) (s : State) :
    (commit (.extentEntry e act stg x) s).ten.releaseAsked = s.ten.releaseAsked := by
  obtain ⟨m, hm⟩ | ⟨m, hm⟩ := commit_cases (.extentEntry e act stg x) s
  · rw [hm]
  · rw [hm]
    rfl

theorem releaseAsked_moveExt (e : Nat) (st : EState) (s : State) : (moveExt e st s).ten.releaseAsked = s.ten.releaseAsked := by
  rw [moveExt, journalExt]
  split
  · rw [releaseAsked_commit_entry]
    rfl
  · rw [releaseAsked_commit_entry, releaseAsked_commit_entry]
    rfl

/-! ### What dropping map entries and lines leaves -/

theorem releaseSlot_ten (n : Nat) (s : State) : (releaseSlot n s).ten = s.ten := by
  unfold releaseSlot
  split
  · rfl
  · split <;> rfl

theorem dropEntry_ten (lfa : Nat) (s : State) : (dropEntry lfa s).ten = s.ten := by
  unfold dropEntry
  split
  · rfl
  · split
    · rfl
    · exact releaseSlot_ten ..
    · rfl

theorem noteDirty_ten (lfa : Nat) (s : State) : (noteDirty lfa s).ten = s.ten := by
  unfold noteDirty
  split
  · split <;> rfl
  · rfl

theorem putLine_ten (i : Nat) (l : Line) (s : State) : (putLine i l s).ten = s.ten := rfl

theorem dropLine_ten (i : Nat) (s : State) : (dropLine i s).ten = s.ten := by
  rw [dropLine, noteDirty_ten, putLine_ten]

theorem dropLines_ten (p : Line → Bool) (s : State) : (dropLines p s).ten = s.ten := by
  rw [dropLines]
  exact keeps_foldl State.ten _ _ (fun s i => dropLine_ten i s) s

theorem ten_commit_mapTrim (first count tenant : Nat) (s : State) : (commit (.mapTrim first count tenant) s).ten = s.ten := by
  obtain ⟨m, hm⟩ | ⟨m, hm⟩ := commit_cases (.mapTrim first count tenant) s
  · rw [hm]
  · rw [hm, applyRec]
    exact keeps_foldl State.ten _ _ (fun _ _ => dropEntry_ten ..) _

theorem trimExtent_ten (e tenant : Nat) (s : State) : (trimExtent e tenant s).ten = s.ten := by
  rw [trimExtent, ten_commit_mapTrim, dropLines_ten]

/-! ### Extent, access and profile commands -/

theorem extOf_complete (c op : Nat) (rc : Rc) (out : CmdOut) (s : State) (e : Nat) : extOf (complete c op rc out s) e = extOf s e := rfl

theorem length_entryBytes (x y : ExtentEnt) (a b : Nat) :
    (extBytes x ++ extBytes y ++ leBytes 1 a ++ leBytes 1 b ++ zeros 6).length = 40 := by
  simp [extBytes]

theorem length_bucketBytes (b : Bucket) : (bucketBytes b).length = 8 := by simp [bucketBytes]

/-- Settles O17: the entry that a command writes is the entry it journals, so the record changes it no more, whether it is
applied at once or waits (R250, R112, R113). -/
theorem extentAndProfileCommandsComplete : Obligations.ExtentAndProfileCommandsComplete := by
  refine ⟨fun c inp s h hlen hlo hhi hend hlimit => ?getEntry,
    fun c inp s h hlen hbad hst hwith hx hact hstg hroom hadd => ?assign,
    fun c inp s h hlen he hst hroom => ?unassign, fun e s hst howner hflight hroom haff hasked => ?trim,
    fun c h a s hopen hh ha hpresent => ?setAccess, fun c s h hlimit => ?getAccess,
    fun c inp s h hlen hresv hbank hroom => ?setProfile, fun c p s h hlimit => ?getProfile,
    fun c inp s h hlen hq hlimit => ?queue, fun c s h hlimit => ?totals, fun s hcopy => ?copied⟩
  case getEntry =>
    refine vendor_answers (r := execGetExtentEntry c inp s) rfl h hlen rfl (if_neg (by omega)) ?_ hlimit
    rw [List.length_append, length_flatMap_const (k := 40) (fun i => length_entryBytes ..)]
    simp
  case assign =>
    have hfree : ¬((extOf s (le inp 0 4)).st = .releasing ∨ (extOf s (le inp 0 4)).st = .erasing) := by simp [hst]
    have hidle : ¬((extOf s (le inp 0 4)).st = .pending ∨ (extOf s (le inp 0 4)).st = .added ∨
        s.ten.withheld.contains (le inp 0 4) = true) := by rw [hst, hwith]; decide
    have hlocal : ((assignEntry inp s).crosses || (extOf s (le inp 0 4)).crosses || (extStg s (le inp 0 4)).crosses) = false := by
      rw [hx, hact, hstg]
      rfl
    have hexec := vendor_reply (r := execAssignExtent c inp s) rfl h hlen rfl
    dsimp only at hexec
    rw [if_neg (by rw [hbad]; exact Bool.false_ne_true), if_neg hfree, if_neg hidle, if_neg (by rw [hlocal]; exact Bool.false_ne_true),
      journaled_of_room hroom, if_pos hadd, settle_done (Nat.zero_le _), recordAssign,
      if_neg (by rw [hlocal]; exact Bool.false_ne_true)] at hexec
    refine After.intro hexec ⟨?_, rc_complete ..⟩
    rw [extOf_complete, extOf_journalExt]
    exact tget_tput_same ..
  case unassign =>
    have hexec := vendor_reply (r := execUnassignExtent c inp s) rfl h hlen rfl
    dsimp only at hexec
    rw [if_neg (not_or.mpr ⟨by omega, Classical.not_not.mpr hst⟩), journaled_of_room hroom, settle_done (Nat.zero_le _)] at hexec
    refine After.intro hexec ⟨?_, rc_complete ..⟩
    rw [extOf_complete, extOf_moveExt]
  case trim =>
    have hnone : (moveExt e .assigned (trimExtent e (extOf s e).tenant s)).ten.releaseAsked = [] := by
      rw [releaseAsked_moveExt, trimExtent_ten, hasked]
    change execReleaseTrimDone e s = _
    rw [execReleaseTrimDone]
    dsimp only
    rw [if_neg (by simp only [howner, hflight, hroom, haff]; decide), if_pos hst]
    exact if_neg (by rw [hnone]; exact Bool.false_ne_true)
  case setAccess =>
    refine vendor_commit (r := execSetHeadAccess c [h, a] s) rfl hopen rfl rfl ?_
    have hle : le [h, a] 0 1 = h.toNat ∧ le [h, a] 1 1 = a.toNat := ⟨rfl, rfl⟩
    rw [headAccessRec, hle.1, hle.2, if_neg (by simp only [hpresent]; simp; omega)]
    exact storeSetting_some ..
  case getAccess =>
    refine vendor_answers (r := execGetHeadAccess c [] s) rfl h rfl rfl rfl ?_ hlimit
    rw [length_flatMap_const (k := 1) (fun n => leBytes_length ..)]
    rfl
  case setProfile =>
    refine vendor_done_none (r := execSetClassProfile c inp s) rfl h hlen (by simp [hresv]) ?_
    rw [if_neg (by rw [hbank]; exact Bool.false_ne_true), journaled_of_room hroom]
  case getProfile =>
    exact vendor_done (r := execGetClassProfile c [p] s) rfl h rfl rfl rfl (by simpa [outLen] using hlimit)
  case queue =>
    have hexec := vendor_reply (r := execGetFlowQueueState c inp s) rfl h hlen rfl
    dsimp only at hexec
    rw [if_neg (by omega), answer, settle_done] at hexec
    · refine After.intro hexec ⟨_, out_complete .., ?_, rc_complete .., rfl⟩
      simp only [List.length_append, leBytes_length, length_bucketBytes, apply_ite List.length, ite_self]
    · simp only [outLen, List.length_append, leBytes_length, length_bucketBytes, apply_ite List.length, ite_self]
      exact hlimit
  case totals =>
    exact vendor_answers (r := execGetAdmissionTotals c [] s) rfl h rfl rfl rfl (by simp [resSums, resLimits]) hlimit
  case copied =>
    exact After.intro (show execBankCopyDone s = _ from if_pos hcopy) ⟨rfl, rfl, rfl, rfl, rfl⟩

/-! ### A key slot's table whose key stands twice -/

/-- A sweep of the crypto-erase of tenant 0 is at its end, and the table of key slots holds slot 0 twice. -/
def doubledSlot : State :=
  { State.reset with
    ten := { State.reset.ten with
      erasing := [{ tenant := 0, cci := 0 }], tenants := [(0, { TenantSt.fresh with st := .erasing, slot := some 0 })],
      slots := [(0, .erased), (0, .erased)] },
    eng := { State.reset.eng with engines := [(0, { Engine.fresh with erase := some 0 })] } }

/-- Emptying a slot removes the first of its entries only, and the second then answers for it. -/
theorem sweepDone_doubledSlot : ∃ t, exec (.cryptoEraseSweepDone 0) doubledSlot = .next t ∧ slotOf t 0 = .erased :=
  ⟨_, rfl, rfl⟩

/-- Refutes O18: at the end of a crypto-erase the tenant's slot need not be empty, for the statement asks it of every state,
and in a state whose table of key slots holds a slot twice, which no run reaches, the second entry stays (R140). -/
theorem not_tenantAndKeyCommandsComplete : ¬ Obligations.TenantAndKeyCommandsComplete := by
  rintro ⟨-, -, -, -, -, -, -, -, -, hsweep⟩
  obtain ⟨u, hu, herased⟩ := sweepDone_doubledSlot
  obtain ⟨t, ht, hempty, -⟩ := hsweep 0 { tenant := 0, cci := 0 } 0 doubledSlot rfl rfl (by decide +kernel) rfl rfl (by decide)
  obtain rfl : t = u := Host.Outcome.next.inj (ht.symm.trans hu)
  exact absurd (herased.symm.trans hempty) (by decide)

end Sys2Proof.Machine

/-!
The front cache and the persistence domain (R144 to R201): their commands and events, each followed through the branch that its
state chooses.
-/
namespace Sys2Proof.Machine
open Sys2Proof.Safety

/-! ### The front cache -/

/-- With fewer than eight maintenance operations at work one more is taken (R177). -/
theorem postMaint_of_few {op a n : Nat} {c : Fin 10} {s : State}
    (hfew : (s.front.maint.filter fun m => m.status == 0).length < 8) :
    postMaint op (some c) a n s = some (maintPosted op c a n s) := if_neg (by omega)

/-- A range operation that is aligned and in range runs in the background (R175, R177). -/
theorem maintRange_background {op : Nat} {c : Fin 10} {inp : List Byte} {s : State} (hbg : bgBusy s c = false)
    (hlen : inp.length = 16) (ha : le inp 0 8 % 256 = 0) (hn : le inp 8 8 % 256 = 0) (ha' : le inp 0 8 < 2 ^ 48)
    (hn' : le inp 8 8 < 2 ^ 48) (hfew : (s.front.maint.filter fun m => m.status == 0).length < 8) (h : Takes s c op) :
    maintRange op c inp s = .next (startBg c op (maintPosted op c (le inp 0 8) (le inp 8 8) s)) := by
  refine vendorBg_background (r := maintRange op c inp s) rfl h hlen rfl hbg ?_
  dsimp only
  rw [if_neg (by omega), postMaint_of_few hfew]

theorem length_maintBytes (m : Maint) : (leBytes 2 m.op ++ leBytes 1 m.status ++ zeros 1 ++ leBytes 4 m.invalidated ++
    leBytes 4 m.skipped ++ zeros 4 ++ leBytes 8 m.firstSkip ++ leBytes 8 m.doneAt).length = 32 := by simp

theorem length_lineBytes (l : Line) : (lineBytes l).length = 40 := leBytes_length ..

/-- Settles O19: each command and event of the front cache, by the branch that its premises choose; a merge's frame is placed
as an empty one is once its reads are done (R158). -/
theorem frontCacheCommandsComplete : Obligations.FrontCacheCommandsComplete := by
  refine ⟨fun e s hdrain => ?scrub, fun i s hdrain hclean => ?scrubClean, fun c inp s h hlen hn hend hlimit => ?state,
    fun c inp ms s h hlen hresv hp hpop hms hcover => ?partition, fun c inp s h hlen hlo hhi hage hco => ?policy,
    fun c inp s hbg hlen ha hn ha' hn' hfew => ⟨?clean, ?invalidate, ?cleanInvalidate⟩,
    fun c s h hbg hfew => ?invalidateAll, fun n m r s hm hst hwalked hfills holder hdrain hr => ?walk,
    fun c s h hlimit => ?results, fun s hmode hdirty => if_pos ⟨hmode, hdirty⟩, fun c s h hbg hmode => ?disableOff,
    fun c s h hbg hmode => ?disable, fun c s h hbg hmode => ?disableDraining, fun c s h hmode hinv => ?enable,
    fun c s h hmode hinv => ?enableEarly, fun l p a s hdrain hurgent => ?urgent,
    fun l p a s hdrain hurgent hplace hres => ?reserved, fun n a pfa u s ha hpfa hdrain hearly hmerge hroom hplace => ?place,
    fun n a par again r u s ha hpfa hdrain hearly hmerge hbegun hreads hr hu => ?merged,
    fun n a ds s ha hds hkind hdone hroom => ?programmed, fun n a ds q qs p s ha hds hfail hp hdrain hroom => ?failed⟩
  case scrub =>
    change execFrontScrubPass e s = _
    rw [execFrontScrubPass, hdrain, if_neg Bool.false_ne_true]
  case scrubClean =>
    change execFrontScrubPass (.data i) s = _
    rw [execFrontScrubPass, hdrain, if_neg Bool.false_ne_true, frontError]
    dsimp only
    rw [hclean, if_neg (by decide), if_pos rfl]
  case state =>
    refine vendor_answers (r := execGetFrontCacheState c inp s) rfl h hlen rfl (if_neg (by omega)) ?_ hlimit
    rw [List.length_append, length_flatMap_const (k := 40) (fun i => length_lineBytes _)]
    simp [length_flatMap_const (k := 4) (fun _ => leBytes_length 4 _), drainPolicyBytes]
  case partition =>
    refine vendor_commit (r := execSetFrontCachePartition c inp s) rfl h hlen (by simp [hresv]) ?_
    rw [partitionRec]
    rw [← hms, if_neg (not_or.mpr ⟨by omega, not_or.mpr ⟨by omega, Classical.not_not.mpr hcover⟩⟩)]
    exact storeSetting_some ..
  case policy =>
    refine vendor_commit (r := execSetDrainPolicy c inp s) rfl h hlen rfl ?_
    rw [drainPolicyRec]
    rw [if_neg (by simp only [drainPolicyOf]; omega)]
    exact storeSetting_some ..
  case clean => exact maintRange_background hbg hlen ha hn ha' hn' hfew
  case invalidate => exact maintRange_background hbg hlen ha hn ha' hn' hfew
  case cleanInvalidate => exact maintRange_background hbg hlen ha hn ha' hn' hfew
  case invalidateAll =>
    refine vendorBg_background (r := execInvalidateAll c [] s) rfl h rfl rfl hbg ?_
    rw [postMaint_of_few hfew]
  case walk =>
    change execMaintenanceWalkDone n s = _
    rw [execMaintenanceWalkDone, hm]
    dsimp only
    rw [if_neg (by simp [hst, hwalked, hfills, hdrain, holder]), hr]
  case results =>
    refine vendor_answers (r := execGetMaintenanceResults c [] s) rfl h rfl rfl rfl ?_ hlimit
    exact length_flatMap_const (fun m => length_maintBytes m) _
  case disableOff =>
    rw [show exec (.disableFrontCache c []) s = execDisableFrontCache c [] s from rfl,
      vendorBg_reply (r := execDisableFrontCache c [] s) rfl h rfl rfl hbg, hmode]
    exact congrArg _ (settle_done (Nat.zero_le _))
  case disable =>
    refine vendorBg_background (r := execDisableFrontCache c [] s) rfl h rfl rfl hbg ?_
    obtain hback | hthrough := hmode
    · rw [hback]
    · rw [hthrough]
  case disableDraining =>
    refine vendorBg_background (r := execDisableFrontCache c [] s) rfl h rfl rfl hbg ?_
    rw [hmode]
  case enable =>
    refine vendor_done_none (r := execEnableFrontCache c [] s) rfl h rfl rfl ?_
    rw [hmode]
    exact if_pos hinv
  case enableEarly =>
    refine vendor_fail (r := execEnableFrontCache c [] s) rfl h rfl rfl ?_
    rw [hmode]
    exact if_neg (by simp [hinv])
  case urgent =>
    change execDrainEngineSelect p a s = _
    rw [execDrainEngineSelect, hdrain, if_neg Bool.false_ne_true, hurgent]
  case reserved =>
    change execDrainEngineSelect p a s = _
    rw [execDrainEngineSelect, hdrain, if_neg Bool.false_ne_true, hurgent]
    dsimp only
    rw [hplace, if_neg (by decide), hres]
  case place =>
    change execMergeReadDone n 0 0 s = _
    rw [execMergeReadDone, ha]
    dsimp only
    rw [if_neg (by simp [hpfa, hdrain, hearly]), hmerge, if_neg Bool.false_ne_true, placeAsm, ha]
    dsimp only
    rw [hroom, if_neg Bool.false_ne_true, hplace]
  case merged =>
    change execMergeReadDone n par again s = _
    rw [execMergeReadDone, ha]
    dsimp only
    rw [if_neg (by simp [hpfa, hdrain, hearly]), if_pos hmerge, if_neg (by simp [hbegun]), if_neg (by simp [hreads]), hu, hr]
  case programmed =>
    change execFrameProgramDone n s = _
    rw [execFrameProgramDone, ha, hds]
    dsimp only
    rw [hdone, hroom]
    cases hk : a.kind with
    | copy o g => exact absurd hk (hkind o g)
    | _ => rfl
  case failed =>
    change execFrameProgramFail n s = _
    rw [execFrameProgramFail, ha, hds]
    dsimp only
    rw [hfail, hp]
    dsimp only
    rw [hdrain, hroom, if_neg Bool.false_ne_true, if_neg Bool.false_ne_true]

/-! ### The persistence domain -/

/-- What a new budget leaves of a state: the start, and the persistence domain but for the energy, the spill flag and the run
that it decides (R200 to R203). -/
def besideBudget (s : State) : PersistSt × StartSt := ({ s.persist with energy := 0, spill := false, run := none }, s.start)

theorem cellarCommitNow_besideBudget (region key : Nat) (data : List Byte) (s : State) :
    besideBudget (cellarCommitNow region key data s) = besideBudget s := by
  unfold cellarCommitNow
  split
  · rfl
  · split <;> rfl

theorem writeRun_besideBudget (r : RunRec) (s : State) : besideBudget (writeRun r s) = besideBudget s := by
  rw [writeRun, cellarCommitNow_besideBudget]
  rfl

theorem openRun_besideBudget (s : State) : besideBudget (openRun s) = besideBudget s := by
  unfold openRun
  split
  · split
    · rfl
    · exact writeRun_besideBudget ..
  · exact writeRun_besideBudget ..

theorem markUrgent_besideBudget (lfa : Nat) (s : State) : besideBudget (markUrgent lfa s) = besideBudget s := by
  unfold markUrgent
  split <;> rfl

theorem urgentAll_besideBudget (s : State) : besideBudget (urgentAll s) = besideBudget s := by
  rw [urgentAll]
  exact keeps_foldl besideBudget _ _ (fun _ _ => markUrgent_besideBudget ..) s

theorem modeByBudget_besideBudget (s : State) : besideBudget (modeByBudget s) = besideBudget s := by
  unfold modeByBudget
  split
  · rw [urgentAll_besideBudget]
    rfl
  · split
    · rw [openRun_besideBudget]
      rfl
    · rfl

theorem checkRunClosed_besideBudget (s : State) : besideBudget (checkRunClosed s) = besideBudget s := by
  unfold checkRunClosed
  split
  · split
    · exact writeRun_besideBudget ..
    · rfl
  · rfl

theorem setBudget_besideBudget (b : Nat) (s : State) : besideBudget (setBudget b s) = besideBudget s := by
  unfold setBudget
  split
  · rfl
  · rw [checkRunClosed_besideBudget, modeByBudget_besideBudget]
    split <;> rfl

theorem energyUpdate_besideBudget (s : State) : besideBudget (energyUpdate s) = besideBudget s := by
  rw [energyUpdate, budgetUpdate, setBudget_besideBudget]
  rfl

theorem endBgOn_besideBudget (c op : Nat) (rc : Rc) (s : State) : besideBudget (endBgOn c op rc s) = besideBudget s := by
  unfold endBgOn
  split
  · rfl
  · split
    · split
      · rw [raiseMsix_eq]
        rfl
      · rfl
    · rfl

/-- The measurement's fields and the start are beside the budget. -/
theorem measure_of_besideBudget {s t : State} (h : besideBudget t = besideBudget s) :
    t.start = s.start ∧ t.persist.phase = s.persist.phase ∧ t.persist.holdTest = s.persist.holdTest ∧
      t.persist.holdState = s.persist.holdState ∧ t.persist.esr = s.persist.esr ∧ t.persist.cUf = s.persist.cUf ∧
      t.persist.lastMeasure = s.persist.lastMeasure ∧ t.persist.retryAt = s.persist.retryAt ∧
      t.persist.testCap = s.persist.testCap := by
  obtain ⟨hp, hstart⟩ := Prod.mk.inj h
  exact ⟨hstart, congrArg (·.phase) hp, congrArg (·.holdTest) hp, congrArg (·.holdState) hp, congrArg (·.esr) hp,
    congrArg (·.cUf) hp, congrArg (·.lastMeasure) hp, congrArg (·.retryAt) hp, congrArg (·.testCap) hp⟩

theorem phases_markPhase_contains (n : Nat) (s : State) : (markPhase n s).start.phases.contains n = true := by
  unfold markPhase
  split
  · assumption
  · simp

theorem markPhase_persist (n : Nat) (s : State) : (markPhase n s).persist = s.persist := by
  unfold markPhase
  split <;> rfl

/-- Power fails where no power program runs and no rail fault holds (R488). -/
theorem powerFail_of_running {bit : Nat} {s : State} (hpwr : s.persist.pwrFail = false) (hseq : s.power.seq = none)
    (hhold : s.power.hold = none) (hup : devUp s = true) (hdrain : drainRunning s = false) :
    powerFail bit s = if drainArmed s then sendStorm (drainStart bit [] { s with persist := { s.persist with pwrFail := true } })
      else beginPowerDown 2 { s with persist := { s.persist with pwrFail := true } } := by
  rw [powerFail, hpwr, if_neg Bool.false_ne_true]
  dsimp only
  rw [hseq]
  dsimp only
  refine (if_neg ?_).trans (if_neg ?_)
  · show ¬(!devUp s || s.power.hold.isSome) = true
    simp [hup, hhold]
  · show ¬drainRunning s = true
    simp [hdrain]

theorem length_runBytes (r : RunRec) : (runBytes r).length = 32 := by simp [runBytes]

/-- Settles O20: a power failure starts a drain where one is armed, and a power-down where none is; of a measurement, whose
end recomputes the energy and so the budget, the fields beside the budget stay. -/
theorem persistenceCommandsComplete : Obligations.PersistenceCommandsComplete := by
  refine ⟨fun s hpwr hseq hhold hup hdrain harmed => ?failDrains, fun s hpwr hseq hhold hup hdrain harmed => ?failDown,
    fun v s hmode hlow hsamples hpwr hseq hhold hup hdrain harmed => ?trips, fun v s hmode hlow hsamples => ?firstLow,
    fun v s hmode htrip hhigh => ?high, fun v d t s hkick hd hwritten hwhole => ?whole,
    fun v d t s hkick hd hwritten hwhole => ?part, fun d s hd hbit => ?cutoff, fun d s hd hbit => ?cutoffFirst,
    fun s hmay hphase hstart hdue => ?schedule, fun s hphase hdue => if_pos ⟨hphase, hdue⟩,
    fun v s hphase hdirty => if_pos ⟨hphase, hdirty⟩, fun l s hphase hfit => ?good, fun l s hphase hfit hcci => ?bad,
    fun s hphase hdue hcci => ?recovered, fun at_ s hat hdue hmay => ?retry, fun v s hup hstart => ?energy,
    fun c s h hlimit => ?status, fun c inp s h hlen hok => ?policy, fun c s h hbg hmay => ?measure,
    fun c s h hlimit => ?record⟩
  case failDrains =>
    change Host.Outcome.next (powerFail 0 { s with persist := { s.persist with pwrFailPin := true } }) = _
    rw [powerFail_of_running (by exact hpwr) (by exact hseq) (by exact hhold) (by exact hup) (by exact hdrain)]
    exact congrArg _ (if_pos harmed)
  case failDown =>
    change Host.Outcome.next (powerFail 0 { s with persist := { s.persist with pwrFailPin := true } }) = _
    rw [powerFail_of_running (by exact hpwr) (by exact hseq) (by exact hhold) (by exact hup) (by exact hdrain)]
    exact congrArg _ (if_neg (ne_true_of_eq_false harmed))
  case trips =>
    change execSupplyMonitorTrip v s = _
    rw [execSupplyMonitorTrip]
    dsimp only
    rw [if_neg (by simp only [hmode, or_false]; omega), if_pos hlow, show min 2 (s.persist.lowSamples + 1) = 2 by omega, if_pos rfl,
      powerFail_of_running (by exact hpwr) (by exact hseq) (by exact hhold) (by exact hup) (by exact hdrain)]
    exact congrArg _ (if_pos harmed)
  case firstLow =>
    change execSupplyMonitorTrip v s = _
    rw [execSupplyMonitorTrip]
    dsimp only
    rw [if_neg (by simp only [hmode, or_false]; omega), if_pos hlow, hsamples]
    rfl
  case high =>
    change execSupplyMonitorTrip v s = _
    rw [execSupplyMonitorTrip]
    dsimp only
    rw [if_neg (not_or.mpr ⟨htrip, hmode⟩), if_neg (show ¬v < s.persist.policy.supplyTrip by omega)]
    rfl
  case whole =>
    change execDrainComplete v s = _
    rw [execDrainComplete, hkick, hd]
    dsimp only
    rw [hwritten, if_neg (by decide), if_pos hwhole]
  case part =>
    change execDrainComplete v s = _
    rw [execDrainComplete, hkick, hd]
    dsimp only
    rw [hwritten, if_neg (by decide), if_neg (by simp [hwhole])]
  case cutoff =>
    change execBankAtVCutoff s = _
    rw [execBankAtVCutoff, hd]
    dsimp only
    rw [if_pos hbit]
  case cutoffFirst =>
    change execBankAtVCutoff s = _
    rw [execBankAtVCutoff, hd]
    dsimp only
    rw [if_neg (by omega)]
  case schedule => exact if_pos (by rw [hmay, hphase, hstart, decide_eq_true hdue]; rfl)
  case good =>
    have hexec : exec (.holdTestEnd l) s = execHoldTestEnd l s := rfl
    rw [execHoldTestEnd, if_neg (Classical.not_not.mpr hphase)] at hexec
    dsimp only at hexec
    rw [if_pos hfit] at hexec
    obtain ⟨-, hph, htest, hst, hesr, hc, hlast, -, -⟩ := measure_of_besideBudget (energyUpdate_besideBudget _)
    exact After.intro hexec ⟨hph, htest, hst, hesr, hc, hlast⟩
  case bad =>
    have hexec : exec (.holdTestEnd l) s = execHoldTestEnd l s := rfl
    rw [execHoldTestEnd, if_neg (Classical.not_not.mpr hphase)] at hexec
    dsimp only at hexec
    rw [if_neg hfit, hcci] at hexec
    obtain ⟨-, hph, -, hst, -, -, -, hretry, -⟩ := measure_of_besideBudget (energyUpdate_besideBudget _)
    exact After.intro hexec ⟨hph, hst, hretry⟩
  case recovered =>
    have hexec : exec .holdupRecoveryDone s = execHoldupRecoveryDone s := rfl
    rw [execHoldupRecoveryDone, if_pos ⟨hphase, .inr hdue⟩, hcci] at hexec
    dsimp only at hexec
    obtain ⟨-, hph, -, -, -, -, -, -, hcap⟩ := measure_of_besideBudget (energyUpdate_besideBudget _)
    refine After.intro hexec ?_
    split
    · next hhas => exact ⟨hph, hcap, hhas⟩
    · rw [markPhase_persist]
      exact ⟨hph, hcap, phases_markPhase_contains ..⟩
  case retry =>
    change execHoldupRetry s = _
    rw [execHoldupRetry, hat]
    exact if_pos ⟨hdue, hmay⟩
  case energy =>
    refine if_pos ?_
    show (devUp s && s.start.phases.contains 6) = true
    rw [hup, hstart]
    rfl
  case status =>
    exact vendor_answers (r := execGetHoldUpStatus c [] s) rfl h rfl rfl rfl (by simp) hlimit
  case policy =>
    refine vendor_commit (r := execSetHoldUpParameters c inp s) rfl h hlen rfl ?_
    rw [holdPolicyRec, if_pos hok]
    exact storeSetting_some ..
  case measure =>
    exact vendorBg_background (r := execMeasureHoldUp c [] s) rfl h rfl rfl hbg (if_pos hmay)
  case record =>
    refine vendor_answers (r := execGetDrainRecord c [] s) rfl h rfl rfl rfl ?_ hlimit
    rw [List.length_append]
    cases s.persist.run <;> cases s.persist.drainLast <;> simp [length_runBytes]

end Sys2Proof.Machine

/-!
The read path (R211 to R234) and the map and its journal (R235 to R267): the branch of each event, and what opening a row leaves.
-/
namespace Sys2Proof.Machine
open Sys2Proof.Safety

/-! ### What opening a row leaves -/

theorem openRow_map (c : Nat) (l : DramLoc) (s : State) : (openRow c l s).map = s.map := by
  unfold openRow
  dsimp only
  split <;> rfl

theorem dramOf_setDram_same (c : Nat) (x : DramCh) (s : State) : dramOf (setDram c x s) c = x := tget_tput_same ..

theorem dramOf_setDram_other {c d : Nat} (h : d ≠ c) (x : DramCh) (s : State) : dramOf (setDram c x s) d = dramOf s d :=
  tget_tput_other _ _ _ _ _ h

/-- Opening a row asks for its neighbours' refresh; which channels are out stays (R372). -/
theorem dramOut_openRow (c : Nat) (l : DramLoc) (s : State) (d : Nat) : dramOut (openRow c l s) d = dramOut s d := by
  have hrow : (dramOf (openRow c l s) d).mode = (dramOf s d).mode ∧ (dramOf (openRow c l s) d).thaw = (dramOf s d).thaw := by
    unfold openRow
    dsimp only
    split
    · by_cases h : d = c
      · rw [h, dramOf_setDram_same]
        exact ⟨rfl, rfl⟩
      · rw [dramOf_setDram_other h]
        exact ⟨rfl, rfl⟩
    · exact ⟨rfl, rfl⟩
  rw [dramOut, dramOut, hrow.1, hrow.2]

theorem copyUp_openRow (c : Nat) (l : DramLoc) (s : State) (copyB : Bool) (lfa : Nat) :
    copyUp (openRow c l s) copyB lfa = copyUp s copyB lfa := by
  have hchan : mapChan (openRow c l s) copyB lfa = mapChan s copyB lfa := by
    unfold openRow
    dsimp only
    split <;> rfl
  rw [copyUp, copyUp, hchan, dramOut_openRow, openRow_map]

theorem copyBad_openRow (c : Nat) (l : DramLoc) (s : State) (copyB : Bool) (lfa : Nat) :
    copyBad (openRow c l s) copyB lfa = copyBad s copyB lfa := by
  rw [copyBad, copyBad, openRow_map]

/-! ### The read path -/

/-- Settles O21: a map entry's read opens its row first, which changes neither the copy's marks nor its channel's state, so
what the copy held before decides (R219, R220). -/
theorem readPathCommandsComplete : Obligations.ReadPathCommandsComplete := by
  refine ⟨fun line m r s hm hstage hup hr => ⟨fun hgood => ?served, fun hbad => ?fails, ?check⟩,
    fun line m f l c r s hm hstage hup hc hl hr => ⟨?uncorrectable, ?parity⟩,
    fun rd f n pfa l r s hf hstage hchans hlat hl hr => ⟨?slot, fun d => ?slotLost⟩,
    fun rd f n pfa e s hf hstage hchans hdir => ?slotOut,
    fun rd f pos pfa s hf hstage hhard hengine => ⟨fun up dn hsum => ?decode, fun up dn hsum => ?corrected, fun up dn => ?failed⟩,
    fun rd f pos good pfa q soft w lost k s hf hstage hsoft hengine => ?soft,
    fun line m a r u s hm hstage ha hr hu => ⟨fun hout => ?fill, fun e hlo hhi he hst => ?promote⟩,
    fun line m a r s hm hstage hout ha hr => ?fillParity,
    fun lfa n r e x s hn hreads hr he hx => ⟨fun hst hloc hbad hup => ?promoted, fun hmoved => ?promoteLost⟩,
    fun n r s hwanted hr hn => ?evict, fun n x s hx hst hover => ?quarantine, fun c inp s h hlen hch hlimit => ?state,
    fun c inp s h hlen hwindow hfills => ?policy⟩
  case served =>
    change execMapEntryReadDone line .none s = _
    rw [execMapEntryReadDone, hm]
    dsimp only
    rw [hstage, if_neg (by decide), if_pos hup, ← hr, hr, copyUp_openRow, if_pos hup, copyBad_openRow, hgood,
      if_neg Bool.false_ne_true]
  case fails =>
    change execMapEntryReadDone line .none s = _
    rw [execMapEntryReadDone, hm]
    dsimp only
    rw [hstage, if_neg (by decide), if_pos hup, ← hr, hr, copyUp_openRow, if_pos hup, copyBad_openRow, if_pos hbad]
  case check =>
    change execMapEntryReadDone line .check s = _
    rw [execMapEntryReadDone, hm]
    dsimp only
    rw [hstage, if_neg (by decide), if_pos hup, ← hr, hr, copyUp_openRow, if_pos hup]
  case uncorrectable =>
    change execMapEntryReadDone line (.uncorrectable f) s = _
    rw [execMapEntryReadDone, hm]
    dsimp only
    rw [hstage, if_neg (by decide), if_pos hup, hr, hc, hl]
  case parity =>
    change execMapEntryReadDone line (.parity f) s = _
    rw [execMapEntryReadDone, hm]
    dsimp only
    rw [hstage, if_neg (by decide), if_pos hup, hr, hc, hl]
  case slot =>
    change execBackCacheReadDone rd .none s = _
    rw [execBackCacheReadDone, hf]
    dsimp only
    rw [hstage]
    dsimp only
    rw [if_neg (by rw [hchans]; exact Bool.false_ne_true), if_neg (by simp [hlat]), hl, hr]
  case slotLost =>
    change execBackCacheReadDone rd (.uncorrectable d) s = _
    rw [execBackCacheReadDone, hf]
    dsimp only
    rw [hstage]
    dsimp only
    rw [if_neg (by rw [hchans]; exact Bool.false_ne_true), if_neg (by simp [hlat]), hl, hr]
  case slotOut =>
    change execBackCacheReadDone rd e s = _
    rw [execBackCacheReadDone, hf]
    dsimp only
    rw [hstage]
    dsimp only
    rw [if_pos hchans, slotLost, hdir, if_neg Bool.false_ne_true]
  case decode =>
    change execCodewordDecodeDone rd pos true up dn s = _
    rw [execCodewordDecodeDone, hf]
    dsimp only
    rw [hstage]
    dsimp only
    rw [if_neg (by rw [hhard, hengine]; decide), if_neg (by omega)]
  case corrected =>
    change execCodewordDecodeDone rd pos true up dn s = _
    rw [execCodewordDecodeDone, hf]
    dsimp only
    rw [hstage]
    dsimp only
    rw [if_neg (by rw [hhard, hengine]; decide), if_pos ⟨rfl, hsum⟩]
  case failed =>
    change execCodewordDecodeDone rd pos false up dn s = _
    rw [execCodewordDecodeDone, hf]
    dsimp only
    rw [hstage]
    dsimp only
    rw [if_neg (by rw [hhard, hengine]; decide), if_neg (by simp)]
  case soft =>
    change execSlowPathSoftReadDone rd pos good s = _
    rw [execSlowPathSoftReadDone, hf]
    dsimp only
    rw [hstage]
    dsimp only
    rw [hsoft]
    dsimp only
    rw [hengine, if_neg (by decide)]
  case fill =>
    change execFillComplete line false s = _
    rw [execFillComplete, hm]
    dsimp only
    rw [hstage, if_neg (by decide), if_neg Bool.false_ne_true, ← ha, ← hr]
    simp only [Bool.or_false]
    rw [← hu]
    split
    · rw [if_neg (by omega)]
    · rfl
  case promote =>
    change execFillComplete line false s = _
    rw [execFillComplete, hm]
    dsimp only
    rw [hstage, if_neg (by decide), if_neg Bool.false_ne_true, ← ha, ← hr]
    simp only [Bool.or_false]
    rw [← hu, he]
    dsimp only
    rw [if_pos ⟨hlo, hhi, hst⟩]
  case fillParity =>
    change execFillComplete line true s = _
    rw [execFillComplete, hm]
    dsimp only
    rw [hstage, if_neg (by decide), if_pos rfl, ← ha, ← hr]
    simp only [Bool.or_true]
    split
    · rw [if_neg (by omega)]
    · rfl
  case promoted =>
    change execPromotionReadDone lfa s = _
    rw [execPromotionReadDone, hn]
    dsimp only
    rw [hreads, if_neg (by decide), ← hr, he, hx]
    dsimp only
    rw [if_pos ⟨hst, hloc, hbad, hup⟩]
  case promoteLost =>
    change execPromotionReadDone lfa s = _
    rw [execPromotionReadDone, hn]
    dsimp only
    rw [hreads, if_neg (by decide), ← hr, he, hx]
    dsimp only
    rw [if_neg fun h => hmoved.elim (fun hst => hst h.1) fun hloc => hloc h.2.1]
  case evict =>
    change execBackCacheEvict s = _
    rw [execBackCacheEvict, hwanted, if_neg (by decide)]
    dsimp only
    rw [← hr, hn]
    dsimp only
    rw [hn]
  case quarantine =>
    change execQuarantineExpiry n s = _
    rw [execQuarantineExpiry, hx]
    exact if_pos ⟨hst, hover⟩
  case state =>
    refine vendor_answers (r := execGetReadPathState c inp s) rfl h hlen rfl (if_neg ?_) ?_ hlimit
    · obtain hlow | hall := hch
      · simp; omega
      · simp [hall]
    · simp [length_flatMap_const (k := 8) (fun _ => leBytes_length 8 _)]
  case policy =>
    refine vendor_commit (r := execSetBackCachePolicy c inp s) rfl h hlen rfl ?_
    rw [backPolicyRec, if_neg (by omega)]
    exact storeSetting_some ..

/-! ### The map and its journal -/

theorem foldl_raise_map {α : Type} (f : α → State → State) (hf : ∀ a s, (f a s).map = s.map) (l : List α) (s : State) :
    (l.foldl (fun s a => f a s) s).map = s.map := keeps_foldl State.map l _ (fun s a => hf a s) s

/-- A scan counts its frames, and posts an event for each (R261). -/
theorem logScan_map (ms : List Nat) (s : State) : (logScan ms s).map = { s.map with scans := s.map.scans + ms.length } := by
  rw [logScan]
  dsimp only
  rw [foldl_raise_map (fun m s => raise 0x034 0x4003 m 0 0 s) (fun _ _ => rfl)]

theorem rebuildMap_map (badMap bad : List Nat) (s : State) : (rebuildMap badMap bad s).map.rebuild = [] ∧
    (rebuildMap badMap bad s).map.rebuilt = s.map.rebuilt + (s.map.rebuild.foldr insertAsc []).length := by
  refine ⟨rfl, ?_⟩
  rw [rebuildMap]
  dsimp only
  rw [foldl_raise_map (fun (p : Nat × MapEnt) s => raiseDpa 0x034 0x3002 (p.1 * 4096) (extOf s (extentOfLfa p.1)).head s) (fun _ _ => rfl),
    logScan_map]

theorem length_metaBytes (f : MFrame) : (metaBytes f).length = 128 := by
  rw [metaBytes, length_flatMap_const (k := 8) (fun _ => leBytes_length 8 _)]
  simp [frameShares, metaShares]

/-- As many frames as the area takes are cut when it takes them all (R247). -/
theorem find_fits {p : Nat → Bool} {n : Nat} (h : p n = true) : (List.range (n + 1)).reverse.find? p = some n := by
  rw [List.range_succ, List.reverse_append, List.reverse_singleton, List.singleton_append, List.find?_cons, h]

/-- Settles O22: each event of the map and its journal, and what a scan and a rebuild leave of the map (R255 to R266). -/
theorem mapAndJournalCommandsComplete : Obligations.MapAndJournalCommandsComplete := by
  refine ⟨fun r fs s hdrain hroot hdue hr hfs hfits => ?staging, fun r s hr hfree hdue => ?passStart,
    fun x s hx hdrain hroom => ⟨fun hdone => ?passFrame, fun r hdone hcci hr => ?passEnd⟩,
    fun c r s h hbg hpass hrebuild hr hfree => ?checkpoint, fun f s hdue hfits => ?recoverNone,
    fun f r s hdue hfits hr => ⟨fun hlost => ?recover, fun hlost => ?recoverLost⟩,
    fun x r s hx hsome hrebuild hdrain hr => ?rebuildStart, fun bad s hloaded hact hdrain hmarked => ⟨?scan, rfl, rfl, ?scans, ?copy⟩,
    fun badMap bad xs s hrebuild hdrain hxs => ⟨?rebuilt, ?_⟩, fun c inp s h hlen hl hlimit => ?entry,
    fun c s h hlimit => ?journal, fun c inp s h hlen hone hmeets => ?mirror, fun c s h hlimit => ?rebuildState⟩
  case staging =>
    change execStagingProgram s = _
    rw [execStagingProgram, if_neg (by simp [hdrain, hdue, Option.isSome_iff_ne_none.mp hroot])]
    dsimp only
    rw [← hr, ← hfs, find_fits hfits, Option.getD_some, List.take_length]
  case passStart =>
    change execCheckpointPassStart s = _
    rw [execCheckpointPassStart, ← hr]
    exact if_pos ⟨hfree, hdue⟩
  case passFrame =>
    change execCheckpointPassEnd s = _
    rw [execCheckpointPassEnd, hx]
    dsimp only
    rw [if_neg (by simp [hdrain, hroom]), if_pos hdone]
  case passEnd =>
    change execCheckpointPassEnd s = _
    rw [execCheckpointPassEnd, hx]
    dsimp only
    rw [if_neg (by simp [hdrain, hroom]), if_neg (by omega), hcci, hr]
  case checkpoint =>
    refine vendorBg_background (r := execStartCheckpoint c [] s) rfl h rfl rfl hbg ?_
    dsimp only
    rw [if_neg (by simp [hpass, hrebuild]), ← hr, if_pos hfree]
  case recoverNone =>
    change execMapRecovery f s = _
    rw [execMapRecovery, hdue, hfits]
    rfl
  case recover =>
    change execMapRecovery f s = _
    rw [execMapRecovery, hdue, hfits, if_neg (by decide), if_neg (by decide), ← hr]
    dsimp only
    rw [hlost]
    rfl
  case recoverLost =>
    change execMapRecovery f s = _
    rw [execMapRecovery, hdue, hfits, if_neg (by decide), if_neg (by decide), ← hr]
    dsimp only
    rw [hlost]
    rfl
  case rebuildStart =>
    change execMapRebuildStart s = _
    rw [execMapRebuildStart, ← hx, if_neg (by simp [hsome, hrebuild, hdrain]), hr]
  case scan =>
    change execFrameMetadataScan bad s = _
    refine if_neg (not_or.mpr ⟨by simp [hloaded], not_or.mpr ⟨?_, not_or.mpr ⟨by simp [hdrain], fun hnone => ?_⟩⟩⟩)
    · simp [Option.isSome_iff_ne_none.mp hact]
    · obtain hall | hsome := hmarked
      · exact absurd (hall.symm.trans hnone.2) (by decide)
      · exact hsome (List.isEmpty_iff.mp hnone.1)
  case scans =>
    rw [scanMarked]
    dsimp only
    rw [logScan_map]
  case copy =>
    rw [scanMarked]
    dsimp only
    rw [logScan_map]
  case rebuilt =>
    change execMapRebuildDone badMap bad s = _
    rw [execMapRebuildDone, if_neg (by simp [hrebuild, hdrain]), hxs]
  · rw [hxs]
    exact rebuildMap_map ..
  case entry =>
    refine vendor_answers (r := execGetMapEntry c inp s) rfl h hlen rfl (if_neg (by omega)) ?_ hlimit
    have hmeta : ∀ o : Option MFrame, (match o with | some f => metaBytes f | none => zeros 128).length = 128 := fun o => by
      cases o with
      | none => exact zeros_length _
      | some f => exact length_metaBytes f
    simp only [List.length_append, leBytes_length, zeros_length, apply_ite List.length]
    split
    · exact congrArg (24 + ·) (hmeta _)
    · rfl
  case journal =>
    exact vendor_answers (r := execGetJournalState c [] s) rfl h rfl rfl rfl (by simp) hlimit
  case mirror =>
    refine vendor_commit (r := execSetMapMirroring c inp s) rfl h hlen rfl ?_
    rw [mirroringRec, if_neg (by simp only [hmeets]; simp; omega)]
    exact storeSetting_some ..
  case rebuildState =>
    exact vendor_answers (r := execGetRebuildState c [] s) rfl h rfl rfl rfl (by simp) hlimit

end Sys2Proof.Machine

/-!
Placement, wear and health (R268 to R296), drift, vintage and topping (R297 to R322): the branch of each event and command.
-/
namespace Sys2Proof.Machine
open Sys2Proof.Safety

/-! ### Placement -/

theorem checkFormat_of_none {s : State} (h : s.place.format = none) : checkFormat s = s := by
  have hckpt : formatCkpt s = s := by simp [formatCkpt, h]
  rw [checkFormat, hckpt]
  dsimp only
  rw [h]

theorem checkSanitize_of_none {s : State} (h : s.mgmt.sanitize = none) : checkSanitize s = s := by
  rw [checkSanitize, h]

theorem placeWaiting_of_none {s : State} (h : s.front.asms = []) : placeWaiting s = s := by
  rw [placeWaiting, h]
  rfl

/-- A live die set's ready queue is filled from its free pool (R271). -/
theorem readyQueueRefill_of_live {ds : Fin 512} {s : State} (hup : mediaUp s = true) (hdrain : drainRunning s = false)
    (hlive : (liveSets s).contains ds.val = true) (hloaded : s.map.loaded = true) (hroom : journalFull s = false) :
    exec (.readyQueueRefill ds) s = .next (checkFormat (checkSanitize (placeWaiting { replaceMetas s with
      place := { (replaceMetas s).place with
        ready := tput (replaceMetas s).place.ready ds.val ((freePool (replaceMetas s) ds.val).take (shareFull (replaceMetas s))) } }))) :=
  if_neg (by rw [hup, hdrain, hlive, hloaded, hroom]; decide)

/-- A die set that is neither degraded nor in training goes on with what it has (R269). -/
theorem slotStart_of_able {ds : Nat} {s : State} (hdeg : isDegraded s ds = false) (htrain : setTraining s ds = false) :
    slotStart ds s = match (busyOf s ds).cur with
      | some _ => startQuad ds s
      | none =>
        if drainRunning s then drainKick s
        else
          match nextWork s ds (busyOf s ds) with
          | none => s
          | some (w, d) => takeWork ds w (setBusy ds { busyOf s ds with defs := d } s) := by
  rw [slotStart, hdeg, htrain]
  exact if_neg Bool.false_ne_true

theorem waX100_mgmt (s : State) : (waX100 s).2.mgmt = s.mgmt := by
  unfold waX100
  dsimp only
  split <;> rfl

theorem length_groupBytes (x : Group) : (groupBytes x).length = 32 := leBytes_length ..

/-- Settles O23: each event and command of placement, by the branch that its premises choose; of two groups the wear-levelling
takes the closed one with the fewest cycles (R284). -/
theorem placementCommandsComplete : Obligations.PlacementCommandsComplete := by
  refine ⟨fun ds r s hup hdrain hlive hloaded hroom hr => ?refill,
    fun ds r s hup hdrain hlive hloaded hroom hr hasms hsan hform => ?refillOnly,
    fun ds w d s hdeg htrain hdrain hcur hnext => ?slotTakes, fun ds w s hdeg htrain hcur => ?slotGoesOn,
    fun g check s hst hfill hdeg hdrain hup hwait hrack => ?resetStart,
    fun ds g p check s hcur hquad hroom hdrain => ?resetDone,
    fun ds g p check s hcur hquad hroom hdrain hfailed hdeg hquads => ?resetWell,
    fun ds g q p check s hcur hquad hroom hdrain => ?spare, fun ds r s hruns hdrain hidle hloaded hroom hqueued => ?rackQueued,
    fun ds g r s hruns hdrain hidle hloaded hroom hqueued hdeg hfree hr hvictim => ?rackUrgent,
    fun n a ds c d s ha hds hkind hdone hroom => ?copyDone, fun g x s hgroups hst => ?wearOne,
    fun g h x y s hgroups hx hy hspread hruns hdrain hracks => ?wearTwo,
    fun lfa pfa s hreported hruns hdrain hroom => ⟨fun hreads hent => ?recover, fun hreads => ?recovered⟩,
    fun r s hcap hdue hroom hr => ?withhold, fun s hcap hloaded hroot hroom hnone hwaited => ?lockWaited,
    fun s hcap hloaded hroot hroom hhalt hready => ?lockHalted, fun r s hr => ?health, fun c s h hlimit => ?mediaHealth,
    fun c inp s h hlen hlo hhi hend hfirst hlast hlimit => ?groupInfo, fun c inp s h hlen hform hok => ?overProvision,
    fun c inp s h hbg hlen hmagic hext himages hform hdrain => ?format,
    fun c inp s h hlen h1 h2 h3 h4 h5 h6 h7 h8 h9 => ?relocation, fun c inp s h hbg hlen hg hset hst => ?rack⟩
  case refill =>
    rw [readyQueueRefill_of_live hup hdrain hlive hloaded hroom, hr]
  case refillOnly =>
    subst hr
    rw [readyQueueRefill_of_live hup hdrain hlive hloaded hroom, placeWaiting_of_none (by exact hasms),
      checkSanitize_of_none (by exact hsan), checkFormat_of_none (by exact hform)]
  case slotTakes =>
    change Host.Outcome.next (slotStart ds.val s) = _
    rw [slotStart_of_able hdeg htrain, hcur]
    dsimp only
    rw [hdrain, if_neg Bool.false_ne_true, hnext]
  case slotGoesOn =>
    change Host.Outcome.next (slotStart ds.val s) = _
    rw [slotStart_of_able hdeg htrain, hcur]
  case resetStart =>
    change execTileResetStart g s = _
    rw [execTileResetStart, hrack, hwait, hst]
    cases check <;> exact if_neg (by simp [hfill, hdeg, hdrain, hup])
  case resetDone =>
    change execTileResetDone ds s = _
    rw [execTileResetDone]
    rw [hcur]
    exact if_neg (by simp [hquad, hroom, hdrain])
  case resetWell =>
    change execTileResetDone ds s = _
    rw [execTileResetDone]
    rw [hcur]
    dsimp only
    rw [if_neg (by simp [hquad, hroom, hdrain]), hfailed, List.foldl_nil, resetGoesOn, hdeg, if_neg Bool.false_ne_true, hquads]
  case spare =>
    change execTileResetDone ds s = _
    rw [execTileResetDone]
    rw [hcur]
    exact if_neg (by simp [hquad, hroom, hdrain])
  case rackQueued =>
    change execRackingStart ds s = _
    rw [execRackingStart]
    dsimp only
    rw [if_neg (by simp [hruns, hdrain, hloaded, hroom]), if_neg (by rw [hidle]; exact Bool.false_ne_true), hqueued]
  case rackUrgent =>
    change execRackingStart ds s = _
    rw [execRackingStart]
    dsimp only
    rw [if_neg (by simp [hruns, hdrain, hloaded, hroom]), if_neg (by rw [hidle]; exact Bool.false_ne_true), hqueued]
    dsimp only
    rw [hdeg, if_neg Bool.false_ne_true]
    simp only [hfree, decide_true, Bool.or_true, Bool.true_or, if_true, Bool.not_true, Bool.false_eq_true, if_false]
    rw [← hr, hvictim]
  case copyDone =>
    change execRackingCopyDone n s = _
    rw [execRackingCopyDone, ha, hds]
    dsimp only
    rw [hkind]
    dsimp only
    rw [hdone, if_neg (by decide), hroom, if_neg Bool.false_ne_true]
  case wearOne =>
    change execWearLevelRacking s = _
    rw [execWearLevelRacking, hgroups]
    simp [hst]
  case wearTwo =>
    change execWearLevelRacking s = _
    rw [execWearLevelRacking, hgroups]
    have hrack : rackOf s g = none := by rw [rackOf, hracks]; rfl
    have hmin : min x.cycles y.cycles = x.cycles := by omega
    obtain hclosed | hfree := hy
    · simp [hx, hclosed, hmin, hruns, hdrain, hracks, hrack]
      omega
    · simp [hx, hfree, hruns, hdrain, hracks, hrack]
      omega
  case recover =>
    change execRecoveryRead lfa s = _
    rw [execRecoveryRead, hreported]
    dsimp only
    rw [if_neg (by simp [hruns, hdrain, hroom]), if_neg (by simp [hreads]), if_neg (Classical.not_not.mpr hent)]
  case recovered =>
    change execRecoveryRead lfa s = _
    rw [execRecoveryRead, hreported]
    dsimp only
    rw [if_neg (by simp [hruns, hdrain, hroom]), if_pos (by simp [hreads])]
  case withhold =>
    change execCriticalWithhold s = _
    rw [execCriticalWithhold]
    dsimp only
    rw [if_neg (not_or.mpr ⟨Classical.not_not.mpr hcap, not_or.mpr ⟨Classical.not_not.mpr hdue, ne_true_of_eq_false hroom⟩⟩), ← hr]
  case lockWaited =>
    change execWriteLockedEntry s = _
    rw [execWriteLockedEntry]
    exact if_neg (by simp [hcap, hloaded, Option.isSome_iff_ne_none.mp hroot, hroom, hwaited, Option.isNone_iff_eq_none.mp hnone])
  case lockHalted =>
    change execWriteLockedEntry s = _
    rw [execWriteLockedEntry, hready, hhalt]
    exact if_neg (by simp [hcap, hloaded, Option.isSome_iff_ne_none.mp hroot, hroom])
  case health =>
    change execHealthCounterUpdate s = _
    rw [execHealthCounterUpdate, hr]
  case mediaHealth =>
    refine ⟨_, ?_, vendor_done (r := execGetMediaHealth c [] s) rfl h rfl rfl rfl ?_⟩
    · simp
    · simpa [outLen] using hlimit
  case groupInfo =>
    refine vendor_answers (r := execGetGroupInfo c inp s) rfl h hlen rfl (if_neg ?_) ?_ hlimit
    · rw [hfirst, hlast]
      simp
      omega
    · rw [List.length_append, length_flatMap_const (k := 32) (fun i => length_groupBytes _)]
      simp
  case overProvision =>
    refine vendor_commit (r := execSetOverProvisioning c inp s) rfl h hlen rfl ?_
    rw [hform, if_neg (by decide), overProvisionRec, if_pos hok]
    exact storeSetting_some ..
  case format =>
    refine vendorBg_background (r := execFormatMedia c inp s) rfl h hlen rfl hbg ?_
    dsimp only
    rw [if_neg (Classical.not_not.mpr hmagic), if_neg (by simp [hext, himages]), if_neg (by simp [hform]), hdrain, if_neg Bool.false_ne_true]
  case relocation =>
    refine vendor_commit (r := execSetRelocationPolicy c inp s) rfl h hlen rfl ?_
    rw [relocationRec]
    rw [if_neg (by omega)]
    exact storeSetting_some ..
  case rack =>
    refine vendorBg_background (r := execRackGroup c inp s) rfl h hlen rfl hbg ?_
    dsimp only
    rw [if_neg (by rw [hset]; simp; omega), if_neg (Classical.not_not.mpr hst)]

/-! ### Drift and topping -/

/-- Settles O24: each event and command of drift and topping, by the branch that its premises choose; a due group is topped
only where none is overdue (R306). -/
theorem driftCommandsComplete : Obligations.DriftCommandsComplete := by
  refine ⟨fun s hloaded hup hdue => ?tick, fun r s hloaded hup hdue hact hmedia hr => ?sweep,
    fun s hloaded hup hmode => ?clock, fun c temps s hmode hreset => ?temps, fun g w r s hw hdec hroom hr => ?trims,
    fun xs r s hdue hroom hxs hr => ?reads, fun s hloaded hup => if_pos (by rw [hloaded, hup]; rfl),
    fun g s hruns hdrain hloaded hroom hover => ?overdue, fun g s hruns hdrain hloaded hroom hover hdue => ?due,
    fun x n w k u v s hdrain hroom hloaded hx hn hsome hset hw hk hfits hu hv => ?relocate,
    fun x s hdrain hroom hloaded hx hnone => ?noRoom, fun c inp s h hlen hlo hhi hend hlimit => ?state,
    fun c inp s h hlen hok => ?policy, fun c inp s h hlen hch hpkg hdie hpresent hlimit => ?table⟩
  case tick =>
    change execWeatheringTick s = _
    rw [execWeatheringTick, hloaded, hup, hdue, if_neg (by decide)]
    rfl
  case sweep =>
    change execWeatheringTick s = _
    rw [execWeatheringTick, hloaded, hup, hdue, hact, hmedia, if_neg (by decide), hr]
    rfl
  case clock => exact if_pos (by rw [hloaded, hup, hmode]; rfl)
  case temps => exact if_neg (not_or.mpr ⟨hmode, ne_true_of_eq_false hreset⟩)
  case trims =>
    change execTrimWindowEnd g s = _
    rw [execTrimWindowEnd, hw]
    dsimp only
    rw [if_neg (not_or.mpr ⟨by omega, ne_true_of_eq_false hroom⟩), hr]
  case reads =>
    change execGroupReadsRecord s = _
    rw [execGroupReadsRecord, if_neg (by simp [hdue, hroom]), hr, hxs]
  case overdue =>
    change execToppingStart s = _
    rw [execToppingStart, if_neg (by simp [hruns, hdrain, hloaded, hroom]), hover]
  case due =>
    change execToppingStart s = _
    rw [execToppingStart, if_neg (by simp [hruns, hdrain, hloaded, hroom]), hover]
    dsimp only
    rw [hdue]
  case relocate =>
    have hparts : (drainParts s).isEmpty = false := by
      rw [List.isEmpty_eq_false_iff, ← List.length_pos_iff]
      omega
    change execImageRelocate s = _
    rw [execImageRelocate, if_neg (by simp [hdrain, hroom, hloaded]), hx]
    dsimp only
    rw [← hn, ← hw, ← hk, if_neg (by rw [hparts, hset]; simp; omega), ← hu, ← hv]
  case noRoom =>
    change execImageRelocate s = _
    rw [execImageRelocate, if_neg (by simp [hdrain, hroom, hloaded]), hx]
    exact if_pos (.inl (by rw [hnone]; rfl))
  case state =>
    refine vendor_answers (r := execGetDriftState c inp s) rfl h hlen rfl (if_neg (by omega)) ?_ hlimit
    rw [List.length_append, length_flatMap_const (k := 16) (fun i => by simp)]
    simp
  case policy =>
    refine vendor_commit (r := execSetDriftPolicy c inp s) rfl h hlen rfl ?_
    rw [driftPolicyRec, if_pos hok]
    exact storeSetting_some ..
  case table =>
    refine vendor_answers (r := execGetDriftTable c inp s) rfl h hlen rfl (if_neg ?_) ?_ hlimit
    · rw [hpresent]
      simp
      omega
    · rw [List.length_append, length_flatMap_const (k := 4) (fun i => by simp)]
      simp

end Sys2Proof.Machine

/-!
The media channels and their dies (R323 to R357): bring-up, training, polls and service, and the commands of a die.
-/
namespace Sys2Proof.Machine
open Sys2Proof.Safety

/-! ### Media channels -/

theorem length_pkgBytes (s : State) (c p : Nat) : (pkgBytes s c p).length = 16 := by
  unfold pkgBytes
  dsimp only
  split <;> simp

/-- Of one channel without a rail of its own, whose package group lost power 100 ms ago, the event re-enables that channel
(R348). -/
theorem packageGroupReenable_one {c : Fin 36} {n : Nat} {good : Bool} {s : State} (hlost : (chanOf s c).pgLost = some n)
    (hdue : n + 100000000 ≤ s.time.mono)
    (hrails : ((List.range 64).filter fun r => (railRole (blobOf s) r == 9 || railRole (blobOf s) r == 10) &&
      (railChannels (blobOf s) r).any fun d => [c].any fun e => e.val == d) = []) :
    exec (.packageGroupReenable [c] good) s = .next (reenable good s c) := by
  change execPackageGroupReenable [c] good s = _
  rw [execPackageGroupReenable, List.filter_cons, hlost]
  dsimp only
  rw [if_pos (decide_eq_true hdue), List.filter_nil, hrails]
  rfl

/-- Settles O25: each event and command of a media channel, by the branch that its premises choose (R323 to R357). -/
theorem mediaChannelCommandsComplete : Obligations.MediaChannelCommandsComplete := by
  refine ⟨fun c found pk dies s hmode hreset hprobed hstart hpk hdies => ?bringUp,
    fun c first second r s hmode hfirst => ?trainFirst, fun c first second r s hmode hfirst hsecond => ?trainSecond,
    fun c first second r s hmode hr hfirst hsecond hcci => ?trainFails,
    fun c sweep x news s hmode hdue hlull hother hdrain hx hnews => ⟨fun hall => ?retrained, fun hany => ?retrainFails⟩,
    fun c r s hprobed hr hmode => ?pgLost,
    fun c n s hlost hdue hrails => ⟨?reenableFails, fun hfirst => ?reenabled⟩, fun d ds b s hslot => ?pollInvalid,
    fun d ds b r u s hslot hr hu => ⟨fun harray => ?pollBusy, fun w harray hcur => ?pollEnds⟩,
    fun d ds w s hslot harray hcur hkind => ⟨fun hroom hlong => ?overrunFails, fun hlong hshort hnew => ?overrunNotes⟩,
    fun d ds w s hslot harray hcur hkind hroom hlong => ?resetOverrun, fun c inp s h hlen hch hlimit => ?state,
    fun c inp s h hbg hlen hch hother hcci hmode => ?retrain, fun c inp s h hlen hch hpkg hdie hpresent hlimit => ?page,
    fun c inp s h hlen hch hoff hmode hlost hother hcci hbusy => ?serviceOff,
    fun c inp s h hlen hch hon hmode hlost hdorm => ?serviceOn,
    fun c inp d k ch n u s h hlen hch hlt hn hforms hdata hmode hlost hparse hnodata hu hlimit => ?command⟩
  case bringUp =>
    change execChannelBringUp c found s = _
    rw [execChannelBringUp]
    dsimp only
    rw [if_neg (by simp only [hmode, hreset, hprobed, hstart]; decide), ← hpk, ← hdies]
  case trainFirst =>
    change execMediaFullTraining c first second s = _
    rw [execMediaFullTraining, hmode]
    dsimp only
    rw [if_neg (by simp), hfirst]
  case trainSecond =>
    change execMediaFullTraining c first second s = _
    rw [execMediaFullTraining, hmode]
    dsimp only
    rw [if_neg (by simp), hfirst]
    dsimp only
    rw [hsecond]
  case trainFails =>
    change execMediaFullTraining c first second s = _
    rw [execMediaFullTraining, hmode]
    dsimp only
    rw [if_neg (by simp), ← hr, hfirst]
    dsimp only
    rw [hsecond, hcci]
  case retrained =>
    subst hx hnews
    change execMediaRetrain c sweep s = _
    rw [execMediaRetrain]
    dsimp only
    rw [if_neg (by simp only [hmode, hdue, hlull, hother, hdrain]; decide)]
    exact if_neg (ne_true_of_eq_false hall)
  case retrainFails =>
    subst hx hnews
    change execMediaRetrain c sweep s = _
    rw [execMediaRetrain]
    dsimp only
    rw [if_neg (by simp only [hmode, hdue, hlull, hother, hdrain]; decide)]
    exact if_pos hany
  case pgLost =>
    change Host.Outcome.next (if (chanOf s c).probed then loseChannel c s else s) = _
    rw [if_pos hprobed, loseChannel, ← hr]
    dsimp only
    rw [if_neg hmode]
  case reenableFails =>
    rw [packageGroupReenable_one hlost hdue hrails, reenable]
    dsimp only
    rw [hlost]
    dsimp only
    rw [if_neg (by omega), if_neg (fun h => Bool.false_ne_true h.1)]
  case reenabled => exact packageGroupReenable_one hlost hdue hrails
  case pollInvalid =>
    change execProgramStatusPoll d false b s = _
    rw [execProgramStatusPoll, hslot]
    rfl
  case pollBusy =>
    change execProgramStatusPoll d true b s = _
    rw [execProgramStatusPoll, hslot]
    dsimp only
    rw [if_neg (by decide), ← hr, ← hu, if_pos harray]
  case pollEnds =>
    change execProgramStatusPoll d true b s = _
    rw [execProgramStatusPoll, hslot]
    dsimp only
    rw [if_neg (by decide), ← hr, ← hu, harray, if_neg (by decide), hcur]
  case overrunFails =>
    obtain ⟨a, ha⟩ := Option.isSome_iff_exists.mp harray
    change execProgramOverrun d s = _
    rw [execProgramOverrun, hslot]
    dsimp only
    rw [ha, hcur]
    dsimp only
    rw [hkind, if_neg Bool.false_ne_true, if_pos hlong, hroom, if_neg Bool.false_ne_true]
  case overrunNotes =>
    obtain ⟨a, ha⟩ := Option.isSome_iff_exists.mp harray
    change execProgramOverrun d s = _
    rw [execProgramOverrun, hslot]
    dsimp only
    rw [ha, hcur]
    dsimp only
    rw [hkind, if_neg Bool.false_ne_true, if_neg (by omega), if_pos (by rw [decide_eq_true hlong]; rfl), overrun, hnew,
      if_neg Bool.false_ne_true, hcur]
  case resetOverrun =>
    obtain ⟨a, ha⟩ := Option.isSome_iff_exists.mp harray
    change execProgramOverrun d s = _
    rw [execProgramOverrun, hslot]
    dsimp only
    rw [ha, hcur]
    dsimp only
    rw [if_pos hkind, if_pos hlong, hroom, if_neg Bool.false_ne_true]
  case state =>
    refine vendor_answers (r := execGetMediaChannelState c inp s) rfl h hlen rfl (if_neg (by omega)) ?_ hlimit
    rw [List.length_append, length_flatMap_const (k := 16) (fun p => length_pkgBytes _ _ p)]
    simp
  case retrain =>
    refine vendorBg_background (r := execRetrainMediaChannel c inp s) rfl h hlen rfl hbg ?_
    dsimp only
    rw [if_neg (by omega), if_neg (by simp [hother, hcci]), if_neg (Classical.not_not.mpr hmode)]
  case page =>
    refine vendor_answers (r := execGetDieParameterPage c inp s) rfl h hlen rfl (if_neg ?_) ?_ hlimit
    · rw [hpresent]
      simp
      omega
    · simp
  case serviceOff =>
    refine vendor_done_none (r := execSetChannelService c inp s) rfl h hlen rfl ?_
    dsimp only
    rw [if_neg (by omega), if_neg (by simp [hmode, hlost]), if_neg (by omega), if_neg (by simp [hmode]),
      if_neg (by simp [hother, hmode, hcci]), hbusy, if_neg Bool.false_ne_true]
  case serviceOn =>
    refine vendor_done_none (r := execSetChannelService c inp s) rfl h hlen rfl ?_
    dsimp only
    rw [if_neg (by omega), if_neg (by simp [hmode, hlost]), if_pos hon, if_neg (Classical.not_not.mpr hmode), if_neg hdorm]
  case command =>
    have hvalid : (n == 4 || n == 6 || n == 10) = true := by
      obtain rfl | rfl | rfl := hforms <;> rfl
    refine vendor_done (r := execIssueMediaCommand c inp s) rfl h hlen rfl ?_ hlimit
    dsimp only
    rw [← hch, ← hn, if_neg (by rw [hvalid]; simp; omega), if_neg (by simp [hmode, hlost]), hparse]
    cases k with
    | data st len b => exact absurd rfl (hnodata st len b)
    | _ => rw [hu]

/-! ### The dies -/

/-- A die that is ready takes every command (R330, R344). -/
theorem not_refuses_of_ready {d : Nat} {s : State} (h : DieReady s d) (c : DieCmd) :
    ¬(!(dieOf s d).present || (chanOf s (chanOfDie d)).mreset || !takesCmd s d c) = true := by
  obtain ⟨hpresent, hreset, hcal⟩ := h
  simp [hpresent, hreset, takesCmd, hcal]

theorem chanOf_setChan (c : Nat) (x : ChanSt) (s : State) : chanOf (setChan c x s) c = x := tget_tput_same ..

theorem dieOf_setChan (c : Nat) (x : ChanSt) (s : State) (d : Nat) : dieOf (setChan c x s) d = dieOf s d := rfl

theorem dieOf_busGrant (c : Nat) (s : State) (d : Nat) : dieOf (busGrant c s) d = dieOf s d := by
  unfold busGrant
  dsimp only
  split
  · split <;> rfl
  · rfl

theorem resp_busGrant (c : Nat) (s : State) : (chanOf (busGrant c s) c).resp = (chanOf s c).resp := by
  unfold busGrant
  dsimp only
  split
  · split
    · rw [chanOf_setChan]
    · rfl
  · rfl

/-- The end of a transfer frees the bus; dies and responses stay (R346). -/
theorem dieOf_busDone (c : Nat) (f : BusForm) (s : State) (d : Nat) : dieOf (busDone c f s) d = dieOf s d := by
  unfold busDone
  dsimp only
  split
  · exact dieOf_busGrant ..
  · split <;> rfl

theorem resp_busDone (c : Nat) (f : BusForm) (s : State) : (chanOf (busDone c f s) c).resp = (chanOf s c).resp := by
  unfold busDone
  dsimp only
  split
  · rw [resp_busGrant, chanOf_setChan]
  · split
    · rw [chanOf_setChan]
    · rfl

theorem pollOutstanding_of_low {c : Nat} {s : State} (h : mrdyLow s c = true) :
    pollOutstanding c s = ((List.range 8).filter fun p => pkgOutstanding s c p).foldl
      (fun s p => busDone c (.poll p) (pollPkg c p s)) s := if_pos h

/-- Settles O26: a ready die takes the command, and what its engine holds decides; a status read leaves the bits it reports
cleared, and the bus it used free (R330, R339). -/
theorem dieReadCommandsComplete : Obligations.DieReadCommandsComplete := by
  refine ⟨fun d e tile seg a b c s h harray hidle => ⟨?sense, ?soft⟩, fun d e tile seg a b c s h harray hrun => ?senseBusy,
    fun d copy s h harray hidle => ?page, fun d e st len s h hfull hfits => ?output,
    fun d e st len s h hfull hover => ?outputOver, fun d e s hst => if_pos hst, fun d e s hst hfull => ?held,
    fun d e s hst hfull => ?moved, fun c p s => rfl, fun d s h => ?status, fun c s hlow => ⟨?fall, ?repoll⟩⟩
  case sense =>
    change Host.Outcome.next (busDone (chanOfDie d) (.sense d) (dieRun d (.sense e (.seg tile seg a b c)) s)) = _
    rw [dieRun]
    dsimp only
    rw [if_neg (not_refuses_of_ready h _), harray, if_neg (by simp), if_pos hidle]
  case soft =>
    change Host.Outcome.next (busDone (chanOfDie d) (.sense d) (dieRun d (.sense e (.soft tile seg a b c)) s)) = _
    rw [dieRun]
    dsimp only
    rw [if_neg (not_refuses_of_ready h _), harray, if_neg (by simp), if_pos hidle]
  case senseBusy =>
    change Host.Outcome.next (busDone (chanOfDie d) (.sense d) (dieRun d (.sense e (.seg tile seg a b c)) s)) = _
    rw [dieRun]
    dsimp only
    rw [if_neg (not_refuses_of_ready h _), if_pos (by rw [harray, hrun]; rfl), reject]
  case page =>
    change Host.Outcome.next (dieRun d (.sense false (.page (b2n copy))) s) = _
    rw [dieRun]
    dsimp only
    rw [if_neg (not_refuses_of_ready h _), if_neg (by simp [harray]), if_pos (by exact hidle)]
    rfl
  case output =>
    change Host.Outcome.next (busDone (chanOfDie d) (.output d st len) (dieRun d (.output e false st len) s)) = _
    rw [dieRun]
    dsimp only
    rw [if_neg (not_refuses_of_ready h _), if_pos hfull, if_neg (by omega), if_neg Bool.false_ne_true]
  case outputOver =>
    change Host.Outcome.next (busDone (chanOfDie d) (.output d st len) (dieRun d (.output e false st len) s)) = _
    rw [dieRun]
    dsimp only
    rw [if_neg (not_refuses_of_ready h _), if_pos hfull, if_pos hover, reject]
  case held => exact (if_pos hst).trans (if_pos hfull)
  case moved => exact (if_pos hst).trans (if_neg (ne_true_of_eq_false hfull))
  case status =>
    have hexec : exec (.statusDie d) s = .next (busDone (chanOfDie d) (.status d) (dieRun d .status s)) := rfl
    obtain ⟨-, -, hcal⟩ := id h
    rw [dieRun] at hexec
    dsimp only at hexec
    rw [if_neg (not_refuses_of_ready h _), hcal] at hexec
    refine After.intro hexec ⟨?_, ?_, ?_⟩
    · rw [dieOf_busDone, dieOf_setDie_same]
    · rw [dieOf_busDone, dieOf_setDie_same]
    · rw [resp_busDone]
      change (chanOf (setChan _ _ _) (chanOfDie d)).resp = _
      rw [chanOf_setChan, respond, chanOf_setChan]
      exact congrArg wordResp (Nat.or_zero _)
  case fall => exact congrArg _ (pollOutstanding_of_low hlow)
  case repoll => exact congrArg _ (pollOutstanding_of_low hlow)

/-- The die of a package that its own commands are about (R330). -/
theorem idxOfDie_first (c p : Nat) : idxOfDie (dieId c p 0) = 0 := by
  rw [idxOfDie, dieId, Nat.add_zero, Nat.mul_mod_left]

/-- Settles O27: a ready die takes the command, and its array, its engines and its set-up decide; the end of a program stores
the buffer in a blank segment (R337, R347). -/
theorem dieArrayCommandsComplete : Obligations.DieArrayCommandsComplete := by
  refine ⟨fun d tile seg s h hfree => ?setup, fun d tile seg s h hbusy => ⟨?setupBusy, ?resetBusy⟩,
    fun d st len bs s h hsetup hfits => ?data, fun d tile seg s h hsetup hall hmode => ?confirm,
    fun d tile s h hfree => ?reset, fun d f v s h harray hidle hok hidx => ?setFeature, fun d f s h => ?getFeature,
    fun d s h harray hrun => ?suspend, fun d s h hsus => ?resume, fun c p s h => ?temp, fun c p s h hall => ?calibrate,
    fun c p cmd s hparse hreset => if_pos ⟨by rw [hparse]; rfl, hreset⟩, fun d tile seg s harray hrun hblank => ?programmed,
    fun d tile s harray hrun => ?resetEnds, fun c s => rfl, fun c s => rfl⟩
  case setup =>
    change Host.Outcome.next (dieRun d (.setup tile seg) s) = _
    rw [dieRun]
    dsimp only
    rw [if_neg (not_refuses_of_ready h _), if_pos hfree]
  case setupBusy =>
    change Host.Outcome.next (dieRun d (.setup tile seg) s) = _
    rw [dieRun]
    dsimp only
    rw [if_neg (not_refuses_of_ready h _), if_neg (ne_true_of_eq_false hbusy), reject]
  case resetBusy =>
    change Host.Outcome.next (dieRun d (.resetTile tile) s) = _
    rw [dieRun]
    dsimp only
    rw [if_neg (not_refuses_of_ready h _), if_neg (ne_true_of_eq_false hbusy), reject]
  case data =>
    have hexec : exec (.progSegData d st len bs) s =
      .next (busDone (chanOfDie d) (.data d st len) (dieRun d (.data st len bs) s)) := rfl
    rw [dieRun] at hexec
    dsimp only at hexec
    rw [if_neg (not_refuses_of_ready h _), if_pos hsetup] at hexec
    refine After.intro hexec ?_
    rw [dieOf_busDone, dieOf_setDie_same, show min (8 * len) (592 - 8 * st) = 8 * len by omega]
    exact ⟨rfl, rfl⟩
  case confirm =>
    change Host.Outcome.next (dieRun d .confirm s) = _
    rw [dieRun]
    dsimp only
    rw [if_neg (not_refuses_of_ready h _), hsetup]
    dsimp only
    rw [if_pos ⟨hall, hmode⟩]
  case reset =>
    change Host.Outcome.next (dieRun d (.resetTile tile) s) = _
    rw [dieRun]
    dsimp only
    rw [if_neg (not_refuses_of_ready h _), if_pos hfree]
  case setFeature =>
    change Host.Outcome.next (dieRun d (.setFeature f v) s) = _
    rw [dieRun]
    rw [if_neg (not_refuses_of_ready h _), if_pos (by simpa [harray, hidle, hok] using hidx)]
  case getFeature =>
    change Host.Outcome.next (dieRun d (.getFeature f) s) = _
    rw [dieRun]
    rw [if_neg (not_refuses_of_ready h _)]
  case suspend =>
    change Host.Outcome.next (dieRun d .suspend s) = _
    rw [dieRun]
    dsimp only
    rw [if_neg (not_refuses_of_ready h _), if_pos (by rw [harray, hrun]; rfl)]
  case resume =>
    change Host.Outcome.next (dieRun d .resume s) = _
    rw [dieRun]
    dsimp only
    rw [if_neg (not_refuses_of_ready h _), if_pos hsus]
  case temp =>
    change Host.Outcome.next (dieRun (dieId c p 0) .tempRead s) = _
    rw [dieRun]
    rw [if_neg (not_refuses_of_ready h _), if_pos (idxOfDie_first ..)]
  case calibrate =>
    change Host.Outcome.next (dieRun (dieId c p 0) .calibrate s) = _
    rw [dieRun]
    dsimp only
    rw [if_neg (not_refuses_of_ready h _), if_pos ⟨idxOfDie_first .., hall⟩]
  case programmed =>
    have hexec : exec (.dieProgramEnd d true) s = .next (endProgram d true s) := rfl
    rw [endProgram, harray] at hexec
    dsimp only at hexec
    rw [hrun, if_neg Bool.false_ne_true, if_pos (by rw [hblank]; rfl)] at hexec
    refine After.intro hexec ?_
    rw [dieOf_setDie_same, dieOf_setDie_same]
    refine ⟨rfl, rfl, ?_⟩
    rw [segContent]
    dsimp only
    rw [tfind_tput_same]
  case resetEnds =>
    have hexec : exec (.dieTileResetEnd d true) s = .next (endReset d true s) := rfl
    rw [endReset, harray] at hexec
    dsimp only at hexec
    rw [hrun, if_neg Bool.false_ne_true, if_pos rfl] at hexec
    refine After.intro hexec ?_
    rw [dieOf_setDie_same, dieOf_setDie_same]
    exact ⟨rfl, rfl⟩

end Sys2Proof.Machine

/-!
The DRAM subsystem (R358 to R389): freezing, thawing, pinned slots and its commands.
-/
namespace Sys2Proof.Machine
open Sys2Proof.Safety

/-- Settles O29: each event and command of freezing and thawing, by the branch that its premises choose (R377 to R385). -/
theorem frostAndThawCommandsComplete : Obligations.FrostAndThawCommandsComplete := by
  refine ⟨fun c s hhold hdue hspent hmay => ?expiry, fun c bad u s hmode hstep hdrain hu => ?salvage,
    fun c s hmode hstep hdrain => ?refill, fun c s hmode hstep hdrain hmirror hcci => ?resync,
    fun c s hmode hcci hhold hdue hspent => ?fails, fun n x s hx hpin hdrain hdef hmode => ?resolveDeferred,
    fun n x s hx hpin hdrain hdef hmode => ?resolve, fun c inp s h hlen hch hlimit => ?state,
    fun c inp s h hlen hok => ?policy, fun c inp f s h hlen hresv hch hn hend hf hlimit => ?frost,
    fun c inp s h hbg hlen hch hmode => ?thawFailed, fun c inp u s h hbg hlen hch hmode hcci hu hmay => ?thaw⟩
  case expiry =>
    change execFrostHoldExpiry c s = _
    rw [execFrostHoldExpiry]
    exact if_neg (by simp [hhold, hspent, hmay, hdue])
  case salvage =>
    change execThawSalvageDone c bad s = _
    rw [execThawSalvageDone]
    dsimp only
    rw [if_neg (by simp [hmode, hstep, hdrain]), ← hu]
  case refill => exact if_neg (by simp [hmode, hstep, hdrain])
  case resync =>
    change execThawResyncDone c s = _
    rw [execThawResyncDone]
    dsimp only
    rw [if_neg (by simp [hmode, hstep, hdrain]), if_neg (by simp [hmirror]), hcci]
  case fails =>
    change execFrozenFailTimeout c s = _
    rw [execFrozenFailTimeout]
    exact if_neg (by simp [hmode, hcci, hhold, hdue, hspent])
  case resolveDeferred =>
    change execPinnedSlotResolve n s = _
    rw [execPinnedSlotResolve, hx]
    dsimp only
    rw [if_neg (by simp [hpin, hdrain, hmode]), if_pos hdef]
  case resolve =>
    change execPinnedSlotResolve n s = _
    rw [execPinnedSlotResolve, hx]
    dsimp only
    rw [if_neg (by simp [hpin, hdrain, hmode]), if_neg (ne_true_of_eq_false hdef)]
  case state =>
    refine vendor_answers (r := execGetDramState c inp s) rfl h hlen rfl (if_neg (by omega)) ?_ hlimit
    rw [List.length_append, List.length_append, List.length_append, length_flatMap_const (k := 8) (fun i => ?lane)]
    refine (congr (congrArg _ (congr (congrArg _ rfl) (?first : _ = 8))) (?second : _ = 8)).trans ?_
    case lane => split <;> simp
    case first => dsimp only; split <;> simp
    case second => dsimp only; split <;> simp
    simp [length_flatMap_const (k := 8) (fun _ => leBytes_length 8 _)]
  case policy =>
    refine vendor_commit (r := execSetDramPolicy c inp s) rfl h hlen rfl ?_
    rw [dramPolicyRec, if_pos hok]
    exact storeSetting_some ..
  case frost =>
    refine vendor_done (r := execGetFrostRecord c inp s) rfl h hlen (by simp [hresv]) ?_ ?_
    · dsimp only
      rw [if_neg (by omega), hf]
      rfl
    · exact Nat.le_trans (List.length_take_le ..) hlimit
  case thawFailed =>
    refine (vendorBg_reply (r := execThawDramChannel c inp s) rfl h hlen rfl hbg).trans ?_
    dsimp only
    rw [if_neg (by omega), if_pos hmode, settle_done (Nat.zero_le _)]
  case thaw =>
    refine vendorBg_background (r := execThawDramChannel c inp s) rfl h hlen rfl hbg ?_
    dsimp only
    rw [if_neg (by omega), if_neg (by simp [hmode]), if_neg (by simp [hmode, hcci]), ← hu, if_pos hmay]

end Sys2Proof.Machine

/-!
The fabric (R390 to R426): its ports, its link state, its routed messages and commands.
-/
namespace Sys2Proof.Machine
open Sys2Proof.Safety

/-! ### Fabric ports -/

theorem find_range_first {p : Nat → Bool} {n : Nat} (hn : 0 < n) (h : p 0 = true) : (List.range n).find? p = some 0 := by
  obtain ⟨m, rfl⟩ := Nat.exists_eq_add_one.mpr hn
  rw [List.range_succ_eq_map, List.find?_cons, h]

/-- Settles O30: each event of a fabric port, by the branch that its premises choose (R390 to R412). -/
theorem fabricPortEventsComplete : Obligations.FabricPortEventsComplete := by
  refine ⟨fun p w n s hst hw => if_pos ⟨hst, hw⟩, fun p s hst => if_pos hst, fun p s hst hdue => if_pos ⟨hst, hdue⟩,
    fun p s hst hby hdue => if_pos ⟨hst, hby, hdue⟩, fun p f a b s hst hcrc => ?badCrc,
    fun p f a b s z hst hcrc hnak hz => ⟨fun hpay hseq => ?accepted, fun hpay hseq => ?outOfOrder, fun hpay => ?idle⟩,
    fun p f a b s hst hcrc hnak hpay => ?nak, fun p f fs s hretry hdue => ?replay, fun p n s hnak hst hdue => ?nakRepeat,
    fun p s hst hdue => if_pos ⟨hst, hdue⟩, fun p h s u htake => ⟨fun hsrc => ?hello, fun hsrc hserial hid => ?helloOwn⟩,
    fun p h n s hhello hst hdue => ?dead, fun p l s u htake => ?lsa, fun p o q n s u htake => ?ack,
    fun p l n s hunacked hdue => ?resend, fun o l s hdb => ⟨fun hyoung => ?aged, fun hold => ?expired⟩,
    fun s hid hdue => ?originate, fun s hmode hauto hid hup hdue hfree => ?assign,
    fun s hdirty hdue hmode hid => if_pos ⟨hdirty, hdue, hmode, hid⟩, fun r s hstandby hmode => ?swap⟩
  case badCrc => exact (if_pos hst).trans (if_pos hcrc)
  case accepted =>
    change execFlitReceive p f a b s = _
    rw [execFlitReceive]
    dsimp only
    rw [if_pos hst, if_neg (by rw [hcrc]; decide), ← hz, hpay, hnak, hseq, beq_self_eq_true]
    rfl
  case outOfOrder =>
    change execFlitReceive p f a b s = _
    rw [execFlitReceive]
    dsimp only
    rw [if_pos hst, if_neg (by rw [hcrc]; decide), ← hz, hpay, hnak, beq_false_of_ne hseq]
    rfl
  case idle =>
    change execFlitReceive p f a b s = _
    rw [execFlitReceive]
    dsimp only
    rw [if_pos hst, if_neg (by rw [hcrc]; decide), ← hz, hpay, hnak]
    rfl
  case nak =>
    change execFlitReceive p f a b s = _
    rw [execFlitReceive]
    dsimp only
    rw [if_pos hst, if_neg (by rw [hcrc]; decide), hpay, hnak]
    rfl
  case replay =>
    change execReplayTimer p s = _
    rw [execReplayTimer, hretry]
    exact if_pos hdue
  case nakRepeat =>
    change execNakRepeatTimer p s = _
    rw [execNakRepeatTimer, hnak]
    exact if_pos ⟨hst, hdue⟩
  case hello =>
    change execHello p s = _
    rw [execHello, htake]
    exact if_neg fun hown => hsrc hown.1
  case helloOwn =>
    change execHello p s = _
    rw [execHello, htake]
    exact if_pos ⟨hsrc, hserial, hid⟩
  case dead =>
    change execHelloDeadInterval p s = _
    rw [execHelloDeadInterval, hhello]
    exact if_pos ⟨hst, hdue⟩
  case lsa =>
    change execLsa p s = _
    rw [execLsa, htake]
  case ack =>
    change execLsaAck p s = _
    rw [execLsaAck, htake]
  case resend =>
    change execLsaResend p s = _
    rw [execLsaResend, hunacked]
    simp [hdue]
  case aged =>
    change execLsaAgeTick s = _
    rw [execLsaAgeTick, hdb]
    simp [tmap, tfilter, hyoung]
  case expired =>
    change execLsaAgeTick s = _
    rw [execLsaAgeTick, hdb]
    simp [tmap, tfilter, hold]
  case originate =>
    change execLsaOriginate s = _
    rw [execLsaOriginate]
    refine if_pos ⟨hid, hdue.imp_left fun hnone => ?_⟩
    rw [hnone]
  case assign =>
    have hfirst : (List.range 4095).find? (fun i => (tfind s.fabric.db ((crc16 (leBytes 8 s.mgmt.serial) % 4095 + i) % 4095)).isNone)
        = some 0 := find_range_first (by decide) (by rw [Nat.add_zero, Nat.mod_mod, hfree]; rfl)
    change execAutoIdAssign s = _
    rw [execAutoIdAssign]
    dsimp only
    rw [if_pos ⟨hmode, hauto, hid, hup, hdue⟩, hfirst]
    dsimp only
    rw [Nat.add_zero, Nat.mod_mod]
  case swap =>
    change execRouteTableSwap s = _
    rw [execRouteTableSwap, hstandby]
    exact if_pos hmode

/-! ### Routed messages and fabric commands -/

theorem checkTag_of_match {tenant src tag : Nat} {s : State} (h : tagMatches s tag = true) : checkTag tenant src tag s = (true, s) := by
  rw [checkTag, h]
  rfl

/-- A request of the fabric that takes a tag is classified at once (R415). -/
theorem ingress_of_tag {p n : Nat} {k : MsgKind} {op : ReqOp} {bad : W64} {m : FabMsg} {s u : State}
    (htake : takeLocal p k s = some (.routed m, u)) (htag : tagFor (noteIngress op bad m u) (.fabric m.src) = some n) :
    ingress p k op bad s = classifyReq n m.eng (ingressReq k op bad m s.time.mono)
      { noteIngress op bad m u with ten := { (noteIngress op bad m u).ten with
          reqs := tput (noteIngress op bad m u).ten.reqs n (ingressReq k op bad m s.time.mono) } } := by
  rw [ingress, htake]
  dsimp only
  rw [receive, show (ingressReq k op bad m s.time.mono).src = .fabric m.src from rfl, htag]
  rfl

/-- A response of the generation that waits ends its request (R418). -/
theorem response_of_gen {p : Nat} {k : MsgKind} {m : FabMsg} {x : Remote} {r : Req} {s u : State}
    (htake : takeLocal p k s = some (.routed m, u)) (hx : tfind u.fabric.remote m.tag = some x)
    (hr : tfind u.ten.reqs m.tag = some r) (hmatch : tagMatches (modReq m.tag (fun r => { r with devload := m.devload }) u) m.epoch = true)
    (hwaits : x.waits = 0) (hgen : x.msg.gen = m.gen) :
    response p k s = endRemote m.tag m.data (m.status != 0 || m.poison) m.status (if r.op.isWrite && m.status != 0 then 8 else 6)
      (statusEvents p m r (modReq m.tag (fun r => { r with devload := m.devload }) u)) := by
  rw [response, htake]
  dsimp only
  rw [hx, hr]
  dsimp only
  rw [if_neg (by simp [hwaits, hgen]), checkTag_of_match hmatch]
  exact if_neg (fun h => Bool.noConfusion h)

/-- A response of another generation is dropped (R418). -/
theorem response_of_old {p : Nat} {k : MsgKind} {m : FabMsg} {x : Remote} {r : Req} {s u : State}
    (htake : takeLocal p k s = some (.routed m, u)) (hx : tfind u.fabric.remote m.tag = some x)
    (hr : tfind u.ten.reqs m.tag = some r) (hgen : x.msg.gen ≠ m.gen) : response p k s = dropMsg p 1 m.dst u := by
  rw [response, htake]
  dsimp only
  rw [hx, hr]
  exact if_pos (.inr hgen)

theorem length_lsaBytes (l : Lsa) : (lsaBytes l).length = 64 := by
  simp [lsaBytes, length_flatMap_const (k := 4) (fun _ => leBytes_length 4 _)]

theorem length_portBytes (s : State) (p : Nat) : (portBytes s p).length = 32 := by simp [portBytes]

/-- Settles O31: each routed message, timeout and command of the fabric, by the branch that its premises choose; a request is
taken in and a response ends its request by the two rules above (R413 to R426). -/
theorem fabricMessagesAndCommandsComplete : Obligations.FabricMessagesAndCommandsComplete := by
  refine ⟨fun p m n s hfind hdst hid hen hn => ?relay, fun p m s u hfind htake => ⟨fun hdst => ?refuse, fun hdst hno => ?dropped⟩,
    fun p bad m v n w s u htake hw hv htag => ?rd, fun p m v n s u htake hv htag => ?specRd,
    fun p bad m v n s u htake hv htag => ?wr, fun p bad m v n s u htake hv htag => ?wrPtl,
    fun p m x r v s u htake hx hr hv hmatch => ⟨fun hwaits hgen => ?data, fun hgen => ?dataOld⟩,
    fun p m x r v s u htake hx hr hv hmatch => ⟨fun hwaits hgen => ?cmp, fun hgen => ?cmpOld⟩,
    fun n x m s hexp hm => ?timeoutFirst, fun n x r h v w s hexp hr hwrite hsrc hv hw => ?timeoutWrite,
    fun n x r h v w d s hexp hr hwrite hsrc hv hw hd => ?timeoutRead, fun c s h hlimit => ?state,
    fun c inp s h hlen hid hown hfree hnone => ?setId, fun c inp s h hlen hid hown hkeep => ?setIdAgain,
    fun c inp s h hlen hok => ?policy, fun c inp s h hlen hlo hhi hend hlimit => ?routes,
    fun c inp s h hlen hlo hhi hlimit => ?links,
    fun c inp s h hlen => ⟨fun hall hlimit => ?countersAll, fun hport hlimit => ?counters⟩,
    fun c inp s h hbg hlen hport hst => ?retrain⟩
  case relay =>
    change execMessageRelay p s = _
    rw [execMessageRelay, hfind]
    dsimp only
    rw [if_pos ⟨hdst, by simp [hid, hen]⟩, hn]
  case refuse =>
    change execMessageRelay p s = _
    rw [execMessageRelay, hfind]
    dsimp only
    rw [if_neg (fun hok => hok.1 hdst), htake]
    dsimp only
    rw [if_pos hdst]
  case dropped =>
    change execMessageRelay p s = _
    rw [execMessageRelay, hfind]
    dsimp only
    rw [if_neg (fun hok => ?_), htake]
    · dsimp only
      rw [if_neg hdst]
    · obtain hid | hen := hno
      · simp [hid] at hok
      · simp [hen] at hok
  case rd =>
    subst hw hv
    exact congrArg _ (ingress_of_tag htake htag)
  case specRd =>
    subst hv
    exact congrArg _ (ingress_of_tag htake htag)
  case wr =>
    subst hv
    exact congrArg _ (ingress_of_tag htake htag)
  case wrPtl =>
    subst hv
    exact congrArg _ (ingress_of_tag htake htag)
  case data =>
    subst hv
    exact congrArg _ (response_of_gen htake hx hr hmatch hwaits hgen)
  case dataOld => exact congrArg _ (response_of_old htake hx hr hgen)
  case cmp =>
    subst hv
    exact congrArg _ (response_of_gen htake hx hr hmatch hwaits hgen)
  case cmpOld => exact congrArg _ (response_of_old htake hx hr hgen)
  case timeoutFirst =>
    change execFabTimeoutFirst s = _
    rw [execFabTimeoutFirst, hexp, hm]
  case timeoutWrite =>
    change execFabTimeoutSecond s = _
    rw [execFabTimeoutSecond, hexp, Option.bind_some]
    dsimp only
    rw [hr]
    dsimp only
    rw [if_pos hwrite, hsrc, ← hv, ← hw]
    rfl
  case timeoutRead =>
    change execFabTimeoutSecond s = _
    rw [execFabTimeoutSecond, hexp, Option.bind_some]
    dsimp only
    rw [hr]
    dsimp only
    rw [if_neg (ne_true_of_eq_false hwrite), hsrc, ← hv, ← hw, hd]
    rfl
  case state =>
    refine vendor_answers (r := execGetFabricState c [] s) rfl h rfl rfl rfl ?_ hlimit
    rw [List.length_append, length_flatMap_const (k := 32) (length_portBytes s)]
    simp [fabPolicyBytes]
  case setId =>
    refine vendor_commit (r := execSetFabricDeviceId c inp s) rfl h hlen rfl ?_
    dsimp only
    rw [if_neg (by omega), if_neg (by simp [hown]), hfree, hown, hnone, if_neg Bool.false_ne_true, if_neg (by omega)]
  case setIdAgain =>
    refine vendor_fail (r := execSetFabricDeviceId c inp s) rfl h hlen rfl ?_
    dsimp only
    rw [if_neg (by omega), if_pos ⟨hown, hkeep⟩]
  case policy =>
    refine vendor_commit (r := execSetFabricPolicy c inp s) rfl h hlen rfl ?_
    rw [fabPolicyRec, if_pos hok]
    exact storeSetting_some ..
  case routes =>
    refine vendor_answers (r := execGetRouteTable c inp s) rfl h hlen rfl (if_neg (by omega)) ?_ hlimit
    rw [List.length_append, length_flatMap_const (k := 4) (fun i => leBytes_length ..)]
    simp
  case links =>
    refine vendor_answers (r := execGetLinkStateDatabase c inp s) rfl h hlen rfl (if_neg (by omega)) ?_ hlimit
    rw [List.length_append, length_flatMap_const (k := 64) (fun p => length_lsaBytes _)]
    simp
  case countersAll =>
    exact vendor_answers (r := execGetFabricPortCounters c inp s) rfl h hlen rfl (if_pos hall) (by simp) hlimit
  case counters =>
    refine vendor_answers (r := execGetFabricPortCounters c inp s) rfl h hlen rfl ?_
      (length_flatMap_const (fun n => leBytes_length 8 n) _) hlimit
    dsimp only
    rw [if_neg (by omega), if_pos hport]
  case retrain =>
    refine vendorBg_background (r := execRetrainFabricPort c inp s) rfl h hlen rfl hbg ?_
    dsimp only
    rw [if_neg (by omega)]
    obtain hup | hlinked := hst
    · rw [hup]
    · rw [hlinked]

end Sys2Proof.Machine

/-!
The service ring and the epochs (R427 to R451): which frames a position hears and acts on, and the branch of each event.
-/
namespace Sys2Proof.Machine
open Sys2Proof.Safety

/-! ### Frames of the service ring -/

/-- A whole frame of its type is taken while the ring is formed or being formed (R426, R429). -/
theorem ringTake_of_whole {typ : Nat} {f : RingFrame} {s : State}
    (hmode : s.epoch.ring.mode = .electing ∨ s.epoch.ring.mode = .formed) (htyp : f.typ = typ) (hcrc : f.crcOk = true) :
    ringTake typ f s = some (ringCounted s) := by
  rw [ringTake]
  rw [if_neg (by obtain h | h := hmode <;> simp [h, htyp]), if_neg (by simp [hcrc])]
  rfl

theorem ringTake_of_hears {typ : Nat} {f : RingFrame} {s : State} (h : RingHears s typ f) : ringTake typ f s = some (ringCounted s) := by
  obtain ⟨hmode, htyp, hcrc⟩ := h
  exact ringTake_of_whole (.inr hmode) htyp hcrc

/-- A position acts on a frame it hears that is for it and not its own (R433). -/
theorem broadcast_of_acts {typ : Nat} {f : RingFrame} {s : State} (h : RingActs s typ f) (act : State → State) :
    broadcast typ f act s = act (ringActed f s) := by
  obtain ⟨hhears, hown, hdst⟩ := h
  have hmode : (ringCounted s).epoch.ring.mode = .formed := hhears.1
  have hown' : ownFrame (ringCounted s) f = false := hown
  rw [broadcast, ringTake_of_hears hhears]
  dsimp only
  rw [if_neg (by simp [hmode, hown']), ringActed]
  by_cases hall : f.dst = 0xFF
  · rw [if_pos hall, if_pos hall]
  · rw [if_neg hall, if_neg hall]
    exact if_pos (hdst.resolve_left hall).symm

/-- A beacon moves no position (R434). -/
theorem hearBeacon_epoch (f : RingFrame) (s : State) : (hearBeacon f s).epoch.ring.position = s.epoch.ring.position ∧
    (hearBeacon f s).epoch.policy = s.epoch.policy := by
  by_cases h : f.typ = 3
  · rw [hearBeacon, if_pos h, setRing]
    exact ⟨rfl, rfl⟩
  · rw [hearBeacon, if_neg h]
    exact ⟨rfl, rfl⟩

theorem not_holdsArm {f : RingFrame} {s : State} (h : s.epoch.policy.spreadArm = true ∨ f.typ ≠ 0x12 ∧ f.typ ≠ 0x13) :
    ((f.typ == 0x12 || f.typ == 0x13) && !s.epoch.policy.spreadArm) = false := by
  obtain harm | ⟨h12, h13⟩ := h
  · simp [harm]
  · simp [h12, h13]

/-- Settles O32: each event and frame of the ring, by the branch that its premises choose; what a position does with a frame
it acts on is the one rule above (R427 to R442). -/
theorem ringEventsComplete : Obligations.RingEventsComplete := by
  refine ⟨fun s hmode hpower hen => if_pos ⟨hmode, hpower, hen⟩, fun s => rfl, fun s hmode => if_pos hmode,
    fun s hmode => if_pos hmode,
    fun f s hmode htyp hcrc => ⟨fun hserial => ?claimOwn, fun hserial hlow => ?claimLower, fun hserial hhigh => ?claimHigher⟩,
    fun f s hmode htyp hcrc hhead => ⟨fun hpos => ?roll, fun hpos => ?rollFull⟩, fun f s h hhead => ⟨?rollHead, ?rollReturned⟩,
    fun s hmode hhead hmembers hdue => if_pos ⟨hmode, hhead, hmembers, hdue⟩, fun s hmode hdue => if_pos ⟨hmode, hdue⟩,
    fun f s h hown hdst htypes harm => ?forward, fun f s h hown => ?own, fun s hmode hdue => if_pos ⟨hmode, hdue⟩,
    fun f m u s h hu hm => ?announce, fun s hmode hdue => if_pos hdue, fun f m u s h hu hm => ?status,
    fun f u s h harm hmode hfirst => ⟨fun hcheck => ?arm, fun n rc hcheck => ?armBad⟩,
    fun f n u s h harm hmode hfirst his => ?disarm,
    fun x s hrep hdue hmode => ⟨fun hlast => ?repeatLast, fun hmore => ?repeatMore⟩,
    fun f u s h hfirst hobey hmode hdrain => ?storm, fun n s hend hdue => ?brace,
    fun f s h => ⟨fun hdst => ?wakes, fun hdst hown => ?wakeOn⟩⟩
  case claimOwn =>
    change execClaim f s = _
    rw [execClaim, ringTake_of_whole hmode htyp hcrc]
    dsimp only
    rw [hserial]
    exact if_pos rfl
  case claimLower =>
    change execClaim f s = _
    rw [execClaim, ringTake_of_whole hmode htyp hcrc]
    exact (if_neg hserial).trans (if_pos hlow)
  case claimHigher =>
    change execClaim f s = _
    rw [execClaim, ringTake_of_whole hmode htyp hcrc]
    exact (if_neg hserial).trans (if_neg (Nat.not_lt.mpr hhigh))
  case roll =>
    change execRoll f s = _
    rw [execRoll, ringTake_of_whole hmode htyp hcrc]
    exact (if_neg (ne_true_of_eq_false hhead)).trans (if_pos hpos)
  case rollFull =>
    change execRoll f s = _
    rw [execRoll, ringTake_of_whole hmode htyp hcrc]
    exact (if_neg (ne_true_of_eq_false hhead)).trans (if_neg (Nat.not_le.mpr hpos))
  case rollHead =>
    change execRoll f s = _
    rw [execRoll, ringTake_of_hears h]
    exact if_pos hhead
  case rollReturned =>
    change execRollReturned f s = _
    rw [execRollReturned, ringTake_of_hears h]
    exact if_pos hhead
  case forward =>
    obtain ⟨hpos, hpolicy⟩ := hearBeacon_epoch f (ringCounted s)
    have hown' : ¬ownFrame (hearBeacon f (ringCounted s)) f = true := by
      rw [ownFrame, hpos]
      exact ne_true_of_eq_false hown
    have hdst' : ¬some f.dst = (hearBeacon f (ringCounted s)).epoch.ring.position := by
      rw [hpos]
      exact fun hsame => hdst hsame.symm
    change execRingFrameForward f s = _
    rw [execRingFrameForward, ringTake_of_hears h]
    refine (if_neg (Classical.not_not.mpr h.1)).trans (if_neg ?_)
    rw [hpolicy, not_holdsArm (s := ringCounted s) harm, htypes]
    simp [hown', hdst']
  case own =>
    change execRingFrameForward f s = _
    rw [execRingFrameForward, ringTake_of_hears h]
    refine (if_neg (Classical.not_not.mpr h.1)).trans (if_pos (.inl ?_))
    rw [ownFrame, (hearBeacon_epoch f (ringCounted s)).1]
    exact hown
  case announce =>
    subst hu hm
    exact congrArg _ (broadcast_of_acts h _)
  case status =>
    change execEpochStatus f s = _
    rw [execEpochStatus, broadcast_of_acts h, ← hu]
    rw [hm]
  case arm =>
    change execArm f s = _
    rw [execArm, harm, if_neg (by decide), broadcast_of_acts h]
    dsimp only
    rw [hfirst, if_neg (Classical.not_not.mpr hmode), if_neg (by simp), hcheck]
  case armBad =>
    change execArm f s = _
    rw [execArm, harm, if_neg (by decide), broadcast_of_acts h]
    dsimp only
    rw [hfirst, if_neg (Classical.not_not.mpr hmode), if_neg (by simp), hcheck]
  case disarm =>
    change execDisarm f s = _
    rw [execDisarm, harm, if_neg (by decide), broadcast_of_acts h]
    dsimp only
    rw [hfirst, if_neg (Classical.not_not.mpr hmode), if_neg (by simp), his]
  case repeatLast =>
    change execRingFrameRepeat s = _
    rw [execRingFrameRepeat, hrep, List.find?_cons, decide_eq_true hdue]
    dsimp only
    rw [if_pos hlast, if_pos hmode, List.erase_cons_head]
  case repeatMore =>
    change execRingFrameRepeat s = _
    rw [execRingFrameRepeat, hrep, List.find?_cons, decide_eq_true hdue]
    dsimp only
    rw [if_neg (Nat.not_le.mpr hmore), if_pos hmode, List.erase_cons_head, List.nil_append]
  case storm =>
    change execStorm f s = _
    rw [execStorm, broadcast_of_acts h]
    dsimp only
    rw [hfirst, if_neg (by simp [hobey, hmode, hdrain])]
  case brace =>
    change execBraceExpiry s = _
    rw [execBraceExpiry, hend]
    exact if_pos hdue
  case wakes =>
    change execWake f s = _
    rw [execWake, ringTake_of_hears h]
    exact (if_neg (Classical.not_not.mpr h.1)).trans (if_pos hdst.symm)
  case wakeOn =>
    change execWake f s = _
    rw [execWake, ringTake_of_hears h]
    exact (if_neg (Classical.not_not.mpr h.1)).trans ((if_neg fun hsame => hdst hsame.symm).trans (if_neg (ne_true_of_eq_false hown)))

/-! ### Epochs -/

theorem coveredTo_first {n : Nat} (hn : 0 < n) : coveredTo [(0, n)] 1 0 = n := by
  rw [coveredTo, List.find?_cons]
  simp [hn, coveredTo]

/-- Settles O33: each epoch event and command, by the branch that its premises choose; the first part of a manifest covers no
more than itself (R443 to R451). -/
theorem epochCommandsComplete : Obligations.EpochCommandsComplete := by
  refine ⟨fun e d n s harm hdue hswap => ⟨fun hlate hstep hact hn => ?activate, fun hlate => ?activateLate⟩,
    fun e d n s harm hdue hpath => ?waits, fun dev x s hheard hst hok hswap hfresh => ?adopt,
    fun n x u s hst hflags hdue hu => ?mismatch, fun c s h hlimit => ?state,
    fun c inp u s h hlen harm hoff hlo hhi hu => ?stageFirst,
    fun c inp k ps u v s h hlen harm hoff halign hlo hhi hend hload hu hv => ⟨fun hall => ?stageLast, fun hpart => ?stageMore⟩,
    fun c inp s h hlen hn hlimit => ?digest,
    fun c inp u s h hlen hcheck hu => ⟨fun hlocal => ?arm, fun hspread hpolicy hmode => ?armSpread⟩,
    fun c inp n u s h hlen his hu => ⟨fun hpolicy => ?disarm, fun hpolicy hmode => ?disarmSpread⟩,
    fun c inp n s h hlen his => ?disarmLate, fun c s h hlimit => ?ring, fun c inp s h hlen hok => ?policy,
    fun c inp s h hlen hmode hdst => ?wake⟩
  case activate =>
    change execEpochActivate s = _
    rw [execEpochActivate, harm]
    dsimp only
    rw [if_pos ⟨hdue, hswap⟩, if_neg]
    rw [hlate, hstep, hn]
    simp [Option.isSome_iff_ne_none.mp hact]
  case activateLate =>
    change execEpochActivate s = _
    rw [execEpochActivate, harm]
    dsimp only
    rw [if_pos ⟨hdue, hswap⟩, if_pos]
    obtain hlate | hpast := hlate
    · simp [hlate]
    · simp [hpast]
  case waits =>
    have hswap : canSwap s = false := by
      rw [canSwap, hpath]
      rfl
    change execEpochActivate s = _
    rw [execEpochActivate, harm]
    dsimp only
    rw [if_neg (by simp [hswap]), if_pos ⟨hdue, hpath⟩]
  case adopt =>
    change execEpochAdopt s = _
    rw [execEpochAdopt, hheard]
    exact if_pos ⟨hst, hok, hswap, hfresh⟩
  case mismatch =>
    change execMismatchHoldExpiry s = _
    rw [execMismatchHoldExpiry, if_neg (by obtain h | h := hst <;> simp [h]), hflags]
    simp [tfilter, hdue, hu]
  case state =>
    refine vendor_answers (r := execGetEpochState c [] s) rfl h rfl rfl rfl ?_ hlimit
    simp [length_flatMap_const (k := 2) (fun _ => leBytes_length 2 _)]
  case stageFirst =>
    refine vendor_done_none (r := execStageManifest c inp s) rfl h rfl rfl ?_
    dsimp only
    rw [if_neg (by rw [List.length_drop]; omega), if_neg (by simp [harm]), if_neg (by rw [hoff]; simp [manifestLen]; omega), if_pos hoff]
    have hpart : coveredTo ([] ++ [(le inp 0 4, le inp 4 4)]) ([] ++ [(le inp 0 4, le inp 4 4)]).length 0 = le inp 4 4 := by
      rw [hoff]
      exact coveredTo_first hlo
    dsimp only
    rw [hpart, if_pos hoff, if_neg (by rw [manifestLen]; omega), hu, hoff]
    rfl
  case stageLast =>
    subst hv hu
    refine vendor_commit (r := execStageManifest c inp s) rfl h rfl rfl ?_
    dsimp only
    rw [if_neg (by rw [List.length_drop]; omega), if_neg (by simp [harm]), if_neg (by omega), if_neg hoff, hload]
    dsimp only
    rw [if_neg hoff, if_pos hall]
  case stageMore =>
    refine vendor_done_none (r := execStageManifest c inp s) rfl h rfl rfl ?_
    dsimp only
    rw [if_neg (by rw [List.length_drop]; omega), if_neg (by simp [harm]), if_neg (by omega), if_neg hoff, hload]
    dsimp only
    rw [if_neg hoff, if_neg (by omega), ← hu]
  case digest =>
    refine vendor_answers (r := execGetSliceDigest c inp s) rfl h hlen rfl (if_neg (by omega)) ?_ hlimit
    rw [List.length_append, length_flatMap_const (k := 2) (leBytes_length 2)]
    simp
  case arm =>
    refine vendor_commit (r := execArmEpoch c inp s) rfl h hlen rfl ?_
    dsimp only
    rw [hcheck]
    dsimp only
    rw [← hu, if_neg (by simp [hlocal])]
  case armSpread =>
    refine vendor_commit (r := execArmEpoch c inp s) rfl h hlen rfl ?_
    dsimp only
    rw [hcheck]
    dsimp only
    rw [← hu, if_pos (by simp [hspread, hpolicy, hmode])]
  case disarm =>
    refine vendor_commit (r := execDisarmEpoch c inp s) rfl h hlen rfl ?_
    dsimp only
    rw [his]
    dsimp only
    rw [← hu, if_neg (by simp [hpolicy])]
  case disarmSpread =>
    refine vendor_commit (r := execDisarmEpoch c inp s) rfl h hlen rfl ?_
    dsimp only
    rw [his]
    dsimp only
    rw [← hu, if_pos (by simp [hpolicy, hmode])]
  case disarmLate =>
    refine vendor_fail (r := execDisarmEpoch c inp s) rfl h hlen rfl ?_
    dsimp only
    rw [his]
  case ring =>
    refine vendor_answers (r := execGetRingState c [] s) rfl h rfl rfl rfl ?_ hlimit
    rw [List.length_append, length_flatMap_const (k := 16) (fun p => by simp)]
    simp
  case policy =>
    refine vendor_commit (r := execSetRingAndEpochPolicy c inp s) rfl h hlen rfl ?_
    rw [ringPolicyRec, if_pos hok]
    exact storeSetting_some ..
  case wake =>
    refine vendor_done_none (r := execSendRingWake c inp s) rfl h hlen rfl ?_
    rw [if_neg (Classical.not_not.mpr hmode), if_neg (by omega)]

end Sys2Proof.Machine

/-!
Supplies and sequencing (R473 to R495): the steps of a sequencer program, the events of the rails, the power states.
-/
namespace Sys2Proof.Machine
open Sys2Proof.Safety

/-! ### The sequencer -/

/-- Settles O34: each step that is ready is the one its word encodes (R480 to R484, Table 15-6). -/
theorem sequencerStepsComplete : Obligations.SequencerStepsComplete := by
  refine ⟨fun q w s hready hblock => ?enable, fun q w s hready hgoOn => ?enableOn, fun q w s hready hblock => ?disable,
    fun q w s hready hgoOn => ?disableOn, fun q w s hready => ?wait, fun q n s hq hwait hdue => ?expiry,
    fun q w s hready => ?check, fun q w s hready => ?jump, fun q w s hready hflag => ?jumpTaken,
    fun q w s hready hflag => ?jumpPassed, fun q w u s hready hu => ⟨fun hrole => ?setout, fun hrole => ?setoutOther⟩,
    fun q w s hready hcode => ⟨fun hup => ?endUp, fun hup => ?endDown⟩,
    fun q w s hready hcode => ⟨fun hup => ?failUp, fun hup => ?failDown⟩, fun q s hq hmode hwait hsteps hop => ?invalid,
    fun q s hq hmode hsteps => ?runaway, fun q r s hq hup hmode hsupply hen hheld hlost hgood => ?dependency,
    fun q r s hq hup hmode hen husers hheld => ?dependencyOff, fun q r s hq hheld hen hdue => ?guard⟩
  case enable =>
    change execSeqEnable s = _
    rw [execSeqEnable, hready]
    dsimp only
    rw [if_neg (by omega)]
  case enableOn =>
    change execSeqEnable s = _
    rw [execSeqEnable, hready]
    dsimp only
    rw [if_pos hgoOn]
  case disable =>
    change execSeqDisable s = _
    rw [execSeqDisable, hready]
    dsimp only
    rw [if_neg (by omega)]
  case disableOn =>
    change execSeqDisable s = _
    rw [execSeqDisable, hready]
    dsimp only
    rw [if_pos hgoOn]
  case wait =>
    change execSeqWait s = _
    rw [execSeqWait, hready]
  case expiry =>
    change execSeqWaitExpiry s = _
    rw [execSeqWaitExpiry, hq]
    dsimp only
    rw [hwait]
    exact if_pos hdue
  case check =>
    change execSeqCheck s = _
    rw [execSeqCheck, hready]
  case jump =>
    change execSeqJump s = _
    rw [execSeqJump, hready]
  case jumpTaken =>
    change execSeqJumpif s = _
    rw [execSeqJumpif, hready]
    dsimp only
    rw [if_pos (by rw [beq_iff_eq, Bool.eq_iff_iff, hflag, beq_iff_eq])]
  case jumpPassed =>
    change execSeqJumpif s = _
    rw [execSeqJumpif, hready]
    dsimp only
    rw [if_neg (by rwa [beq_iff_eq, Bool.eq_iff_iff, beq_iff_eq])]
  case setout =>
    change execSeqSetout s = _
    rw [execSeqSetout, hready]
    dsimp only
    rw [← hu, if_pos hrole]
  case setoutOther =>
    change execSeqSetout s = _
    rw [execSeqSetout, hready]
    dsimp only
    rw [← hu, if_neg hrole]
  case endUp =>
    change execSeqEnd s = _
    rw [execSeqEnd, hready]
    exact (if_pos hcode).trans (if_pos hup)
  case endDown =>
    change execSeqEnd s = _
    rw [execSeqEnd, hready]
    exact (if_pos hcode).trans (if_neg (ne_true_of_eq_false hup))
  case failUp =>
    change execSeqEnd s = _
    rw [execSeqEnd, hready]
    exact (if_neg hcode).trans (if_pos hup)
  case failDown =>
    change execSeqEnd s = _
    rw [execSeqEnd, hready]
    exact (if_neg hcode).trans (if_neg (ne_true_of_eq_false hup))
  case invalid =>
    change execSeqInvalid s = _
    rw [execSeqInvalid, hq]
    dsimp only
    rw [if_pos]
    obtain hzero | ⟨hlo, hhi⟩ := hop
    · simp [hmode, hwait, hsteps, hzero]
    · simp [hmode, hwait, hsteps, hlo, hhi]
  case runaway =>
    change execSeqRunaway s = _
    rw [execSeqRunaway, hq]
    exact if_pos (by rw [hmode, decide_eq_true hsteps]; rfl)
  case dependency =>
    change execDependencyEnable r s = _
    rw [execDependencyEnable, hq]
    dsimp only
    rw [if_pos (by rw [hup, hmode, hsupply, hen, hheld, hlost, hgood]; rfl)]
  case dependencyOff =>
    change execDependencyDisable r s = _
    rw [execDependencyDisable, hq]
    dsimp only
    rw [if_pos (by rw [hup, hmode, hen, husers, hheld]; rfl)]
  case guard => exact if_pos ⟨by rw [hq]; rfl, hheld, hen, hdue⟩

/-! ### Rails and supplies -/

/-- What an edge of PG means for a rail that is used (R476, R477). -/
theorem railPgEdge_used {r : Fin 64} {k : Bool} {s : State} (hedge : (railOf s r).pg ≠ k) (hmode : s.power.mode ≠ .off)
    (h0 : railRole (blobOf s) r ≠ 0) (h11 : railRole (blobOf s) r ≠ 11) :
    exec (.railPgEdge r k) s =
      if (railOf s r).enabled && decide (chatterMax (blobOf s) r < (pgEdge s r k).edges.length) then
        .next (faultAct r 2 (setRail r (pgEdge s r k) s))
      else if (railOf s r).enabled && (railOf s r).good && !k then .next (faultAct r 5 (setRail r (pgEdge s r k) s))
      else if !(railOf s r).enabled then .next (checkFallen r (setRail r (pgEdge s r k) s))
      else .next (setRail r (pgEdge s r k) s) :=
  (if_neg (not_or.mpr ⟨hedge, hmode⟩)).trans (if_neg (not_or.mpr ⟨h0, h11⟩))

/-- A sample that faults no rail it hits names no fault. -/
theorem no_sampleFaults {hits : List (Nat × Nat)} {s : State} (h : (hits.all fun p => sampleFault s p.1 == 0) = true) :
    ((hits.map (·.1)).filter fun r => sampleFault s r != 0) = [] := by
  rw [List.filter_eq_nil_iff]
  intro r hr
  obtain ⟨p, hp, rfl⟩ := List.mem_map.mp hr
  simpa using List.all_eq_true.mp h p hp

/-- Settles O35: each event of a rail or a supply, by the branch that its premises choose (R473 to R490). -/
theorem railAndSupplyEventsComplete : Obligations.RailAndSupplyEventsComplete := by
  refine ⟨fun r k s hedge hmode => ⟨fun hrole => ?edgeUnused, fun h0 h11 hen => ?edgeOff, fun h0 h11 hen hmany => ?chatter,
      fun h0 h11 hen hfew hk hgood => ?pgFalls⟩,
    fun r s hen hgood hnow => ?settled, fun q r s hq hup hen hgood hdue => ?timeout, fun q r s hq hdue => ?downTimeout,
    fun codes s hall => ?sample, fun codes r v s hhits hfault => ?sampleFault, fun n s hn hmode hdue hpwr hbar => ?retry,
    fun n u s hn hdue hu => ⟨fun hent => ?holdEnds, fun hent => ?holdDown⟩,
    fun u s hpwr hdrain hu => ⟨fun hauto => ?clear, fun hauto hmode hseq => ?clearOn⟩,
    fun u s hu => ⟨fun hdrain => ?vaux, fun d v hdrain hv => ?vauxDrain⟩,
    fun v a s hboth => ⟨fun haon => ?removed, fun haon => ?removedAon⟩,
    fun h0 h1 sb st u s hmode hu => ⟨fun hauto => ?aonOn, fun hauto => ?aon⟩⟩
  case edgeUnused =>
    change execRailPgEdge r k s = _
    rw [execRailPgEdge]
    dsimp only
    rw [if_neg (not_or.mpr ⟨hedge, hmode⟩), if_pos hrole]
  case edgeOff =>
    rw [railPgEdge_used hedge hmode h0 h11, hen]
    rfl
  case chatter =>
    rw [railPgEdge_used hedge hmode h0 h11, hen, decide_eq_true hmany]
    rfl
  case pgFalls =>
    rw [railPgEdge_used hedge hmode h0 h11, hen, decide_eq_false (Nat.not_lt.mpr hfew), hgood, hk]
    rfl
  case settled =>
    exact congrArg _ (if_pos (by rw [hen, hgood, hnow]; rfl))
  case timeout =>
    change execRailTimeout r s = _
    rw [execRailTimeout, hq]
    exact if_pos (by rw [hup, hen, hgood, hdue]; rfl)
  case downTimeout =>
    change execDownTimeout r s = _
    rw [execDownTimeout, hq]
    exact if_pos hdue
  case sample =>
    change execRailAdcSample codes s = _
    rw [execRailAdcSample, no_sampleFaults hall]
    rfl
  case sampleFault =>
    change execRailAdcSample codes s = _
    rw [execRailAdcSample, hhits]
    simp [hfault]
  case retry =>
    change execSafeOffRetry s = _
    rw [execSafeOffRetry, hn]
    exact if_pos ⟨hmode, hdue, hpwr, hbar⟩
  case holdEnds =>
    change execFabricHoldExpiry s = _
    rw [execFabricHoldExpiry, hn]
    dsimp only
    rw [if_neg (by omega), ← hu, if_neg hent]
  case holdDown =>
    change execFabricHoldExpiry s = _
    rw [execFabricHoldExpiry, hn]
    dsimp only
    rw [if_neg (by omega), ← hu, if_pos hent]
  case clear =>
    change execPowerFailClear s = _
    rw [execPowerFailClear, if_neg (by simp [hpwr, hdrain])]
    dsimp only
    rw [hauto, if_pos (by rfl), hu]
  case clearOn =>
    change execPowerFailClear s = _
    rw [execPowerFailClear, if_neg (by simp [hpwr, hdrain])]
    dsimp only
    rw [hauto, if_neg (by decide), if_pos ⟨hmode, by rw [hseq]; rfl⟩, hu]
  case vaux =>
    change execVauxLowDetect s = _
    rw [execVauxLowDetect]
    dsimp only
    rw [hdrain, hu]
  case vauxDrain =>
    change execVauxLowDetect s = _
    rw [execVauxLowDetect]
    dsimp only
    rw [hdrain, hv, hu]
  case removed => exact (if_neg (ne_true_of_eq_false hboth)).trans (if_pos haon)
  case removedAon => exact (if_neg (ne_true_of_eq_false hboth)).trans (if_neg (ne_true_of_eq_false haon))
  case aonOn =>
    change execAlwaysOnResetRelease h0 h1 sb st s = _
    rw [execAlwaysOnResetRelease, if_neg (Classical.not_not.mpr hmode), ← hu]
    exact if_pos hauto
  case aon =>
    change execAlwaysOnResetRelease h0 h1 sb st s = _
    rw [execAlwaysOnResetRelease, if_neg (Classical.not_not.mpr hmode), ← hu]
    exact if_neg (ne_true_of_eq_false hauto)

/-! ### Power states -/

/-- No transition is under way (R491). -/
structure PowerSettled (s : State) : Prop where
  drain : drainRunning s = false
  seq : s.power.seq = none
  entering : s.power.entering = none
  hold : s.power.hold = none
  exiting : s.power.exiting = false

/-- A power state is set when no transition is under way (R492). -/
theorem setPowerState_of_settled {target : Nat} {s : State} (h : PowerSettled s) (ht : target = 0 ∨ target = 2 ∨ target = 3) :
    setPowerState target s = if target = 0 then
        match s.power.mode with
        | .dormant => .done .none (exitDormant 0 s)
        | .idle => .done .none (setMode .active 0 s)
        | _ => .done .none s
      else if target = 2 ∧ s.power.mode = .dormant then .done .none s
      else .done .none (beginEntry target 0 s) := by
  obtain ⟨hdrain, hseq, hent, hhold, hexit⟩ := h
  exact (if_neg (by omega)).trans (if_neg (by simp [hdrain, hseq, hent, hhold, hexit]))

theorem wake_settled {s : State} (hent : s.power.entering = none) (hseq : s.power.seq = none) (source : Nat) :
    (s.power.mode = .dormant → wake source s = exitDormant 5 s) ∧
      (s.power.mode = .standby → s.therm.barred = false → wake source s = startPowerUp 5 s) := by
  refine ⟨fun hmode => ?_, fun hmode hbar => ?_⟩
  · rw [wake, if_neg (by simp [hent, hseq]), hmode]
  · rw [wake, if_neg (by simp [hent, hseq]), hmode]
    dsimp only
    rw [if_neg (ne_true_of_eq_false hbar)]

/-- Settles O36: each change of the power state and each power command, by the branch that its premises choose (R491 to
R495). -/
theorem powerStateCommandsComplete : Obligations.PowerStateCommandsComplete := by
  refine ⟨fun s hmode hseq hent hdue => ?idle, fun s hmode => if_pos hmode, fun s hmode hauto hent hdrain hquiet hdue => ?dormant,
    fun s hmode => if_pos hmode, fun x s hmode hent hseq => ?wakeDormant,
    fun x s hmode hent hseq hbar => ?wakeStandby, fun c s h hlimit => ?state,
    fun c s h hdrain hseq hent hhold hexit => ⟨fun hmode => ?toActive, fun hmode => ?leavesDormant, fun hmode => ?toDormant,
      fun hmode => ?staysDormant, ?toStandby⟩,
    fun c s h hdrain => ?busy, fun c inp s h hlen hok => ?policy, fun c inp s h hlen hsel hlimit => ?program,
    fun c inp s h hlen hok => ?setProgram, fun c inp s h hlen hbad => ?badProgram, fun c s h hlimit => ?rails,
    fun c s h => ?clear⟩
  case idle => exact if_pos ⟨hmode, by rw [hseq]; rfl, by rw [hent]; rfl, hdue⟩
  case dormant => exact if_pos ⟨hmode, hauto, by rw [hent]; rfl, hdrain, hquiet, hdue⟩
  case wakeDormant =>
    change Host.Outcome.next (wake x s) = _
    rw [(wake_settled hent hseq x).1 hmode]
  case wakeStandby =>
    change Host.Outcome.next (wake x s) = _
    rw [(wake_settled hent hseq x).2 hmode hbar]
  case state =>
    exact vendor_done (r := execGetPowerState c [] s) rfl h rfl rfl rfl (by simpa [outLen] using hlimit)
  case toActive =>
    refine vendor_done_none (r := execSetPowerStateActive c [0] s) rfl h rfl rfl ?_
    rw [show byteAt [0] 0 = 0 from rfl, setPowerState_of_settled ⟨hdrain, hseq, hent, hhold, hexit⟩ (.inl rfl), hmode]
    rfl
  case leavesDormant =>
    refine vendor_done_none (r := execSetPowerStateActive c [0] s) rfl h rfl rfl ?_
    rw [show byteAt [0] 0 = 0 from rfl, setPowerState_of_settled ⟨hdrain, hseq, hent, hhold, hexit⟩ (.inl rfl), hmode]
    rfl
  case toDormant =>
    refine vendor_done_none (r := execSetPowerStateDormant c [2] s) rfl h rfl rfl ?_
    rw [show byteAt [2] 0 = 2 from rfl, setPowerState_of_settled ⟨hdrain, hseq, hent, hhold, hexit⟩ (.inr (.inl rfl)), hmode]
    rfl
  case staysDormant =>
    refine vendor_done_none (r := execSetPowerStateDormant c [2] s) rfl h rfl rfl ?_
    rw [show byteAt [2] 0 = 2 from rfl, setPowerState_of_settled ⟨hdrain, hseq, hent, hhold, hexit⟩ (.inr (.inl rfl)), hmode]
    rfl
  case toStandby =>
    refine vendor_done_none (r := execSetPowerStateStandby c [3] s) rfl h rfl rfl ?_
    rw [show byteAt [3] 0 = 3 from rfl, setPowerState_of_settled ⟨hdrain, hseq, hent, hhold, hexit⟩ (.inr (.inr rfl))]
    rfl
  case busy =>
    refine vendor_fail (r := execSetPowerStateStandby c [3] s) rfl h rfl rfl ?_
    rw [setPowerState, hdrain]
    rfl
  case policy =>
    refine vendor_commit (r := execSetPowerPolicy c inp s) rfl h hlen rfl ?_
    rw [powerPolicyRec, if_pos hok]
    exact storeSetting_some ..
  case program =>
    refine vendor_done (r := execGetSequencerProgram c inp s) rfl h hlen rfl ?_ hlimit
    rw [if_neg (by omega), if_neg (by omega), answer]
  case setProgram =>
    refine vendor_commit (r := execSetSequencerProgram c inp s) rfl h hlen rfl ?_
    rw [programRec, if_pos hok]
    exact storeSetting_some ..
  case badProgram =>
    refine vendor_fail (r := execSetSequencerProgram c inp s) rfl h hlen rfl ?_
    rw [programRec, if_neg (ne_true_of_eq_false hbad)]
    rfl
  case rails =>
    refine vendor_answers (r := execGetRailStatus c [] s) rfl h rfl rfl rfl ?_ hlimit
    rw [List.length_append, length_flatMap_const (k := 8) (fun r => by simp), length_flatMap_const (k := 2) (fun r => leBytes_length ..)]
    rfl
  case clear => exact vendor_done_none (r := execClearRailFaults c [] s) rfl h rfl rfl rfl

end Sys2Proof.Machine

/-!
The thermal policy (R496 to R511) and the phases of a start (R577 to R583): the branch of each event and command.
-/
namespace Sys2Proof.Machine
open Sys2Proof.Safety

/-! ### Temperatures -/

/-- Settles O37: each sample, hold and command of the thermal policy, by the branch that its premises choose (R496 to R511). -/
theorem thermalCommandsComplete : Obligations.ThermalCommandsComplete := by
  refine ⟨fun d x s => rfl, fun n mv u s hmask hu => ⟨fun hmode => ?active, fun v hmode hv hwake => ?wakes⟩,
    fun n mv s hmask => if_pos hmask, fun n x s hgood hbroken hdue => ?recovered, fun z x s hbelow hdue hlo hhi => ?falls,
    fun ds x s hpause hdue => ?pause, fun d s hmode => ⟨fun hdrain => ?trip, fun hdrain => ?tripDrain⟩,
    fun n u s hcool hbarred hmode hdue hu => ⟨fun hheld => ?held, fun hheld hauto hfew => ?auto, fun hheld hauto => ?stays⟩,
    fun s => rfl, fun c s h hlimit => ?state, fun c inp s h hlen hok => ?policy, fun c s h hlimit => ?history⟩
  case active =>
    change execNtcSample n mv s = _
    rw [execNtcSample, if_neg (by omega)]
    dsimp only
    rw [← hu, if_neg (by simp [hmode])]
  case wakes =>
    have hnot : ∀ b : Bool, ((u.power.mode = .standby ∨ u.power.mode = .dormant) ∧ (true && b) = true) ↔ b = true := fun b => by
      rw [Bool.true_and]
      exact and_iff_right hmode
    change execNtcSample n mv s = _
    rw [execNtcSample, if_neg (by omega)]
    dsimp only
    rw [← hu, hv]
    dsimp only
    rw [decide_eq_true hwake]
    by_cases hhot : (16 * u.therm.policy.ntcWake : Int) < v
    · rw [if_pos ((hnot _).mpr (decide_eq_true hhot)), if_pos hhot]
    · rw [if_neg (fun h => hhot (of_decide_eq_true ((hnot _).mp h))), if_neg hhot]
  case recovered =>
    change execSensorRecovered n s = _
    rw [execSensorRecovered]
    dsimp only
    rw [hgood]
    exact if_pos ⟨hbroken, hdue⟩
  case falls =>
    change execZoneFallHoldExpiry z s = _
    rw [execZoneFallHoldExpiry, hbelow]
    exact if_pos ⟨hdue, hlo, hhi⟩
  case pause =>
    change execProgramPauseEnd ds s = _
    rw [execProgramPauseEnd]
    dsimp only
    rw [hpause]
    exact if_pos hdue
  case trip =>
    change execThermtrip d s = _
    rw [execThermtrip, if_neg hmode]
    dsimp only
    rw [if_neg (ne_true_of_eq_false hdrain)]
  case tripDrain =>
    change execThermtrip d s = _
    rw [execThermtrip, if_neg hmode]
    dsimp only
    rw [if_pos hdrain]
  case held =>
    change execThermalRestart s = _
    rw [execThermalRestart, hcool]
    dsimp only
    rw [if_pos ⟨hbarred, hmode, hdue⟩, if_pos hheld, hu]
  case auto =>
    subst hu
    change execThermalRestart s = _
    rw [execThermalRestart, hcool]
    dsimp only
    rw [if_pos ⟨hbarred, hmode, hdue⟩, if_neg (ne_true_of_eq_false hheld)]
    exact if_pos ⟨hauto, hfew⟩
  case stays =>
    change execThermalRestart s = _
    rw [execThermalRestart, hcool]
    dsimp only
    rw [if_pos ⟨hbarred, hmode, hdue⟩, if_neg (ne_true_of_eq_false hheld), if_neg (fun h => ne_true_of_eq_false hauto h.1), hu]
  case state =>
    refine vendor_answers (r := execGetThermalState c [] s) rfl h rfl rfl rfl ?_ hlimit
    rw [List.length_append, length_flatMap_const (k := 4) (fun i => leBytes_length ..)]
    simp [length_flatMap_const (k := 1) (fun _ => leBytes_length 1 _)]
  case policy =>
    refine vendor_commit (r := execSetThermalPolicy c inp s) rfl h hlen rfl ?_
    rw [thermPolicyRec, if_pos hok]
    exact storeSetting_some ..
  case history =>
    refine vendor_answers (r := execGetTemperatureHistory c [] s) rfl h rfl rfl rfl ?_ hlimit
    simp only [List.length_append, leBytes_length]
    rw [length_flatMap_const (k := 144) (fun z => by
      simp only [List.length_append, leBytes_length, zeros_length, length_flatMap_const (k := 8) (fun _ => leBytes_length 8 _)]
      rfl), length_flatMap_const (k := 16) (fun l => by simp)]
    rfl

/-! ### The start -/

/-- Settles O38: each phase that an event drives, with the phases before it done (R577 to R583, Table 20-1). -/
theorem startPhasesComplete : Obligations.StartPhasesComplete := by
  refine ⟨fun u s h5 h6 hrec hrun hu => ⟨fun hring => ?portEn, fun hring => ?elect⟩, fun s h6 h13 hmay => ?bank,
    fun s h11 h12 h13 h14 hheld hmode hroom => ?front, fun n s hn h11 h12 h13 h14 hheld hmode hroom hdue => ?timeout⟩
  case portEn =>
    change execShutdownClassDecide s = _
    rw [execShutdownClassDecide, if_neg (by rw [h5, h6, hrec, hrun]; decide), ← hu]
    dsimp only
    rw [if_neg (ne_true_of_eq_false hring)]
  case elect =>
    change execShutdownClassDecide s = _
    rw [execShutdownClassDecide, if_neg (by rw [h5, h6, hrec, hrun]; decide), ← hu]
    dsimp only
    rw [if_pos hring]
  case bank => exact if_pos (by rw [h6, h13, hmay]; rfl)
  case front =>
    change execStartFrontEnable s = _
    rw [execStartFrontEnable]
    rw [if_neg (by rw [h11, h12, h13, h14, hheld, hmode, hroom]; decide)]
  case timeout =>
    change execFrontEnableTimeout s = _
    rw [execFrontEnableTimeout, hn]
    dsimp only
    rw [if_neg (by rw [h11, h12, h13, h14, hheld, hmode, hroom]; simp; omega)]

end Sys2Proof.Machine
